-- ==== Sys2Proof/Word.lean ====
section
/-! DEFINITION. The word types of the SH9600 model and their plainest arithmetic: 32-bit register words, 128 B lines,
64-lane vector registers, and the two plain-data containers (a table of units by number, a memory of bytes). -/

namespace Sys2Proof

/-- A BAR0 register word (R5). -/
abbrev Word := BitVec 32

/-- One 128 B line; byte `b` is bits `8b+7 … 8b` (R5, R63). -/
abbrev Line := BitVec 1024

/-- One vector register; lane `i` is bits `32i+31 … 32i` (R158). -/
abbrev VReg := BitVec 2048

/-- Units, registers or records by number, in strictly rising order of the number; a number that is not
listed stands for the default its reader names. -/
abbrev Table (α : Type) := List (Nat × α)

/-- Bytes by address, in strictly rising order of the address; an address that is not listed reads as zero. -/
abbrev Mem := List Host.Cell

/-- The bit field `[hi:lo]` of a register word as a number (R5). -/
def field (w : BitVec n) (hi lo : Nat) : Nat := (w.toNat >>> lo) % 2 ^ (hi + 1 - lo)

/-- Bit `i` of a word. -/
def bitOf (w : BitVec n) (i : Nat) : Bool := w.getLsbD i

/-- `a div b`, rounded up. -/
def ceilDiv (a b : Nat) : Nat := (a + b - 1) / b

/-- The value of `x` brought into `lo … hi` (the clamped fields of the register tables). -/
def clampNat (lo hi x : Nat) : Nat := max lo (min hi x)

/-- Modular difference of two counts of width `w` (R535). -/
def mdiff (w a b : Nat) : Nat := (a + 2 ^ w - b % 2 ^ w) % 2 ^ w

end Sys2Proof
end

