-- ==== Sys2Proof/Syntax.lean ====
section
/-! DEFINITION. The commands of the block as data: the operand records, and `Instr`, one constructor per row of
spec/opcode_table.json. -/

namespace Sys2Proof

/-- Who issues an operation (R572, issuer): kind 0 = cluster (`idx` logical cluster), 1 = host (`idx` host index),
2 = dispatcher (`idx` partition), 3 = driver or RoT. `tag` and `cls` are the request's TAG and CLASS (R63), kept for its answer (R66, R423),
`port` the port it came in by, `chan` the DMA channel, `sig` the synchronization object whose signal rides on the packet (R146). -/
structure Origin where
  kind : BitVec 2
  idx  : Nat
  tag  : BitVec 14
  port : Nat
  chan : Nat
  sig  : Option Nat
  cls  : BitVec 2
  deriving DecidableEq, Repr

/-- A request (R63), its data and mask. `srcKind`/`src` of the route header are the `Origin` beside it. -/
structure Req where
  op    : BitVec 6
  dst   : BitVec 18
  src   : BitVec 18
  tag   : BitVec 14
  pleat : BitVec 3
  hint  : BitVec 2
  cls   : BitVec 2
  ce    : Bool
  pla   : BitVec 40
  mask  : BitVec 128
  data  : Line
  poison : Bool
  deriving DecidableEq, Repr

/-- A snoop response (R65), the responding endpoint already matched to host index `h`. -/
structure SnpResp where
  h        : Nat
  tag      : BitVec 16
  dirty    : Bool
  retained : Bool
  data     : Line
  deriving DecidableEq, Repr

/-- A completion to a host (R66): `ep` is its endpoint and `src` the partition's, `host` its index, 4096 where the host table has none; `cls`
is the CLASS of the request it answers (R423). -/
structure Cmp where
  p : Nat
  host : Nat
  ep : BitVec 18
  src : BitVec 18
  port : Nat
  op : BitVec 6
  grant : BitVec 2
  poison : Bool
  ce : Bool
  reason : BitVec 4
  tag : BitVec 14
  backoff : BitVec 16
  order : BitVec 48
  cls : BitVec 2
  data : Line
  deriving DecidableEq, Repr

/-- A flit (R367, R368): the fields of its link header, its 15 payload slots and its CRC. A slot that is not listed is zero. -/
structure Flit where
  seq : BitVec 16
  ack : BitVec 16
  crd : BitVec 16
  crdVc : BitVec 2
  kind : BitVec 2
  vc : BitVec 2
  first : BitVec 4
  replayReq : Bool
  retx : Bool
  resv : BitVec 4
  slots : List (BitVec 128)
  crc : BitVec 64
  deriving DecidableEq, Repr

/-- Kinds of mesh traffic (R394): requests of R62 with their data, PUSH data, sync-port requests, doorbells and window writes, descriptor
reads and work items, seal and retire markers; snoops and the commit markers of plane A; snoop responses and CmpAck, answers of homes to
edge units; completions and read data, sync-port answers, fault events, and the commit markers of plane B. -/
inductive Traffic where
  | request | push | syncReq | windowWrite | dispatch | marker
  | snoop | commitA
  | snpResp | homeAnswer
  | completion | syncAns | faultEvent | commitB
  deriving DecidableEq, Repr

/-- One leaf of a multicast tree (R406): kind 0 tile, 1 home, 2 edge unit, 3 port with its host indexes. -/
structure Leaf where
  kind : BitVec 2
  idx : Nat
  hosts : List Nat
  deriving DecidableEq, Repr, Inhabited

/-- A mesh packet at a router: its route header (R395), where SEL is `key` mod 5 (R397: the line, object or origin number, or the SEL that
an answer copies), what it carries, its CE bit, the input it waits at (0–3 = north, east, south, west, 4 = local), and, for the copy of a
multicast that goes on as a unicast, the leaf it is for (R406). -/
structure MeshPkt where
  tr : Traffic
  dst : Nat
  kind : BitVec 2
  key : Nat
  epoch : Bool
  esc : Bool
  tree : Nat
  ackReq : Bool
  src : Nat
  srcKind : BitVec 2
  inp : Nat
  ce : Bool
  leaf : Option Leaf
  deriving DecidableEq, Repr

/-- A REPL packet (R441): order number, sender's cuff epoch, and the carried request, whose host the peer finds by its SRC_EP. -/
structure ReplPkt where
  order : BitVec 48
  epoch : BitVec 32
  q : Req
  deriving DecidableEq, Repr

/-- What a state block of a resync carries (R450 step 1): the cuff epoch, an object, a ring page, a region, a slot, an open record, a
dedupe entry, or the end of the stream. Its bytes are internal to the device (R441), so the block is its content. -/
inductive StateBlk where
  | epoch (e : BitVec 32)
  | obj (o mode : Nat) (produced consumed : BitVec 64) (param round : BitVec 32) (arr0 arr1 : BitVec 16) (bm0 bm1 : BitVec 64)
  | ring (r st : Nat) (stop : BitVec 4) (ctrl tmo : BitVec 32) (cmdBase cplBase : BitVec 40) (tail head done cplAck : BitVec 32)
  | region (r working : Nat) (newest : Option Nat) (newestVer : BitVec 32)
  | slot (r s st : Nat) (ver : BitVec 32) (parent : Option Nat)
  | opened (h r s : Nat)
  | dedupe (h : Nat) (tag : BitVec 14) (order : BitVec 48) (op : BitVec 6)
  | fin
  deriving DecidableEq, Repr, Inhabited

/-- An RSYNC packet (R441): a state block with its index, or a line with pleat slot and PLA. -/
structure RsyncPkt where
  order : BitVec 48
  blk : Option StateBlk
  block : BitVec 32
  slot : BitVec 3
  pla : BitVec 40
  data : Line
  deriving DecidableEq, Repr

/-- What a packet for a port's egress carries: a completion (R66), a snoop (R64), an MGT packet with its payload slots (R372), or a packet
of the mirror link (R441). -/
inductive EgBody where
  | cmp (c : Cmp)
  | snoop (dst src : BitVec 18) (inv salvage : Bool) (pla : BitVec 40) (tag : BitVec 16)
  | mgt (typ : BitVec 4) (dst src : BitVec 18) (payload : List (BitVec 128))
  | repl (ep : BitVec 18) (k : ReplPkt)
  | replAck (ep : BitVec 18) (order : BitVec 48) (answer : BitVec 6)
  | rsync (ep : BitVec 18) (k : RsyncPkt)
  deriving DecidableEq, Repr

/-- A packet for a port's egress (R422, R423): its partition and the packet. -/
structure EgPkt where
  ptn : Nat
  body : EgBody
  deriving DecidableEq, Repr

/-- A line access that the home agent asks of its HBM controller (R269, R270): the stack address before retirement — the stack-local data
offset of a data line, or 0xE_0000_0000 plus the offset in the system-area window — and the page hint (R278). -/
structure HbmReq where
  addr : Nat
  hint : BitVec 2
  deriving DecidableEq, Repr

/-- A line returned to its home (R297, R298): the line's PPA, the 144 symbols read, and the source of R323 (0 demand, 1 patrol, 2 copy,
3 sweep). -/
structure HbmData where
  ppa : BitVec 40
  word : BitVec 1152
  source : Nat
  deriving DecidableEq, Repr

/-- The end of a training run (R291–R293): errors counted, by lane, where there were any; a parity error during it, and the alert latency
that a command/address run measures; `report` = the firmware reports the stack's training done after it (R292 step 8). -/
structure TrnReport where
  errs : List (Nat × Nat)
  alert : Bool
  alertLat : BitVec 8
  report : Bool
  deriving DecidableEq, Repr

/-- One row read by an SRAM scrubber (R312): SRAM class (0 local store, 1 directory, 2 line store, 3 port buffers; 4 a vector register and 5
an accumulator row, which are not scrubbed but checked when they are read), unit,
bank, row, what it found (0 clean, 1 corrected, 2 uncorrectable), in a line-store tag or not, and the lap length when the
row ends a lap. -/
structure ScrubRow where
  cls : Nat
  unit : Nat
  bank : Nat
  row : Nat
  found : BitVec 2
  tagHit : Bool
  lap : Option (BitVec 24)
  deriving DecidableEq, Repr

/-- Temperatures of one sample in °C (R499): of the die by sensor (tiles 0–839, edge stops 840–855, control island 856), by stack, by
optical engine. A sensor that is not listed reads 0. -/
structure Temps where
  die : List Nat
  hbm : List Nat
  optics : List Nat
  deriving DecidableEq, Repr

/-- A ring page as a host addresses it (R201): partition, ring, the writing host and its TAG, whether the four bytes of
the register are enabled in full (R203). -/
structure RingAddr where
  p : Nat
  r : Nat
  o : Origin
  whole : Bool
  deriving DecidableEq, Repr

/-- A register as software addresses it (R548, R551): space 0 = BAR0 by PCIe, 1 = BAR2, 2 = BAR0 by I3C, 3 = tenant window
of partition `p` by the host `o`. -/
structure RegAddr where
  space : BitVec 2
  off : BitVec 26
  p : Nat
  o : Origin
  whole : Bool
  deriving DecidableEq, Repr

/-- A response to a DMA request (R143, R145): opcode of R62, TAG of the request (R66), line PLA, data, poison, mark, nack reason and back-off. -/
structure DmaResp where
  op : BitVec 6
  tag : BitVec 14
  pla : BitVec 40
  data : Line
  poison : Bool
  ce : Bool
  fault : BitVec 16
  backoff : BitVec 16
  deriving DecidableEq, Repr

/-- One PUSH packet (R147): source tile and channel, TAG, destination local-store address, bytes, poison, mark, the
signal's object on the last, and the unit whose partial results it carries (R233). -/
structure PushPkt where
  src : Nat
  chan : Nat
  tag : BitVec 14
  addr : Nat
  bytes : List (BitVec 8)
  poison : Bool
  ce : Bool
  sig : Option Nat
  part : Option Nat
  deriving DecidableEq, Repr

/-- One partition of a Kotik image (R38, R474). -/
structure ImgPtn where
  p : Nat
  endpoint : BitVec 18
  quota : Nat
  groupBase : Nat
  groupCount : Nat
  syncBase : Nat
  syncCount : Nat
  snapBase : Nat
  snapCount : Nat
  clusters : List Nat
  rate : Nat
  burst : Nat
  watts : Nat
  ueTrap : Bool
  mirrored : Bool
  mirrorPort : Nat
  deriving DecidableEq, Repr, Inhabited

/-- A detour entry of one router, plane and epoch (R398). -/
structure Detour where
  router : Nat
  planeB : Bool
  xLo : Nat
  xHi : Nat
  yLo : Nat
  yHi : Nat
  inMask : BitVec 5
  out : Nat
  deriving DecidableEq, Repr, Inhabited

/-- The image-set part of a route set (R402): detours, VE outputs as (router, plane B, target, output), VE levels (R400),
tree outputs as (router, plane B, tree, mask), tree leaves, and the port of the mirror peer. -/
structure Routes where
  detours : List Detour
  ve : List (Nat × Bool × Nat × Nat)
  levels : List Nat
  trees : List (Nat × Bool × Nat × BitVec 5)
  leaves : List (Bool × Nat × List Leaf)
  peerPort : Nat
  deriving DecidableEq, Repr, Inhabited

/-- A Kotik image as its header and sections set it (R473, R474), and the SHA-256 of its body (R333). -/
structure Image where
  tuning : Bool
  parts : BitVec 3
  imageId : BitVec 32
  baseId : BitVec 32
  k : Nat
  ptns : List ImgPtn
  minWidth : List (BitVec 2)
  mirrorRole : BitVec 8
  required : BitVec 8
  masks : List (BitVec 40)
  dbi : Bool
  rfm : Bool
  par : Bool
  bus : List (BitVec 2)
  routes : Option Routes
  traffic : List (BitVec 26 × BitVec 32)
  settings : List (BitVec 26 × BitVec 32)
  digest : BitVec 256
  deriving DecidableEq, Repr, Inhabited

/-- The fields of a YK instruction word beside CLASS and the low bits of OP (R162): `rep` is OP[7], the
immediate form of classes 0 and 4. -/
structure YkF where
  rep : Bool
  d : BitVec 5
  a : BitVec 5
  b : BitVec 5
  c : BitVec 5
  imm : BitVec 32
  deriving DecidableEq, Repr

/-- The commands of the block: one constructor per row of spec/opcode_table.json, in its order. The YK rows carry
the tile that executes them and the fields of the instruction word (R162). -/
inductive Instr where
  /-- POWER_ON (R560). -/
  | powerOn
  /-- RESET_N_ASSERT (R509). -/
  | resetNAssert
  /-- RESET_N_RELEASE (R514). -/
  | resetNRelease
  /-- RST_CHIP (R509). -/
  | rstChip (key : BitVec 32)
  /-- CHIP_RESET_QUIESCE_DONE (R509). -/
  | chipResetQuiesceDone
  /-- FIRMWARE_START (R330). -/
  | firmwareStart
  /-- KAT_DONE (R520). -/
  | katDone (cls idx stage : Nat)
  /-- SYSTEM_AREA_TEST_DONE (R522). -/
  | systemAreaTestDone (e : Nat) (badSpares : List Nat) (otherBad : Bool)
  /-- READINESS (R525). -/
  | readiness
  /-- READINESS_TIMEOUT (R527). -/
  | readinessTimeout
  /-- STEP_COMPLETE_REPORT (R25). -/
  | stepCompleteReport (p mgr : Nat)
  /-- LINING_LINE (R348). -/
  | liningLine (e p : Nat)
  /-- REGISTER_WRITE (R6). -/
  | registerWrite (a : RegAddr) (w : BitVec 32)
  /-- RC_READ (R6). -/
  | rcRead (bar2 : Bool) (off : BitVec 26) (wide : Bool)
  /-- TICK_LO_READ (R531). -/
  | tickLoRead (wide : Bool)
  /-- EVC_LO_READ (R538). -/
  | evcLoRead (off : BitVec 26) (wide : Bool)
  /-- EVC_CLEAR (R538). -/
  | evcClear (off : BitVec 26) (events : Nat)
  /-- EVC_HOLD (R538). -/
  | evcHold (on : Bool)
  /-- BAR0_ACCESS_TIMEOUT (R483). -/
  | bar0AccessTimeout (off : BitVec 26) (write : Bool)
  /-- PERST_N (R564). -/
  | perstN
  /-- FLR (R482). -/
  | flr
  /-- DOE_REQUEST (R335). -/
  | doeRequest (vendor : BitVec 16) (typ : BitVec 8) (nonce : BitVec 256)
  /-- I3C_SET_OFFSET (R485). -/
  | i3cSetOffset (w : BitVec 32)
  /-- I3C_PRIVATE_READ (R485). -/
  | i3cPrivateRead
  /-- I3C_PRIVATE_WRITE (R485). -/
  | i3cPrivateWrite (off w : BitVec 32)
  /-- ENTDAA (R484). -/
  | entdaa (addr : BitVec 7)
  /-- RSTDAA (R484). -/
  | rstdaa
  /-- GETPID (R484). -/
  | getpid
  /-- GETBCR (R484). -/
  | getbcr
  /-- GETDCR (R484). -/
  | getdcr
  /-- GETSTATUS (R484). -/
  | getstatus
  /-- ENEC (R484). -/
  | enec (ev : BitVec 8)
  /-- DISEC (R484). -/
  | disec (ev : BitVec 8)
  /-- SETMWL (R484). -/
  | setmwl (len : BitVec 16)
  /-- GETMWL (R484). -/
  | getmwl
  /-- SETMRL (R484). -/
  | setmrl (len : BitVec 16)
  /-- GETMRL (R484). -/
  | getmrl
  /-- MAILBOX_GO (R467). -/
  | mailboxGo (ch : Nat) (o : Origin)
  /-- UNLISTED_REQUEST (R466). -/
  | unlistedRequest (ch : Nat)
  /-- EXT_MAP (R51). -/
  | extMap (ch : Nat)
  /-- EXT_GRANT (R51). -/
  | extGrant (ch : Nat)
  /-- EXT_REVOKE (R58). -/
  | extRevoke (ch : Nat)
  /-- EXT_UNMAP (R51). -/
  | extUnmap (ch : Nat)
  /-- HOST_ADMIT (R51). -/
  | hostAdmit (ch : Nat)
  /-- HOST_REMOVE (R51). -/
  | hostRemove (ch : Nat)
  /-- HOST_FENCE (R88). -/
  | hostFence (ch : Nat)
  /-- SNAP_CREATE (R94). -/
  | snapCreate (ch : Nat)
  /-- SNAP_DESTROY (R116). -/
  | snapDestroy (ch : Nat)
  /-- SYNC_SET (R264). -/
  | syncSet (ch : Nat)
  /-- PAGE_RETIRE (R314). -/
  | pageRetire (ch : Nat)
  /-- RETIRE_LINE_COPY (R314). -/
  | retireLineCopy (e : Nat) (w : BitVec 1152)
  /-- ROTATE (R344). -/
  | rotate (ch : Nat)
  /-- PTN_LINE (R349). -/
  | ptnLine (ch : Nat)
  /-- CONSENT (R353). -/
  | consent (ch : Nat)
  /-- ATTEST (R336). -/
  | attest (ch : Nat)
  /-- ATTEST_SIGN_DONE (R336). -/
  | attestSignDone
  /-- REPORT_CHUNK (R468). -/
  | reportChunk (ch : Nat)
  /-- SVN_COMMIT (R329). -/
  | svnCommit (ch : Nat)
  /-- UNIT_STATE (R457). -/
  | unitState (ch : Nat)
  /-- FLASH_ERASE (R472). -/
  | flashErase (ch : Nat) (err : Bool)
  /-- FLASH_WRITE (R472). -/
  | flashWrite (ch : Nat) (err : Bool)
  /-- FLASH_READ (R472). -/
  | flashRead (ch : Nat) (err : Bool)
  /-- IMAGE_TUNE (R478). -/
  | imageTune (ch : Nat)
  /-- IMAGE_RECONFIG (R479). -/
  | imageReconfig (ch : Nat)
  /-- IMAGE_SELECT (R477). -/
  | imageSelect (ch : Nat)
  /-- ECHO (R464). -/
  | echo (ch : Nat)
  /-- GRANT_EXPIRY (R54). -/
  | grantExpiry (p i : Nat)
  /-- QUEUED_REVOCATION_START (R55). -/
  | queuedRevocationStart (p : Nat)
  /-- EXTENT_ENTRY_INSTALL (R56). -/
  | extentEntryInstall (e p i : Nat)
  /-- COMMIT_MARKER (R57). -/
  | commitMarker (n e : Nat) (seq : BitVec 32) (planeB : Bool)
  /-- REQUEST_INGRESS (R42). -/
  | requestIngress (n : Nat) (q : Req) (elapsed : Nat)
  /-- RDSHARED (R82). -/
  | rdShared (e : Nat) (o : Origin) (q : Req)
  /-- RDOWN (R82). -/
  | rdOwn (e : Nat) (o : Origin) (q : Req)
  /-- RDONCE (R82). -/
  | rdOnce (e : Nat) (o : Origin) (q : Req)
  /-- UPGRADE (R82). -/
  | upgrade (e : Nat) (o : Origin) (q : Req)
  /-- WRFULL (R82). -/
  | wrFull (e : Nat) (o : Origin) (q : Req)
  /-- WRPART (R82). -/
  | wrPart (e : Nat) (o : Origin) (q : Req)
  /-- DIRTYEVICT (R82). -/
  | dirtyEvict (e : Nat) (o : Origin) (q : Req)
  /-- RESERVED_REQUEST (R62). -/
  | reservedRequest (e : Nat) (o : Origin) (q : Req)
  /-- SNPACKI (R75). -/
  | snpAckI (e : Nat) (r : SnpResp)
  /-- SNPACKS (R75). -/
  | snpAckS (e : Nat) (r : SnpResp)
  /-- SNPACKDATA (R75). -/
  | snpAckData (e : Nat) (r : SnpResp)
  /-- CMPACK (R74). -/
  | cmpAck (e h : Nat) (tag : BitVec 14)
  /-- SNOOP_TIMEOUT (R81). -/
  | snoopTimeout (e : Nat) (snpTag : BitVec 16)
  /-- SALVAGE_TIMEOUT (R90). -/
  | salvageTimeout (e : Nat) (snpTag : BitVec 16)
  /-- FENCE_APPLY (R88). -/
  | fenceApply (cls idx h : Nat)
  /-- FENCE_WALK_DONE (R89). -/
  | fenceWalkDone (h : Nat)
  /-- RECALL_WALK_DONE (R87). -/
  | recallWalkDone (e p : Nat)
  /-- FAULT_EVENT (R307). -/
  | faultEvent (p cause : Nat) (detail : BitVec 32)
  /-- FAULT_EVENT_WINDOW (R308). -/
  | faultEventWindow (p cause : Nat)
  /-- OPEN (R105). -/
  | openPleat (r : Nat) (o : Origin) (slot : Nat) (ver : BitVec 32)
  /-- CLOSE (R105). -/
  | closePleat (r : Nat) (o : Origin) (slot : Nat)
  /-- COMMIT (R106). -/
  | commitPleat (r : Nat) (o : Origin) (ver : BitVec 32)
  /-- QUEUED_COMMIT_START (R106). -/
  | queuedCommitStart (r : Nat)
  /-- SNAP_VIEW_BAD_WRITE (R104). -/
  | snapViewBadWrite (r : Nat) (o : Origin) (both : Bool)
  /-- SEAL_MARKER (R106). -/
  | sealMarker (e r : Nat)
  /-- SEAL_ANSWER (R106). -/
  | sealAnswer (e r : Nat)
  /-- RETIRE_MARKER (R114). -/
  | retireMarker (e r : Nat)
  /-- RETIRE_WALK_DONE (R114). -/
  | retireWalkDone (e r : Nat)
  /-- RETIRE_REPORT (R114). -/
  | retireReport (e r : Nat)
  /-- PAGE_COPY_DONE (R112). -/
  | pageCopyDone (e page : Nat)
  /-- EGRESS_ENQUEUE (R423). -/
  | egressEnqueue (n : Nat) (k : EgPkt)
  /-- FLIT_SEND (R367). -/
  | flitSend (n elapsed : Nat)
  /-- PAYLOAD_FLIT (R373). -/
  | payloadFlit (n : Nat) (f : Flit)
  /-- IDLE_FLIT (R367). -/
  | idleFlit (n : Nat) (f : Flit)
  /-- FLIT_CRC_ERROR (R369). -/
  | flitCrcError (n : Nat) (f : Flit)
  /-- INIT (R384). -/
  | portInit (n : Nat) (f : Flit)
  /-- INIT_DONE (R384). -/
  | initDone (n : Nat) (f : Flit)
  /-- RETRAIN (R384). -/
  | portRetrain (n : Nat) (f : Flit)
  /-- RESUME (R384). -/
  | portResume (n : Nat) (f : Flit)
  /-- REPLAY_TIMEOUT (R376). -/
  | replayTimeout (n : Nat)
  /-- CREDIT_STALL_TIMEOUT (R382). -/
  | creditStallTimeout (n vc : Nat)
  /-- LOCK_LOSS (R364). -/
  | lockLoss (n : Nat)
  /-- LASER_LOW (R359). -/
  | laserLow (n : Nat) (ok : BitVec 8)
  /-- LINK_ENABLE (R364). -/
  | linkEnable (n : Nat) (ok : BitVec 8)
  /-- LINK_DISABLE (R364). -/
  | linkDisable (n : Nat)
  /-- LINK_RETRAIN (R364). -/
  | linkRetrain (n : Nat)
  /-- LINK_DOWN (R364). -/
  | linkDown (n : Nat)
  /-- PORT_TRAINING_DONE (R362). -/
  | portTrainingDone (n : Nat) (mine peer : BitVec 4)
  /-- TRAIN_TIMEOUT (R364). -/
  | trainTimeout (n : Nat)
  /-- INIT_TIMEOUT (R364). -/
  | initTimeout (n : Nat)
  /-- PORT_RETRAIN_DONE (R365). -/
  | portRetrainDone (n : Nat) (passed : BitVec 4)
  /-- PORT_RETRAIN_TIMEOUT (R364). -/
  | portRetrainTimeout (n : Nat)
  /-- DOWN_RETRY (R364). -/
  | downRetry (n : Nat) (ok : BitVec 8)
  /-- CAP_ARM (R387). -/
  | capArm (n : Nat)
  /-- CAP_GO (R387). -/
  | capGo (n : Nat)
  /-- CMAP_READ (R413). -/
  | cmapRead (n : Nat) (src : BitVec 18) (seg : BitVec 4)
  /-- ROUTER_FORWARD (R396). -/
  | routerForward (t : Nat) (k : MeshPkt)
  /-- ESCAPE_THRESHOLD (R399). -/
  | escapeThreshold (t : Nat) (k : MeshPkt)
  /-- AIMD_WINDOW (R411). -/
  | aimdWindow (t : Nat)
  /-- CONGESTION_INTERVAL (R412). -/
  | congestionInterval (busy : List (Nat × Nat))
  /-- DRAIN_MARKER (R403). -/
  | drainMarker (mgr inj : Nat)
  /-- DRAIN_POLL (R403). -/
  | drainPoll
  /-- ROUTE_DRAIN_TIMEOUT (R405). -/
  | routeDrainTimeout (lag : List (BitVec 16))
  /-- METER_SETTING_WRITE (R427). -/
  | meterSettingWrite (off : BitVec 26) (w : BitVec 32) (elapsed : Nat)
  /-- REPLICATED_REQUEST (R436). -/
  | replicatedRequest (p : Nat) (o : Origin) (q : Req)
  /-- REPL (R436). -/
  | repl (p : Nat) (k : ReplPkt)
  /-- REPL_ACK (R436). -/
  | replAck (p : Nat) (order : BitVec 48) (answer : BitVec 6)
  /-- RSYNC (R450). -/
  | rsync (p : Nat) (k : RsyncPkt)
  /-- RESYNC_LINE (R450). -/
  | resyncLine (p : Nat)
  /-- CUFF_RENEW (R444). -/
  | cuffRenew (p : Nat)
  /-- CUFF_GRANT (R444). -/
  | cuffGrant (p : Nat) (reqNo epoch : BitVec 32) (durMs : BitVec 10)
  /-- LEASE_EXPIRY (R445). -/
  | leaseExpiry (p : Nat)
  /-- REPL_TIMEOUT (R449). -/
  | replTimeout (p : Nat) (order : BitVec 48)
  /-- PEER_TIMEOUT (R449). -/
  | peerTimeout (p : Nat)
  /-- PEER_STATE_SEND (R442). -/
  | peerStateSend (p : Nat)
  /-- PEER_STATE (R447). -/
  | peerState (p : Nat) (ep : BitVec 18) (st : BitVec 3) (order : BitVec 48) (epoch : BitVec 32)
  /-- RELEASE (R447). -/
  | release (p : Nat)
  /-- TAKE (R448). -/
  | takeCuff (p : Nat)
  /-- LINE_READ (R269). -/
  | lineRead (e : Nat) (k : HbmReq)
  /-- LINE_WRITE (R269). -/
  | lineWrite (e : Nat) (k : HbmReq)
  /-- HBM_COMMAND_ISSUE (R277). -/
  | hbmCommandIssue (e pc : Nat)
  /-- HBM_READ_DATA (R298). -/
  | hbmReadData (e : Nat) (k : HbmData)
  /-- REFRESH_DEADLINE (R281). -/
  | refreshDeadline (e pc : Nat)
  /-- OPEN_PAGE_TIMEOUT (R279). -/
  | openPageTimeout (e pc bank : Nat)
  /-- SELF_REFRESH_IDLE (R283). -/
  | selfRefreshIdle (e : Nat)
  /-- SELF_REFRESH_EXIT (R283). -/
  | selfRefreshExit (e : Nat)
  /-- PARITY_ALERT (R285). -/
  | parityAlert (e c : Nat)
  /-- PARITY_ALERT_CLEAR (R285). -/
  | parityAlertClear (e c : Nat)
  /-- ALERT_RECOVERY_TIMEOUT (R285). -/
  | alertRecoveryTimeout (e c : Nat)
  /-- COMMAND_BUFFER_RETIRE (R284). -/
  | commandBufferRetire (e pc : Nat)
  /-- HBM_RETRAIN_SLICE (R287). -/
  | hbmRetrainSlice (e c : Nat)
  /-- HBM_RETRAIN (R287). -/
  | hbmRetrain (e c : Nat)
  /-- HBM_RETRAIN_LIMIT (R287). -/
  | hbmRetrainLimit (e c : Nat)
  /-- TRAINING_GO (R289). -/
  | trainingGo (e : Nat) (w : BitVec 32)
  /-- TRAINING_RUN_DONE (R291). -/
  | trainingRunDone (e : Nat) (k : TrnReport)
  /-- PATROL_STEP (R310). -/
  | patrolStep (e : Nat) (w : BitVec 1152)
  /-- SRAM_SCRUB_ROW (R312). -/
  | sramScrubRow (k : ScrubRow)
  /-- SRAM_FORCED_SCRUB (R312). -/
  | sramForcedScrub (k : ScrubRow)
  /-- STACK_FAILED (R306). -/
  | stackFailed (e : Nat)
  /-- SWEEP_LINE (R345). -/
  | sweepLine (e p : Nat) (w : BitVec 1152)
  /-- SWEEP_LAP_END (R345). -/
  | sweepLapEnd (e p : Nat)
  /-- ERL_TAIL_WRITE (R320). -/
  | erlTailWrite (x : BitVec 32)
  /-- LOG_COALESCE_WINDOW (R317). -/
  | logCoalesceWindow (code cls unit : Nat)
  /-- UNIT_FAULT (R456). -/
  | unitFault (cls idx : Nat)
  /-- UNIT_COMMAND (R457). -/
  | unitCommand (cls idx : Nat) (st : BitVec 3)
  /-- UNIT_FORCE (R456). -/
  | unitForce (cls idx : Nat) (st : BitVec 3)
  /-- DRAIN_COMPLETE (R456). -/
  | drainComplete (cls idx : Nat)
  /-- UNIT_COMMAND_TIMEOUT (R457). -/
  | unitCommandTimeout (cls idx : Nat)
  /-- RECONCILER_PASS (R458). -/
  | reconcilerPass (mgr : Nat)
  /-- ROT_WATCHDOG_KICK (R461). -/
  | rotWatchdogKick
  /-- ROT_WATCHDOG_EXPIRY (R461). -/
  | rotWatchdogExpiry
  /-- ROT_RESUME (R462). -/
  | rotResume
  /-- MANAGER_WATCHDOG_EXPIRY (R463). -/
  | managerWatchdogExpiry (mgr : Nat)
  /-- MANAGER_RESTART (R463). -/
  | managerRestart (mgr : Nat)
  /-- POWER_INTERVAL (R497): per tile, the part of its draw that scales with the level, in mW at level 0 (R494). -/
  | powerInterval (acts : List (Nat × Nat))
  /-- ICC_LIMIT_EXCEEDED (R498). -/
  | iccLimitExceeded (amps : BitVec 12)
  /-- ICC_CLAMP_RELEASE (R498). -/
  | iccClampRelease (amps : BitVec 12)
  /-- THERMAL_SAMPLE (R500). -/
  | thermalSample (k : Temps)
  /-- PARK_DELAY (R492). -/
  | parkDelay (t : Nat)
  /-- SEQUENCER_RESET (R503). -/
  | sequencerReset (t : Nat)
  /-- SEQUENCER_RESET_DONE (R503). -/
  | sequencerResetDone (t : Nat)
  /-- CLUSTER_RESET (R504). -/
  | clusterReset (t : Nat)
  /-- PARTITION_RESET (R506). -/
  | partitionReset (p : Nat) (forced : Bool)
  /-- SEAM_TIMEOUT (R508). -/
  | seamTimeout (p : Nat)
  /-- FREEZE_GO (R541). -/
  | freezeGo
  /-- FREEZE_PIN (R541). -/
  | freezePin
  /-- JTAG_SEGMENT_OPEN (R545). -/
  | jtagSegmentOpen (cls idx : Nat)
  /-- RING_CTRL_WRITE (R204). -/
  | ringCtrlWrite (a : RingAddr) (w : BitVec 32)
  /-- RING_BASE_WRITE (R205). -/
  | ringBaseWrite (a : RingAddr) (off : BitVec 8) (w : BitVec 32)
  /-- RING_TAIL_WRITE (R206). -/
  | ringTailWrite (a : RingAddr) (x : BitVec 32)
  /-- RING_CPL_ACK_WRITE (R208). -/
  | ringCplAckWrite (a : RingAddr) (x : BitVec 32)
  /-- DESCRIPTOR_FETCH (R207). -/
  | descriptorFetch (p : Nat)
  /-- DESCRIPTOR_READ_REFUSED (R209). -/
  | descriptorReadRefused (p : Nat)
  /-- REDUCE (R213). -/
  | reduce (p : Nat)
  /-- GATHERPOOL (R214). -/
  | gatherpool (p : Nat)
  /-- ATTEND (R215). -/
  | attend (p : Nat)
  /-- OPTSTEP (R217). -/
  | optstep (p : Nat)
  /-- REQUANT (R218). -/
  | requant (p : Nat)
  /-- COPY (R218). -/
  | copyOp (p : Nat)
  /-- FILL (R218). -/
  | fillOp (p : Nat)
  /-- KERNEL (R219). -/
  | kernel (p : Nat)
  /-- COMMAND_START (R223). -/
  | commandStart (p : Nat)
  /-- WORK_ITEM (R195). -/
  | workItem (t : Nat)
  /-- CLUSTER_REPORT (R228). -/
  | clusterReport (t : Nat)
  /-- RECORD_WRITE_ANSWER (R227). -/
  | recordWriteAnswer (p : Nat) (refused : Bool)
  /-- COMMAND_TIMEOUT (R229). -/
  | commandTimeout (p r : Nat) (idx : BitVec 32)
  /-- PRODUCE (R243). -/
  | produce (obj : Nat) (o : Origin) (cnt : BitVec 32)
  /-- CONSUME (R243). -/
  | consume (obj : Nat) (o : Origin) (cnt : BitVec 32)
  /-- ARRIVE (R248). -/
  | arrive (obj : Nat) (o : Origin) (part : BitVec 16) (phase : BitVec 2)
  /-- SIGNAL (R245). -/
  | signal (obj : Nat) (o : Origin) (notify : Bool)
  /-- WAIT_AVAIL (R244). -/
  | waitAvail (obj c : Nat) (cnt : BitVec 32)
  /-- WAIT_SPACE (R244). -/
  | waitSpace (obj c : Nat) (cnt : BitVec 32)
  /-- WAIT_BARRIER (R250). -/
  | waitBarrier (obj c : Nat) (phase : BitVec 2)
  /-- CANCEL (R255). -/
  | cancel (obj c : Nat)
  /-- SYNC_READ (R251). -/
  | syncRead (obj c : Nat) (sel : Bool)
  /-- INIT_OBJECT (R259). -/
  | initObject (obj : Nat) (o : Origin) (mode : BitVec 2) (arg : BitVec 32)
  /-- CLEAR_FAULT (R260). -/
  | clearFault (obj : Nat) (o : Origin)
  /-- SYNC_VIEW_BAD_WRITE (R257). -/
  | syncViewBadWrite (obj : Nat) (o : Origin) (both : Bool)
  /-- ACK (R253). -/
  | ack (t obj : Nat) (code : BitVec 4) (signal : Bool)
  /-- WAKE (R254). -/
  | wake (t obj : Nat)
  /-- VALUE (R251). -/
  | value (t : Nat) (v : BitVec 64)
  /-- LONG_WAIT_GATE (R261). -/
  | longWaitGate (t : Nat)
  /-- DEADLOCK_WINDOW (R263). -/
  | deadlockWindow (p : Nat)
  /-- DESCRIPTOR_START (R141). -/
  | descriptorStart (t c : Nat)
  /-- DMA_LINE_ISSUE (R150). -/
  | dmaLineIssue (t c : Nat)
  /-- DMA_RESPONSE (R143). -/
  | dmaResponse (t c : Nat) (r : DmaResp)
  /-- DMA_REISSUE (R145). -/
  | dmaReissue (t c : Nat) (tag : BitVec 14)
  /-- DMA_TIMEOUT (R145). -/
  | dmaTimeout (t c : Nat)
  /-- PUSH_DATA (R147). -/
  | pushData (t : Nat) (k : PushPkt)
  /-- AUTO_GATE (R155). -/
  | autoGate (t : Nat)
  /-- CLUSTER_WAKE_DONE (R490). -/
  | clusterWakeDone (t : Nat)
  /-- ASYNC_TRAP (R189). -/
  | asyncTrap (t : Nat)
  /-- ILLEGAL (R163). -/
  | illegal (t : Nat) (w : BitVec 64)
  /-- ADD (R164). -/
  | add (t : Nat) (f : YkF)
  /-- SUB (R164). -/
  | sub (t : Nat) (f : YkF)
  /-- AND (R164). -/
  | and (t : Nat) (f : YkF)
  /-- OR (R164). -/
  | or (t : Nat) (f : YkF)
  /-- XOR (R164). -/
  | xor (t : Nat) (f : YkF)
  /-- SLL (R164). -/
  | sll (t : Nat) (f : YkF)
  /-- SRL (R164). -/
  | srl (t : Nat) (f : YkF)
  /-- SRA (R164). -/
  | sra (t : Nat) (f : YkF)
  /-- SLT (R164). -/
  | slt (t : Nat) (f : YkF)
  /-- SLTU (R164). -/
  | sltu (t : Nat) (f : YkF)
  /-- MIN (R164). -/
  | min (t : Nat) (f : YkF)
  /-- MAX (R164). -/
  | max (t : Nat) (f : YkF)
  /-- MINU (R164). -/
  | minu (t : Nat) (f : YkF)
  /-- MAXU (R164). -/
  | maxu (t : Nat) (f : YkF)
  /-- MUL (R164). -/
  | mul (t : Nat) (f : YkF)
  /-- MULH (R164). -/
  | mulh (t : Nat) (f : YkF)
  /-- MULHU (R164). -/
  | mulhu (t : Nat) (f : YkF)
  /-- DIV (R164). -/
  | div (t : Nat) (f : YkF)
  /-- DIVU (R164). -/
  | divu (t : Nat) (f : YkF)
  /-- REM (R164). -/
  | rem (t : Nat) (f : YkF)
  /-- REMU (R164). -/
  | remu (t : Nat) (f : YkF)
  /-- LI (R164). -/
  | li (t : Nat) (f : YkF)
  /-- LIH (R164). -/
  | lih (t : Nat) (f : YkF)
  /-- LB (R165). -/
  | lb (t : Nat) (f : YkF)
  /-- LH (R165). -/
  | lh (t : Nat) (f : YkF)
  /-- LW (R165). -/
  | lw (t : Nat) (f : YkF)
  /-- LD (R165). -/
  | ld (t : Nat) (f : YkF)
  /-- LBU (R165). -/
  | lbu (t : Nat) (f : YkF)
  /-- LHU (R165). -/
  | lhu (t : Nat) (f : YkF)
  /-- LWU (R165). -/
  | lwu (t : Nat) (f : YkF)
  /-- SB (R165). -/
  | sb (t : Nat) (f : YkF)
  /-- SH (R165). -/
  | sh (t : Nat) (f : YkF)
  /-- SW (R165). -/
  | sw (t : Nat) (f : YkF)
  /-- SD (R165). -/
  | sd (t : Nat) (f : YkF)
  /-- BEQ (R166). -/
  | beq (t : Nat) (f : YkF)
  /-- BNE (R166). -/
  | bne (t : Nat) (f : YkF)
  /-- BLT (R166). -/
  | blt (t : Nat) (f : YkF)
  /-- BGE (R166). -/
  | bge (t : Nat) (f : YkF)
  /-- BLTU (R166). -/
  | bltu (t : Nat) (f : YkF)
  /-- BGEU (R166). -/
  | bgeu (t : Nat) (f : YkF)
  /-- JAL (R166). -/
  | jal (t : Nat) (f : YkF)
  /-- JALR (R166). -/
  | jalr (t : Nat) (f : YkF)
  /-- HALT (R193). -/
  | halt (t : Nat) (f : YkF)
  /-- NOP (R166). -/
  | nop (t : Nat) (f : YkF)
  /-- TRAPI (R166). -/
  | trapi (t : Nat) (f : YkF)
  /-- TRET (R188). -/
  | tret (t : Nat) (f : YkF)
  /-- FENCE (R182). -/
  | fence (t : Nat) (f : YkF)
  /-- SRR (R168). -/
  | srr (t : Nat) (f : YkF)
  /-- SRW (R168). -/
  | srw (t : Nat) (f : YkF)
  /-- VADD (R169). -/
  | vadd (t : Nat) (f : YkF)
  /-- VSUB (R169). -/
  | vsub (t : Nat) (f : YkF)
  /-- VMUL (R169). -/
  | vmul (t : Nat) (f : YkF)
  /-- VFMA (R169). -/
  | vfma (t : Nat) (f : YkF)
  /-- VMAX (R169). -/
  | vmax (t : Nat) (f : YkF)
  /-- VMIN (R169). -/
  | vmin (t : Nat) (f : YkF)
  /-- VABS (R169). -/
  | vabs (t : Nat) (f : YkF)
  /-- VNEG (R169). -/
  | vneg (t : Nat) (f : YkF)
  /-- VEXP2 (R169). -/
  | vexp2 (t : Nat) (f : YkF)
  /-- VRCP (R169). -/
  | vrcp (t : Nat) (f : YkF)
  /-- VRSQRT (R169). -/
  | vrsqrt (t : Nat) (f : YkF)
  /-- VCLT (R169). -/
  | vclt (t : Nat) (f : YkF)
  /-- VCLE (R169). -/
  | vcle (t : Nat) (f : YkF)
  /-- VCEQ (R169). -/
  | vceq (t : Nat) (f : YkF)
  /-- VIADD (R169). -/
  | viadd (t : Nat) (f : YkF)
  /-- VISUB (R169). -/
  | visub (t : Nat) (f : YkF)
  /-- VIMUL (R169). -/
  | vimul (t : Nat) (f : YkF)
  /-- VAND (R169). -/
  | vand (t : Nat) (f : YkF)
  /-- VOR (R169). -/
  | vor (t : Nat) (f : YkF)
  /-- VXOR (R169). -/
  | vxor (t : Nat) (f : YkF)
  /-- VSHL (R169). -/
  | vshl (t : Nat) (f : YkF)
  /-- VSHR (R169). -/
  | vshr (t : Nat) (f : YkF)
  /-- VSRA (R169). -/
  | vsra (t : Nat) (f : YkF)
  /-- VICLT (R169). -/
  | viclt (t : Nat) (f : YkF)
  /-- VSEL (R169). -/
  | vsel (t : Nat) (f : YkF)
  /-- VBCAST (R169). -/
  | vbcast (t : Nat) (f : YkF)
  /-- VIOTA (R169). -/
  | viota (t : Nat) (f : YkF)
  /-- VEXT (R169). -/
  | vext (t : Nat) (f : YkF)
  /-- VINS (R169). -/
  | vins (t : Nat) (f : YkF)
  /-- VRSUM (R171). -/
  | vrsum (t : Nat) (f : YkF)
  /-- VRMAX (R171). -/
  | vrmax (t : Nat) (f : YkF)
  /-- VRMIN (R171). -/
  | vrmin (t : Nat) (f : YkF)
  /-- VLD (R172). -/
  | vld (t : Nat) (f : YkF)
  /-- VLDS (R172). -/
  | vlds (t : Nat) (f : YkF)
  /-- VLDG (R172). -/
  | vldg (t : Nat) (f : YkF)
  /-- VST (R172). -/
  | vst (t : Nat) (f : YkF)
  /-- VSTS (R172). -/
  | vsts (t : Nat) (f : YkF)
  /-- VSTG (R173). -/
  | vstg (t : Nat) (f : YkF)
  /-- VRDA (R172). -/
  | vrda (t : Nat) (f : YkF)
  /-- VWRA (R172). -/
  | vwra (t : Nat) (f : YkF)
  /-- VQ (R175). -/
  | vq (t : Nat) (f : YkF)
  /-- VDQ (R176). -/
  | vdq (t : Nat) (f : YkF)
  /-- VCVTI (R174). -/
  | vcvti (t : Nat) (f : YkF)
  /-- VCVTF (R174). -/
  | vcvtf (t : Nat) (f : YkF)
  /-- TLDD (R177). -/
  | tldd (t : Nat) (f : YkF)
  /-- TADD (R177). -/
  | tadd (t : Nat) (f : YkF)
  /-- TLOAD (R179). -/
  | tload (t : Nat) (f : YkF)
  /-- TMUL (R180). -/
  | tmul (t : Nat) (f : YkF)
  /-- AZERO (R177). -/
  | azero (t : Nat) (f : YkF)
  /-- DMAQ (R181). -/
  | dmaq (t : Nat) (f : YkF)
  /-- DMAWAIT (R181). -/
  | dmawait (t : Nat) (f : YkF)
  /-- DMARES (R181). -/
  | dmares (t : Nat) (f : YkF)
  /-- DMASTAT (R181). -/
  | dmastat (t : Nat) (f : YkF)
  /-- SPROD (R183). -/
  | sprod (t : Nat) (f : YkF)
  /-- SCONS (R183). -/
  | scons (t : Nat) (f : YkF)
  /-- SWAITA (R183). -/
  | swaita (t : Nat) (f : YkF)
  /-- SWAITS (R183). -/
  | swaits (t : Nat) (f : YkF)
  /-- SARR (R183). -/
  | sarr (t : Nat) (f : YkF)
  /-- SWAITB (R250). -/
  | swaitb (t : Nat) (f : YkF)
  /-- SREAD (R183). -/
  | sread (t : Nat) (f : YkF)
  /-- POWER_DOWN (R561). -/
  | powerDown (inService : Bool)
  deriving DecidableEq, Repr

end Sys2Proof
end

