-- ==== Sys2Proof/Decode.lean ====
section
/-! DEFINITION. The words of the commands. No row of spec/opcode_table.json gives its command bits, so no word spells one;
the kernel instructions' own 64-bit words (R162, R163) are encoded and decoded here, since a trap reports the word. -/

namespace Sys2Proof

/-- The command that a word of the table's bits spells: the table gives no row any bits. -/
def decodeTableWord (_nbits _w : Nat) : Option Instr := none

/-- A row of the kernel instruction tables: CLASS, OP, whether OP[7] = 1 gives an immediate or broadcast form, how many
values each register field may take (1 = unused, must be zero), and the bits of IMM in use (R162–R183). -/
structure YkRow where
  cls : Nat
  op : Nat
  rep : Bool
  dN : Nat
  aN : Nat
  bN : Nat
  cN : Nat
  imm : BitVec 32
  deriving DecidableEq, Repr


def rowAdd : YkRow := ⟨0, 0x00, true, 32, 32, 32, 1, 0x00000000⟩
def rowSub : YkRow := ⟨0, 0x01, true, 32, 32, 32, 1, 0x00000000⟩
def rowAnd : YkRow := ⟨0, 0x02, true, 32, 32, 32, 1, 0x00000000⟩
def rowOr : YkRow := ⟨0, 0x03, true, 32, 32, 32, 1, 0x00000000⟩
def rowXor : YkRow := ⟨0, 0x04, true, 32, 32, 32, 1, 0x00000000⟩
def rowSll : YkRow := ⟨0, 0x05, true, 32, 32, 32, 1, 0x00000000⟩
def rowSrl : YkRow := ⟨0, 0x06, true, 32, 32, 32, 1, 0x00000000⟩
def rowSra : YkRow := ⟨0, 0x07, true, 32, 32, 32, 1, 0x00000000⟩
def rowSlt : YkRow := ⟨0, 0x08, true, 32, 32, 32, 1, 0x00000000⟩
def rowSltu : YkRow := ⟨0, 0x09, true, 32, 32, 32, 1, 0x00000000⟩
def rowMin : YkRow := ⟨0, 0x0A, true, 32, 32, 32, 1, 0x00000000⟩
def rowMax : YkRow := ⟨0, 0x0B, true, 32, 32, 32, 1, 0x00000000⟩
def rowMinu : YkRow := ⟨0, 0x0C, true, 32, 32, 32, 1, 0x00000000⟩
def rowMaxu : YkRow := ⟨0, 0x0D, true, 32, 32, 32, 1, 0x00000000⟩
def rowMul : YkRow := ⟨0, 0x10, true, 32, 32, 32, 1, 0x00000000⟩
def rowMulh : YkRow := ⟨0, 0x11, true, 32, 32, 32, 1, 0x00000000⟩
def rowMulhu : YkRow := ⟨0, 0x12, true, 32, 32, 32, 1, 0x00000000⟩
def rowDiv : YkRow := ⟨0, 0x14, true, 32, 32, 32, 1, 0x00000000⟩
def rowDivu : YkRow := ⟨0, 0x15, true, 32, 32, 32, 1, 0x00000000⟩
def rowRem : YkRow := ⟨0, 0x16, true, 32, 32, 32, 1, 0x00000000⟩
def rowRemu : YkRow := ⟨0, 0x17, true, 32, 32, 32, 1, 0x00000000⟩
def rowLi : YkRow := ⟨0, 0xA0, false, 32, 1, 1, 1, 0xFFFFFFFF⟩
def rowLih : YkRow := ⟨0, 0xA1, false, 32, 1, 1, 1, 0xFFFFFFFF⟩
def rowLb : YkRow := ⟨1, 0x00, false, 32, 32, 1, 1, 0xFFFFFFFF⟩
def rowLh : YkRow := ⟨1, 0x01, false, 32, 32, 1, 1, 0xFFFFFFFF⟩
def rowLw : YkRow := ⟨1, 0x02, false, 32, 32, 1, 1, 0xFFFFFFFF⟩
def rowLd : YkRow := ⟨1, 0x03, false, 32, 32, 1, 1, 0xFFFFFFFF⟩
def rowLbu : YkRow := ⟨1, 0x04, false, 32, 32, 1, 1, 0xFFFFFFFF⟩
def rowLhu : YkRow := ⟨1, 0x05, false, 32, 32, 1, 1, 0xFFFFFFFF⟩
def rowLwu : YkRow := ⟨1, 0x06, false, 32, 32, 1, 1, 0xFFFFFFFF⟩
def rowSb : YkRow := ⟨1, 0x08, false, 32, 32, 1, 1, 0xFFFFFFFF⟩
def rowSh : YkRow := ⟨1, 0x09, false, 32, 32, 1, 1, 0xFFFFFFFF⟩
def rowSw : YkRow := ⟨1, 0x0A, false, 32, 32, 1, 1, 0xFFFFFFFF⟩
def rowSd : YkRow := ⟨1, 0x0B, false, 32, 32, 1, 1, 0xFFFFFFFF⟩
def rowBeq : YkRow := ⟨2, 0x00, false, 1, 32, 32, 1, 0xFFFFFFFF⟩
def rowBne : YkRow := ⟨2, 0x01, false, 1, 32, 32, 1, 0xFFFFFFFF⟩
def rowBlt : YkRow := ⟨2, 0x02, false, 1, 32, 32, 1, 0xFFFFFFFF⟩
def rowBge : YkRow := ⟨2, 0x03, false, 1, 32, 32, 1, 0xFFFFFFFF⟩
def rowBltu : YkRow := ⟨2, 0x04, false, 1, 32, 32, 1, 0xFFFFFFFF⟩
def rowBgeu : YkRow := ⟨2, 0x05, false, 1, 32, 32, 1, 0xFFFFFFFF⟩
def rowJal : YkRow := ⟨2, 0x08, false, 32, 1, 1, 1, 0xFFFFFFFF⟩
def rowJalr : YkRow := ⟨2, 0x09, false, 32, 32, 1, 1, 0xFFFFFFFF⟩
def rowHalt : YkRow := ⟨2, 0x10, false, 1, 1, 1, 1, 0x00000000⟩
def rowNop : YkRow := ⟨2, 0x11, false, 1, 1, 1, 1, 0x00000000⟩
def rowTrapi : YkRow := ⟨2, 0x12, false, 1, 1, 1, 1, 0xFFFFFFFF⟩
def rowTret : YkRow := ⟨2, 0x13, false, 1, 1, 1, 1, 0x00000000⟩
def rowFence : YkRow := ⟨2, 0x14, false, 1, 1, 1, 1, 0x00001F1F⟩
def rowSrr : YkRow := ⟨3, 0x00, false, 32, 1, 1, 1, 0x00000FFF⟩
def rowSrw : YkRow := ⟨3, 0x01, false, 1, 32, 1, 1, 0x00000FFF⟩
def rowVadd : YkRow := ⟨4, 0x00, true, 32, 32, 32, 1, 0x00000000⟩
def rowVsub : YkRow := ⟨4, 0x01, true, 32, 32, 32, 1, 0x00000000⟩
def rowVmul : YkRow := ⟨4, 0x02, true, 32, 32, 32, 1, 0x00000000⟩
def rowVfma : YkRow := ⟨4, 0x03, true, 32, 32, 32, 32, 0x00000000⟩
def rowVmax : YkRow := ⟨4, 0x04, true, 32, 32, 32, 1, 0x00000000⟩
def rowVmin : YkRow := ⟨4, 0x05, true, 32, 32, 32, 1, 0x00000000⟩
def rowVabs : YkRow := ⟨4, 0x06, true, 32, 32, 1, 1, 0x00000000⟩
def rowVneg : YkRow := ⟨4, 0x07, true, 32, 32, 1, 1, 0x00000000⟩
def rowVexp2 : YkRow := ⟨4, 0x08, true, 32, 32, 1, 1, 0x00000000⟩
def rowVrcp : YkRow := ⟨4, 0x09, true, 32, 32, 1, 1, 0x00000000⟩
def rowVrsqrt : YkRow := ⟨4, 0x0A, true, 32, 32, 1, 1, 0x00000000⟩
def rowVclt : YkRow := ⟨4, 0x0B, true, 32, 32, 32, 1, 0x00000000⟩
def rowVcle : YkRow := ⟨4, 0x0C, true, 32, 32, 32, 1, 0x00000000⟩
def rowVceq : YkRow := ⟨4, 0x0D, true, 32, 32, 32, 1, 0x00000000⟩
def rowViadd : YkRow := ⟨4, 0x10, true, 32, 32, 32, 1, 0x00000000⟩
def rowVisub : YkRow := ⟨4, 0x11, true, 32, 32, 32, 1, 0x00000000⟩
def rowVimul : YkRow := ⟨4, 0x12, true, 32, 32, 32, 1, 0x00000000⟩
def rowVand : YkRow := ⟨4, 0x13, true, 32, 32, 32, 1, 0x00000000⟩
def rowVor : YkRow := ⟨4, 0x14, true, 32, 32, 32, 1, 0x00000000⟩
def rowVxor : YkRow := ⟨4, 0x15, true, 32, 32, 32, 1, 0x00000000⟩
def rowVshl : YkRow := ⟨4, 0x16, true, 32, 32, 32, 1, 0x00000000⟩
def rowVshr : YkRow := ⟨4, 0x17, true, 32, 32, 32, 1, 0x00000000⟩
def rowVsra : YkRow := ⟨4, 0x18, true, 32, 32, 32, 1, 0x00000000⟩
def rowViclt : YkRow := ⟨4, 0x19, true, 32, 32, 32, 1, 0x00000000⟩
def rowVsel : YkRow := ⟨4, 0x1A, true, 32, 32, 32, 32, 0x00000000⟩
def rowVbcast : YkRow := ⟨4, 0x20, false, 32, 32, 1, 1, 0x00000000⟩
def rowViota : YkRow := ⟨4, 0x21, false, 32, 1, 1, 1, 0x00000000⟩
def rowVext : YkRow := ⟨4, 0x22, false, 32, 32, 1, 1, 0x0000003F⟩
def rowVins : YkRow := ⟨4, 0x23, false, 32, 32, 1, 1, 0x0000003F⟩
def rowVrsum : YkRow := ⟨4, 0x28, false, 32, 32, 1, 1, 0x00000000⟩
def rowVrmax : YkRow := ⟨4, 0x29, false, 32, 32, 1, 1, 0x00000000⟩
def rowVrmin : YkRow := ⟨4, 0x2A, false, 32, 32, 1, 1, 0x00000000⟩
def rowVld : YkRow := ⟨5, 0x00, false, 32, 32, 1, 1, 0x07FFFFFF⟩
def rowVlds : YkRow := ⟨5, 0x01, false, 32, 32, 32, 1, 0x07FFFFFF⟩
def rowVldg : YkRow := ⟨5, 0x02, false, 32, 32, 32, 1, 0x07FFFFFF⟩
def rowVst : YkRow := ⟨5, 0x04, false, 32, 32, 1, 1, 0x07FFFFFF⟩
def rowVsts : YkRow := ⟨5, 0x05, false, 32, 32, 32, 1, 0x07FFFFFF⟩
def rowVstg : YkRow := ⟨5, 0x06, false, 32, 32, 32, 1, 0x07FFFFFF⟩
def rowVrda : YkRow := ⟨5, 0x08, false, 32, 32, 1, 1, 0x0000FF03⟩
def rowVwra : YkRow := ⟨5, 0x09, false, 32, 32, 1, 1, 0x0000FF03⟩
def rowVq : YkRow := ⟨6, 0x00, false, 32, 32, 1, 1, 0x0000001F⟩
def rowVdq : YkRow := ⟨6, 0x01, false, 32, 32, 1, 1, 0x0000000F⟩
def rowVcvti : YkRow := ⟨6, 0x02, false, 32, 32, 1, 1, 0x00000000⟩
def rowVcvtf : YkRow := ⟨6, 0x03, false, 32, 32, 1, 1, 0x00000000⟩
def rowTldd : YkRow := ⟨7, 0x00, false, 8, 32, 1, 1, 0x001FFFFF⟩
def rowTadd : YkRow := ⟨7, 0x01, false, 8, 32, 32, 1, 0x00000000⟩
def rowTload : YkRow := ⟨7, 0x02, false, 8, 1, 1, 1, 0x00000003⟩
def rowTmul : YkRow := ⟨7, 0x03, false, 4, 8, 1, 1, 0x00033FFF⟩
def rowAzero : YkRow := ⟨7, 0x04, false, 4, 1, 1, 1, 0x0001FFFF⟩
def rowDmaq : YkRow := ⟨8, 0x00, false, 8, 32, 1, 1, 0xFFFFFFFF⟩
def rowDmawait : YkRow := ⟨8, 0x01, false, 8, 32, 1, 1, 0x00000000⟩
def rowDmares : YkRow := ⟨8, 0x02, false, 8, 1, 1, 1, 0x00000000⟩
def rowDmastat : YkRow := ⟨8, 0x03, false, 8, 32, 1, 1, 0x00000000⟩
def rowSprod : YkRow := ⟨9, 0x00, false, 1, 32, 32, 1, 0x00000000⟩
def rowScons : YkRow := ⟨9, 0x01, false, 1, 32, 32, 1, 0x00000000⟩
def rowSwaita : YkRow := ⟨9, 0x02, false, 1, 32, 32, 1, 0x00000000⟩
def rowSwaits : YkRow := ⟨9, 0x03, false, 1, 32, 32, 1, 0x00000000⟩
def rowSarr : YkRow := ⟨9, 0x04, false, 1, 32, 32, 1, 0x00000000⟩
def rowSwaitb : YkRow := ⟨9, 0x05, false, 1, 32, 1, 1, 0x00000000⟩
def rowSread : YkRow := ⟨9, 0x06, false, 32, 32, 1, 1, 0x00000001⟩

/-- The row, the tile and the fields of a kernel instruction; none for the other commands. -/
def ykRow : Instr → Option (Nat × YkF × YkRow)
  | .add t f => some (t, f, rowAdd)
  | .sub t f => some (t, f, rowSub)
  | .and t f => some (t, f, rowAnd)
  | .or t f => some (t, f, rowOr)
  | .xor t f => some (t, f, rowXor)
  | .sll t f => some (t, f, rowSll)
  | .srl t f => some (t, f, rowSrl)
  | .sra t f => some (t, f, rowSra)
  | .slt t f => some (t, f, rowSlt)
  | .sltu t f => some (t, f, rowSltu)
  | .min t f => some (t, f, rowMin)
  | .max t f => some (t, f, rowMax)
  | .minu t f => some (t, f, rowMinu)
  | .maxu t f => some (t, f, rowMaxu)
  | .mul t f => some (t, f, rowMul)
  | .mulh t f => some (t, f, rowMulh)
  | .mulhu t f => some (t, f, rowMulhu)
  | .div t f => some (t, f, rowDiv)
  | .divu t f => some (t, f, rowDivu)
  | .rem t f => some (t, f, rowRem)
  | .remu t f => some (t, f, rowRemu)
  | .li t f => some (t, f, rowLi)
  | .lih t f => some (t, f, rowLih)
  | .lb t f => some (t, f, rowLb)
  | .lh t f => some (t, f, rowLh)
  | .lw t f => some (t, f, rowLw)
  | .ld t f => some (t, f, rowLd)
  | .lbu t f => some (t, f, rowLbu)
  | .lhu t f => some (t, f, rowLhu)
  | .lwu t f => some (t, f, rowLwu)
  | .sb t f => some (t, f, rowSb)
  | .sh t f => some (t, f, rowSh)
  | .sw t f => some (t, f, rowSw)
  | .sd t f => some (t, f, rowSd)
  | .beq t f => some (t, f, rowBeq)
  | .bne t f => some (t, f, rowBne)
  | .blt t f => some (t, f, rowBlt)
  | .bge t f => some (t, f, rowBge)
  | .bltu t f => some (t, f, rowBltu)
  | .bgeu t f => some (t, f, rowBgeu)
  | .jal t f => some (t, f, rowJal)
  | .jalr t f => some (t, f, rowJalr)
  | .halt t f => some (t, f, rowHalt)
  | .nop t f => some (t, f, rowNop)
  | .trapi t f => some (t, f, rowTrapi)
  | .tret t f => some (t, f, rowTret)
  | .fence t f => some (t, f, rowFence)
  | .srr t f => some (t, f, rowSrr)
  | .srw t f => some (t, f, rowSrw)
  | .vadd t f => some (t, f, rowVadd)
  | .vsub t f => some (t, f, rowVsub)
  | .vmul t f => some (t, f, rowVmul)
  | .vfma t f => some (t, f, rowVfma)
  | .vmax t f => some (t, f, rowVmax)
  | .vmin t f => some (t, f, rowVmin)
  | .vabs t f => some (t, f, rowVabs)
  | .vneg t f => some (t, f, rowVneg)
  | .vexp2 t f => some (t, f, rowVexp2)
  | .vrcp t f => some (t, f, rowVrcp)
  | .vrsqrt t f => some (t, f, rowVrsqrt)
  | .vclt t f => some (t, f, rowVclt)
  | .vcle t f => some (t, f, rowVcle)
  | .vceq t f => some (t, f, rowVceq)
  | .viadd t f => some (t, f, rowViadd)
  | .visub t f => some (t, f, rowVisub)
  | .vimul t f => some (t, f, rowVimul)
  | .vand t f => some (t, f, rowVand)
  | .vor t f => some (t, f, rowVor)
  | .vxor t f => some (t, f, rowVxor)
  | .vshl t f => some (t, f, rowVshl)
  | .vshr t f => some (t, f, rowVshr)
  | .vsra t f => some (t, f, rowVsra)
  | .viclt t f => some (t, f, rowViclt)
  | .vsel t f => some (t, f, rowVsel)
  | .vbcast t f => some (t, f, rowVbcast)
  | .viota t f => some (t, f, rowViota)
  | .vext t f => some (t, f, rowVext)
  | .vins t f => some (t, f, rowVins)
  | .vrsum t f => some (t, f, rowVrsum)
  | .vrmax t f => some (t, f, rowVrmax)
  | .vrmin t f => some (t, f, rowVrmin)
  | .vld t f => some (t, f, rowVld)
  | .vlds t f => some (t, f, rowVlds)
  | .vldg t f => some (t, f, rowVldg)
  | .vst t f => some (t, f, rowVst)
  | .vsts t f => some (t, f, rowVsts)
  | .vstg t f => some (t, f, rowVstg)
  | .vrda t f => some (t, f, rowVrda)
  | .vwra t f => some (t, f, rowVwra)
  | .vq t f => some (t, f, rowVq)
  | .vdq t f => some (t, f, rowVdq)
  | .vcvti t f => some (t, f, rowVcvti)
  | .vcvtf t f => some (t, f, rowVcvtf)
  | .tldd t f => some (t, f, rowTldd)
  | .tadd t f => some (t, f, rowTadd)
  | .tload t f => some (t, f, rowTload)
  | .tmul t f => some (t, f, rowTmul)
  | .azero t f => some (t, f, rowAzero)
  | .dmaq t f => some (t, f, rowDmaq)
  | .dmawait t f => some (t, f, rowDmawait)
  | .dmares t f => some (t, f, rowDmares)
  | .dmastat t f => some (t, f, rowDmastat)
  | .sprod t f => some (t, f, rowSprod)
  | .scons t f => some (t, f, rowScons)
  | .swaita t f => some (t, f, rowSwaita)
  | .swaits t f => some (t, f, rowSwaits)
  | .sarr t f => some (t, f, rowSarr)
  | .swaitb t f => some (t, f, rowSwaitb)
  | .sread t f => some (t, f, rowSread)
  | _ => none

/-- Every row, in the order of the classes (R163). -/
def ykRows : List YkRow :=
  [rowAdd, rowSub, rowAnd, rowOr, rowXor, rowSll, rowSrl, rowSra, rowSlt, rowSltu, rowMin, rowMax] ++
  [rowMinu, rowMaxu, rowMul, rowMulh, rowMulhu, rowDiv, rowDivu, rowRem, rowRemu, rowLi, rowLih, rowLb] ++
  [rowLh, rowLw, rowLd, rowLbu, rowLhu, rowLwu, rowSb, rowSh, rowSw, rowSd, rowBeq, rowBne] ++
  [rowBlt, rowBge, rowBltu, rowBgeu, rowJal, rowJalr, rowHalt, rowNop, rowTrapi, rowTret, rowFence, rowSrr] ++
  [rowSrw, rowVadd, rowVsub, rowVmul, rowVfma, rowVmax, rowVmin, rowVabs, rowVneg, rowVexp2, rowVrcp, rowVrsqrt] ++
  [rowVclt, rowVcle, rowVceq, rowViadd, rowVisub, rowVimul, rowVand, rowVor, rowVxor, rowVshl, rowVshr, rowVsra] ++
  [rowViclt, rowVsel, rowVbcast, rowViota, rowVext, rowVins, rowVrsum, rowVrmax, rowVrmin, rowVld, rowVlds, rowVldg] ++
  [rowVst, rowVsts, rowVstg, rowVrda, rowVwra, rowVq, rowVdq, rowVcvti, rowVcvtf, rowTldd, rowTadd, rowTload] ++
  [rowTmul, rowAzero, rowDmaq, rowDmawait, rowDmares, rowDmastat, rowSprod, rowScons, rowSwaita, rowSwaits, rowSarr, rowSwaitb] ++
  [rowSread]

/-- Class 0 with OP[7] = 1 takes IMM in place of x[B] (R164). -/
def YkRow.immForm (r : YkRow) (f : YkF) : Bool := f.rep && decide (r.cls = 0)

/-- No field that must be zero is nonzero, and OP[7] is set only where the row has that form (R162, R163). LI and LIH carry
OP[7] in their OP. -/
def YkRow.legal (r : YkRow) (f : YkF) : Bool :=
  (r.rep || !f.rep || decide (128 ≤ r.op)) && decide (f.d.toNat < r.dN) && decide (f.a.toNat < r.aN) &&
  decide (f.b.toNat < if r.immForm f then 1 else r.bN) && decide (f.c.toNat < r.cN) &&
  (r.immForm f || decide (f.imm &&& ~~~r.imm = 0))

/-- The word of a row's instruction (R162). -/
def YkRow.word (r : YkRow) (f : YkF) : BitVec 64 :=
  let op := if f.rep ∧ r.op < 128 then r.op + 128 else r.op
  BitVec.ofNat 64 (r.cls + op * 2 ^ 4 + f.d.toNat * 2 ^ 12 + f.a.toNat * 2 ^ 17 + f.b.toNat * 2 ^ 22 + f.c.toNat * 2 ^ 27 +
    f.imm.toNat * 2 ^ 32)

/-- The row of a CLASS and OP, and whether OP[7] says the second form (R163, R164, R169). -/
def ykFind (cls op : Nat) : Option (YkRow × Bool) :=
  match ykRows.find? (fun r => decide (r.cls = cls ∧ r.op = op)) with
  | some r => some (r, false)
  | none => (ykRows.find? (fun r => r.rep && decide (128 ≤ op ∧ r.cls = cls ∧ r.op + 128 = op))).map (fun r => (r, true))

/-- The row and fields that a word spells; none where it is ILLEGAL: an unlisted CLASS or OP, or a nonzero field that
must be zero (R163). -/
def ykDecode (w : BitVec 64) : Option (YkRow × YkF) :=
  match ykFind (field w 3 0) (field w 11 4) with
  | none => none
  | some (r, rep) =>
    let f : YkF := ⟨rep, BitVec.ofNat 5 (field w 16 12), BitVec.ofNat 5 (field w 21 17), BitVec.ofNat 5 (field w 26 22),
      BitVec.ofNat 5 (field w 31 27), BitVec.ofNat 32 (field w 63 32)⟩
    if r.legal f then some (r, f) else none

end Sys2Proof
end

