-- ==== Sys2Proof/Config.lean ====
section
/-! DEFINITION. What an implementation fixes, and the free values: constants with no body, so that nothing in Lean
can evaluate them (each is named in a log entry under notes/assumptions/). -/

namespace Sys2Proof.Config

/-- A fresh free value; the step applies it to the counter `Core.fresh` (log 3). -/
opaque freeValue : Nat → BitVec 1024

/-- Offset in units in the last place of VEXP2's result from the nearest FP32 value, before it is brought into −2 … 2 (R170, log 12). -/
opaque exp2Ulp : BitVec 32 → Int

/-- As `exp2Ulp`, for VRCP, before it is brought into −1 … 1 (R170, log 12). -/
opaque rcpUlp : BitVec 32 → Int

/-- As `exp2Ulp`, for VRSQRT (R170, log 12). -/
opaque rsqrtUlp : BitVec 32 → Int

/-- Whether FP32 tininess is judged after rounding; IEEE 754 leaves it to the implementation (log 13). -/
opaque tinyAfterRounding : Bool

/-- Whether a quiet NaN in VCLT, VCLE or VCEQ, and an infinity times zero plus a quiet NaN in VFMA, signal INVALID; IEEE 754
leaves the first to the choice of predicate and the second to the implementation (log 22). -/
opaque compareSignals : Bool
opaque fmaSignals : Bool

/-- Whether a VCVTI result beyond the integer range sets INVALID (as IEEE 754 has it) or OVERFLOW (as the flag's text reads)
(R161, R174, log 22). -/
opaque cvtiOverflowIsInvalid : Bool

/-- Local-store contents of a tile that leaves Off for the `k`-th time (R154, log 6). -/
opaque localStoreAfterOff : Nat → Nat → List Host.Cell

/-- Vector register, accumulator row or x register of a tile that leaves Off (R154, log 6). -/
opaque registerAfterOff : Nat → Nat → Nat → BitVec 2048

/-- The code of the mask ROM, which M0 covers (R330, R333, log 15). -/
opaque maskRom : List (BitVec 8)

/-- Where in a firmware slot the manager firmware begins (R325, log 147), and the byte of the flash header that holds the slot pointer
(R325, R477, log 16). -/
opaque managerOffset : Nat
opaque slotPointer : Nat

/-- What the sections of a Kotik image set, by section type and bytes (R473, R474, log 148). -/
opaque imageSections : List (Nat × List (BitVec 8)) → Image

/-- The 128 B of a state block of a resync, and the block that 128 B are: its content is internal to the device (R441, log 150). -/
opaque stateBlock : StateBlk → BitVec 1024
opaque blockState : BitVec 1024 → StateBlk

/-- What an erased flash byte reads as; the manual gives no value (R472, log 16). -/
opaque erasedByte : BitVec 8

/-- What byte `a` of the flash holds after an operation that ended in a device error, at draw `k` (R472, log 16). -/
opaque flashAfterError : Nat → Nat → BitVec 8

/-- Whether word `i` of the flash header is one of its owner-data words; the manual gives no places (R325, R472, log 16). -/
opaque ownerWord : Nat → Bool

/-- The I3C target's provisional ID outside the part identity, its BCR, DCR and status (R484, log 17). -/
opaque i3cPid : BitVec 48
opaque i3cBcr : BitVec 8
opaque i3cDcr : BitVec 8
opaque i3cStatus : BitVec 16

/-- RFM issue threshold and maximum that stack `e` reports (R282, log 18). -/
opaque rfmIssue : Nat → Nat
opaque rfmMax : Nat → Nat

/-- The number of a log entry's enumeration for which the manual gives no code: log code and choice (R572, log 29). -/
opaque logEnum : Nat → Nat → BitVec 8

/-- Sixteen bytes `g` of the destination of a COPY whose source overlaps it, at draw `k` (R218, log 33). -/
opaque copyOverlap : Nat → Nat → BitVec 128

/-- The square root of R234 at a value that is neither above zero nor zero, where the manual gives none (log 34). -/
opaque sqrtUnstated : BitVec 32 → BitVec 32

end Sys2Proof.Config
end

