-- ==== Sys2Proof/Machine/Flags.lean ====
section
/-! DEFINITION. Floating-point arithmetic of the clusters: exact values, rounding to nearest even, the sticky flags of FFLAGS
(R138, R161, R170), and the element formats of the array (R127–R130, R174–R176). -/

namespace Sys2Proof.Machine
open Sys2Proof

/-- The five sticky flags in FFLAGS's bit order: INVALID, DIVZERO, OVERFLOW, UNDERFLOW, INEXACT (R161). -/
abbrev FFlags := BitVec 5
def ffInvalid : FFlags := 1
def ffDivZero : FFlags := 2
def ffOverflow : FFlags := 4
def ffUnderflow : FFlags := 8
def ffInexact : FFlags := 16

/-- An exact value: a NaN (signalling or not), an infinity, or (−1)^s · m · 2^e. -/
inductive FVal where
  | nan (signalling : Bool)
  | inf (s : Bool)
  | fin (s : Bool) (m : Nat) (e : Int)
  deriving DecidableEq, Repr

/-- The canonical NaN (R170). -/
def canonNaN : BitVec 32 := 0x7FC00000

/-- The value of a binary floating-point encoding with `ew` exponent bits and `mw` fraction bits, IEEE special values. -/
def decodeIeee (ew mw : Nat) (b : Nat) : FVal :=
  let s := decide (b / 2 ^ (ew + mw) % 2 = 1)
  let x := b / 2 ^ mw % 2 ^ ew
  let f := b % 2 ^ mw
  let bias : Int := 2 ^ (ew - 1) - 1
  if x = 2 ^ ew - 1 then (if f = 0 then .inf s else .nan (decide (f < 2 ^ (mw - 1))))
  else if x = 0 then .fin s f (1 - bias - mw)
  else .fin s (f + 2 ^ mw) ((x : Int) - bias - mw)

/-- FP32 (IEEE 754 binary32). -/
def decode32 (w : BitVec 32) : FVal := decodeIeee 8 23 w.toNat

/-- `m / 2^k` rounded to nearest even, and whether bits were lost. -/
def rneShift (m k : Nat) : Nat × Bool :=
  let q := m / 2 ^ k
  let r := m % 2 ^ k
  let up := if k = 0 then false else decide (2 ^ (k - 1) < r) || (decide (r = 2 ^ (k - 1)) && decide (q % 2 = 1))
  (if up then q + 1 else q, decide (r ≠ 0))

/-- `m · 2^e` (m > 0) on a grid of `prec` bits whose unit is at least 2^minU: mantissa, unit exponent, whether rounded. -/
def roundGrid (prec : Nat) (minU : Int) (m : Nat) (e : Int) : Nat × Int × Bool :=
  let u := max ((Nat.log2 m : Int) + e - ((prec : Int) - 1)) minU
  if u ≤ e then (m * 2 ^ (e - u).toNat, u, false)
  else let (q, x) := rneShift m (u - e).toNat; (q, u, x)

/-- The sign bit over FP32 magnitude bits. -/
def withSign (s : Bool) (mag : Nat) : BitVec 32 := BitVec.ofNat 32 ((if s then 2 ^ 31 else 0) + mag)

/-- An exact value rounded once to FP32, with the flags of the rounding (R138, R170). Tininess before or after rounding is
`Config.tinyAfterRounding`. -/
def toFp32 (v : FVal) : BitVec 32 × FFlags :=
  match v with
  | .nan _ => (canonNaN, 0)
  | .inf s => (withSign s 0x7F800000, 0)
  | .fin s m e =>
    if m = 0 then (withSign s 0, 0)
    else
      let (q, u, x) := roundGrid 24 (-149) m e
      let mag := ((u + 149) * 2 ^ 23 + (q : Int)).toNat
      if 0x7F800000 ≤ mag then (withSign s 0x7F800000, ffOverflow ||| ffInexact)
      else
        let l := (Nat.log2 m : Int) + e
        let (q', u', _) := roundGrid 24 (-2000) m e
        let tinyAfter := decide ((Nat.log2 q' : Int) + u' < -126)
        let tiny := decide (l < -126) && (!Config.tinyAfterRounding || tinyAfter)
        (withSign s mag, if x then (if tiny then ffUnderflow ||| ffInexact else ffInexact) else 0)

def FVal.isNaN : FVal → Bool
  | .nan _ => true
  | _ => false

def FVal.isSNaN : FVal → Bool
  | .nan true => true
  | _ => false

def FVal.neg : FVal → FVal
  | .nan q => .nan q
  | .inf s => .inf (!s)
  | .fin s m e => .fin (!s) m e

/-- The signed mantissa at a lower exponent. -/
def FVal.scaled (s : Bool) (m : Nat) (e e0 : Int) : Int := (if s then -1 else 1) * (m : Int) * 2 ^ (e - e0).toNat

/-- Exact sum of two finite values; an exact zero is +0 unless both are −0 (round to nearest even). -/
def finAdd (s1 : Bool) (m1 : Nat) (e1 : Int) (s2 : Bool) (m2 : Nat) (e2 : Int) : FVal :=
  let e0 := min e1 e2
  let x := FVal.scaled s1 m1 e1 e0 + FVal.scaled s2 m2 e2 e0
  if x = 0 then .fin (s1 && s2 && decide (m1 = 0) && decide (m2 = 0)) 0 0
  else .fin (decide (x < 0)) x.natAbs e0

/-- Sum, before rounding. -/
def vAdd (a b : FVal) : FVal × FFlags :=
  let inv := if a.isSNaN || b.isSNaN then ffInvalid else 0
  match a, b with
  | .nan _, _ => (.nan false, inv)
  | _, .nan _ => (.nan false, inv)
  | .inf s, .inf t => if s = t then (.inf s, 0) else (.nan false, ffInvalid)
  | .inf s, _ => (.inf s, 0)
  | _, .inf t => (.inf t, 0)
  | .fin s m e, .fin t n d => (finAdd s m e t n d, 0)

/-- Product, before rounding. -/
def vMul (a b : FVal) : FVal × FFlags :=
  let inv := if a.isSNaN || b.isSNaN then ffInvalid else 0
  match a, b with
  | .nan _, _ => (.nan false, inv)
  | _, .nan _ => (.nan false, inv)
  | .inf s, .inf t => (.inf (s != t), 0)
  | .inf s, .fin t m _ => if m = 0 then (.nan false, ffInvalid) else (.inf (s != t), 0)
  | .fin t m _, .inf s => if m = 0 then (.nan false, ffInvalid) else (.inf (s != t), 0)
  | .fin s m e, .fin t n d => (.fin (s != t) (m * n) (e + d), 0)

/-- A lane function's result and flags. -/
abbrev LaneRes := BitVec 32 × FFlags

def rounded (r : FVal × FFlags) : LaneRes := let (w, f) := toFp32 r.1; (w, f ||| r.2)

def fpAdd (a b : BitVec 32) : LaneRes := rounded (vAdd (decode32 a) (decode32 b))
def fpSub (a b : BitVec 32) : LaneRes := rounded (vAdd (decode32 a) (decode32 b).neg)
def fpMul (a b : BitVec 32) : LaneRes := rounded (vMul (decode32 a) (decode32 b))

/-- A × B + C, rounded once (R169). -/
def fpFma (a b c : BitVec 32) : LaneRes :=
  let (p, f) := vMul (decode32 a) (decode32 b)
  let c := decode32 c
  if c.isNaN then
    -- ∞ × 0 beside a quiet NaN: IEEE 754 leaves the flag open
    (canonNaN, if c.isSNaN || (decode32 a).isSNaN || (decode32 b).isSNaN then ffInvalid
               else if f ≠ 0 ∧ Config.fmaSignals then ffInvalid else 0)
  else
    let (r, g) := vAdd p c
    rounded (r, f ||| g)

/-- Order key of a number that is not NaN: −0 below +0 (R169). -/
def fpKey (a : BitVec 32) : Int := if a.msb then -((a.toNat - 2 ^ 31 : Nat) : Int) - 1 else a.toNat

def nanFlag (a b : BitVec 32) : FFlags := if (decode32 a).isSNaN || (decode32 b).isSNaN then ffInvalid else 0

/-- Larger or smaller value; a NaN gives NaN (R169). -/
def fpMax (a b : BitVec 32) : LaneRes :=
  if (decode32 a).isNaN || (decode32 b).isNaN then (canonNaN, nanFlag a b) else (if fpKey a < fpKey b then b else a, 0)
def fpMin (a b : BitVec 32) : LaneRes :=
  if (decode32 a).isNaN || (decode32 b).isNaN then (canonNaN, nanFlag a b) else (if fpKey b < fpKey a then b else a, 0)

/-- The mask of a comparison: all ones or zero; a NaN gives 0 (R169). -/
def fpCmp (test : Int → Bool) (a b : BitVec 32) : LaneRes :=
  match vAdd (decode32 a) (decode32 b).neg with
  | (.fin s m _, _) => (if test (if m = 0 then 0 else if s then -1 else 1) then 0xFFFFFFFF else 0, 0)
  | (.inf s, _) => (if test (if s then -1 else 1) then 0xFFFFFFFF else 0, 0)
  | (.nan _, _) =>
    if (decode32 a).isNaN || (decode32 b).isNaN then
      (0, if Config.compareSignals then ffInvalid else nanFlag a b)
    else -- two infinities of one sign are equal
      (if test 0 then 0xFFFFFFFF else 0, 0)

def fpLt := fpCmp (fun x => decide (x < 0))
def fpLe := fpCmp (fun x => decide (x ≤ 0))
def fpEq := fpCmp (fun x => decide (x = 0))

/-! ### VEXP2, VRCP, VRSQRT: a reference value, moved by the implementation's offset (R170, log 12) -/

/-- Floor of the square root, by one bit of the result a step. -/
def isqrt (x : Nat) : Nat → Nat → Nat
  | 0, r => r
  | k + 1, r => isqrt x k (if (r + 2 ^ k) * (r + 2 ^ k) ≤ x then r + 2 ^ k else r)

/-- 2^f · 2^64 for the fraction f = `bits` / 2^`n`, `root` being 2^(2^−j) · 2^64 of the bit at hand. -/
def exp2Frac (bits : Nat) : Nat → Nat → Nat → Nat
  | 0, _, acc => acc
  | n + 1, root, acc =>
    let acc := if bits / 2 ^ n % 2 = 1 then acc * root / 2 ^ 64 else acc
    exp2Frac bits n (isqrt (root * 2 ^ 64) 66 0) acc

/-- An FP32 magnitude moved by `off` units in the last place, inside the format's range. -/
def moveUlp (mag : Nat) (off : Int) : Nat := (max 0 (min 0x7F800000 ((mag : Int) + off))).toNat

/-- An FP32 magnitude lies within `n` units in the last place of m · 2^e, the unit being that of the format at m · 2^e. -/
def withinUlp (n : Nat) (mag m : Nat) (e : Int) : Bool :=
  let u : Int := max ((Nat.log2 m : Int) + e - 23) (-149)
  let (v, k) : Nat × Int := match decode32 (BitVec.ofNat 32 mag) with
    | .fin _ v k => (v, k)
    | _ => (1, 128)
  let low := min (min e k) u
  let a : Int := (v : Int) * 2 ^ (k - low).toNat
  let b : Int := (m : Int) * 2 ^ (e - low).toNat
  decide ((a - b).natAbs ≤ n * 2 ^ (u - low).toNat)

/-- The nearest magnitude moved by the implementation's offset, or by less where that leaves the bound of `n` units. -/
def moveWithin (n : Nat) (w m : Nat) (e off : Int) : Nat :=
  if withinUlp n (moveUlp w off) m e then moveUlp w off
  else if withinUlp n (moveUlp w (off - off.sign)) m e then moveUlp w (off - off.sign) else w

/-- A result that is only accurate to `n` units in the last place: the reference value `v`, moved by `off`; INEXACT when what
is delivered is not the exact value. -/
def approx (n : Nat) (v : FVal) (exact : Bool) (off : Int) : LaneRes :=
  match v with
  | .nan _ => (canonNaN, 0)
  | .inf s => (withSign s 0x7F800000, 0)
  | .fin s m e =>
    let (w, f) := toFp32 (.fin false m e)
    let mag := if 128 ≤ (Nat.log2 m : Int) + e then w.toNat else moveWithin n w.toNat m e off
    let inexact := !exact || decide (mag ≠ w.toNat) || decide (f ≠ 0)
    (withSign s mag, if inexact then f ||| ffInexact ||| (if 0x7F800000 ≤ mag then ffOverflow else 0) |||
      (if mag < 0x00800000 then ffUnderflow else 0) else 0)

def clampInt (lo hi x : Int) : Int := max lo (min hi x)

/-- 2^A. -/
def fpExp2 (a : BitVec 32) : LaneRes :=
  match decode32 a with
  | .nan q => (canonNaN, if q then ffInvalid else 0)
  | .inf s => (if s then 0 else 0x7F800000, 0)
  | .fin s m e =>
    if m = 0 then (0x3F800000, 0)
    else
      -- the argument in 2^−40 steps, rounded toward zero below them
      let x : Nat := if 0 ≤ e + 40 then m * 2 ^ (min (e + 40).toNat 60) else m / 2 ^ (-(e + 40)).toNat
      let exact := decide (0 ≤ e) || decide (m % 2 ^ (-e).toNat = 0)
      let x : Int := if s then -(x : Int) else x
      let n := x / 2 ^ 40
      let f := (x % 2 ^ 40).toNat
      if 128 ≤ n then (0x7F800000, ffOverflow ||| ffInexact)
      else if n < -152 then (0, ffUnderflow ||| ffInexact)
      else
        let r := exp2Frac f 40 (isqrt (2 ^ 129) 66 0) (2 ^ 64)
        approx 2 (.fin false r (n - 64)) exact (clampInt (-2) 2 (Config.exp2Ulp a))

/-- 1 / A. -/
def fpRcp (a : BitVec 32) : LaneRes :=
  match decode32 a with
  | .nan q => (canonNaN, if q then ffInvalid else 0)
  | .inf s => (withSign s 0, 0)
  | .fin s m e =>
    if m = 0 then (withSign s 0x7F800000, ffDivZero)
    else
      let q := 2 ^ 100 / m
      let rest := decide (2 ^ 100 % m ≠ 0)
      -- a sticky bit keeps the rounding exact
      approx 1 (.fin s (2 * q + (if rest then 1 else 0)) (-101 - e)) (!rest) (clampInt (-1) 1 (Config.rcpUlp a))

/-- 1 / √A. -/
def fpRsqrt (a : BitVec 32) : LaneRes :=
  match decode32 a with
  | .nan q => (canonNaN, if q then ffInvalid else 0)
  | .inf s => if s then (canonNaN, ffInvalid) else (0, 0)
  | .fin s m e =>
    if m = 0 then (withSign s 0x7F800000, ffDivZero)
    else if s then (canonNaN, ffInvalid)
    else
      let odd := e % 2 ≠ 0
      let m' := if odd then 2 * m else m
      let e' := if odd then e - 1 else e
      let q := isqrt (2 ^ 160 / m') 82 0
      let exact := decide (q * q * m' = 2 ^ 160)
      approx 2 (.fin false (2 * q + (if exact then 0 else 1)) (-81 - e' / 2)) exact (clampInt (-2) 2 (Config.rsqrtUlp a))

/-! ### Integer conversions (R174) -/

/-- FP32 to a signed 32-bit integer, rounded to nearest even and saturated; NaN gives 0. -/
def fpToInt (a : BitVec 32) : LaneRes :=
  let big := if Config.cvtiOverflowIsInvalid then ffInvalid else ffOverflow
  match decode32 a with
  | .nan _ => (0, ffInvalid)
  | .inf s => (if s then 0x80000000 else 0x7FFFFFFF, big)
  | .fin s m e =>
    let (q, x) := if 0 ≤ e then (m * 2 ^ e.toNat, false) else rneShift m (-e).toNat
    let v : Int := if s then -(q : Int) else q
    if v < -(2 ^ 31) then (0x80000000, big)
    else if 2 ^ 31 ≤ v then (0x7FFFFFFF, big)
    else (BitVec.ofInt 32 v, if x then ffInexact else 0)

/-- Signed 32-bit integer to FP32, rounded to nearest even. -/
def intToFp (a : BitVec 32) : LaneRes :=
  let v := a.toInt
  toFp32 (.fin (decide (v < 0)) v.natAbs 0)

/-! ### Element formats of the array: 0 MXFP4, 1 MXINT4, 2 E4M3, 3 E5M2, 4 MXINT8, 5 BF16, 6 FP16 (R160) -/

/-- Width in bits of an element. -/
def fmtBits (fmt : Nat) : Nat := if fmt < 2 then 4 else if fmt < 5 then 8 else 16
/-- Class of a format: 0 = 4-bit, 1 = 8-bit, 2 = 16-bit (R123). -/
def fmtClass (fmt : Nat) : Nat := if fmt < 2 then 0 else if fmt < 5 then 1 else 2
/-- An MX format carries block scales (R127–R129). -/
def fmtMx (fmt : Nat) : Bool := decide (fmt < 5)
/-- Columns of a stationary tile of a class (R123). -/
def tileN (cls : Nat) : Nat := if cls = 0 then 64 else if cls = 1 then 32 else 8

/-- The value of an element before scaling. E4M3 has one NaN code and no infinity (OCP). -/
def elemVal (fmt b : Nat) : FVal :=
  let int (w k : Nat) : FVal := let i := (BitVec.ofNat w b).toInt; .fin (decide (i < 0)) i.natAbs (-(k : Int))
  if fmt = 0 then
    let s := decide (b / 8 % 2 = 1)
    if b / 2 % 4 = 0 then .fin s (b % 2) (-1) else .fin s (2 + b % 2) ((b / 2 % 4 : Nat) - 2 : Int)
  else if fmt = 1 then int 4 2
  else if fmt = 2 then
    let s := decide (b / 128 % 2 = 1)
    let x := b / 8 % 16
    if b % 128 = 127 then .nan false
    else if x = 0 then .fin s (b % 8) (-9) else .fin s (8 + b % 8) ((x : Int) - 10)
  else if fmt = 3 then decodeIeee 5 2 b
  else if fmt = 4 then int 8 6
  else if fmt = 5 then decodeIeee 8 7 b
  else decodeIeee 5 10 b

/-- `v · 2^k`. -/
def FVal.shift (v : FVal) (k : Int) : FVal :=
  match v with
  | .fin s m e => .fin s m (e + k)
  | v => v

/-- The largest power of two of a format, for the choice of a block's scale (R175). -/
def fmtEmax (fmt : Nat) : Int := if fmt = 0 then 2 else if fmt = 2 then 8 else if fmt = 3 then 15 else 0

/-- Precision, least unit exponent, and the largest magnitude bits of a floating format, with its exponent and fraction widths. -/
def fmtGrid (fmt : Nat) : Nat × Int × Nat :=
  if fmt = 0 then (2, -1, 0x7) else if fmt = 2 then (4, -9, 0x7E) else if fmt = 3 then (3, -16, 0x7B)
  else if fmt = 5 then (8, -133, 0x7F7F) else (11, -24, 0x7BFF)

/-- One element (R175 to_format): code, whether it was saturated, flags (tininess as in `toFp32`). -/
def toFormat (fmt : Nat) (sat : Bool) (v : FVal) : Nat × Bool × FFlags :=
  let w := fmtBits fmt
  let sb (s : Bool) : Nat := if s then 2 ^ (w - 1) else 0
  match v with
  | .nan q => (if fmt = 5 then 0x7FC0 else 0x7E00, false, if q then ffInvalid else 0)
  | .inf s => (sb s + (if fmt = 5 then 0x7F80 else 0x7C00), false, 0)
  | .fin s m e =>
    if fmt = 1 ∨ fmt = 4 then
      let k : Int := if fmt = 1 then 2 else 6
      let (q, x) := if 0 ≤ e + k then (m * 2 ^ (e + k).toNat, false) else rneShift m (-(e + k)).toNat
      let lim := if s then 2 ^ (w - 1) else 2 ^ (w - 1) - 1
      let big := decide (lim < q)
      let q' := min q lim
      let i : Int := if s then -(q' : Int) else q'
      ((BitVec.ofInt w i).toNat, big, (if x || big then ffInexact else 0) ||| (if big then ffOverflow else 0))
    else if m = 0 then (sb s, false, 0)
    else
      let (prec, minU, top) := fmtGrid fmt
      let (q, u, x) := roundGrid prec minU m e
      let mag := ((u - minU) * 2 ^ (prec - 1) + (q : Int)).toNat
      let (q', u', _) := roundGrid prec (-2000) m e
      let tiny := decide ((Nat.log2 m : Int) + e < minU + (prec : Int) - 1) &&
        (!Config.tinyAfterRounding || decide ((Nat.log2 q' : Int) + u' < minU + (prec : Int) - 1))
      if top < mag then
        let toInf := decide (fmt = 3 ∨ fmt = 5 ∨ fmt = 6) && !sat
        (sb s + (if toInf then top + 1 else top), !toInf, ffOverflow ||| ffInexact)
      else (sb s + mag, false, if x then (if tiny then ffUnderflow ||| ffInexact else ffInexact) else 0)

end Sys2Proof.Machine
end

