-- ==== Sys2Proof/Machine/Crypto.lean ====
section
/-! DEFINITION. The ciphers, hashes and checks that the manual takes from published standards, over lists of bytes: CRC-32 (IEEE 802.3),
SHA-256, HMAC-SHA-256, AES-256, XTS (IEEE 1619), GHASH (NIST SP 800-38D) and CTR_DRBG (NIST SP 800-90A), and the manual's own line MAC
(R191, R332, R337–R341; log 141). Byte `b` of a word of bits is bits `8b+7 … 8b` (R5). -/

namespace Sys2Proof.Machine
open Sys2Proof

abbrev Byte := BitVec 8

/-! ### Bytes and words -/

/-- The `n` bytes of a number, least significant first. -/
def bytesLE (n x : Nat) : List Byte := (List.range n).map (fun i => BitVec.ofNat 8 (x >>> (8 * i)))
/-- The `n` bytes of a number, most significant first. -/
def bytesBE (n x : Nat) : List Byte := (bytesLE n x).reverse
/-- The number of some bytes, least significant first. -/
def numLE (l : List Byte) : Nat := l.foldr (fun b a => b.toNat + 256 * a) 0
/-- The number of some bytes, most significant first. -/
def numBE (l : List Byte) : Nat := l.foldl (fun a b => 256 * a + b.toNat) 0
/-- The bytes of an ASCII text. -/
def textBytes (s : String) : List Byte := s.toList.map (fun c => BitVec.ofNat 8 c.toNat)

/-! ### CRC-32 with the IEEE 802.3 polynomial (R191) -/

/-- One bit, one byte, a list of bytes, in the order of transmission. -/
def crc32Bit (r : BitVec 32) : BitVec 32 := if r.getLsbD 0 then (r >>> 1) ^^^ 0xEDB88320 else r >>> 1
def crc32Byte (r : BitVec 32) (b : BitVec 8) : BitVec 32 := (List.range 8).foldl (fun r _ => crc32Bit r) (r ^^^ b.setWidth 32)
def crc32 (l : List (BitVec 8)) : BitVec 32 := l.foldl crc32Byte 0xFFFFFFFF ^^^ 0xFFFFFFFF

/-! ### SHA-256 -/

/-- The round constants. -/
def shaK : List (BitVec 32) :=
  [0x428a2f98, 0x71374491, 0xb5c0fbcf, 0xe9b5dba5, 0x3956c25b, 0x59f111f1, 0x923f82a4, 0xab1c5ed5] ++
  [0xd807aa98, 0x12835b01, 0x243185be, 0x550c7dc3, 0x72be5d74, 0x80deb1fe, 0x9bdc06a7, 0xc19bf174] ++
  [0xe49b69c1, 0xefbe4786, 0x0fc19dc6, 0x240ca1cc, 0x2de92c6f, 0x4a7484aa, 0x5cb0a9dc, 0x76f988da] ++
  [0x983e5152, 0xa831c66d, 0xb00327c8, 0xbf597fc7, 0xc6e00bf3, 0xd5a79147, 0x06ca6351, 0x14292967] ++
  [0x27b70a85, 0x2e1b2138, 0x4d2c6dfc, 0x53380d13, 0x650a7354, 0x766a0abb, 0x81c2c92e, 0x92722c85] ++
  [0xa2bfe8a1, 0xa81a664b, 0xc24b8b70, 0xc76c51a3, 0xd192e819, 0xd6990624, 0xf40e3585, 0x106aa070] ++
  [0x19a4c116, 0x1e376c08, 0x2748774c, 0x34b0bcb5, 0x391c0cb3, 0x4ed8aa4a, 0x5b9cca4f, 0x682e6ff3] ++
  [0x748f82ee, 0x78a5636f, 0x84c87814, 0x8cc70208, 0x90befffa, 0xa4506ceb, 0xbef9a3f7, 0xc67178f2]

/-- The eight working words. -/
structure ShaSt where
  a : BitVec 32
  b : BitVec 32
  c : BitVec 32
  d : BitVec 32
  e : BitVec 32
  f : BitVec 32
  g : BitVec 32
  h : BitVec 32
  deriving DecidableEq, Repr

def shaInit : ShaSt := ⟨0x6a09e667, 0xbb67ae85, 0x3c6ef372, 0xa54ff53a, 0x510e527f, 0x9b05688c, 0x1f83d9ab, 0x5be0cd19⟩

/-- One round with schedule word `w` and constant `k`. -/
def shaRound (s : ShaSt) (w k : BitVec 32) : ShaSt :=
  let s1 := s.e.rotateRight 6 ^^^ s.e.rotateRight 11 ^^^ s.e.rotateRight 25
  let ch := (s.e &&& s.f) ^^^ (~~~s.e &&& s.g)
  let t1 := s.h + s1 + ch + k + w
  let s0 := s.a.rotateRight 2 ^^^ s.a.rotateRight 13 ^^^ s.a.rotateRight 22
  let maj := (s.a &&& s.b) ^^^ (s.a &&& s.c) ^^^ (s.b &&& s.c)
  ⟨t1 + s0 + maj, s.a, s.b, s.c, s.d + t1, s.e, s.f, s.g⟩

/-- The rounds over the constants, the window `w` holding the next sixteen schedule words, oldest first. -/
def shaRounds : List (BitVec 32) → List (BitVec 32) → ShaSt → ShaSt
  | [], _, s => s
  | k :: ks, w, s =>
    let x := w.getD 1 0
    let y := w.getD 14 0
    let s0 := x.rotateRight 7 ^^^ x.rotateRight 18 ^^^ (x >>> 3)
    let s1 := y.rotateRight 17 ^^^ y.rotateRight 19 ^^^ (y >>> 10)
    shaRounds ks (w.drop 1 ++ [w.getD 0 0 + s0 + w.getD 9 0 + s1]) (shaRound s (w.getD 0 0) k)

/-- One 64 B block. -/
def shaBlock (s : ShaSt) (blk : List Byte) : ShaSt :=
  let w := (List.range 16).map (fun i => BitVec.ofNat 32 (numBE ((blk.drop (4 * i)).take 4)))
  let r := shaRounds shaK w s
  ⟨s.a + r.a, s.b + r.b, s.c + r.c, s.d + r.d, s.e + r.e, s.f + r.f, s.g + r.g, s.h + r.h⟩

/-- The message with its padding. -/
def shaPad (m : List Byte) : List Byte := m ++ (0x80 :: List.replicate ((119 - m.length % 64) % 64) 0) ++ bytesBE 8 (8 * m.length)

/-- The blocks of a padded message, `n` of them. -/
def shaBlocks : Nat → List Byte → ShaSt → ShaSt
  | 0, _, s => s
  | n + 1, m, s => shaBlocks n (m.drop 64) (shaBlock s (m.take 64))

/-- The 32 bytes of the digest. -/
def sha256 (m : List Byte) : List Byte :=
  let p := shaPad m
  let r := shaBlocks (p.length / 64) p shaInit
  [r.a, r.b, r.c, r.d, r.e, r.f, r.g, r.h].flatMap (fun w => bytesBE 4 w.toNat)

/-- A digest as the 256 bits of a register (R5). -/
def digestBits (m : List Byte) : BitVec 256 := BitVec.ofNat 256 (numLE (sha256 m))

/-- HMAC-SHA-256 with a key of at most 64 bytes. -/
def hmac (key m : List Byte) : List Byte :=
  let k := key ++ List.replicate (64 - key.length) 0
  sha256 (k.map (· ^^^ 0x5c) ++ sha256 (k.map (· ^^^ 0x36) ++ m))

/-! ### GF(2^8) -/

/-- The product of two bytes modulo x^8 and the low part `poly` of the field's polynomial. -/
def gfMul (poly a b : Byte) : Byte :=
  ((List.range 8).foldl (fun (s : Byte × Byte) i =>
    let (x, acc) := s
    let acc := if b.getLsbD i then acc ^^^ x else acc
    (if x.getLsbD 7 then (x <<< 1) ^^^ poly else x <<< 1, acc)) (a, 0)).2

/-- The inverse, 0 for 0: the 254th power, by squaring. -/
def gfInv (poly a : Byte) : Byte :=
  ((List.range 7).foldl (fun (s : Byte × Byte) _ =>
    let q := gfMul poly s.1 s.1
    (q, gfMul poly s.2 q)) (a, 1)).2

/-! ### AES-256 -/

/-- The S-box of FIPS 197: sixteen rows, the entry of byte `16r + c` in byte `c` of row `r`. -/
def aesBox : List Nat :=
  [0x76abd7fe2b670130c56f6bf27b777c63, 0xc072a49cafa2d4adf04759fa7dc982ca, 0x1531d871f1e5a534ccf73f362693fdb7, 0x75b227ebe28012079a059618c323c704] ++
  [0x842fe329b3d63b52a05a6e1b1a2c8309, 0xcf584c4a39becb6a5bb1fc20ed00d153, 0xa89f3c507f02f94585334d43fbaaefd0, 0xd2f3ff1021dab6bcf5389d928f40a351] ++
  [0x73195d643d7ea7c41744975fec130ccd, 0xdb0b5ede14b8ee4688902a22dc4f8160, 0x79e4959162acd3c25c2406490a3a32e0, 0x08ae7a65eaf4566ca94ed58d6d37c8e7] ++
  [0x8a8bbd4b1f74dde8c6b4a61c2e2578ba, 0x9e1dc186b95735610ef6034866b53e70, 0xdf2855cee9871e9b948ed9691198f8e1, 0x16bb54b00f2d99416842e6bf0d89a18c]

/-- The inverse S-box, laid out likewise. -/
def aesUnbox : List Nat :=
  [0xfbd7f3819ea340bf38a53630d56a0952, 0xcbe9dec444438e3487ff2f9b8239e37c, 0x4ec3fa420b954cee3d23c2a632947b54, 0x25d18b6d49a25b76b224d92866a12e08] ++
  [0x92b6655dcc5ca4d41698688664f6f872, 0x849d8da75746155edab9edfd5048706c, 0x0645b3b80558e4f70ad3bc8c00abd890, 0x6b8a130103bdafc1020f3fca8f1e2cd0] ++
  [0x73e6b4f0cecff297eadc674f4111913a, 0x6edf751ce837f9e28535ade72274ac96, 0x1bbe18aa0e62b76f89c5291d711af147, 0xf45acd78fec0db9a2079d2c64b3e56fc] ++
  [0x5fec8027591012b131c7078833a8dd1f, 0xef9cc9939f7ae52d0d4ab519a97f5160, 0x619953833cbbebc8b0f52aae4d3be0a0, 0x7d0c2155631469e126d677ba7e042b17]

/-- The entry of a byte in a table of sixteen rows. -/
def aesLook (t : List Nat) (x : Byte) : Byte := BitVec.ofNat 8 (t.getD (x.toNat / 16) 0 >>> (8 * (x.toNat % 16)))
def aesSub (x : Byte) : Byte := aesLook aesBox x
def aesUnsub (x : Byte) : Byte := aesLook aesUnbox x

/-- A byte times x in GF(2^8), and times a number below 16. -/
def aesDouble (x : Byte) : Byte := if x.getLsbD 7 then (x <<< 1) ^^^ 0x1B else x <<< 1
def aesTimes (k : Nat) (x : Byte) : Byte :=
  let d := aesDouble x
  let q := aesDouble d
  (if k.testBit 0 then x else 0) ^^^ (if k.testBit 1 then d else 0) ^^^ (if k.testBit 2 then q else 0) ^^^ (if k.testBit 3 then aesDouble q else 0)

/-- The next words of the key schedule, the list newest first. -/
def aesExpand : Nat → List (List Byte) → List (List Byte)
  | 0, w => w
  | n + 1, w =>
    let i := w.length
    let t := w.headD []
    let t := if i % 8 = 0 then
        match (t.drop 1 ++ t.take 1).map aesSub with
        | a :: r => (a ^^^ ((List.range (i / 8 - 1)).foldl (fun x _ => aesDouble x) 1)) :: r
        | [] => []
      else if i % 8 = 4 then t.map aesSub else t
    aesExpand n (List.zipWith (· ^^^ ·) (w.getD 7 []) t :: w)

/-- The fifteen round keys of a 32 B key. -/
def aesKeys (key : List Byte) : List (List Byte) :=
  let w := (aesExpand 52 ((List.range 8).map (fun i => (key.drop (4 * i)).take 4)).reverse).reverse
  (List.range 15).map (fun r => ((w.drop (4 * r)).take 4).flatten)

def xorBytes (a b : List Byte) : List Byte := List.zipWith (· ^^^ ·) a b

/-- Rows shifted left, and back; byte `4c + r` is row `r` of column `c`. -/
def aesShift (s : List Byte) : List Byte := (List.range 16).map (fun i => s.getD ((i + 4 * (i % 4)) % 16) 0)
def aesUnshift (s : List Byte) : List Byte := (List.range 16).map (fun i => s.getD ((i + 16 - 4 * (i % 4)) % 16) 0)

/-- Columns multiplied by the circulant of four numbers. -/
def aesMix (k0 k1 k2 k3 : Nat) (s : List Byte) : List Byte :=
  (List.range 16).map (fun i =>
    let b := i / 4 * 4
    let g (j : Nat) : Byte := s.getD (b + (i + j) % 4) 0
    aesTimes k0 (g 0) ^^^ aesTimes k1 (g 1) ^^^ aesTimes k2 (g 2) ^^^ aesTimes k3 (g 3))

/-- One 16 B block encrypted. -/
def aesEnc (key blk : List Byte) : List Byte :=
  match aesKeys key with
  | [] => []
  | k0 :: ks =>
    let s := (ks.take 13).foldl (fun s k => xorBytes (aesMix 2 3 1 1 (aesShift (s.map aesSub))) k) (xorBytes blk k0)
    xorBytes (aesShift (s.map aesSub)) (ks.getD 13 [])

/-- One 16 B block decrypted. -/
def aesDec (key blk : List Byte) : List Byte :=
  match (aesKeys key).reverse with
  | [] => []
  | k0 :: ks =>
    let s := (ks.take 13).foldl (fun s k => aesMix 14 11 13 9 (xorBytes ((aesUnshift s).map aesUnsub) k)) (xorBytes blk k0)
    xorBytes ((aesUnshift s).map aesUnsub) (ks.getD 13 [])

/-! ### XTS (R338, R341) -/

/-- The tweak multiplied by α: the 16 bytes as a little-endian number. -/
def xtsDouble (t : List Byte) : List Byte :=
  let x := 2 * numLE t
  bytesLE 16 (if x < 2 ^ 128 then x else (x - 2 ^ 128) ^^^ 0x87)

/-- The blocks of a data unit under the running tweak. -/
def xtsBlocks (f : List Byte → List Byte) : Nat → List Byte → List Byte → List Byte
  | 0, _, _ => []
  | n + 1, t, d => xorBytes (f (xorBytes (d.take 16) t)) t ++ xtsBlocks f n (xtsDouble t) (d.drop 16)

/-- A data unit of whole blocks under keys K1 and K2 and a 128-bit tweak. -/
def xtsEnc (k1 k2 : List Byte) (tweak : Nat) (d : List Byte) : List Byte :=
  xtsBlocks (aesEnc k1) (d.length / 16) (aesEnc k2 (bytesLE 16 tweak)) d
def xtsDec (k1 k2 : List Byte) (tweak : Nat) (d : List Byte) : List Byte :=
  xtsBlocks (aesDec k1) (d.length / 16) (aesEnc k2 (bytesLE 16 tweak)) d

/-! ### GHASH and the line MAC (R339) -/

/-- The product in GF(2^128); a block is a number whose most significant bit is the coefficient of x^0. -/
def ghashMul (x y : Nat) : Nat :=
  ((List.range 128).foldl (fun (s : Nat × Nat) i =>
    let (z, v) := s
    (if x.testBit (127 - i) then z ^^^ v else z, if v.testBit 0 then (v >>> 1) ^^^ (0xE1 <<< 120) else v >>> 1)) (0, y)).1

/-- GHASH of some 16 B blocks under the hash key. -/
def ghash (h : List Byte) (blocks : List (List Byte)) : List Byte :=
  bytesBE 16 (blocks.foldl (fun y b => ghashMul (y ^^^ numBE b) (numBE h)) 0)

/-- PPA[39:7], generation and partition as R338 and R339 place them in 128 bits. -/
def lineTweak (ppa g p : Nat) : Nat := ppa / 128 % 2 ^ 33 + g * 2 ^ 64 + p * 2 ^ 96

/-- The 8 B MAC of a line's ciphertext. -/
def lineMac (k1 k2 : List Byte) (ppa g p : Nat) (poison : Bool) (cipher : List Byte) : List Byte :=
  let kmac := sha256 (k1 ++ k2 ++ textBytes "LNKMAC" ++ [BitVec.ofNat 8 p] ++ bytesLE 4 g)
  let h := aesEnc kmac (List.replicate 16 0)
  let z := bytesLE 16 (lineTweak ppa g p + poison.toNat * 2 ^ 104)
  let x := ghash h ((List.range 8).map (fun i => (cipher.drop (16 * i)).take 16) ++ [z])
  (aesEnc kmac x).take 8

/-! ### CTR_DRBG with AES-256, without a derivation function (R337) -/

/-- The generator's working state. -/
structure Drbg where
  key : BitVec 256 := 0
  v : BitVec 128 := 0
  deriving DecidableEq, Repr

/-- `n` blocks of output, and the counter after them. -/
def drbgBlocks (key : List Byte) : Nat → Nat → List Byte × Nat
  | 0, v => ([], v)
  | n + 1, v =>
    let v := (v + 1) % 2 ^ 128
    let (r, w) := drbgBlocks key n v
    (aesEnc key (bytesBE 16 v) ++ r, w)

/-- The update function: 48 bytes of output under the old key, with the provided data, give the new key and counter. -/
def Drbg.update (d : Drbg) (data : List Byte) : Drbg :=
  let o := xorBytes (drbgBlocks (bytesLE 32 d.key.toNat) 3 (numBE (bytesLE 16 d.v.toNat))).1 data
  ⟨BitVec.ofNat 256 (numLE (o.take 32)), BitVec.ofNat 128 (numLE ((o.drop 32).take 16))⟩

/-- Instantiation from 384 bits of entropy. -/
def Drbg.seed (entropy : BitVec 384) : Drbg := Drbg.update {} (bytesLE 48 entropy.toNat)

/-- 64 bytes drawn. -/
def Drbg.draw (d : Drbg) : BitVec 512 × Drbg :=
  let (o, w) := drbgBlocks (bytesLE 32 d.key.toNat) 4 (numBE (bytesLE 16 d.v.toNat))
  (BitVec.ofNat 512 (numLE o), Drbg.update { d with v := BitVec.ofNat 128 (numLE (bytesBE 16 w)) } (List.replicate 48 0))

end Sys2Proof.Machine
end

