-- ==== Sys2Proof/Machine/LineCode.lean ====
section
/-! DEFINITION. The line code: the RS(144,138) code of a data line (R297, R298), the 16 B of metadata (R275), and the codeword that a
line's data, flags and key make in the stack (R338, R339, R341; log 141). Symbol 0 is the coefficient of the highest power (log 141). -/

namespace Sys2Proof.Machine
open Sys2Proof

/-! ### RS(144,138) over GF(2^8), polynomial x^8 + x^4 + x^3 + x^2 + 1, roots α^0 to α^5 (R297) -/

def rsMul (a b : Byte) : Byte := gfMul 0x1D a b

/-- The power of the primitive element. -/
def rsAlpha (n : Nat) : Byte := (List.range (n % 255)).foldl (fun x _ => if x.getLsbD 7 then (x <<< 1) ^^^ 0x1D else x <<< 1) 1

/-- The value at `x` of a polynomial, highest coefficient first. -/
def rsEval (p : List Byte) (x : Byte) : Byte := p.foldl (fun a c => rsMul a x ^^^ c) 0

/-- Highest coefficient first: a polynomial times (X + r). -/
def rsTimes (p : List Byte) (r : Byte) : List Byte := List.zipWith (· ^^^ ·) (p ++ [0]) (0 :: p.map (rsMul r))

/-- The generator, of degree 6. -/
def rsGen : List Byte := (List.range 6).foldl (fun g i => rsTimes g (rsAlpha i)) [1]

/-- The six check symbols of the symbols that come before them: the remainder of the message times x^6. -/
def rsCheck (msg : List Byte) : List Byte :=
  msg.foldl (fun (r : List Byte) m =>
    let f := r.headD 0 ^^^ m
    List.zipWith (· ^^^ ·) (r.drop 1 ++ [0]) ((rsGen.drop 1).map (rsMul f))) (List.replicate 6 0)

/-- The six syndromes of a word. -/
def rsSyn (w : List Byte) : List Byte := (List.range 6).map (fun i => rsEval w (rsAlpha i))

/-- Rows of a system brought to reduced form, column by column; none where a column has no pivot. -/
def rsSolveFrom : Nat → Nat → List (List Byte) → Option (List (List Byte))
  | 0, _, m => some m
  | n + 1, c, m =>
    match (m.drop c).findIdx? (fun r => decide (r.getD c 0 ≠ 0)) with
    | none => none
    | some k =>
      let p := m.getD (c + k) []
      let p := p.map (rsMul (gfInv 0x1D (p.getD c 0)))
      let m := (m.set (c + k) (m.getD c [])).set c p
      rsSolveFrom n (c + 1) (m.mapIdx (fun i r => if i = c then r else List.zipWith (· ^^^ ·) r (p.map (rsMul (r.getD c 0)))))

/-- The solution of `v` equations in `v` unknowns, each row with its right side last. -/
def rsSolve (v : Nat) (m : List (List Byte)) : Option (List Byte) := (rsSolveFrom v 0 m).map (fun m => m.map (fun r => r.getD v 0))

/-- Exactly `v` errors that account for the syndromes: the places and the values, where there are such. The locator's coefficients solve
the syndrome equations, its roots give the places, and the values solve the first `v` syndromes. -/
def rsErrors (s : List Byte) (v : Nat) : Option (List (Nat × Byte)) :=
  match rsSolve v ((List.range v).map (fun i => (List.range v).map (fun j => s.getD (i + j) 0) ++ [s.getD (i + v) 0])) with
  | none => none
  | some lam =>
    let places := (List.range 144).filter (fun k => decide (rsEval (1 :: lam.reverse) (rsAlpha (143 - k)) = 0))
    if places.length ≠ v then none else
    match rsSolve v ((List.range v).map (fun i => places.map (fun k => rsAlpha (i * (143 - k))) ++ [s.getD i 0])) with
    | none => none
    | some vals => some (places.zip vals)

/-- A word with the errors of a list taken away. -/
def rsFix (w : List Byte) (e : List (Nat × Byte)) : List Byte := e.foldl (fun w x => w.set x.1 (w.getD x.1 0 ^^^ x.2)) w

/-- The decoder (R298): the codeword within three symbols of the word and the number of symbols corrected; none where there is no such
codeword. A word with more errors that lies within three symbols of another codeword is thereby miscorrected to it. -/
def rsDecode (w : List Byte) : Option (List Byte × Nat) :=
  let s := rsSyn w
  if s.all (fun x => decide (x = 0)) then some (w, 0) else
  [1, 2, 3].findSome? (fun v =>
    match rsErrors s v with
    | none => none
    | some e =>
      let f := rsFix w e
      if (rsSyn f).all (fun x => decide (x = 0)) then some (f, v) else none)

/-! ### Metadata and codeword (R275, R297) -/

/-- The flags of a line's metadata, bytes 14 and 15 (R275). -/
structure LineMeta where
  poison : Bool := false
  gen : Bool := false
  cow : Bool := false
  scrubSeen : Bool := false
  deriving DecidableEq, Repr

def LineMeta.bytes (f : LineMeta) : List Byte :=
  [BitVec.ofNat 8 (f.poison.toNat + 2 * f.gen.toNat + 4 * f.cow.toNat + 8 * f.scrubSeen.toNat), 0]

def LineMeta.ofByte (b : Byte) : LineMeta := ⟨b.getLsbD 0, b.getLsbD 1, b.getLsbD 2, b.getLsbD 3⟩

/-- The 144 symbols of a line: 128 of ciphertext, the MAC, the flags, and the check symbols. -/
abbrev Codeword := BitVec 1152

def bitsOfBytes (n : Nat) (l : List Byte) : BitVec n := BitVec.ofNat n (numLE l)

/-- The codeword of a ciphertext, its MAC and its flags, with a fresh check. -/
def mkCodeword (cipher mac : List Byte) (f : LineMeta) : Codeword :=
  let m := cipher ++ mac ++ f.bytes
  bitsOfBytes 1152 (m ++ rsCheck m)

/-- The 16 bytes of metadata that a codeword's symbols 128 to 143 make: check, MAC, flags. -/
def Codeword.metadata (w : Codeword) : BitVec 128 :=
  let s := bytesLE 144 w.toNat
  bitsOfBytes 128 (s.drop 138 ++ (s.drop 128).take 10)

/-- The 128 B data line and the 16 B of metadata put together into symbols. -/
def codewordOf (cipher : Line) (md : BitVec 128) : Codeword :=
  let m := bytesLE 16 md.toNat
  bitsOfBytes 1152 (bytesLE 128 cipher.toNat ++ m.drop 6 ++ m.take 6)

/-- A slot's generation and its two XTS keys (R337). -/
structure KeySlot where
  gen : Nat := 0
  k1 : BitVec 256 := 0
  k2 : BitVec 256 := 0
  deriving DecidableEq, Repr

def keyBytes (k : BitVec 256) : List Byte := bytesLE 32 k.toNat

/-- A line encrypted under a slot (R338), and back. -/
def lineEnc (k : KeySlot) (ppa p : Nat) (d : Line) : List Byte :=
  xtsEnc (keyBytes k.k1) (keyBytes k.k2) (lineTweak ppa k.gen p) (bytesLE 128 d.toNat)
def lineDec (k : KeySlot) (ppa p : Nat) (cipher : List Byte) : Line :=
  bitsOfBytes 1024 (xtsDec (keyBytes k.k1) (keyBytes k.k2) (lineTweak ppa k.gen p) cipher)

/-- The codeword of a line under a slot: its ciphertext, MAC, flags and check (R338, R339, R297). -/
def sealLine (k : KeySlot) (ppa p : Nat) (f : LineMeta) (d : Line) : Codeword :=
  let c := lineEnc k ppa p d
  mkCodeword c (lineMac (keyBytes k.k1) (keyBytes k.k2) ppa k.gen p f.poison c) f

/-- What the home finds in a codeword it reads (R298). -/
inductive LineRead where
  /-- The data and flags, and the symbols corrected on the way. -/
  | good (d : Line) (f : LineMeta) (fixed : Nat)
  /-- More errors than the decoder corrects. -/
  | uncorrectable
  /-- A MAC that does not match. -/
  | macFail
  deriving DecidableEq, Repr

/-- Decode, then check the MAC with the key of the slot that the flag selects, then decrypt (R298, R337). -/
def checkLine (slot : Bool → KeySlot) (ppa p : Nat) (w : Codeword) : LineRead :=
  match rsDecode (bytesLE 144 w.toNat) with
  | none => .uncorrectable
  | some (s, n) =>
    let c := s.take 128
    let f := LineMeta.ofByte (s.getD 136 0)
    let k := slot f.gen
    if (s.drop 128).take 8 = lineMac (keyBytes k.k1) (keyBytes k.k2) ppa k.gen p f.poison c then .good (lineDec k ppa p c) f n
    else .macFail

/-- A line of the system area under its two keys, the tweak PPA[39:7] alone (R341). -/
def sysEnc (k1 k2 : BitVec 256) (ppa : Nat) (d : Line) : Line :=
  bitsOfBytes 1024 (xtsEnc (keyBytes k1) (keyBytes k2) (ppa / 128 % 2 ^ 33) (bytesLE 128 d.toNat))

end Sys2Proof.Machine
end

