-- ==== Sys2Proof/Machine/State.lean ====
section
/-! DEFINITION. The state of the device as plain data: every register, table, queue, buffer and pin the manual names,
the reasons a command can stop, and the state at reset. The defaults of a record's fields are its reset values. -/

namespace Sys2Proof.Machine

/-- Unit state (R454). -/
inductive UnitSt where
  | off | held | ready | serving | draining | fenced | failed
  deriving DecidableEq, Repr

/-- Power state of a cluster (R154). -/
inductive PowerSt where
  | off | parked | gated | active
  deriving DecidableEq, Repr

/-- State of a sequencer (R156). -/
inductive SeqSt where
  | halted | running | waiting | trapped
  deriving DecidableEq, Repr

/-- Link state of a port (R364). -/
inductive LinkSt where
  | disabled | laserCheck | train | init | up | retrain | down
  deriving DecidableEq, Repr

/-- Directory state of a held line (R79); a line in I has no entry. -/
inductive DirSt where
  | s | x | o
  deriving DecidableEq, Repr

/-- State of a pleat slot (R97). -/
inductive SlotSt where
  | free | working | published | retiring
  deriving DecidableEq, Repr

/-- Mirror state (R447). -/
inductive MirrSt where
  | stale | resync | standby | active | soloPending | solo
  deriving DecidableEq, Repr

/-- Mode of a synchronization object (R240). -/
inductive ObjMode where
  | unconfigured | counter | barrier
  deriving DecidableEq, Repr

/-- State of a command ring (R202). -/
inductive RingSt where
  | disabled | running | draining | stopped
  deriving DecidableEq, Repr

/-- GLB_READY.STATE (R529). -/
inductive ReadySt where
  | boot | bringUp | waitPorts | ready | noImage | fuseError
  deriving DecidableEq, Repr

/-- MBX_STATUS.STATE (R465). -/
inductive MbxSt where
  | idle | accepted | running | done
  deriving DecidableEq, Repr

/-- A command to a pseudo-channel of an HBM stack (R271, R278–R285): a column command moves one 32 B burst of the four of a line, with the
hint that its row follows and whether it closes the row by auto-precharge. Banks are numbered `group * 16 + bank`. -/
inductive HbmOp where
  | read (ca : BitVec 40) (burst : Nat) (hint : BitVec 2) (close : Bool)
  | write (ca : BitVec 40) (burst : Nat) (hint : BitVec 2) (close : Bool) (data : BitVec 256)
  | activate (bank row : Nat)
  | precharge (bank : Nat)
  | prechargeAll
  | refresh (bank : Nat)
  | refreshAll
  | rfm (bank : Nat)
  /-- Self-refresh entered, left (R283); to the whole stack. -/
  | selfRefresh (on : Bool)
  deriving DecidableEq, Repr

/-! ### Messages the block sends -/

/-- A packet that a port has taken whole from its fibre, by the fields of its words: a request (R63), a snoop response or CmpAck (R65), an MGT
packet with its payload (R372), REPL, REPL_ACK or RSYNC (R441); `other` is a packet that the device never receives (R386). -/
inductive FabricPkt where
  | request (q : Req)
  | response (op : BitVec 6) (dst src : BitVec 18) (tag : BitVec 16) (dirty retained : Bool) (data : Line)
  | mgt (typ : BitVec 4) (dst src : BitVec 18) (payload : List (BitVec 128))
  | repl (ep : BitVec 18) (k : ReplPkt)
  | replAck (ep : BitVec 18) (order : BitVec 48) (answer : BitVec 6)
  | rsync (ep : BitVec 18) (k : RsyncPkt)
  | other
  deriving DecidableEq, Repr

/-- The request that a packet is. -/
def FabricPkt.request? : FabricPkt → Option Req
  | .request q => some q
  | _ => none

/-- A sync-port message (R252). -/
structure SyncMsg where
  kind : BitVec 4
  obj : Nat
  cluster : Nat
  phase : BitVec 2
  sel : Bool
  notify : Bool
  count : BitVec 32
  value : BitVec 64
  deriving DecidableEq, Repr

/-- What an answer to a request says (R66, R145). `fault` is the DMA fault code of a refusal to a cluster. -/
structure Ans where
  op : BitVec 6
  grant : BitVec 2 := 0
  poison : Bool := false
  ce : Bool := false
  reason : BitVec 4 := 0
  backoff : BitVec 16 := 0
  order : BitVec 48 := 0
  data : Line := 0
  fault : BitVec 16 := 0
  deriving DecidableEq, Repr

/-! ### Global blocks -/

/-- Fuse array (R324, R515). -/
structure Fuses where
  rootHash : BitVec 256 := 0
  ownerHash : BitVec 256 := 0
  deviceSecret : BitVec 256 := 0
  svn : Nat := 0
  debugLock : Bool := false
  part : BitVec 2 := 0
  stepping : BitVec 8 := 0xB0
  stackPresent : BitVec 16 := 0xFFFF
  portPresent : BitVec 8 := 0xFF
  tileBad : BitVec 840 := 0
  routerBad : BitVec 840 := 0
  tileOff : BitVec 840 := 0
  deriving DecidableEq, Repr

/-- An error-log entry (R316). -/
structure LogEntry where
  code : Nat := 0
  sev : Nat := 0
  ptn : Option Nat := none
  cont : Bool := false
  seq : BitVec 32 := 0
  tick : BitVec 64 := 0
  unit : Nat := 0
  cls : Nat := 0
  count : BitVec 16 := 1
  payload : BitVec 96 := 0
  deriving DecidableEq, Repr

/-- What survives a chip reset (R510). -/
structure Perm where
  fuses : Fuses := {}
  /-- The bytes of the 64 MiB boot flash (R325): header with the slot pointer (R477), slots, and the retirement area (R314, R315). -/
  flash : Mem := []
  /-- RST_CAUSE (R511). -/
  rstCause : BitVec 2 := 0
  deriving DecidableEq, Repr

/-- Pins and rails (R555, R560). `railFault`: a rail left its tolerance in service and RESET_N has not been asserted
since (R561). -/
structure Pins where
  powered : Bool := true
  resetN : Bool := false
  railFault : Bool := false
  thermTrip : Bool := false
  vid : BitVec 6 := 16
  deriving DecidableEq, Repr

/-- One event counter (R538, R546). -/
structure Counter where
  value : BitVec 48 := 0
  ovf : Bool := false
  hi : BitVec 16 := 0
  masked : Bool := false
  sel : BitVec 32 := 0
  src : BitVec 32 := 0
  deriving DecidableEq, Repr

/-- EVC block (R531–R546). Counters are keyed `class * 2^20 + unit * 16 + c`, global ones under class 0. -/
structure Evc where
  tick : BitVec 64 := 0
  tickHi : BitVec 32 := 0
  hold : Bool := false
  freezeCfg : BitVec 32 := 4
  freezeCode : BitVec 16 := 0
  fzState : BitVec 2 := 0
  fzScope : Bool := false
  fzPtn : Nat := 0
  fzCause : BitVec 3 := 0
  opened : BitVec 16 := 0
  refused : BitVec 16 := 0
  /-- Desired states from before a partition freeze (R543). -/
  saved : List (Nat × UnitSt) := []
  counters : Table Counter := []
  deriving DecidableEq, Repr

/-- An open fault-event window (R308). -/
structure FaultWin where
  p : Nat
  cause : Nat
  count : Nat
  detail : BitVec 32
  deriving DecidableEq, Repr

/-- An open log-coalescing window (R317). -/
structure LogWin where
  code : Nat
  cls : Nat
  unit : Nat
  seq : BitVec 32
  deriving DecidableEq, Repr

/-- ERL block (R316–R320). `ring` is keyed by ring index. -/
structure Erl where
  ring : Table LogEntry := []
  head : BitVec 32 := 0
  tail : BitVec 32 := 0
  dropped : BitVec 32 := 0
  intCfg : BitVec 32 := 0x00010002
  service : BitVec 5 := 0
  laps : Table (BitVec 24) := []
  evSeq : Table (BitVec 32) := []
  evLast : Table (BitVec 32) := []
  faultWins : List FaultWin := []
  logWins : List LogWin := []
  /-- Entries the managers hold while the RoT restarts (R461). -/
  heldLog : List LogEntry := []
  deriving DecidableEq, Repr

/-- A queued or running attestation request (R336): channel (16 + p = tenant, 48 = DOE) and nonce. -/
structure AttReq where
  ch : Nat
  nonce : BitVec 256
  deriving DecidableEq, Repr

/-- Keys and lining counts of one partition (R337, R355). -/
structure Keys where
  gen : BitVec 32 := 0
  /-- The two slots: generation g lies in slot g mod 2 (R337). -/
  slot0 : KeySlot := {}
  slot1 : KeySlot := {}
  prevValid : Bool := false
  sweep : Bool := false
  lineWait : Bool := false
  extLined : BitVec 32 := 0
  ptnLined : BitVec 32 := 0
  pagesLeft : BitVec 23 := 0
  deriving DecidableEq, Repr

/-- SEC block (R355). -/
structure Sec where
  fwSlotB : Bool := false
  fallback : Bool := false
  ownerKey : Bool := false
  debugLock : Bool := false
  attestReady : Bool := false
  error : BitVec 8 := 0
  fused : BitVec 7 := 0
  running : BitVec 7 := 0
  consent : BitVec 32 := 0
  attQueue : List AttReq := []
  /-- The report being signed: its request and its words before SIGNATURE. -/
  signing : Option (AttReq × List (BitVec 32)) := none
  reports : Table (List (BitVec 32)) := []
  liningRate : BitVec 32 := 0x3E8
  sweepRate : BitVec 32 := 0x3E8
  m : Table (BitVec 256) := []
  keys : Table Keys := []
  /-- State of the random generator (R337). -/
  drbg : Drbg := {}
  /-- System-area keys (R332, R341). -/
  sys1 : BitVec 256 := 0
  sys2 : BitVec 256 := 0
  /-- Attestation key: SK.seed, SK.prf and PK.seed, then the public key, PK.seed and PK.root; and the certificate (R332, R334). -/
  attSk : BitVec 384 := 0
  attPub : BitVec 256 := 0
  attCert : BitVec 62848 := 0
  deriving DecidableEq, Repr

/-- GLB block and the I3C and PCIe functions (R484–R487, R529). -/
structure Glb where
  idValid : Bool := false
  /-- The fuses as the mask ROM read them (R514 step 1); GLB_ID and GLB_PRESENT show them once `idValid`. -/
  fuse : Fuses := {}
  trained : BitVec 16 := 0
  unused : BitVec 16 := 0
  required : BitVec 8 := 0
  portsFailed : BitVec 8 := 0
  spares : Table Nat := []
  l2pSel : BitVec 10 := 0
  /-- Tile and REMAPPED of a mapped logical cluster (R518, R519). -/
  l2p : Table (Option (Nat × Bool)) := []
  unmapped : Nat := 0
  mapFixed : Bool := false
  katDone : List Nat := []
  katFailed : List Nat := []
  sysTested : BitVec 16 := 0
  ready : ReadySt := .boot
  readyMs : BitVec 32 := 0
  readyTmo : BitVec 32 := 0x3E8
  service : BitVec 12 := 0
  heartbeat : BitVec 16 := 0
  restarting : Bool := false
  restarts : BitVec 8 := 0
  unitSel : BitVec 32 := 0
  discrepancy : BitVec 32 := 0
  busErr : BitVec 26 := 0
  busErrValid : Bool := false
  i3cRefused : BitVec 32 := 0
  intStatus : BitVec 64 := 0
  intEn : BitVec 64 := 0xFFFFFFFFFFFFFFFF
  /-- MSI-X table words, keyed by word index; bit 0 of word 3 of an entry is its mask (set at reset). -/
  msix : Table (BitVec 32) := []
  pba : BitVec 64 := 0
  aer : BitVec 32 := 0
  doeReady : Bool := false
  i3cAddr : Option (BitVec 7) := none
  i3cOff : BitVec 32 := 0
  i3cEv : BitVec 8 := 0
  i3cMwl : BitVec 16 := 0
  i3cMrl : BitVec 16 := 0
  deriving DecidableEq, Repr

/-- CFG block (R487) and the images in force. -/
structure Cfg where
  loaded : Bool := false
  slot : Bool := false
  failCheck : BitVec 4 := 0
  busy : Bool := false
  imageId : BitVec 32 := 0
  tuneId : BitVec 32 := 0
  image : Option Image := none
  /-- Bus of each device channel (R481): 0 = PCIe, 1 = I3C, 2 = both; 4–7 default to I3C. -/
  bus : List (BitVec 2) := [0, 0, 0, 0, 1, 1, 1, 1, 0, 0, 0, 0, 0, 0, 0, 0]
  deriving DecidableEq, Repr

/-- Power figures of one partition (R511). -/
structure PwrPtn where
  image : Nat := 0
  budget : BitVec 12 := 0
  draw : BitVec 12 := 0
  lent : BitVec 12 := 0
  borrowed : BitVec 12 := 0
  level : BitVec 4 := 0
  intervals : BitVec 16 := 0
  deriving DecidableEq, Repr

/-- PWR block (R511). -/
structure Pwr where
  deviceBudget : BitVec 32 := 0xA28
  shared : BitVec 32 := 0x546
  ctrl : BitVec 32 := 0x0061A803
  iccLimit : BitVec 32 := 0x898
  therm : BitVec 32 := 0x00505F5F
  power : BitVec 12 := 0
  icc : BitVec 12 := 0
  iccClamp : Bool := false
  dieMax : BitVec 8 := 0
  hbmMax : BitVec 8 := 0
  optMax : BitVec 8 := 0
  hot : BitVec 3 := 0
  /-- Thermal floors: fields 0–3, and 4 for the HBM group (R500). -/
  floors : Table Nat := []
  episode : BitVec 5 := 0
  /-- Optical engines at or above OPT_WARN at the last sample. -/
  optHot : BitVec 8 := 0
  ptns : Table PwrPtn := []
  deriving DecidableEq, Repr

/-- RST block (R511). -/
structure Rst where
  tileSel : BitVec 10 := 0
  st : BitVec 2 := 0
  result : BitVec 8 := 0
  tile : Nat := 0
  deriving DecidableEq, Repr

/-- A mailbox (R465): device channels 0–15, tenant mailbox of partition p at 16 + p. -/
structure Mbx where
  cmd : BitVec 32 := 0
  st : MbxSt := .idle
  full : Bool := false
  result : BitVec 8 := 0
  tag : BitVec 8 := 0
  skipped : BitVec 16 := 0
  ignored : BitVec 16 := 0
  data : Table (BitVec 32) := []
  buf : Mem := []
  /-- Host index of the tenant host that set GO (R353). -/
  goHost : Nat := 0
  deriving DecidableEq, Repr

/-- An extent-table entry (R49). A slot is (group, access), access 0 = empty. -/
structure Ext where
  valid : Bool := false
  typ : BitVec 2 := 0
  allGrp : Bool := false
  ppa : Nat := 0
  life : BitVec 2 := 0
  region : Nat := 0
  slots : List (Nat × BitVec 2) := [(0, 0), (0, 0), (0, 0), (0, 0)]
  ms : Nat := 0
  msSlots : BitVec 4 := 0
  msAll : Bool := false
  deriving DecidableEq, Repr

/-- A partition-wide action (R25, R26). `kind` is PTNp_ACTION.ACTION; `ch` the mailbox it answers; `await` the managers
(0–3 field, 4 port, 5 memory) whose report of the step is outstanding. -/
structure Action where
  kind : Nat
  p : Nat
  ch : Option Nat
  step : Nat
  await : List Nat
  skipped : List (BitVec 16)
  i : Nat
  ent : Ext
  groups : List Nat
  forced : Bool
  unmap : Bool
  /-- The access is lowered, nothing is removed (R52). -/
  lower : Bool
  seq : BitVec 32
  host : Nat
  recalled : Nat
  img : Option Image
  deriving DecidableEq, Repr

/-- A domain manager core (R463). -/
structure Mgr where
  stopped : Bool := false
  restarting : Bool := false
  restarts : List (BitVec 64) := []
  deriving DecidableEq, Repr

/-- A unit under management (R454–R458): its state, desired state, outstanding command with the mailbox that waits for
it, and the state read at the last reconciler pass. -/
structure UnitRec where
  st : UnitSt := .off
  want : UnitSt := .off
  cmd : Option UnitSt := none
  ch : Option Nat := none
  seen : UnitSt := .off
  deriving DecidableEq, Repr

/-- A message that waits in the control ring (R459): a fence for unit `i` of a class (R88), of class force, or step `s` of an action of
partition `p` for manager `m` (R25), of class step. A BAR0 access, of class access, passes the ring within its own command, and so does the
forcing of a state (log 152). -/
inductive CtlMsg where
  | fence (cls i h : Nat)
  | step (p m s : Nat)
  deriving DecidableEq, Repr

/-- The RoT and the managers (R457–R470). `units` is keyed `class * 4096 + index`. -/
structure Rot where
  actions : List Action := []
  /-- Queued expiry revocations, oldest first: partition, entry, covered groups (R55). -/
  queued : List (Nat × Nat × List Nat) := []
  /-- Tenant requests detached by a partition reset (R470): partition, and the mailbox with the request. -/
  detached : List (Nat × Mbx) := []
  revokeSeq : BitVec 32 := 0
  lastSeq : BitVec 32 := 0
  /-- PPA extents not free (mapped, being lined, or withheld). -/
  taken : List Nat := []
  mgrs : Table Mgr := []
  units : Table UnitRec := []
  /-- Fence walks: host, homes still walking, lines lost, lines salvaged. -/
  walks : List (Nat × List Nat × Nat × Nat) := []
  /-- Partitions whose seam timer runs (R508). -/
  seam : List Nat := []
  /-- Grant expiries of the present tick: partition, entry, covered groups, tick (R54). -/
  expired : List (Nat × Nat × List Nat × BitVec 64) := []
  /-- Messages in the control ring, in the order in which they reach a stop (R459). -/
  ring : List CtlMsg := []
  deriving DecidableEq, Repr

/-! ### Partitions, hosts, rings -/

/-- A ring page (R202). -/
structure Ring where
  ctrl : BitVec 32 := 0
  tmo : BitVec 32 := 0
  cmdBase : BitVec 40 := 0
  cplBase : BitVec 40 := 0
  tail : BitVec 32 := 0
  head : BitVec 32 := 0
  done : BitVec 32 := 0
  cplAck : BitVec 32 := 0
  st : RingSt := .disabled
  stop : BitVec 4 := 0
  inFlight : Nat := 0
  refused : BitVec 16 := 0
  errIndex : BitVec 32 := 0
  deriving DecidableEq, Repr

/-- Lines read from the pool for a command: `pleat * 2^33 + line` to the data and its poison. -/
abbrev LineBuf := Table (Option (Line × Bool))

/-- A write of a pool line by a built-in operation (R143): pleat slot, line address, data and mask, poison. -/
structure PoolWr where
  pleat : BitVec 3
  pla : BitVec 40
  data : Line
  mask : BitVec 128
  poison : Bool
  deriving DecidableEq, Repr

/-- The partial results of ATTEND unit `k` (R233), by query head of the group: m, l, and o by dimension. -/
structure AttPart where
  k : Nat
  m : List (BitVec 32)
  l : List (BitVec 32)
  o : List (List (BitVec 32))
  poison : Bool
  deriving DecidableEq, Repr

/-- A fetched descriptor on its way to a record (R210, R221, R227). `phase`: 0 fetched, 1 checked and in the start queue, 2 running,
3 ended, its record to be written. `n` is the cluster count once fixed (R223), `clusters` the tiles that the command runs on by
cluster index and `reported` the indexes that have reported; `buf`, `asked`, `lens` and `refused` are the dispatcher's reads of an ATTEND
sequence table, `hdr` the header of a KERNEL's binary as checked, `kpoison` whether a cluster received poisoned data. -/
structure Cmd where
  r : Nat
  idx : BitVec 32
  desc : Line
  phase : Nat := 0
  status : BitVec 8 := 0
  failed : Bool := false
  detail : BitVec 32 := 0
  detail64 : BitVec 64 := 0
  n : Option Nat := none
  clusters : List Nat := []
  reported : List Nat := []
  tmo : Nat := 0
  minC : Nat := 0
  maxC : Nat := 0
  poisonedOut : Nat := 0
  saturated : Nat := 0
  nonfinite : Nat := 0
  kpoison : Bool := false
  buf : LineBuf := []
  asked : Bool := false
  refused : Option (BitVec 16 × BitVec 40) := none
  lens : Option (List Nat) := none
  hdr : Line := 0
  deriving DecidableEq, Repr

/-- A partition (R38, R49), its rings and dispatcher, and its deadlock detector (R265). -/
structure Ptn where
  en : Bool := false
  mirrored : Bool := false
  ueTrap : Bool := false
  hostsFenced : Bool := false
  endpoint : BitVec 18 := 0
  quota : Nat := 0
  groupBase : Nat := 0
  groupCount : Nat := 0
  syncBase : Nat := 0
  syncCount : Nat := 0
  snapBase : Nat := 0
  snapCount : Nat := 0
  clusters : List Nat := []
  nackRevoked : BitVec 32 := 0
  forced : Bool := false
  resetStep : Nat := 0
  resetResult : BitVec 8 := 0
  resetBusy : Bool := false
  /-- The master extent table. -/
  ext : Table Ext := []
  rings : Table Ring := []
  cmds : List Cmd := []
  /-- Ended commands in completion order: ring and descriptor index (R208). -/
  ended : List (Nat × BitVec 32) := []
  /-- Ring served last by the fetch round robin (R221). -/
  turn : Nat := 15
  dlkCfg : BitVec 32 := 0x0001000A
  blocked : Bool := false
  dlkObject : Nat := 0
  dlkWaiters : Nat := 0
  dlkCount : BitVec 32 := 0
  deriving DecidableEq, Repr

/-- A host-table entry (R49). `st`: 0 admitted, 1 fenced, 2 removing. -/
structure HostEnt where
  ep : BitVec 18 := 0
  p : Nat := 0
  group : Nat := 0
  valid : Bool := false
  st : BitVec 2 := 0
  port : Nat := 0
  deriving DecidableEq, Repr

/-! ### Home agents -/

/-- A directory entry (R78). `ptrs` holds SH0–SH3; `stamp` orders use for R85. -/
structure DirEnt where
  st : DirSt
  coarse : Bool
  owner : Nat
  ptrs : List (Option Nat)
  vec : BitVec 64
  stamp : Nat
  deriving DecidableEq, Repr

/-- An open snoop of a tracker (R75, R81, R90). -/
structure Snoop where
  h : Nat
  inv : Bool
  salvage : Bool
  tries : Nat
  deriving DecidableEq, Repr

/-- What a tracker runs: a host or cluster request, a recall of hosts' copies (R87), a back-invalidation for tracker `t` (R85), the
fence walk's visit of a line for host `h` (R89). -/
inductive TrkKind where
  | request | recall (lower forced : Bool) (hosts : List Nat) | backInv (t : Nat) | walk (h : Nat)
  deriving DecidableEq, Repr

/-- A transaction tracker (R73). `phase`: 0 waiting, 1 snooping, 2 completion sent and CmpAck awaited, 3 waiting for a page
copy, 4 waiting for a directory way, 5 held for REPL_ACK, 6 waiting for a salvage place, 7 to be served. -/
structure Trk where
  idx : Nat
  gen : BitVec 4
  kind : TrkKind
  o : Origin
  q : Req
  line : Nat
  p : Nat
  phase : Nat
  snoops : List Snoop
  /-- Sharers still to be asked by a salvage, in order, and the answers so far. -/
  salvage : List Nat
  salvaging : Bool
  /-- Fenced owner whose line is salvaged, if any. -/
  forHost : Option Nat
  /-- What the owner's answer was: 0 none, 1 data retained, 2 data not retained, 3 SnpAckS, 4 SnpAckI, 5 closed by the fence. -/
  ownerAns : Nat
  /-- Sharers that answered that they hold no copy any more, or were fenced. -/
  gone : List Nat
  /-- The last SnpInv round before the line is poisoned (R87, R90), or before a victim's way is freed (R85). -/
  purge : Bool
  data : Line
  dirty : Bool
  poison : Bool
  /-- DIR_CFG and SNOOP_TMO as they stood when the transaction started (R92). -/
  cfg : BitVec 32
  tmo : BitVec 32
  /-- A DirtyEvict of a revoked host that came after the commit of a forced revocation: its data is discarded (R59). -/
  discard : Bool := false
  deriving DecidableEq, Repr

/-- A page of the correction tracker (R313). -/
structure PageTrk where
  page : Nat
  corrections : Nat
  hard : Nat
  stamp : Nat
  logged : Bool
  deriving DecidableEq, Repr

/-- A pass of a home: lining or map pass (`what` = 0) or rotation sweep (1), of partition `p` over stack-local line ranges
(start, length), at position `pos` of the first. -/
structure Pass where
  what : Nat
  p : Nat
  ranges : List (Nat × Nat)
  pos : Nat
  deriving DecidableEq, Repr

/-- A page copy in progress (R112): visible page, slot, and the page it copies to. -/
structure Copy where
  region : Nat
  page : Nat
  slot : Nat
  src : Nat
  dst : Nat
  deriving DecidableEq, Repr

/-- A home agent (R73–R92, R110–R114, R310–R321). -/
structure Home where
  /-- Extent-table copy, keyed `p * 1024 + i`, and by the same key, from the commit of a revocation on, whether it is forced and the
  groups it revokes (R56). -/
  ext : Table Ext := []
  mode : Table (Option (Bool × List Nat)) := []
  fence : List Nat := []
  dir : Table (Option DirEnt) := []
  trks : List Trk := []
  /-- Recalls and fence-walk visits that have no tracker yet: line and kind. -/
  recallQ : List (Nat × TrkKind) := []
  gens : Table (BitVec 4) := []
  stamp : Nat := 0
  /-- Partitions whose recall walk runs (R87). -/
  walking : List Nat := []
  dirCfg : BitVec 32 := 0x00004003
  snoopTmo : BitVec 32 := 0x020030D4
  peak : BitVec 13 := 0
  backInv : BitVec 32 := 0
  snoopRetry : BitVec 32 := 0
  lostLines : BitVec 32 := 0
  salvaged : BitVec 32 := 0
  nackBusy : BitVec 32 := 0
  cohProto : BitVec 32 := 0
  integCfg : BitVec 32 := 0x00000401
  patrolCfg : BitVec 32 := 0x05A00001
  /-- HOMEe_PATROL_INTERVAL (R310, R321), recomputed for the next line when the number of assigned lines has changed. -/
  patrolInterval : BitVec 32 := 0
  patrolPos : Nat := 0
  patrolStart : BitVec 64 := 0
  patrolLap : BitVec 32 := 0
  lapHard : Nat := 0
  ce : BitVec 32 := 0
  hardCe : BitVec 32 := 0
  ue : BitVec 32 := 0
  pages : List PageTrk := []
  /-- Line store: resident lines, `true` = dirty. -/
  store : Table (Option Bool) := []
  freePages : List (Nat × Nat) := []
  copies : List Copy := []
  poolLogged : List Nat := []
  passes : List Pass := []
  /-- Nacks in the home's nack queue (R73, log 151). -/
  nackQ : Nat := 0
  /-- Structure of HOME_FAILED (R322): 0 directory entry, 1 line-store tag, 2 declared by management. -/
  failHow : Nat := 2
  /-- STACK_FAILED has taken effect for this stack (R306). -/
  failTold : Bool := false
  deriving DecidableEq, Repr

/-! ### HBM controllers -/

/-- A queued line access (R277): its controller address (R270), the data of a write, its order of arrival, and the bursts still to move (R271). -/
structure QReq where
  ca : BitVec 40
  hint : BitVec 2
  data : Line
  age : Nat
  left : Nat := 4
  deriving DecidableEq, Repr

/-- A pseudo-channel (R277–R284). Open rows are keyed by bank (`group * 16 + bank`), with the hint of the last column
command (3 right after the activate); `due` lists banks whose refresh has come and is owed, `allDue` an all-bank refresh that is owed
instead, `nextBank` the bank whose turn is next; `acts` counts activations. `replay` is the replay buffer, oldest first; `ahead` of its
commands went out in step 3 of R285, before the replayed ones. -/
structure Pc where
  rq : List QReq := []
  wq : List QReq := []
  drain : Bool := false
  rows : Table (Option (Nat × BitVec 2)) := []
  due : List Nat := []
  allDue : Bool := false
  nextBank : Nat := 0
  acts : Table Nat := []
  replay : List HbmOp := []
  ahead : Nat := 0
  deriving DecidableEq, Repr

/-- Recovery of a channel (R285–R287): step 0 none, 1 issue stopped, 4 replaying, 6 retraining. -/
structure Chan where
  step : Nat := 0
  alerts : Nat := 0
  replays : Nat := 0
  slices : Nat := 0
  left : Nat := 0
  deriving DecidableEq, Repr

/-- An HBM controller (R276–R294, R314, R321). -/
structure Hbmc where
  cfg : BitVec 32 := 0x00007040
  trained : Bool := false
  selfRefresh : Bool := false
  tempHigh : Bool := false
  alertLat : BitVec 8 := 0
  sched : BitVec 32 := 0x00FA0818
  pwr : BitVec 32 := 0x0061A801
  parityAlert : BitVec 32 := 0
  replay : BitVec 32 := 0
  retrain : BitVec 32 := 0
  rfm : BitVec 32 := 0
  mdMiss : BitVec 32 := 0
  masks : List (BitVec 40) :=
    [0x0008400080, 0x0010800100, 0x0021000200, 0x0042000400, 0x0084000800, 0x0100001000,
     0x0200010000, 0x0400020000, 0x0800040000, 0x0000082000, 0x0000104000, 0x0000208000]
  trnCtrl : BitVec 32 := 0
  /-- TRN_CTRL as it stood when the run that is in progress, or was last, started. -/
  trnRun : BitVec 32 := 0
  trnBusy : Bool := false
  trnDone : Bool := false
  trnRefused : Bool := false
  trnAlert : Bool := false
  trnLane : BitVec 32 := 0
  trnErr : BitVec 32 := 0
  trnBits : BitVec 32 := 0
  pat : Table (BitVec 32) := []
  dlySel : BitVec 32 := 0
  /-- Delay of a lane, keyed `dir * 4096 + lane` (0 = receive, 1 = transmit); 128 where not listed (R290). -/
  dly : Table (BitVec 8) := []
  /-- Write-clock phase of a channel (R292 step 3). -/
  wclk : Table (BitVec 8) := []
  /-- Delay steps that passed with no error, by sweep and lane, keyed `sweep * 4096 + lane`: sweep 0 command/address, 1 read data, 2 write
  data with walking one, 3 write data with PRBS31 (R292, R293). -/
  sweep : Table (BitVec 256) := []
  /-- The verify run at the present delays: done, and its lanes in error (R292 step 6). -/
  verified : Bool := false
  verifyBad : List Nat := []
  pcs : Table Pc := []
  chans : Table Chan := []
  /-- Metadata cache: metadata line and dirty, most recently used first (R276). -/
  md : List (Nat × Bool) := []
  arrivals : Nat := 0
  spareUsed : BitVec 14 := 0
  spareCfg : BitVec 32 := 0x199A
  /-- Retired pages to their spare, the page being moved with its spare and copy pointer, bad spares. -/
  retired : Table (Option Nat) := []
  moving : Option (Nat × Nat × Nat) := none
  movingCh : Nat := 0
  /-- Lines of retired pages that were dirty in the line store and move at their eviction (R314 step 3). -/
  lateLines : List Nat := []
  badSpares : List Nat := []
  deriving DecidableEq, Repr

/-! ### Edge units, objects, regions -/

/-- A waiter record (R254): kind 0 available, 1 space, 2 barrier; `n` the count or the PHASE. -/
structure Waiter where
  obj : Nat
  c : Nat
  kind : Nat
  n : Nat
  deriving DecidableEq, Repr

/-- A synchronization object (R240). `param` is BOUND or PARTICIPANTS. -/
structure SyncObj where
  mode : ObjMode := .unconfigured
  produced : BitVec 64 := 0
  consumed : BitVec 64 := 0
  param : BitVec 32 := 0
  round : BitVec 32 := 0
  arr0 : BitVec 16 := 0
  arr1 : BitVec 16 := 0
  bm0 : BitVec 64 := 0
  bm1 : BitVec 64 := 0
  lastFault : BitVec 4 := 0
  faults : BitVec 16 := 0
  deriving DecidableEq, Repr

/-- A slot of a snapshot region (R97, R98). -/
structure Slot where
  st : SlotSt := .free
  ver : BitVec 32 := 0
  parent : Option Nat := none
  deriving DecidableEq, Repr

/-- A COMMIT (R106): the committing host's write, version; running with the slot it seals and the homes awaited. -/
structure Commit where
  o : Origin
  ver : BitVec 32
  old : Nat
  new : Nat
  await : List Nat
  /-- Homes that have sealed (R106 step 3). -/
  sealed : List Nat
  waitFree : Bool
  deriving DecidableEq, Repr

/-- A snapshot region (R94–R119). -/
structure Region where
  created : Bool := false
  p : Nat := 0
  base : Nat := 0
  v : Nat := 0
  q : Nat := 0
  slots : Table Slot := []
  newest : Option Nat := none
  newestVer : BitVec 32 := 0
  working : Nat := 0
  refusal : BitVec 4 := 0
  commit : Option Commit := none
  queue : List Commit := []
  /-- Retirement running: slot and homes awaited; retirements waiting. -/
  retire : Option (Nat × List Nat) := none
  retireQ : List Nat := []
  /-- Homes at work on the running retirement: 1 walking, 2 walked (R114). -/
  retireAt : Table Nat := []
  commits : BitVec 32 := 0
  copies : BitVec 32 := 0
  poolEmpty : BitVec 32 := 0
  /-- A forced or graceful SNAP_DESTROY that waits for the running commit: mailbox. -/
  destroy : Option Nat := none
  deriving DecidableEq, Repr

/-- An edge unit (R105, R254): open table (host, region, slot) and waiter table. -/
structure Edge where
  opens : List (Nat × Nat × Nat) := []
  waiters : List Waiter := []
  deriving DecidableEq, Repr

/-! ### Ports and traffic -/

/-- A link virtual channel of a port (R379). -/
structure Vc where
  consumed : BitVec 16 := 0
  limit : BitVec 16 := 0
  returned : BitVec 16 := 0
  /-- The count as the last header that carried the channel gave it (R381). -/
  sentCrd : BitVec 16 := 0
  /-- Units of the receive buffer that are free, and that hold packets (R379). -/
  room : Nat := 0
  used : Nat := 0
  /-- Slots of the packet in reassembly, in order, and how many are still to come (R371). -/
  part : List (BitVec 128) := []
  need : Nat := 0
  /-- Slots of a packet that is partly sent, and its partition (R371). -/
  rest : List (BitVec 128) := []
  restPtn : Nat := 0
  deriving DecidableEq, Repr

/-- A capture entry (R388): the tag bits and the flit. -/
structure CapEnt where
  sent : Bool
  crcBad : Bool
  masked : Bool
  trigger : Bool
  rep : Bool
  violation : BitVec 8
  no : BitVec 32
  f : Flit
  deriving DecidableEq, Repr

/-- A fair queue (R424): packets with tags, oldest first. -/
structure FairQ where
  weight : BitVec 32 := 1
  sent : BitVec 32 := 0
  pkts : List (EgPkt × BitVec 32) := []
  f : BitVec 32 := 0
  deriving DecidableEq, Repr

/-- A token bucket's tokens in 2^−16 B and the carried remainder (R419). -/
structure Bucket where
  tok : Nat := 0
  rem : Nat := 0
  deriving DecidableEq, Repr

/-- A shaper (R425); BURST in 64 B units. -/
structure Shaper where
  en : Bool := false
  rate : Nat := 0
  burst : Nat := 0
  b : Bucket := {}
  holds : BitVec 32 := 0
  deriving DecidableEq, Repr

/-- A meter (R418, R430). -/
structure Meter where
  cir : BitVec 32 := 0
  pir : BitVec 32 := 0
  cbs : BitVec 32 := 0
  pbs : BitVec 32 := 0
  green : BitVec 32 := 0
  yellow : BitVec 32 := 0
  red : BitVec 32 := 0
  c : Bucket := {}
  p : Bucket := {}
  deriving DecidableEq, Repr

/-- Counters of a port (R390). -/
structure PortCnt where
  fecCorr : BitVec 32 := 0
  fecUncorr : BitVec 32 := 0
  crcErr : BitVec 32 := 0
  dupDiscard : BitVec 32 := 0
  gapDiscard : BitVec 32 := 0
  replays : BitVec 32 := 0
  retrains : BitVec 32 := 0
  downs : BitVec 32 := 0
  egressDiscard : BitVec 32 := 0
  creditStall : BitVec 32 := 0
  deriving DecidableEq, Repr

/-- Capture of a port (R387, R390). -/
structure Cap where
  cfg : BitVec 32 := 2
  mtch : BitVec 32 := 0
  ep : BitVec 32 := 0
  epMask : BitVec 32 := 0
  st : BitVec 2 := 0
  ents : List CapEnt := []
  trigIndex : Nat := 0
  post : Nat := 0
  sel : BitVec 10 := 0
  deriving DecidableEq, Repr

/-- Ingress and link-layer state of a port. -/
structure Port where
  cfg : BitVec 32 := 0x100
  en : Bool := false
  link : LinkSt := .disabled
  width : Nat := 0
  groups : BitVec 4 := 0
  lastDown : BitVec 4 := 0
  laser : BitVec 8 := 0
  localPass : BitVec 4 := 0
  peerPass : BitVec 4 := 0
  replayTmo : BitVec 32 := 0xFA0
  retrainTmo : BitVec 32 := 0x30D4
  stallTmo : BitVec 32 := 0x61A8
  retry : BitVec 32 := 0x64
  credInit0 : BitVec 32 := 0x0000FFFF
  credInit1 : BitVec 32 := 0x0400C000
  next : BitVec 16 := 0
  oldest : BitVec 16 := 0
  expected : BitVec 16 := 0
  /-- Replay buffer: unacknowledged payload flits, oldest first, with the partition of the packet that each continues. -/
  buf : List (Flit × Nat) := []
  /-- Flits of a replay still to send. -/
  replaying : List (Flit × Nat) := []
  replayCount : Nat := 0
  replayedSince : Bool := false
  askReplay : Bool := false
  crdVc : BitVec 2 := 0
  vcs : Table Vc := []
  /-- Requests that came on another channel than REQ and wait for the checks of R42: they hold no REQ buffer (R386). -/
  strays : List Req := []
  /-- Handshake of Init (R384): the peer's INIT recorded, one INIT that failed it, INIT_DONE sent, its end seen from the peer. -/
  initGot : Bool := false
  initBad : Bool := false
  doneSent : Bool := false
  doneGot : Bool := false
  /-- Resume after a retrain (R384): the groups are retrained, RESUME sent, the peer's end seen, a RESUME that failed it. -/
  resuming : Bool := false
  resumeSent : Bool := false
  resumeGot : Bool := false
  resumeBad : Bool := false
  /-- RETRAIN flits still to send, the cause of the retrain, NARROW as last logged. -/
  retrainLeft : Nat := 0
  retrainWhy : Nat := 0
  narrow : Bool := false
  rxNo : BitVec 32 := 0
  txNo : BitVec 32 := 0
  cnt : PortCnt := {}
  chkFirst : BitVec 8 := 0
  chkValid : Bool := false
  chkCount : BitVec 32 := 0
  cap : Cap := {}
  /-- Always-on fence table: fenced hosts, failed stacks (R88, R306). -/
  fence : List Nat := []
  stackFailed : BitVec 16 := 0
  /-- Extent-table copy, keyed `p * 1024 + i`. -/
  ext : Table Ext := []
  /-- Markers held: home, plane B, sequence number (R57). -/
  markers : List (Nat × Bool × BitVec 32) := []
  meters : Table Meter := []
  queues : Table FairQ := []
  shapers : Table Shaper := []
  vtime : BitVec 32 := 0
  bufPeak : BitVec 13 := 0
  answers : List EgPkt := []
  snoops : List EgPkt := []
  mgt : List EgPkt := []
  /-- Packets of a mirror port on REQ, in arrival order (R443). -/
  reqs : List EgPkt := []
  deriving DecidableEq, Repr

/-! ### Mesh -/

/-- A router (R393, R415): waiting packets and counters. -/
structure Router where
  bufs : List MeshPkt := []
  /-- Multicast packets partly sent, with the outputs that still await their copy (R406). -/
  mc : List (MeshPkt × List Nat) := []
  escapes : BitVec 32 := 0
  marks : BitVec 32 := 0
  mcFenced : BitVec 32 := 0
  deadDrop : BitVec 32 := 0
  deriving DecidableEq, Repr

/-- A route change in progress (R403): requesting mailbox, injection points whose markers have come, and the
image whose other sections are applied once the old copy is released. -/
structure RouteChange where
  ch : Option Nat
  markers : List Nat
  img : Option Image
  deriving DecidableEq, Repr

/-- Mesh globals (R402, R415). Route copies of epochs 0 and 1; `hostPort` is the endpoint-to-port table (both epochs);
`sunk` counts packets per epoch, `stamped` those that an injection point stamped with an epoch, keyed `point * 2 + epoch` (R403, R405). -/
structure Mesh where
  cfg : BitVec 32 := 0x00060100
  aimd : BitVec 32 := 0x0A040008
  cur : Bool := false
  drainTmo : BitVec 32 := 0xA
  fmEp : BitVec 32 := 0
  cmapSeq : BitVec 32 := 0
  cmapRefused : BitVec 32 := 0
  levels : Table (BitVec 2) := []
  r0 : Routes := ⟨[], [], [], [], [], 0⟩
  r1 : Routes := ⟨[], [], [], [], [], 0⟩
  hostPort : Table Nat := []
  change : Option RouteChange := none
  sunk : Table Nat := []
  stamped : Table Nat := []
  deriving DecidableEq, Repr

/-! ### Mirror -/

/-- A dedupe entry (R439): TAG, order number, answer opcode, completed. -/
structure Dedupe where
  tag : BitVec 14
  order : BitVec 48
  op : BitVec 6
  done : Bool
  deriving DecidableEq, Repr

/-- A pending replicated request (R436). -/
structure MirrPend where
  order : BitVec 48
  o : Origin
  q : Req
  op : BitVec 6
  reason : BitVec 4
  /-- The device left the cuff before the answer: it is never given (R447). -/
  dead : Bool
  deriving DecidableEq, Repr

/-- Mirror state of one partition (R447, R451). -/
structure Mirr where
  port : BitVec 3 := 0
  lease : BitVec 32 := 0x00050014
  st : MirrSt := .stale
  leaseEnd : Option Nat := none
  peer : BitVec 3 := 0
  peerOrder : BitVec 48 := 0
  peerEpoch : BitVec 32 := 0
  peerSeen : Bool := false
  peerLost : Bool := false
  epoch : BitVec 32 := 0
  order : BitVec 48 := 0
  reqNo : BitVec 32 := 0
  /-- REQ_NO, send tick and SOLO of the last four requests (R444). -/
  sends : List (BitVec 32 × Nat × Bool) := []
  pend : List MirrPend := []
  dedupe : Table (List Dedupe) := []
  seek : Bool := false
  releasing : Bool := false
  /-- Resync (R450): it runs, the extent and line of the walk, the stream has been sent (or its last packet received), packets not yet
  acknowledged, pages of the whole walk. -/
  rsOn : Bool := false
  rsEnt : Nat := 0
  rsLine : Nat := 0
  rsDone : Bool := false
  rsOut : Nat := 0
  rsPages : Nat := 0
  pagesLeft : BitVec 23 := 0
  hits : BitVec 32 := 0
  notHolder : BitVec 32 := 0
  deriving DecidableEq, Repr

/-- MIRR globals (R451). -/
structure MirrG where
  arbEp : BitVec 32 := 0
  selfEp : BitVec 32 := 0
  replTmo : BitVec 32 := 0x9C4
  resyncRate : BitVec 32 := 0xC8
  deriving DecidableEq, Repr

/-! ### Tiles -/

/-- Scalar and trap state of a sequencer (R158, R161, R188). -/
structure Seq where
  st : SeqSt := .halted
  /-- The address of the next fetch; the PC of R158 is its low 21 bits (R167, log 21). -/
  pc : BitVec 64 := 0
  x : Table (BitVec 64) := []
  cycle : BitVec 64 := 0
  fflags : BitVec 5 := 0
  satcnt : BitVec 64 := 0
  tvec : BitVec 64 := 0
  tcause : BitVec 9 := 0
  tpc : BitVec 64 := 0
  tinfo : BitVec 64 := 0
  inTrap : Bool := false
  dbl : Bool := false
  /-- Pending asynchronous causes (R189): TINFO of LS_UE, (channel, TINFO) of DMA_FAULT, TINFO of SYNC_FAULT. -/
  pendLs : Option (BitVec 64) := none
  pendDma : Table (Option (BitVec 64)) := []
  pendSync : Option (BitVec 64) := none
  /-- Destination of an SREAD that awaits its VALUE (R251). -/
  sread : Option Nat := none
  /-- The wait in progress (R250, R254): object, kind (0 available, 1 space, 2 barrier), count or phase. -/
  wait : Option (Nat × Nat × Nat) := none
  /-- Object and PHASE of the last SARR (R250). -/
  lastArr : Option (Nat × BitVec 2) := none
  /-- Unacknowledged operations (R253). -/
  unacked : List Nat := []
  /-- Channel and count of a DMAWAIT that has begun to wait (R181, R189). -/
  dmaWait : Option (Nat × BitVec 32) := none
  deriving DecidableEq, Repr

/-- A stationary tile in the array (R179): format, shape, columns as (elements, scale pair), poison. -/
structure StatTile where
  fmt : Nat
  shape : Nat
  cols : List (BitVec 1024 × BitVec 16)
  poison : Bool
  deriving DecidableEq, Repr

/-- An operation waiting in the array queue (R179). -/
inductive ArrOp where
  | tload (desc : BitVec 128) (shape : Nat)
  | tmul (bank : Nat) (desc : BitVec 128) (imm : BitVec 32)
  | azero (bank first rows : Nat)
  deriving DecidableEq, Repr

/-- Vector unit and array (R133, R158, R304). Accumulator rows are keyed `bank * 256 + row`. -/
structure Vec where
  v : Table VReg := []
  acc : Table VReg := []
  td : Table (BitVec 128) := []
  vPoison : List Nat := []
  accPoison : List Nat := []
  shadow : Option StatTile := none
  active : Option StatTile := none
  arrayQ : List ArrOp := []
  /-- The vector queue (R139): cluster cycles that each operation in it still takes; their effect came at issue (log 151). -/
  vecQ : List Nat := []
  deriving DecidableEq, Repr

/-- A line request of a DMA channel that is outstanding (R143): PLA line, write, back-off pending, local-store address,
offset and length of the bytes it covers, descriptor number; its home, or the tile of a PUSH; `dropped` when a DMARES has dropped its
descriptor (R181). -/
structure DmaLine where
  pla : BitVec 40
  write : Bool
  retry : Bool
  lsAddr : Nat
  off : Nat
  len : Nat
  desc : BitVec 32
  home : Nat := 0
  dropped : Bool := false
  /-- The request as issued, for its reissue (R145). -/
  q : Req
  deriving DecidableEq, Repr

/-- A descriptor in a channel (R141): its 256 bits and local-store address, and progress (row, byte within row). -/
structure DmaDesc where
  w : BitVec 256
  addr : Nat
  no : BitVec 32
  row : Nat
  col : Nat
  issued : Bool
  /-- Reached through CHAIN and not read yet (R181). -/
  unread : Bool
  deriving DecidableEq, Repr

/-- A DMA channel (R141, R156). -/
structure DmaChan where
  halted : Bool := false
  queue : List DmaDesc := []
  run : List DmaDesc := []
  lines : List DmaLine := []
  done : BitVec 32 := 0
  started : BitVec 32 := 0
  deriving DecidableEq, Repr

/-- The work item a cluster holds (R195, R227): partition, ring, descriptor index, cluster index, count, descriptor. Of a built-in
operation: the LENs of ATTEND, the lines read, the writes still to issue once they are known, its part of the command's counts, the draw
that names unspecified data (R218), whether its partial results are computed, those still to be pushed with the cluster index that combines
them, those of its own and of others (R233), and how far a COPY, FILL or REQUANT has come (R235). Of a kernel: the binary's header, whether it is
being loaded, and what is still to be read: PLA, local-store address, bytes (R195). `peers` are the command's tiles by cluster index. -/
structure Work where
  p : Nat
  r : Nat
  idx : BitVec 32
  ci : Nat
  count : Nat
  kernel : Bool
  desc : Line
  lens : List Nat := []
  /-- Status to report, once known (R228, R237); `told` when the dispatcher has taken the failure. -/
  status : Option (BitVec 8 × BitVec 32 × BitVec 64) := none
  told : Bool := false
  started : Bool := false
  rd : LineBuf := []
  wr : Option (List PoolWr) := none
  sat : Nat := 0
  nonf : Nat := 0
  poisonedOut : Nat := 0
  gotPoison : Bool := false
  seed : Nat := 0
  posted : Bool := false
  push : List (Nat × AttPart) := []
  parts : List AttPart := []
  cursor : Nat := 0
  hdr : Line := 0
  loading : Bool := false
  toLoad : List (Nat × Nat × Nat) := []
  peers : List Nat := []
  deriving DecidableEq, Repr

/-- A packet that waits in a tile's mesh-side buffer while the cluster is not Active (R155). -/
inductive InPkt where
  | ack (obj : Nat) (code : BitVec 4) (signal : Bool)
  | wake (obj : Nat)
  | value (v : BitVec 64)
  | dma (ch : Nat) (r : DmaResp)
  | push (k : PushPkt)
  | work
  deriving DecidableEq, Repr

/-- A tile: its cluster's registers (R156), units and mesh-side buffer. -/
structure Tile where
  power : PowerSt := .off
  waking : Bool := false
  logical : Nat := 0
  ptn : Nat := 0
  assigned : Bool := false
  en : Bool := false
  pwr : BitVec 32 := 0x00010400
  fDma : Bool := false
  fTrap : Bool := false
  fLsUe : Bool := false
  fDmaCh : BitVec 8 := 0
  fcCode : BitVec 16 := 0
  fcChan : BitVec 3 := 0
  fcMulti : Bool := false
  fcValid : Bool := false
  dmaTmo : BitVec 32 := 0x9C4
  winGen : BitVec 16 := 0
  dmaRetry : BitVec 32 := 0
  seq : Seq := {}
  vec : Vec := {}
  ls : Mem := []
  /-- Poisoned 64 B words of the local store (R304). -/
  lsPoison : List Nat := []
  chans : Table DmaChan := []
  work : Option Work := none
  /-- Packets waiting in the mesh-side buffer (R155). -/
  inbox : List InPkt := []
  /-- Window copy (R149): a VALID entry's PPA extent and TYPE. -/
  win : Table (Option (Nat × BitVec 2)) := []
  stackFailed : BitVec 16 := 0
  /-- DMA limiter (R411): rate in 1/256 GB/s and marks in the window. -/
  rate : Nat := 65536
  marks : Nat := 0
  level : Nat := 0
  offCount : Nat := 0
  /-- A sequencer reset runs (R503); with `resetCluster` it is part of a cluster reset (R504). -/
  resetting : Bool := false
  resetCluster : Bool := false
  deriving DecidableEq, Repr

/-! ### The device -/

/-- What a JTAG segment shows of its unit (R544): a cluster's local store, registers, queues, channels and poison bits; a router's buffers; a
home's directory slice, trackers and line store; a controller's queues, replay buffers and metadata cache; an edge unit's objects, waiter
table, dispatchers and open table; a port's link state, replay buffer and receive buffers. A segment that is refused shows nothing. -/
inductive Seg where
  | closed
  | cluster (ls : Mem) (poison : List Nat) (seq : Seq) (vec : Vec) (chans : Table DmaChan)
  | router (bufs : List MeshPkt)
  | home (dir : Table (Option DirEnt)) (trks : List Trk) (store : List (Nat × Bool × Line))
  | hbmc (pcs : Table Pc) (md : List (Nat × Bool))
  | edge (objs : Table SyncObj) (waiters : List Waiter) (disp : List (Nat × Table Ring × List Cmd)) (opens : List (Nat × Nat × Nat))
  | port (link : LinkSt) (replay : List Flit) (receive : List (Nat × List (BitVec 128)))
  deriving DecidableEq, Repr

/-- What the block sends, in the order of sending (`Core.out`). -/
inductive Msg where
  /-- A completion or nack to a host (R66, R67). -/
  | completion (c : Cmp)
  /-- A snoop through `port` to host `h` (R64). -/
  | snoop (e h port : Nat) (inv salvage : Bool) (pla : BitVec 40) (tag : BitVec 16)
  /-- A request that a port or tile forwards to home `e` (R42 step 7). -/
  | toHome (e : Nat) (o : Origin) (q : Req)
  /-- A window access forwarded to edge unit `e` (R46). -/
  | toEdge (e : Nat) (o : Origin) (q : Req)
  /-- An answer to a cluster's DMA request (R77, R151). -/
  | toCluster (c chan : Nat) (r : DmaResp)
  /-- A sync-port message (R252). -/
  | sync (m : SyncMsg)
  /-- A PUSH packet (R147) to tile `t`. -/
  | push (t : Nat) (k : PushPkt)
  /-- A revocation commit marker of home `e` to port `n` (R57). -/
  | commitMarker (e n : Nat) (seq : BitVec 32) (planeB : Bool)
  /-- Seal and retire markers to home `e` and their answers (R106, R114). -/
  | seal (e r old new : Nat) (ver : BitVec 32)
  | sealAnswer (e r : Nat)
  | retire (e r slot : Nat)
  | retireReport (e r : Nat)
  /-- FAULT_EVENT to host `h` through `port` (R307). -/
  | faultEvent (p h port cause : Nat) (seq : BitVec 32) (count : Nat) (detail : BitVec 32)
  /-- A unit reports a walk, a pass or a step done to its manager. -/
  | report (cls idx : Nat) (what p : Nat)
  /-- MSI-X message of a vector (R486); I3C in-band interrupt (R484). -/
  | msix (v : Nat)
  | ibi (cause : Nat)
  /-- The value a bus or window read returns. -/
  | readData (v : BitVec 64)
  /-- A refused or accepted I3C transfer, CCC answer (R484, R485). -/
  | i3c (v : BitVec 64)
  /-- Mirror and cuff packets (R441, R442). -/
  | cuffReq (p : Nat) (st : BitVec 3) (holding solo : Bool) (reqNo epoch : BitVec 32) (dur : BitVec 10)
  | cuffRelease (p : Nat) (epoch : BitVec 32)
  | peerState (p : Nat) (st : BitVec 3) (order : BitVec 48) (epoch : BitVec 32)
  | repl (p : Nat) (k : ReplPkt)
  | replAck (p : Nat) (order : BitVec 48) (answer : BitVec 6)
  | rsync (p : Nat) (k : RsyncPkt)
  | toMirror (p : Nat) (o : Origin) (q : Req)
  /-- A packet that port `n` has taken whole from its fibre on channel `vc`, for the checks of R42, its home, the port manager or the
  mirror engine (R371). -/
  | packet (n : Nat) (vc : BitVec 2) (k : FabricPkt)
  /-- A flit on the fibre of port `n` (R367). -/
  | flit (n : Nat) (f : Flit)
  /-- CMAP_DATA segment (R413). -/
  | cmapData (n seg : Nat) (seq : BitVec 32) (bytes : List (BitVec 8))
  /-- A mesh packet delivered by router `t` (R393), or the filter's answer DELIVERED_FENCED (R408). -/
  | delivered (t : Nat) (k : MeshPkt)
  | deliveredFenced (t : Nat) (k : MeshPkt)
  /-- A work item for a cluster, and a cluster's report (R195, R227). -/
  | workItem (t p : Nat) (r : Nat) (idx : BitVec 32)
  | abortWork (t : Nat)
  /-- A command to an HBM stack through pseudo-channel `pc`; `replay` marks one that is sent again (R277, R285). -/
  | hbm (e pc : Nat) (op : HbmOp) (replay : Bool)
  /-- A training run (R291): mode, pattern, the channels it covers, its length in 1,024 bursts, and the first 512 bits that the lane of
  TRN_LANE sends. -/
  | training (e mode pattern : Nat) (channels : BitVec 32) (len : Nat) (bits : BitVec 512)
  /-- A JTAG segment: its header and what it shows (R544, R545). -/
  | jtag (hdr : BitVec 32) (seg : Seg)
  /-- A DOE response object (R335). -/
  | doe (vendor : BitVec 16) (typ : BitVec 8) (words : List (BitVec 32))
  deriving DecidableEq, Repr

/-- Everything a chip reset clears or keeps by name (R510), beside the queue of commands. -/
structure Core where
  pins : Pins := {}
  /-- Number of free values drawn so far (the model's own field, log 3). -/
  fresh : Nat := 0
  /-- Messages sent, oldest first (the model's own field, log 4). -/
  out : List Msg := []
  evc : Evc := {}
  erl : Erl := {}
  /-- Persistent error log in the system area of each stack: 64 B records (R318), oldest first; it survives a chip reset, not the loss of power (R317). -/
  plog : Table (List (BitVec 512)) := []
  sec : Sec := {}
  glb : Glb := {}
  cfg : Cfg := {}
  pwr : Pwr := {}
  rst : Rst := {}
  rot : Rot := {}
  mbx : Table Mbx := []
  ptns : Table Ptn := []
  hosts : Table HostEnt := []
  homes : Table Home := []
  /-- Pool memory: the data bytes of the stacks, keyed by controller address before retirement (R270), in plain; the codeword that a line makes in
  the stack is derived from them (R297, R338). The system area lies at 0xE_0000_0000 of its stack. -/
  mem : Mem := []
  /-- Metadata flags of a line, keyed by controller address div 128 (R275). -/
  lineFlags : Table LineMeta := []
  hbmcs : Table Hbmc := []
  edges : Table Edge := []
  objs : Table SyncObj := []
  gateWait : BitVec 32 := 0x000101F4
  regions : Table Region := []
  ports : Table Port := []
  tmgr : BitVec 32 := 0x03E80100
  routers : Table Router := []
  mesh : Mesh := {}
  mirrs : Table Mirr := []
  mirrG : MirrG := {}
  tiles : Table Tile := []
  deriving DecidableEq, Repr

/-- The device: what survives a chip reset and what does not (R510). -/
structure Dev where
  perm : Perm := {}
  core : Core := {}
  deriving DecidableEq, Repr

/-- The block: the device and the queue of commands that wait, first in first out. -/
structure State where
  pending : List Instr
  dev : Dev
  deriving DecidableEq, Repr

/-- Why a command stops the machine. -/
inductive Fault where
  /-- Raised by any command except RESET_N_ASSERT, POWER_ON and POWER_DOWN after a rail left its tolerance in service and
  before RESET_N is asserted: "Until it does, the device's behaviour is not defined" (R561). Safe: the model stops. -/
  | behaviourNotDefined
  deriving DecidableEq, Repr

/-- Why a command has no meaning. -/
inductive Refusal where
  /-- A command whose meaning is not written yet; raised by the arms of `exec` alone. Safe: the model stops. -/
  | notModelled (mnemonic : String)
  deriving DecidableEq, Repr

/-- The block right after chip reset: RESET_N low, every unit Off, no command waiting (R509, R510, R514). -/
def State.reset : State := { pending := [], dev := {} }

end Sys2Proof.Machine
end

