-- ==== Sys2Proof/Machine/Packet.lean ====
section
/-! DEFINITION. The words of every packet: requests, snoops, responses, completions (R62–R66), sync-port messages (R252), fault events (R307),
MGT packets (R372, R413, R442), the mirror link's packets (R441), the mesh route header and the traffic each message is (R394, R395). -/

namespace Sys2Proof.Machine
open Sys2Proof

/-! ### Opcodes of answers (R62), the full mask -/

def opCmpData : BitVec 6 := 0x30
def opCmp : BitVec 6 := 0x31
def opNackRetry : BitVec 6 := 0x38
def opNackRevoked : BitVec 6 := 0x39
def opNackFenced : BitVec 6 := 0x3A
def opNackBusy : BitVec 6 := 0x3B

/-- Every mask bit set. -/
def fullMask : BitVec 128 := BitVec.allOnes 128

/-! ### Slots of four words, lines of eight slots (R371) -/

/-- Word `w` of a slot. -/
def slotWord (s : BitVec 128) (w : Nat) : BitVec 32 := BitVec.ofNat 32 (s.toNat >>> (32 * w))
/-- A slot of four words. -/
def slotOf (w0 w1 w2 w3 : Nat) : BitVec 128 :=
  BitVec.ofNat 32 w3 ++ BitVec.ofNat 32 w2 ++ BitVec.ofNat 32 w1 ++ BitVec.ofNat 32 w0

/-- A line as eight slots, and eight slots as a line; slots that are missing are zero. -/
def lineSlots (l : Line) : List (BitVec 128) := (List.range 8).map (fun i => (l >>> (128 * i)).setWidth 128)
def slotsLine (ss : List (BitVec 128)) : Line :=
  (List.range 8).foldl (fun l i => l ||| ((ss.getD i 0).setWidth 1024 <<< (128 * i))) 0

def opOf (s : BitVec 128) : Nat := field (slotWord s 0) 23 18
/-- A bit field of a word of a slot. -/
def slotField (s : BitVec 128) (w hi lo n : Nat) : BitVec n := BitVec.ofNat n (field (slotWord s w) hi lo)

/-! ### Requests (R63) -/

/-- The words of a request: header, mask of a WrPart, data where R62 lists data. -/
def reqWords (q : Req) : List (BitVec 128) :=
  slotOf (q.dst.toNat + q.op.toNat * 2 ^ 18 + q.pleat.toNat * 2 ^ 24 + q.hint.toNat * 2 ^ 27 + q.cls.toNat * 2 ^ 29 + q.ce.toNat * 2 ^ 31)
    (q.src.toNat + q.tag.toNat * 2 ^ 18) (q.pla.toNat % 2 ^ 32 / 128 * 128) (q.pla.toNat / 2 ^ 32) ::
  (if q.op = 9 then [q.mask] else []) ++ (if q.op = 8 ∨ q.op = 9 ∨ q.op = 10 then lineSlots q.data else [])

/-- A request read from its words; a whole-line write enables every byte. -/
def reqOf (ss : List (BitVec 128)) : Req :=
  let s := ss.headD 0
  let o := opOf s
  { op := BitVec.ofNat 6 o, dst := slotField s 0 17 0 18, src := slotField s 1 17 0 18, tag := slotField s 1 31 18 14,
    pleat := slotField s 0 26 24 3, hint := slotField s 0 28 27 2, cls := slotField s 0 30 29 2, ce := (slotWord s 0).getLsbD 31,
    pla := slotField s 3 7 0 8 ++ (slotField s 2 31 7 25 ++ 0#7),
    mask := if o = 9 then ss.getD 1 0 else if o = 8 ∨ o = 10 then fullMask else 0,
    data := if o = 9 then slotsLine (ss.drop 2) else if o = 8 ∨ o = 10 then slotsLine (ss.drop 1) else 0, poison := false }

/-! ### Snoops, responses, completions (R64–R66) -/

/-- A snoop (R64). -/
def snoopWords (dst src : BitVec 18) (inv salvage : Bool) (pla : BitVec 40) (tag : BitVec 16) : List (BitVec 128) :=
  [slotOf (dst.toNat + (if inv then 0x10 else 0x11) * 2 ^ 18 + salvage.toNat * 2 ^ 24) src.toNat (pla.toNat % 2 ^ 32 / 128 * 128)
    (pla.toNat / 2 ^ 32 + tag.toNat * 2 ^ 8)]

/-- A snoop response or CmpAck read from its words (R65): DIRTY and RETAINED belong to SnpAckData alone. -/
def responseOf (ss : List (BitVec 128)) : FabricPkt :=
  let s := ss.headD 0
  let o := opOf s
  .response (BitVec.ofNat 6 o) (slotField s 0 17 0 18) (slotField s 1 17 0 18) (slotField s 2 15 0 16)
    (decide (o = 0x22) && (slotWord s 0).getLsbD 24) (decide (o = 0x22) && (slotWord s 0).getLsbD 25)
    (if o = 0x22 then slotsLine (ss.drop 1) else 0)

/-- A completion (R66); CmpData carries its line. -/
def cmpWords (c : Cmp) : List (BitVec 128) :=
  slotOf (c.ep.toNat + c.op.toNat * 2 ^ 18 + c.grant.toNat * 2 ^ 24 + c.poison.toNat * 2 ^ 26 + c.ce.toNat * 2 ^ 27 + c.reason.toNat * 2 ^ 28)
    (c.src.toNat + c.tag.toNat * 2 ^ 18) (c.backoff.toNat + c.order.toNat / 2 ^ 32 * 2 ^ 16) (c.order.toNat % 2 ^ 32) ::
  (if c.op = opCmpData then lineSlots c.data else [])

/-! ### Sync-port messages (R252) -/

def syncWords (m : SyncMsg) : BitVec 128 :=
  slotOf (m.kind.toNat + m.obj % 4096 * 2 ^ 4 + m.cluster % 1024 * 2 ^ 16 + m.phase.toNat * 2 ^ 26 + m.sel.toNat * 2 ^ 28 + m.notify.toNat * 2 ^ 29)
    m.count.toNat (m.value.toNat % 2 ^ 32) (m.value.toNat / 2 ^ 32)

def syncOf (s : BitVec 128) : SyncMsg :=
  { kind := slotField s 0 3 0 4, obj := field (slotWord s 0) 15 4, cluster := field (slotWord s 0) 25 16, phase := slotField s 0 27 26 2,
    sel := (slotWord s 0).getLsbD 28, notify := (slotWord s 0).getLsbD 29, count := slotWord s 1, value := slotWord s 3 ++ slotWord s 2 }

/-! ### MGT packets (R307, R372, R413, R442) -/

/-- An MGT packet: its header and at most 15 payload slots (R372). -/
def mgtWords (typ : BitVec 4) (dst src : BitVec 18) (payload : List (BitVec 128)) : List (BitVec 128) :=
  slotOf (typ.toNat + min payload.length 15 * 2 ^ 4 + dst.toNat * 2 ^ 8) src.toNat 0 0 :: payload.take 15

def mgtOf (ss : List (BitVec 128)) : FabricPkt :=
  let s := ss.headD 0
  .mgt (slotField s 0 3 0 4) (slotField s 0 25 8 18) (slotField s 1 17 0 18) (ss.drop 1)

/-- Payload of FAULT_EVENT (R307). -/
def faultPayload (ep : BitVec 18) (cause : Nat) (seq : BitVec 32) (count : Nat) (detail : BitVec 32) : List (BitVec 128) :=
  [slotOf (ep.toNat + cause % 16 * 2 ^ 18) seq.toNat (min count 65535) detail.toNat]

/-- Payload of CMAP_READ: its segment; of CMAP_DATA: map sequence and segment, then 224 bytes of the map (R413). -/
def cmapReadSeg (payload : List (BitVec 128)) : BitVec 4 := slotField (payload.headD 0) 0 3 0 4
def cmapPayload (seq : BitVec 32) (seg : Nat) (bytes : List (BitVec 8)) : List (BitVec 128) :=
  slotOf seq.toNat seg 0 0 :: (List.range 14).map (fun s => BitVec.ofNat 128
    (((List.range 16).map (fun b => (bytes.getD (16 * s + b) 0).toNat * 2 ^ (8 * b))).sum))

/-- Payloads of CUFF_REQ, CUFF_RELEASE and PEER_STATE (R442). -/
def cuffReqPayload (ep : BitVec 18) (st : BitVec 3) (holding solo : Bool) (reqNo epoch : BitVec 32) (dur : BitVec 10) : List (BitVec 128) :=
  [slotOf (ep.toNat + st.toNat * 2 ^ 18 + holding.toNat * 2 ^ 21 + solo.toNat * 2 ^ 22) reqNo.toNat epoch.toNat dur.toNat]
def cuffReleasePayload (ep : BitVec 18) (epoch : BitVec 32) : List (BitVec 128) := [slotOf ep.toNat 0 epoch.toNat 0]
def peerStatePayload (ep : BitVec 18) (st : BitVec 3) (order : BitVec 48) (epoch : BitVec 32) : List (BitVec 128) :=
  [slotOf (ep.toNat + st.toNat * 2 ^ 18) (order.toNat % 2 ^ 32) (order.toNat / 2 ^ 32) epoch.toNat]

/-- Fields of CUFF_GRANT: GROUP_EP, REQ_NO, EPOCH, DURATION_MS; of PEER_STATE: GROUP_EP, STATE, last order, EPOCH (R442). -/
def cuffGrantOf (payload : List (BitVec 128)) : BitVec 18 × BitVec 32 × BitVec 32 × BitVec 10 :=
  let s := payload.headD 0
  (slotField s 0 17 0 18, slotWord s 1, slotWord s 2, slotField s 3 9 0 10)
def peerStateOf (payload : List (BitVec 128)) : BitVec 18 × BitVec 3 × BitVec 48 × BitVec 32 :=
  let s := payload.headD 0
  (slotField s 0 17 0 18, slotField s 0 20 18 3, slotField s 2 15 0 16 ++ slotWord s 1, slotWord s 3)

/-! ### The mirror link (R441) -/

/-- REPL: its header slot and the request of R63 as received. -/
def replWords (ep : BitVec 18) (k : ReplPkt) : List (BitVec 128) :=
  let r := reqWords k.q
  slotOf (ep.toNat + 0x3C * 2 ^ 18 + r.length * 2 ^ 24) (k.order.toNat % 2 ^ 32) (k.order.toNat / 2 ^ 32) k.epoch.toNat :: r

def replAckWords (ep : BitVec 18) (order : BitVec 48) (answer : BitVec 6) : List (BitVec 128) :=
  [slotOf (ep.toNat + 0x3D * 2 ^ 18) (order.toNat % 2 ^ 32) (order.toNat / 2 ^ 32 + answer.toNat * 2 ^ 16) 0]

/-- RSYNC: a line with its PLA in ANSWER, word 2 and ARG, or a state block with its index. -/
def rsyncWords (ep : BitVec 18) (k : RsyncPkt) : List (BitVec 128) :=
  match k.blk with
  | none =>
    slotOf (ep.toNat + 0x3E * 2 ^ 18 + k.slot.toNat * 2 ^ 29) (k.order.toNat % 2 ^ 32)
      (k.order.toNat / 2 ^ 32 + k.pla.toNat / 2 ^ 32 * 2 ^ 16) (k.pla.toNat % 2 ^ 32 / 128 * 128) :: lineSlots k.data
  | some b =>
    slotOf (ep.toNat + 0x3E * 2 ^ 18 + 2 ^ 28) (k.order.toNat % 2 ^ 32) (k.order.toNat / 2 ^ 32) k.block.toNat :: lineSlots (Config.stateBlock b)

/-- A packet of the mirror link read from its words. -/
def mirrOf (ss : List (BitVec 128)) : FabricPkt :=
  let s := ss.headD 0
  let ep : BitVec 18 := slotField s 0 17 0 18
  let order : BitVec 48 := slotField s 2 15 0 16 ++ slotWord s 1
  if opOf s = 0x3C then .repl ep ⟨order, slotWord s 3, reqOf (ss.drop 1)⟩
  else if opOf s = 0x3D then .replAck ep order (slotField s 2 21 16 6)
  else if (slotWord s 0).getLsbD 28 then .rsync ep ⟨order, some (Config.blockState (slotsLine (ss.drop 1))), slotWord s 3, 0, 0, 0⟩
  else .rsync ep ⟨order, none, 0, slotField s 0 31 29 3, slotField s 2 23 16 8 ++ (slotField s 3 31 7 25 ++ 0#7), slotsLine (ss.drop 1)⟩

/-! ### Packets of a port -/

/-- What a whole packet that arrives on channel `vc` says. A packet of REQ or RSP is read by its opcode (R386). -/
def packetOf (vc : Nat) (ss : List (BitVec 128)) : FabricPkt :=
  let o := opOf (ss.headD 0)
  if vc = 3 then mgtOf ss
  else if 1 ≤ o ∧ o ≤ 15 then .request (reqOf ss)
  else if o = 0x20 ∨ o = 0x21 ∨ o = 0x22 ∨ o = 0x28 then responseOf ss
  else if 0x3C ≤ o ∧ o ≤ 0x3E then mirrOf ss
  else .other

/-- The words of an egress packet, its link channel (R62, R371, R441), and its length in slots (R371). -/
def egWords (b : EgBody) : List (BitVec 128) :=
  match b with
  | .cmp c => cmpWords c
  | .snoop d s inv sal pla tag => snoopWords d s inv sal pla tag
  | .mgt typ d s pl => mgtWords typ d s pl
  | .repl ep k => replWords ep k
  | .replAck ep o a => replAckWords ep o a
  | .rsync ep k => rsyncWords ep k

def egVc : EgBody → Nat
  | .cmp _ => 2 | .snoop .. => 1 | .mgt .. => 3 | .repl .. => 0 | .replAck .. => 2 | .rsync .. => 0

def egLen (b : EgBody) : Nat :=
  match b with
  | .cmp c => if c.op = opCmpData then 9 else 1
  | .snoop .. => 1
  | .mgt _ _ _ pl => 1 + min pl.length 15
  | .repl _ k => 2 + (if k.q.op = 9 then 1 else 0) + (if k.q.op = 8 ∨ k.q.op = 9 ∨ k.q.op = 10 then 8 else 0)
  | .replAck .. => 1
  | .rsync .. => 9

/-- The traffic class of a response (R423): the CLASS of the request it answers, in bits [1:0] of word 63 of its mesh packet. -/
def egClass : EgBody → BitVec 2
  | .cmp c => c.cls
  | _ => 0

/-! ### Mesh traffic (R394, R395) -/

/-- Plane B, and the normal channel (0 = VN0, 1 = VN1), of a kind of traffic (R394). -/
def trPlaneB : Traffic → Bool
  | .request | .push | .syncReq | .windowWrite | .dispatch | .marker | .snoop | .commitA => false
  | .snpResp | .homeAnswer | .completion | .syncAns | .faultEvent | .commitB => true
def trChan : Traffic → Nat
  | .request | .push | .syncReq | .windowWrite | .dispatch | .marker | .snpResp | .homeAnswer => 0
  | .snoop | .commitA | .completion | .syncAns | .faultEvent | .commitB => 1

/-- Requests and completions carry CE (R63, R66, R409); a PUSH is a request (R394). -/
def trCe : Traffic → Bool
  | .request | .push | .completion => true
  | _ => false

/-- The kind of mesh traffic that a message is; none for what does not cross the mesh (R394). -/
def trafficOf : Msg → Option Traffic
  | .completion _ | .toCluster .. => some .completion
  | .snoop .. => some .snoop
  | .toHome .. => some .request
  | .toEdge .. | .toMirror .. => some .windowWrite
  | .sync m => some (if 9 ≤ m.kind.toNat ∧ m.kind.toNat ≤ 11 then .syncAns else .syncReq)
  | .push .. => some .push
  | .commitMarker _ _ _ b => some (if b then .commitB else .commitA)
  | .seal .. | .retire .. => some .marker
  | .sealAnswer .. | .retireReport .. => some .homeAnswer
  | .faultEvent .. => some .faultEvent
  | .workItem .. | .abortWork _ => some .dispatch
  | _ => none

/-- The route header (R395): word 0 in the low half, word 1 in the high. -/
def routeHeader (k : MeshPkt) : BitVec 64 :=
  BitVec.ofNat 32 (k.src % 1024 + k.srcKind.toNat * 2 ^ 10) ++
  BitVec.ofNat 32 ((if k.kind = 3 then 0 else k.dst % 1024) + k.kind.toNat * 2 ^ 10 + k.key % 5 * 2 ^ 12 + k.epoch.toNat * 2 ^ 15 + k.esc.toNat * 2 ^ 16 +
    (if k.kind = 3 then k.tree % 64 else 0) * 2 ^ 17 + k.ackReq.toNat * 2 ^ 23)

end Sys2Proof.Machine
end

