-- ==== Sys2Proof/Machine/Ops.lean ====
section
/-! DEFINITION. The named operations over tables, memory and units of the device, the shape every command's meaning has,
the error log, interrupts, service requests, fault events, event counters and free values. -/

namespace Sys2Proof.Machine
open Sys2Proof

/-! ### Tables -/

/-- The record of number `k`; `d` where the table lists none. -/
def tget (d : α) (k : Nat) : Table α → α
  | [] => d
  | (i, a) :: r => if i = k then a else tget d k r

/-- The table without number `k`. -/
def tdel (k : Nat) : Table α → Table α
  | [] => []
  | (i, a) :: r => if i = k then tdel k r else (i, a) :: tdel k r

/-- A record put in its place by number. -/
def tins (k : Nat) (v : α) : Table α → Table α
  | [] => [(k, v)]
  | (i, a) :: r => if k < i then (k, v) :: (i, a) :: r else (i, a) :: tins k v r

/-- The table whose record of number `k` is `v`; the default value `d` is not listed. -/
def tput [DecidableEq α] (d : α) (k : Nat) (v : α) (t : Table α) : Table α :=
  if v = d then tdel k t else tins k v (tdel k t)

/-- Numbers strictly rising. -/
def rising : List Nat → Bool
  | [] => true
  | [_] => true
  | a :: b :: r => decide (a < b) && rising (b :: r)

/-- The canonical form of a table: numbers strictly rising, no record equal to the default. -/
def twf [DecidableEq α] (d : α) (t : Table α) : Bool :=
  rising (t.map Prod.fst) && t.all (fun e => decide (e.2 ≠ d))

/-! ### Memory: bytes by address; an address that nothing has written reads as zero (log 5) -/

/-- The canonical form of a memory. -/
def memWf (m : Mem) : Bool := twf (0 : BitVec 8) m

/-- One byte. -/
def rdByte (m : Mem) (a : Nat) : BitVec 8 := tget 0 a m

/-- One byte written. -/
def wrByte (m : Mem) (a : Nat) (b : BitVec 8) : Mem := tput 0 a b m

/-- `n` bytes as a little-endian number (R5). -/
def rdLE (m : Mem) (a : Nat) : Nat → Nat
  | 0 => 0
  | n + 1 => (rdByte m a).toNat + 256 * rdLE m (a + 1) n

/-- The low `n` bytes of `v` written, least significant first (R5). -/
def wrLE (m : Mem) (a : Nat) : Nat → Nat → Mem
  | 0, _ => m
  | n + 1, v => wrLE (wrByte m a (BitVec.ofNat 8 v)) (a + 1) n (v / 256)

/-- Bytes `a` to `a + n − 1` written as zero (R348, R350). -/
def zeroRange (m : Mem) (a n : Nat) : Mem := m.filter (fun c => !(decide (a ≤ c.1) && decide (c.1 < a + n)))

/-- A 128 B line. -/
def rdLine (m : Mem) (a : Nat) : Line := BitVec.ofNat 1024 (rdLE m a 128)

/-- Byte `b` of a line. -/
def lineByte (l : Line) (b : Nat) : BitVec 8 := BitVec.ofNat 8 (l.toNat >>> (8 * b))

/-- The bytes of a line that a mask enables, bit `b` for byte `b` (R63), written from byte `b` up. -/
def wrMasked (m : Mem) (a : Nat) (l : Line) (mask : BitVec 128) : Nat → Nat → Mem
  | _, 0 => m
  | b, n + 1 => wrMasked (if mask.getLsbD b then wrByte m (a + b) (lineByte l b) else m) a l mask (b + 1) n

/-- A whole line written. -/
def wrLine (m : Mem) (a : Nat) (l : Line) : Mem := wrLE m a 128 l.toNat

/-- A line with the masked bytes of `new` over `old`. -/
def mergeLine (old new : Line) (mask : BitVec 128) : Nat → Line
  | 0 => old
  | n + 1 =>
    let r := mergeLine old new mask n
    if mask.getLsbD n then
      (r &&& ~~~((BitVec.ofNat 1024 0xFF) <<< (8 * n))) ||| ((lineByte new n).setWidth 1024 <<< (8 * n))
    else r

/-! ### The shape of a meaning -/

/-- A command's effect on the device. After a rail left its tolerance in service, the device's behaviour is not
defined until RESET_N is asserted (R561). -/
def act (s : State) (f : Dev → Dev) : Host.Outcome State Fault Refusal :=
  if s.dev.core.pins.railFault then .fault .behaviourNotDefined else .next { s with dev := f s.dev }

/-- A command that leaves fuses, flash and RST_CAUSE as they are. -/
def actCore (s : State) (f : Core → Core) : Host.Outcome State Fault Refusal :=
  act s (fun d => { d with core := f d.core })

/-! ### Units by number -/

def Core.mb (c : Core) (ch : Nat) : Mbx := tget {} ch c.mbx
def Core.setMb (c : Core) (ch : Nat) (x : Mbx) : Core := { c with mbx := tput {} ch x c.mbx }
def Core.ptn (c : Core) (p : Nat) : Ptn := tget {} p c.ptns
def Core.setPtn (c : Core) (p : Nat) (x : Ptn) : Core := { c with ptns := tput {} p x c.ptns }
def Core.host (c : Core) (h : Nat) : HostEnt := tget {} h c.hosts
def Core.setHost (c : Core) (h : Nat) (x : HostEnt) : Core := { c with hosts := tput {} h x c.hosts }
def Core.home (c : Core) (e : Nat) : Home := tget {} e c.homes
def Core.setHome (c : Core) (e : Nat) (x : Home) : Core := { c with homes := tput {} e x c.homes }
def Core.hbmc (c : Core) (e : Nat) : Hbmc := tget {} e c.hbmcs
def Core.setHbmc (c : Core) (e : Nat) (x : Hbmc) : Core := { c with hbmcs := tput {} e x c.hbmcs }
def Core.edge (c : Core) (e : Nat) : Edge := tget {} e c.edges
def Core.setEdge (c : Core) (e : Nat) (x : Edge) : Core := { c with edges := tput {} e x c.edges }
def Core.obj (c : Core) (o : Nat) : SyncObj := tget {} o c.objs
def Core.setObj (c : Core) (o : Nat) (x : SyncObj) : Core := { c with objs := tput {} o x c.objs }
def Core.region (c : Core) (r : Nat) : Region := tget {} r c.regions
def Core.setRegion (c : Core) (r : Nat) (x : Region) : Core := { c with regions := tput {} r x c.regions }
def Core.port (c : Core) (n : Nat) : Port := tget {} n c.ports
def Core.setPort (c : Core) (n : Nat) (x : Port) : Core := { c with ports := tput {} n x c.ports }
def Core.router (c : Core) (t : Nat) : Router := tget {} t c.routers
def Core.setRouter (c : Core) (t : Nat) (x : Router) : Core := { c with routers := tput {} t x c.routers }
def Core.mirr (c : Core) (p : Nat) : Mirr := tget {} p c.mirrs
def Core.setMirr (c : Core) (p : Nat) (x : Mirr) : Core := { c with mirrs := tput {} p x c.mirrs }
def Core.tile (c : Core) (t : Nat) : Tile := tget {} t c.tiles
def Core.setTile (c : Core) (t : Nat) (x : Tile) : Core := { c with tiles := tput {} t x c.tiles }
def Core.keys (c : Core) (p : Nat) : Keys := tget {} p c.sec.keys
def Core.setKeys (c : Core) (p : Nat) (x : Keys) : Core :=
  { c with sec := { c.sec with keys := tput {} p x c.sec.keys } }
def Core.mgr (c : Core) (m : Nat) : Mgr := tget {} m c.rot.mgrs
def Core.setMgr (c : Core) (m : Nat) (x : Mgr) : Core :=
  { c with rot := { c.rot with mgrs := tput {} m x c.rot.mgrs } }

/-- The unit of a class (R316) and index. -/
def Core.unit (c : Core) (cls i : Nat) : UnitRec := tget {} (cls * 4096 + i) c.rot.units
def Core.setUnit (c : Core) (cls i : Nat) (u : UnitRec) : Core :=
  { c with rot := { c.rot with units := tput {} (cls * 4096 + i) u c.rot.units } }
/-- The unit state (R454). -/
def Core.ust (c : Core) (cls i : Nat) : UnitSt := (c.unit cls i).st
def Core.modUst (c : Core) (cls i : Nat) (st : UnitSt) : Core := c.setUnit cls i { c.unit cls i with st := st }

def Core.modPort (c : Core) (n : Nat) (f : Port → Port) : Core := c.setPort n (f (c.port n))
def Core.modHome (c : Core) (e : Nat) (f : Home → Home) : Core := c.setHome e (f (c.home e))
def Core.modHbmc (c : Core) (e : Nat) (f : Hbmc → Hbmc) : Core := c.setHbmc e (f (c.hbmc e))
def Core.modPtn (c : Core) (p : Nat) (f : Ptn → Ptn) : Core := c.setPtn p (f (c.ptn p))
def Core.modTile (c : Core) (t : Nat) (f : Tile → Tile) : Core := c.setTile t (f (c.tile t))
def Core.modMirr (c : Core) (p : Nat) (f : Mirr → Mirr) : Core := c.setMirr p (f (c.mirr p))
def Core.modObj (c : Core) (o : Nat) (f : SyncObj → SyncObj) : Core := c.setObj o (f (c.obj o))
def Core.modEdge (c : Core) (e : Nat) (f : Edge → Edge) : Core := c.setEdge e (f (c.edge e))
def Core.modHost (c : Core) (h : Nat) (f : HostEnt → HostEnt) : Core := c.setHost h (f (c.host h))
def Core.modRouter (c : Core) (t : Nat) (f : Router → Router) : Core := c.setRouter t (f (c.router t))
def Core.modMb (c : Core) (ch : Nat) (f : Mbx → Mbx) : Core := c.setMb ch (f (c.mb ch))
def Core.modKeys (c : Core) (p : Nat) (f : Keys → Keys) : Core := c.setKeys p (f (c.keys p))
def Core.modUnit (c : Core) (cls i : Nat) (f : UnitRec → UnitRec) : Core := c.setUnit cls i (f (c.unit cls i))
def Core.modRot (c : Core) (f : Rot → Rot) : Core := { c with rot := f c.rot }
def Core.modGlb (c : Core) (f : Glb → Glb) : Core := { c with glb := f c.glb }
def Core.modSec (c : Core) (f : Sec → Sec) : Core := { c with sec := f c.sec }
def Core.modPwr (c : Core) (f : Pwr → Pwr) : Core := { c with pwr := f c.pwr }
def Core.modMesh (c : Core) (f : Mesh → Mesh) : Core := { c with mesh := f c.mesh }
def Core.modErl (c : Core) (f : Erl → Erl) : Core := { c with erl := f c.erl }
def Core.modEvc (c : Core) (f : Evc → Evc) : Core := { c with evc := f c.evc }
def Core.modRegion (c : Core) (r : Nat) (f : Region → Region) : Core := c.setRegion r (f (c.region r))

/-- Each number of a list, in order. -/
def forEach (l : List Nat) (f : Nat → Core → Core) (c : Core) : Core := l.foldl (fun c i => f i c) c

/-- A message sent. -/
def Core.send (c : Core) (m : Msg) : Core := { c with out := c.out ++ [m] }

/-- A free value and the counter moved on (log 3). -/
def Core.free (c : Core) : BitVec 1024 × Core := (Config.freeValue c.fresh, { c with fresh := c.fresh + 1 })

/-! ### The part (R1, R10–R15, R35) -/

/-- Enabled clusters N of a part. -/
def partClusters (part : Nat) : Nat := if part = 0 then 800 else if part = 1 then 640 else 400
/-- Present stacks n, and per field m (R35). -/
def partStacks (part : Nat) : Nat := if part = 0 then 16 else if part = 1 then 12 else 8
def partPorts (part : Nat) : Nat := if part = 0 then 8 else if part = 1 then 6 else 4

/-- Field of a tile, of an edge stop (R10, R13). -/
def tileField (t : Nat) : Nat := t % 40 / 10
def stopField (e : Nat) : Nat := e % 8 / 2

/-- Numbers below `n` whose bit is set, ascending. -/
def bitsOf (n : Nat) (w : BitVec k) : List Nat := (List.range n).filter (fun i => w.getLsbD i)

/-- Stacks the part has, and the stacks of one field (R35). -/
def Fuses.stacks (f : Fuses) : List Nat := bitsOf 16 f.stackPresent
def Fuses.fieldStacks (f : Fuses) (fld : Nat) : List Nat := f.stacks.filter (fun e => stopField e = fld)
/-- Candidate tiles of a field (R517). -/
def Fuses.candidates (f : Fuses) (fld : Nat) : List Nat :=
  (List.range 840).filter (fun t => decide (tileField t = fld) && !(f.tileBad.getLsbD t) && !(f.tileOff.getLsbD t))

/-! ### Interrupts (R486) -/

/-- A cause's event: its bit is set; on its rise the vector's message is sent when the cause is enabled and the
vector not masked. A masked vector keeps its event in the pending-bit array (log 20). -/
def raiseInt (v : Nat) (c : Core) : Core :=
  let g := c.glb
  if g.intStatus.getLsbD v then c
  else
    let c := { c with glb := { g with intStatus := g.intStatus ||| (1#64 <<< v) } }
    if !(g.intEn.getLsbD v) then c
    else if (tget 1 (4 * v + 3) g.msix).getLsbD 0 then { c with glb := { c.glb with pba := c.glb.pba ||| (1#64 <<< v) } }
    else c.send (.msix v)

/-- An I3C in-band interrupt of cause 0 (service request), 1 (log), 2 (RoT restart), unless disabled (R484, log 17). -/
def ibi (k : Nat) (c : Core) : Core :=
  if c.glb.i3cEv.getLsbD k then c else c.send (.ibi k)

/-- A service cause (R528): a new one sends vector 17 and the in-band interrupt. -/
def raiseService (bit : Nat) (c : Core) : Core :=
  if c.glb.service.getLsbD bit then c
  else ibi 0 (raiseInt 17 { c with glb := { c.glb with service := c.glb.service ||| (1#12 <<< bit) } })

/-- A service cause that ends (R528). -/
def clearService (bit : Nat) (c : Core) : Core :=
  { c with glb := { c.glb with service := c.glb.service &&& ~~~(1#12 <<< bit) } }

/-- A condition of R319: its bit of ERL_SERVICE and the DATA cause. -/
def raiseErlService (bit : Nat) (c : Core) : Core :=
  raiseService 0 { c with erl := { c.erl with service := c.erl.service ||| (1#5 <<< bit) } }

/-! ### The error log (R316, R317, R572) -/

/-- Severity of a log code. -/
def sevOf (code : Nat) : Nat :=
  if code ∈ [0x0903, 0x0904, 0x0905, 0x0A07, 0x0A08, 0x0A0B, 0x0B02, 0x0D03, 0x0E04, 0x0F04, 0x1105, 0x1107] then 3
  else if code ∈ [0x0303, 0x0304, 0x0901, 0x0902, 0x0A01, 0x0A04, 0x0A0A, 0x0C03, 0x0F08, 0x1003, 0x1103] then 1
  else if code ∈ [0x0306, 0x0803, 0x0A05, 0x0B03, 0x0B04, 0x0B05, 0x0B06, 0x0C01, 0x0D01, 0x0E05, 0x0F06, 0x1005, 0x1007,
    0x1101, 0x1203] then 0
  else 2

/-- Fields (width, value) packed without gaps from bit 0 up; a count saturates at its width (R572). -/
def packFields : List (Nat × Nat) → Nat
  | [] => 0
  | (w, v) :: r => min v (2 ^ w - 1) + 2 ^ w * packFields r

/-- Bits that a list of fields takes. -/
def fieldBits (l : List (Nat × Nat)) : Nat := (l.map Prod.fst).sum

/-- A list of items (R572): a 16-bit count, then the first four. -/
def listFields (l : List Nat) : List (Nat × Nat) := (16, l.length) :: (l.take 4).map (fun u => (16, u))

/-- The manager that governs a unit (R21): 0–3 field, 4 port, 5 memory, 6 the RoT itself. -/
def managerOf (cls i : Nat) : Nat :=
  if cls = 4 ∨ cls = 5 then tileField i else if cls = 9 ∨ cls = 2 then 4 else if cls = 6 ∨ cls = 7 ∨ cls = 8 ∨ cls = 3 then 5
  else if cls = 1 then i else 6

/-- The entries of one event: the entry and its continuations, SEQ still open. -/
def logEntries (code cls i : Nat) (p : Option Nat) (fs : List (Nat × Nat)) (tick : BitVec 64) : List LogEntry :=
  let k := max 1 (ceilDiv (fieldBits fs) 96)
  (List.range k).map (fun j =>
    { code := code, sev := sevOf code, ptn := p, cont := decide (j ≠ 0), tick := tick, unit := i, cls := cls, count := 1,
      payload := BitVec.ofNat 96 (packFields fs >>> (96 * j)) })

/-- The 32 bytes of an entry (R316), and its 64 B record in the persistent log: the entry, its CRC-32 and reserved zeros (R318). -/
def LogEntry.bits (x : LogEntry) : Nat :=
  x.code % 2 ^ 16 + x.sev % 4 * 2 ^ 16 + (x.ptn.getD 0) % 32 * 2 ^ 18 + x.ptn.isSome.toNat * 2 ^ 23 + x.cont.toNat * 2 ^ 24 + x.seq.toNat * 2 ^ 32 +
  x.tick.toNat * 2 ^ 64 + x.unit % 4096 * 2 ^ 128 + x.cls % 16 * 2 ^ 140 + x.count.toNat * 2 ^ 144 + x.payload.toNat * 2 ^ 160
def logRecord (x : LogEntry) : BitVec 512 := BitVec.ofNat 512 (x.bits + (crc32 (bytesLE 32 x.bits)).toNat * 2 ^ 256)
/-- A record whose CRC is right. -/
def recordOk (w : BitVec 512) : Bool := decide ((w >>> 256).setWidth 32 = crc32 (bytesLE 32 (w.toNat % 2 ^ 256)))

/-- The stack that holds the persistent log: the lowest present one that is not unused (R317, R523). -/
def logStack (c : Core) : Option Nat := c.glb.fuse.stacks.find? (fun e => !c.glb.unused.getLsbD e)

/-- A record put at the end of the persistent log, which keeps 65,536 (R317). -/
def persist (x : LogEntry) (c : Core) : Core :=
  match logStack c with
  | some e => { c with plog := tput [] e (((tget [] e c.plog) ++ [logRecord x]).drop ((tget [] e c.plog).length + 1 - 65536)) c.plog }
  | none => c

/-- Entries written to the ring, or dropped together when they do not fit (R317); errors and fatal entries are copied to
the persistent log, which keeps 65,536 records. -/
def writeEntries (l : List LogEntry) (c : Core) : Core :=
  if 1024 < mdiff 32 c.erl.head.toNat c.erl.tail.toNat + l.length then
    { c with erl := { c.erl with dropped := c.erl.dropped + BitVec.ofNat 32 l.length } }
  else
    l.foldl (fun c x =>
      let x := { x with seq := c.erl.head }
      let c := { c with erl := { c.erl with ring := tput {} (c.erl.head.toNat % 1024) x c.erl.ring, head := c.erl.head + 1 } }
      if 2 ≤ x.sev then persist x c else c) c

/-- The log interrupt of an entry of severity `sev` (R316, R484). -/
def logInterrupt (sev : Nat) (c : Core) : Core :=
  if c.erl.intCfg.getLsbD 16 && decide (field c.erl.intCfg 1 0 ≤ sev) then ibi 1 (raiseInt 16 c) else c

/-- An entry whose ring place the driver has not consumed (R317). -/
def unconsumed (c : Core) (seq : BitVec 32) : Bool :=
  decide (1 ≤ mdiff 32 c.erl.head.toNat seq.toNat) &&
  decide (mdiff 32 c.erl.head.toNat seq.toNat ≤ mdiff 32 c.erl.head.toNat c.erl.tail.toNat)

/-- An event's entries written by the RoT: coalesced when it is a correction, or PORT_CHECK (R386), with an open window, else new (R317). -/
def recordEvent (es : List LogEntry) (c : Core) : Core :=
  let x := es.headD {}
  let (code, cls, i) := (x.code, x.cls, x.unit)
  let full := decide (1024 < mdiff 32 c.erl.head.toNat c.erl.tail.toNat + es.length)
  let opened (wins : List LogWin) (c : Core) : Core :=
    let c' := writeEntries es c
    if full then c' else logInterrupt (sevOf code) { c' with erl := { c'.erl with logWins := wins ++ [⟨code, cls, i, c.erl.head⟩] } }
  if sevOf code = 1 ∨ code = 0x0C06 then
    match c.erl.logWins.find? (fun w => decide (w.code = code ∧ w.cls = cls ∧ w.unit = i)) with
    | some w =>
      if unconsumed c w.seq then
        let k := w.seq.toNat % 1024
        let x := tget {} k c.erl.ring
        { c with erl := { c.erl with
            ring := tput {} k { x with count := if x.count = 0xFFFF then 0xFFFF else x.count + 1 } c.erl.ring } }
      else opened (c.erl.logWins.filter (fun w => !(decide (w.code = code ∧ w.cls = cls ∧ w.unit = i)))) c
    | none => opened c.erl.logWins c
  else
    let c' := writeEntries es c
    if full then c' else logInterrupt (sevOf code) c'

/-- A log entry. While the RoT restarts, the managers hold up to 256 entries each and further ones are dropped (R461). -/
def logRaw (code cls i : Nat) (p : Option Nat) (fs : List (Nat × Nat)) (c : Core) : Core :=
  let es := logEntries code cls i p fs c.evc.tick
  if c.glb.restarting then
    let mine := c.erl.heldLog.filter (fun x => decide (managerOf x.cls x.unit = managerOf cls i))
    if 256 < mine.length + es.length then { c with erl := { c.erl with dropped := c.erl.dropped + BitVec.ofNat 32 es.length } }
    else { c with erl := { c.erl with heldLog := c.erl.heldLog ++ es } }
  else recordEvent es c

/-! ### Addresses (R32–R37, R45, R76) -/

/-- k of R35, as the image in force sets it. -/
def Core.kSpread (c : Core) : Nat := match c.cfg.image with
  | some i => i.k
  | none => 0

/-- The home stack and stack-local data offset of a PPA (R36). -/
def place (f : Fuses) (k : Nat) (ppa : Nat) : Nat × Nat :=
  let e := ppa / 2 ^ 30
  let p := ppa / 65536 % 16384
  let off := ppa % 65536
  let ps := f.stacks
  let n := ps.length
  if e < n * k then
    let g := (e % n) * 16384 + p
    (ps.getD (g % n) 0, e / n * 2 ^ 30 + g / n * 65536 + off)
  else
    let m := n / 4
    let l := e - n * k
    let per := m * (56 - k)
    let l' := l % per
    let pf := f.fieldStacks (l / per)
    let g := (l' % m) * 16384 + p
    (pf.getD (g % m) 0, (k + l' / m) * 2 ^ 30 + g / m * 65536 + off)

/-- The stack and stack address of a PPA: a data line's home and stack-local data offset, or a place in the system-area window of a
stack (R34, R36, R270). -/
def Core.place (c : Core) (ppa : Nat) : Nat × Nat :=
  if ppa < 0xE000000000 then Machine.place c.glb.fuse c.kSpread ppa
  else ((ppa - 0xE000000000) / 0x200000000, 0xE00000000 + (ppa - 0xE000000000) % 0x200000000)

/-- The stacks that hold pages of a PPA extent: all, or those of its field (R35). -/
def Core.extStacks (c : Core) (e : Nat) : List Nat :=
  let ps := c.glb.fuse.stacks
  let n := ps.length
  if e < n * c.kSpread then ps
  else c.glb.fuse.fieldStacks ((e - n * c.kSpread) / (n / 4 * (56 - c.kSpread)))

/-- Key of a byte of stack `e` in the pool memory. -/
def caKey (e off : Nat) : Nat := e * 2 ^ 36 + off

/-- The partition and PLA extent index that hold a PPA extent (R76). -/
def Core.reverse (c : Core) (ppaExt : Nat) : Option (Nat × Nat) :=
  c.ptns.findSome? (fun pe => (pe.2.ext.find? (fun ie => ie.2.valid && decide (ie.2.ppa = ppaExt))).map (fun ie => (pe.1, ie.1)))

/-- Where the parts of the system-area window begin, as stack addresses: metadata, spare pages, page maps, retirement table (R34, R110,
R314, R315). -/
def saMeta : Nat := 0xE00000000
def saSpare : Nat := 0xFC0000000
def saMap : Nat := 0xFE0000000
def saRetire : Nat := 0xFE2000000
/-- PPA of a stack address in the system area. -/
def sysPpa (e addr : Nat) : Nat := 0xE000000000 + e * 0x200000000 + (addr - saMeta)

/-- The PPA of a line of stack `e`: the PPA extents of the stack searched for the one whose page lies there. -/
def Core.ppaOf (c : Core) (e line : Nat) : Option Nat :=
  let off := line * 128
  let ps := c.glb.fuse.stacks
  let n := ps.length
  let slot := off / 2 ^ 30
  let pos := off % 2 ^ 30 / 65536
  let k := c.kSpread
  if slot < k then
    let g := pos * n + ps.idxOf e
    some ((slot * n + g / 16384) * 2 ^ 30 + (g % 16384) * 65536 + off % 65536)
  else if slot < 56 then
    let f := stopField e
    let pf := c.glb.fuse.fieldStacks f
    let m := pf.length
    let g := pos * m + pf.idxOf e
    some ((n * k + f * (m * (56 - k)) + (slot - k) * m + g / 16384) * 2 ^ 30 + (g % 16384) * 65536 + off % 65536)
  else none

/-- The lines of stack `e` that hold pages of a PPA extent: first line and number of lines (R36). -/
def Core.extRange (c : Core) (e ppa : Nat) : Nat × Nat :=
  let ps := c.glb.fuse.stacks
  let n := ps.length
  let k := c.kSpread
  let run (l : List Nat) (slot b : Nat) : Nat × Nat :=
    let m := l.length
    let j := l.idxOf e
    if m ≤ j then (0, 0)
    else
      let g := b + (j + m - b % m) % m
      if b + 16384 ≤ g then (0, 0) else ((slot * 16384 + g / m) * 512, ceilDiv (b + 16384 - g) m * 512)
  if ppa < n * k then run ps (ppa / n) (ppa % n * 16384)
  else
    let m := n / 4
    let l := ppa - n * k
    let l' := l % (m * (56 - k))
    run (c.glb.fuse.fieldStacks (l / (m * (56 - k)))) (k + l' / m) (l' % m * 16384)

/-- Extent index of a PLA. -/
def plaExt (pla : BitVec 40) : Nat := pla.toNat / 2 ^ 30

/-! ### Lines of a stack: flags, owners, codewords (R76, R275, R297, R337–R341) -/

/-- Key of a line of stack `e` among the metadata flags: controller address div 128. -/
def lineKey (e line : Nat) : Nat := e * 2 ^ 29 + line
def Core.lmeta (c : Core) (e line : Nat) : LineMeta := tget {} (lineKey e line) c.lineFlags
def Core.setLmeta (c : Core) (e line : Nat) (m : LineMeta) : Core := { c with lineFlags := tput {} (lineKey e line) m c.lineFlags }

/-- The partition and PLA of a line, through the reverse map (R76). -/
def Core.lineOwner (c : Core) (e line : Nat) : Option (Nat × BitVec 40) :=
  match c.ppaOf e line with
  | none => none
  | some a => (c.reverse (a / 2 ^ 30)).map (fun x => (x.1, BitVec.ofNat 40 (x.2 * 2 ^ 30 + a % 2 ^ 30)))

def Core.linePla (c : Core) (e line : Nat) : BitVec 40 := ((c.lineOwner e line).map (fun x => x.2)).getD 0
def Core.linePpa (c : Core) (e line : Nat) : Nat := (c.ppaOf e line).getD 0
def Core.linePtn (c : Core) (e line : Nat) : Nat := ((c.lineOwner e line).map (fun x => x.1)).getD 0

/-- The key slot that a flag selects (R337). -/
def Keys.slot (k : Keys) (flag : Bool) : KeySlot := if flag then k.slot1 else k.slot0
def Keys.setSlot (k : Keys) (flag : Bool) (x : KeySlot) : Keys := if flag then { k with slot1 := x } else { k with slot0 := x }

/-- The codeword of a data line as a write puts it into the stack: under the key slot of its flag, for the line's PPA before any
retirement (R297, R337, R338). -/
def Core.lineCodeword (c : Core) (e line : Nat) : Codeword :=
  let m := c.lmeta e line
  sealLine ((c.keys (c.linePtn e line)).slot m.gen) (c.linePpa e line) (c.linePtn e line) m (rdLine c.mem (caKey e (line * 128)))

/-- The 128 B that a stack address holds: a data line's ciphertext, eight lines' metadata, or a line of the rest of the system area under
the system-area keys (R274, R275, R341). -/
def Core.stackLine (c : Core) (e addr : Nat) : Line :=
  if addr < saMeta then (c.lineCodeword e (addr / 128)).setWidth 1024
  else if addr < saSpare then
    BitVec.ofNat 1024 (((List.range 8).map (fun i => (c.lineCodeword e ((addr - saMeta) / 16 + i)).metadata.toNat * 2 ^ (128 * i))).sum)
  else sysEnc c.sec.sys1 c.sec.sys2 (sysPpa e addr) (rdLine c.mem (caKey e addr))

/-! ### Where a line lies in a stack (R270, R271, R274, R314) -/

def parityOf (w : BitVec 40) : Nat := ((List.range 40).filter (fun i => w.getLsbD i)).length % 2

/-- Hashed bits `lo` to `lo + n − 1` as a number. -/
def hashBits (x : Hbmc) (ca : BitVec 40) (lo n : Nat) : Nat :=
  (List.range n).foldl (fun a i => a + parityOf (ca &&& x.masks.getD (lo + i) 0) * 2 ^ i) 0

def caChannel (x : Hbmc) (ca : BitVec 40) : Nat := hashBits x ca 0 5
/-- Pseudo-channel among the 64 of the stack. -/
def caPc (x : Hbmc) (ca : BitVec 40) : Nat := caChannel x ca * 2 + hashBits x ca 5 1
/-- Bank, `group * 16 + bank`. -/
def caBank (x : Hbmc) (ca : BitVec 40) : Nat := hashBits x ca 6 2 * 16 + hashBits x ca 8 4
def caRow (ca : BitVec 40) : Nat := field ca 35 22
/-- Which of the eight lines of its row. -/
def caColumn (ca : BitVec 40) : Nat := field ca 15 13
def caLine (ca : BitVec 40) : Nat := ca.toNat / 128

/-- A data offset after page retirement: lines of the page on the move that lie below the copy pointer, and lines of a retired page, lie in
their spare (R314). -/
def afterRetire (x : Hbmc) (off : Nat) : Nat :=
  let page := off / 65536
  let inSpare (j : Nat) : Nat := saSpare + j * 65536 + off % 65536
  let rest := match tget none page x.retired with
    | some j => inSpare j
    | none => off
  match x.moving with
  | some (pg, j, i) => if pg = page ∧ off % 65536 / 128 < i then inSpare j else rest
  | none => rest

/-- The controller address of a stack address as the home names it: a data offset, or a place of the system area (R270). -/
def caOf (x : Hbmc) (e addr : Nat) : BitVec 40 := BitVec.ofNat 40 (e * 2 ^ 36 + (if addr < saMeta then afterRetire x addr else addr))

/-- The metadata line of a data offset (R274): number, and its stack address. -/
def mdLine (off : Nat) : Nat := off / 1024
def mdAddr (m : Nat) : Nat := saMeta + m * 128

def pcOf (x : Hbmc) (i : Nat) : Pc := tget {} i x.pcs
def setPcs (x : Hbmc) (i : Nat) (k : Pc) : Hbmc := { x with pcs := tput {} i k x.pcs }
def modPc (e pc : Nat) (f : Pc → Pc) (c : Core) : Core := c.modHbmc e (fun x => setPcs x pc (f (pcOf x pc)))

/-! ### Commands to the stack (R278, R284) -/

/-- The open rows after a command. -/
def rowsAfter (x : Hbmc) (rows : Table (Option (Nat × BitVec 2))) : HbmOp → Table (Option (Nat × BitVec 2))
  | .read ca _ hint close => tput none (caBank x ca) (if close then none else some (caRow ca, hint)) rows
  | .write ca _ hint close _ => tput none (caBank x ca) (if close then none else some (caRow ca, hint)) rows
  | .activate b r => tput none b (some (r, 3)) rows
  | .precharge b => tput none b none rows
  | .refresh b => tput none b none rows
  | .rfm b => tput none b none rows
  | .prechargeAll => []
  | .refreshAll => []
  | .selfRefresh _ => []

/-- A command sent to the stack. -/
def sendOp (e pc : Nat) (op : HbmOp) (replay : Bool) (c : Core) : Core :=
  (modPc e pc (fun p => { p with rows := rowsAfter (c.hbmc e) p.rows op }) c).send (.hbm e pc op replay)

/-- A command sent and kept in the replay buffer, which holds the last 64 (R284). -/
def issueOp (e pc : Nat) (op : HbmOp) (c : Core) : Core :=
  sendOp e pc op false (modPc e pc (fun p => { p with replay := (p.replay ++ [op]).drop (p.replay.length + 1 - 64) }) c)

/-- Part `b` of the 128 B of a line: the 32 B of its burst. -/
def burstOf (l : Line) (b : Nat) : BitVec 256 := (l >>> (256 * b)).setWidth 256

/-- A metadata line written back at once: its row opened where it is not, four bursts, the row left open (R271, R276). -/
def mdWriteBack (e m : Nat) (c : Core) : Core :=
  let x := c.hbmc e
  let ca := caOf x e (mdAddr m)
  let pc := caPc x ca
  let (b, row) := (caBank x ca, caRow ca)
  let c := match tget none b (pcOf x pc).rows with
    | some r => if r.1 = row then c else issueOp e pc (.activate b row) (issueOp e pc (.precharge b) c)
    | none => issueOp e pc (.activate b row) c
  let d := c.stackLine e (mdAddr m)
  (List.range 4).foldl (fun c i => issueOp e pc (.write ca i 0 false (burstOf d i)) c) c

/-- Every dirty metadata line written back, before self-refresh and before the controller leaves Serving (R276). -/
def mdFlush (e : Nat) (c : Core) : Core :=
  let c := (c.hbmc e).md.foldl (fun c k => if k.2 then mdWriteBack e k.1 c else c) c
  c.modHbmc e (fun x => { x with md := x.md.map (fun k => (k.1, false)) })

/-- A stack enters self-refresh: metadata written back, every row closed (R276, R283); refreshes owed and RFM counts of the controller
end with it, since the stack refreshes itself. -/
def enterSelfRefresh (e : Nat) (c : Core) : Core :=
  let c := mdFlush e c
  let open? := (c.hbmc e).pcs.filter (fun k => decide (k.2.rows ≠ []))
  let c := open?.foldl (fun c k => issueOp e k.1 .prechargeAll c) c
  (c.modHbmc e (fun x => { x with selfRefresh := true, pcs := x.pcs.map (fun k => (k.1, { k.2 with rows := [], due := [], allDue := false })) })).send
    (.hbm e 0 (.selfRefresh true) false)

/-- Every trained stack that is awake enters self-refresh (R501, R542). -/
def allSelfRefresh (c : Core) : Core :=
  forEach ((List.range 16).filter (fun e => (c.hbmc e).trained && !(c.hbmc e).selfRefresh)) enterSelfRefresh c

/-! ### The page map in the system area (R110) -/

/-- Address of word `s` of a visible page's entry. -/
def mapAddr (page s : Nat) : Nat := saMap + page * 32 + 4 * s

/-- The words of slots 0–7: PAGE and OWN. -/
def Core.pageWords (c : Core) (e page : Nat) : List (Nat × Bool) :=
  (List.range 8).map (fun s => let w := rdLE c.mem (caKey e (mapAddr page s)) 4; (w % 2 ^ 20, w.testBit 31))

/-- A map entry's line in the line store (R110): resident after an access, dirty after a write. -/
def touchMap (e page : Nat) (dirty : Bool) (c : Core) : Core :=
  let l := mapAddr page 0 / 128
  c.modHome e (fun h => { h with store := tput none l (some (dirty || (tget none l h.store).getD false)) h.store })

/-- One word written. -/
def Core.setPageWord (c : Core) (e page s pg : Nat) (own : Bool) : Core :=
  touchMap e page true { c with mem := wrLE c.mem (caKey e (mapAddr page s)) 4 (pg % 2 ^ 20 + Bool.toNat own * 2 ^ 31) }

/-- The eight words written. -/
def Core.setPageWords (c : Core) (e page : Nat) (ws : List (Nat × Bool)) : Core :=
  forEach (List.range 8) (fun s c => c.setPageWord e page s (ws.getD s (0, false)).1 (ws.getD s (0, false)).2) c

/-! ### Freeze (R541–R543) -/

/-- The tiles of a partition, in ascending order of logical number. -/
def ptnTiles (c : Core) (p : Nat) : List Nat :=
  let ts := (c.tiles.filter (fun e => e.2.assigned && decide (e.2.ptn = p))).map Prod.fst
  (ts.mergeSort (fun a b => decide ((c.tile a).logical ≤ (c.tile b).logical)))

/-- The action that runs on a partition (R26). -/
def actionOf (c : Core) (p : Nat) : Option Action := c.rot.actions.find? (fun a => decide (a.p = p))

/-- Clusters that leave Serving lose their waiter records at every edge unit (R255). -/
def dropAllWaiters (ls : List Nat) (c : Core) : Core :=
  let kept := c.edges.map (fun e => (e.1, { e.2 with waiters := e.2.waiters.filter (fun w => !(ls.contains w.c)) }))
  { c with edges := kept.filter (fun e => decide (e.2 ≠ {})) }

def dropWaiters (l : Nat) (c : Core) : Core := dropAllWaiters [l] c

/-- A freeze trigger (R541): only the first acts, until its scope has been reset; a partition freeze while an action runs is ignored (R543). -/
def freeze (cause : BitVec 3) (chip : Bool) (c : Core) : Core :=
  let e := c.evc
  let p := field e.freezeCfg 20 16
  if e.fzState = 3 then c
  else if chip then
    logRaw 0x1202 0 0 none [(4, 0), (5, 0), (4, cause.toNat)]
      (allSelfRefresh { c with evc := { e with fzState := 3, fzScope := false, fzPtn := 0, fzCause := cause } })
  else if (actionOf c p).isSome then c
  else
    let ts := ptnTiles c p
    let c0 := dropAllWaiters ((ts.filter (fun t => decide (c.ust 4 t = .serving))).map (fun t => (c.tile t).logical)) c
    let c1 := forEach ts (fun t c =>
      let st : UnitSt := if c.ust 4 t = .failed then .failed else .fenced
      c.setUnit 4 t { c.unit 4 t with st := st, want := st }) c0
    logRaw 0x1202 0 0 (some p) [(4, 1), (5, p), (4, cause.toNat)]
      { c1 with evc := { e with fzState := 3, fzScope := true, fzPtn := p, fzCause := cause,
                                saved := ts.map (fun t => (t, (c.unit 4 t).want)) } }

/-- The cluster and mesh clocks are stopped: a chip freeze (R542), or a thermal trip (R501). -/
def frozenChip (c : Core) : Bool := (decide (c.evc.fzState = 3) && !c.evc.fzScope) || c.pins.thermTrip
/-- Partition `p` is frozen (R543). -/
def frozenPtn (c : Core) (p : Nat) : Bool := decide (c.evc.fzState = 3) && c.evc.fzScope && decide (c.evc.fzPtn = p)

/-- The freeze that an entry's code may trigger when the RoT writes it (R541). -/
def logFreeze (code : Nat) (c : Core) : Core :=
  if decide (c.evc.freezeCode.toNat = code) && c.evc.freezeCfg.getLsbD 1 && c.evc.freezeCfg.getLsbD 3 && !c.glb.restarting then
    freeze 3 (!(c.evc.freezeCfg.getLsbD 0)) c
  else c

/-- A log entry, with the freeze that it may trigger. -/
def logE (code cls i : Nat) (p : Option Nat) (fs : List (Nat × Nat)) (c : Core) : Core := logFreeze code (logRaw code cls i p fs c)

/-! ### Fault events (R307–R309) -/

/-- Hosts of a partition that are admitted and not fenced. -/
def admittedHosts (c : Core) (p : Nat) : List Nat :=
  (c.hosts.filter (fun e => e.2.valid && decide (e.2.p = p) && decide (e.2.st = 0))).map Prod.fst

/-- One FAULT_EVENT message to every admitted, unfenced host, with the next number (R307). -/
def sendFaultEvent (p cause count : Nat) (detail : BitVec 32) (c : Core) : Core :=
  let s0 := tget 0 p c.erl.evSeq + 1
  let s := if s0 = 0 then 1 else s0
  let n := min count 65535
  let last := BitVec.ofNat 32 (cause + n * 65536)
  let c := { c with erl := { c.erl with evSeq := tput 0 p s c.erl.evSeq, evLast := tput 0 p last c.erl.evLast } }
  let c := (admittedHosts c p).foldl (fun c h => c.send (.faultEvent p h (c.host h).port cause s n detail)) c
  raiseInt (24 + p) c

/-- An occurrence of a cause: sent at once and a window opened, or carried in the open window's message (R308). -/
def faultEvent (p cause : Nat) (detail : BitVec 32) (c : Core) : Core :=
  match c.erl.faultWins.find? (fun w => decide (w.p = p ∧ w.cause = cause)) with
  | some w =>
    let w' := { w with count := w.count + 1, detail := if w.count = 0 then detail else w.detail }
    { c with erl := { c.erl with faultWins := c.erl.faultWins.map (fun x => if x.p = p ∧ x.cause = cause then w' else x) } }
  | none =>
    let c := sendFaultEvent p cause 1 detail c
    { c with erl := { c.erl with faultWins := c.erl.faultWins ++ [⟨p, cause, 0, 0⟩] } }

/-! ### Event counters (R536–R538) -/

/-- Key of counter `k` of a unit; the global counters are class 0. -/
def ctrKey (cls i k : Nat) : Nat := cls * 1048576 + i * 16 + k

/-- Events that a partition filter applies to (R536). -/
def filterable (cls ev : Nat) : Bool := decide (cls = 4) || decide (cls = 6) || (decide (cls = 9) && decide (6 ≤ ev ∧ ev ≤ 12))

/-- `n` events added to one counter; a wrap sets OVF and, with INT_EN, logs EVC_WRAP (R537). -/
def bumpCounter (cls i k n : Nat) (c : Core) : Core :=
  let x := tget {} (ctrKey cls i k) c.evc.counters
  let v := x.value.toNat + n
  let wrap := decide (2 ^ 48 ≤ v)
  let x' := { x with value := BitVec.ofNat 48 v, ovf := x.ovf || wrap }
  let c := { c with evc := { c.evc with counters := tput {} (ctrKey cls i k) x' c.evc.counters } }
  if wrap && x.sel.getLsbD 14 then logE 0x1201 cls i none [(4, cls), (12, i), (32, k)] c else c

/-- The counter of a key; a global one has no unit. -/
def bumpKey (key n : Nat) (c : Core) : Core :=
  if key < 1048576 then bumpCounter 0 0 key n c else bumpCounter (key / 1048576) (key % 1048576 / 16) (key % 16) n c

/-- `n` occurrences of event `ev` in a unit, for partition `p` where the event has one (R536). -/
def countEvent (cls i ev n : Nat) (p : Option Nat) (c : Core) : Core :=
  if c.evc.hold ∨ ev = 0 ∨ n = 0 then c
  else
    let hit (sel : BitVec 32) : Bool := decide (field sel 7 0 = ev) &&
      (!(sel.getLsbD 13) || !(filterable cls ev) || decide (p = some (field sel 12 8)))
    let keys := (c.evc.counters.filter (fun e =>
      (decide (e.1 / 1048576 = cls) && decide (e.1 % 1048576 / 16 = i) && hit e.2.sel) ||
      (decide (e.1 < 1048576) && decide (field e.2.src 3 0 = cls) && hit e.2.sel &&
        (e.2.src.getLsbD 16 || decide (field e.2.src 15 4 = i))))).map Prod.fst
    keys.foldl (fun c key => bumpKey key n c) c

/-! ### Who owns what -/

/-- The tile of a logical cluster (R518). -/
def Core.tileOf (c : Core) (l : Nat) : Option Nat := (tget none l c.glb.l2p).map (fun x => x.1)

/-- The enabled partition whose range holds an object, a region (R241). -/
def Core.objOwner (c : Core) (o : Nat) : Option Nat :=
  (c.ptns.find? (fun e => e.2.en && decide (e.2.syncBase ≤ o ∧ o < e.2.syncBase + e.2.syncCount))).map (fun e => e.1)
def Core.regionOwner (c : Core) (r : Nat) : Option Nat :=
  (c.ptns.find? (fun e => e.2.en && decide (e.2.snapBase ≤ r ∧ r < e.2.snapBase + e.2.snapCount))).map (fun e => e.1)

/-- The unit takes or finishes data-path work and its clock runs (R454, R542). -/
def Core.works (c : Core) (cls i : Nat) : Bool :=
  !frozenChip c && (decide (c.ust cls i = .serving) || decide (c.ust cls i = .draining))

/-- From step 2 of a partition reset its clusters issue nothing (R506). -/
def Core.stopped (c : Core) (t : Nat) : Bool := (c.tile t).assigned && decide (2 ≤ (c.ptn (c.tile t).ptn).resetStep)

/-! ### The control ring (R459) -/

/-- Priority of a message: force 2, access 1, step 0. -/
def CtlMsg.prio : CtlMsg → Nat
  | .fence _ _ _ => 2
  | .step _ _ _ => 0

/-- The manager whose stop a message is for. -/
def CtlMsg.mgr : CtlMsg → Nat
  | .fence cls i _ => managerOf cls i
  | .step _ m _ => m

/-- A message sent into the ring overtakes every one of a lower class. -/
def ringInsert (m : CtlMsg) (l : List CtlMsg) : List CtlMsg :=
  l.takeWhile (fun x => decide (m.prio ≤ x.prio)) ++ m :: l.dropWhile (fun x => decide (m.prio ≤ x.prio))
def ringPut (m : CtlMsg) (c : Core) : Core := c.modRot (fun r => { r with ring := ringInsert m r.ring })
def ringDrop (f : CtlMsg → Bool) (c : Core) : Core := c.modRot (fun r => { r with ring := r.ring.filter (fun x => !f x) })

/-- A step of manager `m` is at its stop: nothing of a higher class for that stop is in the ring. -/
def stepArrived (c : Core) (m : Nat) : Bool := !c.rot.ring.any (fun x => decide (x.mgr = m) && decide (0 < x.prio))

/-! ### Answers -/

/-- The host number that stands for a host of endpoint `ep` that is not admitted here: a record of the peer names it by its SRC_EP (R439). -/
def strangerIdx (p : Nat) (ep : BitVec 18) : Nat := 4096 + p * 2 ^ 18 + ep.toNat

/-- The partition of a requester. -/
def Core.originPtn (c : Core) (o : Origin) : Nat :=
  if o.kind = 1 then (if o.idx < 4096 then (c.host o.idx).p else (o.idx - 4096) / 2 ^ 18)
  else if o.kind = 0 then (match c.tileOf o.idx with
    | some t => (c.tile t).ptn
    | none => 0)
  else o.idx

/-- The link carries packets: Up, or in Retrain (R366). -/
def Port.linked (p : Port) : Bool := decide (p.link = .up) || decide (p.link = .retrain)

/-- Egress packets discarded and counted (R366). -/
def discardEgress (n : Nat) (ks : List EgPkt) (c : Core) : Core :=
  let c := c.modPort n (fun p => { p with cnt := { p.cnt with egressDiscard := p.cnt.egressDiscard + BitVec.ofNat 32 ks.length } })
  ks.foldl (fun c k => countEvent 9 n 12 1 (some k.ptn) c) c

/-- A packet of the port manager's or the mirror engine's joins the queue of its kind at port `n`, or is discarded (R366, R422, R443): MGT,
RSP, REQ. -/
def portQueue (n : Nat) (k : EgPkt) (c : Core) : Core :=
  let p := c.port n
  if !p.linked then discardEgress n [k] c
  else if egVc k.body = 3 then c.setPort n { p with mgt := p.mgt ++ [k] }
  else if egVc k.body = 2 then c.setPort n { p with answers := p.answers ++ [k] }
  else c.setPort n { p with reqs := p.reqs ++ [k] }

/-- The mirror engine's packet of a message (R441, R442). -/
def mirrBody (c : Core) : Msg → Option (Nat × EgBody)
  | .repl p k => some (p, .repl (c.ptn p).endpoint k)
  | .replAck p o a => some (p, .replAck (c.ptn p).endpoint o a)
  | .rsync p k => some (p, .rsync (c.ptn p).endpoint k)
  | .peerState p st o e => some (p, .mgt 7 (c.ptn p).endpoint (c.mirrG.selfEp.setWidth 18) (peerStatePayload (c.ptn p).endpoint st o e))
  | _ => none

/-- A message of the mirror engine: its packet enters its queue at the partition's mirror port. -/
def Core.mirrSend (c : Core) (m : Msg) : Core :=
  match mirrBody c m with
  | some (p, b) => portQueue (c.mirr p).port.toNat ⟨p, b⟩ (c.send m)
  | none => c.send m

/-- The order number after `n`; zero is skipped (R437). -/
def nextOrder (n : BitVec 48) : BitVec 48 := if n + 1 = 0 then 1 else n + 1

/-- The device holds the cuff of a partition in this state (R447). -/
def holderSt (m : MirrSt) : Bool := decide (m = .active) || decide (m = .soloPending) || decide (m = .solo)

/-- A host's dedupe entry: one for each TAG, the last 64 kept (R439). -/
def putDedupe (m : Mirr) (h : Nat) (d : Dedupe) : Mirr :=
  let l := (tget [] h m.dedupe).filter (fun e => decide (e.tag ≠ d.tag)) ++ [d]
  { m with dedupe := tput [] h (l.drop (l.length - 64)) m.dedupe }

def dropDedupe (m : Mirr) (h : Nat) (tag : BitVec 14) : Mirr :=
  { m with dedupe := tput [] h ((tget [] h m.dedupe).filter (fun e => decide (e.tag ≠ tag))) m.dedupe }

/-- The pending replicated request of an origin. -/
def Mirr.pendOf (m : Mirr) (o : Origin) : Option MirrPend :=
  m.pend.find? (fun k => decide (k.o.idx = o.idx) && decide (k.o.tag = o.tag))

def Mirr.dropPend (m : Mirr) (o : Origin) : Mirr :=
  { m with pend := m.pend.filter (fun k => !(decide (k.o.idx = o.idx) && decide (k.o.tag = o.tag))) }

/-- The completion of partition `p` that answers origin `o` at endpoint `ep`, from endpoint `src` (R66). -/
def cmpFor (o : Origin) (ep src : BitVec 18) (p : Nat) (a : Ans) : Cmp :=
  ⟨p, o.idx, ep, src, o.port, a.op, a.grant, a.poison, a.ce, a.reason, o.tag, a.backoff, a.order, o.cls, a.data⟩

/-- A completion of partition `p` to endpoint `ep` through the port of origin `o`; NackRevoked answers are counted (R44, R536). -/
def Core.toEndpoint (c : Core) (o : Origin) (ep src : BitVec 18) (p : Nat) (a : Ans) : Core :=
  let c := if a.op = opNackRevoked then
      countEvent 9 o.port 9 1 (some p) (c.modPtn p (fun x => { x with nackRevoked := x.nackRevoked + 1 }))
    else if a.op = opNackFenced then countEvent 9 o.port 10 1 (some p) c
    else c
  c.send (.completion (cmpFor o ep src p a))

/-- `a` is newer than `b` (R437). -/
def orderNewer (a b : BitVec 48) : Bool := decide (1 ≤ (a - b).toNat) && decide ((a - b).toNat < 2 ^ 47)

/-- The returning device enters Standby once the stream has ended and every record in it is applied; it adopts the peer's EPOCH (R447, R450). -/
def Mirr.resynced (m : Mirr) : Mirr :=
  if m.st = .resync ∧ m.rsDone ∧ m.pend.all (fun k => decide (k.order = 0)) then
    { m with st := .standby, epoch := m.peerEpoch, rsOn := false, rsDone := false, pagesLeft := 0 }
  else m

/-- A completion to the host of origin `o`. -/
def Core.toHost (c : Core) (o : Origin) (p : Nat) (a : Ans) : Core := c.toEndpoint o (c.host o.idx).ep (c.ptn p).endpoint p a

/-- The outcome of a replicated request, reported to the mirror engine (R436, R439, R447). On the holder a refusal is answered at once
with order number zero; an applied request takes the next order number and, while Active, waits for REPL_ACK, while SoloPending for
the grant; in Solo it is answered, and its record still goes into the stream of a resync (R450). On the peer, whose entry already has an
order number, the host is answered with it and REPL_ACK returns. The answer of a device that has left the cuff is never given. -/
def Core.mirrOutcome (c : Core) (k : MirrPend) (p : Nat) (a : Ans) : Core :=
  let m := c.mirr p
  if k.dead then c.setMirr p (m.dropPend k.o)
  else if k.order = 0 then
    if a.op ≠ opCmp then (c.setMirr p (dropDedupe (m.dropPend k.o) k.o.idx k.o.tag)).toHost k.o p a
    else
      let n := nextOrder m.order
      let m1 := putDedupe { m with order := n } k.o.idx ⟨k.o.tag, n, a.op, decide (m.st = .solo)⟩
      if m.st = .solo then
        let m2 := m1.dropPend k.o
        let c := (c.setMirr p (if m.rsOn then { m2 with rsOut := m2.rsOut + 1 } else m2)).toHost k.o p { a with order := n }
        if m.rsOn then c.mirrSend (.repl p ⟨n, m.epoch, k.q⟩) else c
      else
        let k' := { k with order := n, op := a.op, reason := a.reason }
        let c := c.setMirr p { m1 with pend := m1.pend.map (fun e => if e = k then k' else e) }
        if m.st = .active then c.mirrSend (.repl p ⟨n, m.epoch, k.q⟩) else c
  else
    let known := (c.host k.o.idx).valid
    let m0 := m.dropPend k.o
    let m1 := (if orderNewer k.order m0.order then { m0 with order := k.order } else m0).resynced
    let c := c.setMirr p (if known then putDedupe m1 k.o.idx ⟨k.o.tag, k.order, a.op, true⟩ else m1)
    let c := if known then c.toHost { k.o with port := (c.host k.o.idx).port } p { a with order := k.order } else c
    c.mirrSend (.replAck p k.order a.op)

/-- The answer to origin `o` of partition `p`: to a host through the port its request came by (R41), by way of the mirror engine for a
replicated request (R436); to a cluster's channel (R77); to the dispatcher's command that waits for it. -/
def Core.answer (c : Core) (o : Origin) (p : Nat) (pla : BitVec 40) (a : Ans) : Core :=
  if o.kind = 1 then
    match (c.mirr p).pendOf o with
    | some k => if k.op = 0 then c.mirrOutcome k p a else c.toHost o p a
    | none => c.toHost o p a
  else if o.kind = 0 then c.send (.toCluster o.idx o.chan ⟨a.op, o.tag, pla, a.data, a.poison, a.ce, a.fault, a.backoff⟩)
  else if o.kind = 2 then
    -- a line that the dispatcher asked for (R211); after NackBusy or NackRetry it asks again
    c.modPtn o.idx (fun x => { x with cmds := x.cmds.map (fun k =>
      if !k.asked then k
      else if a.op = opCmpData then
        { k with asked := false, buf := tput none (o.chan * 2 ^ 33 + pla.toNat / 128) (some (a.data, a.poison)) k.buf }
      else if a.op = opNackRevoked then { k with asked := false, refused := some (a.fault, pla) }
      else { k with asked := false }) })
  else c

/-- Issuer or requester as a log field (R572). -/
def issuerField (o : Origin) : Nat × Nat := (14, o.kind.toNat + 4 * o.idx)

/-- Any progress of a partition ends a blocked episode (R263). -/
def progress (p : Nat) (c : Core) : Core := c.modPtn p (fun x => { x with blocked := false })

end Sys2Proof.Machine
end

