-- ==== Sys2Proof/Machine/Operands.lean ====
section
/-! DEFINITION. The operand forms of the kernel instructions, the local store with its poison bits, traps, and the one way
in which a sequencer runs an instruction (R158–R190, R304, R305). -/

namespace Sys2Proof.Machine
open Sys2Proof

/-! ### Registers -/

/-- x0 reads as zero (R158). -/
def rdX (q : Seq) (r : BitVec 5) : BitVec 64 := if r = 0 then 0 else tget 0 r.toNat q.x

/-- Writes to x0 are discarded (R158). -/
def wrX (q : Seq) (r : BitVec 5) (v : BitVec 64) : Seq := if r = 0 then q else { q with x := tput 0 r.toNat v q.x }

/-- Lane `i` is bits 32i+31 … 32i (R158). -/
def lane (v : VReg) (i : Nat) : BitVec 32 := BitVec.ofNat 32 (v.toNat >>> (32 * i))

/-- The number whose 32-bit digits are the lanes, least first. -/
def packLanes : List (BitVec 32) → Nat
  | [] => 0
  | a :: r => a.toNat + 2 ^ 32 * packLanes r

/-- The vector whose lane `i` is `f i`. -/
def mkVec (f : Nat → BitVec 32) : VReg := BitVec.ofNat 2048 (packLanes ((List.range 64).map f))

def rdV (u : Vec) (r : BitVec 5) : VReg := tget 0 r.toNat u.v
def wrV (u : Vec) (r : BitVec 5) (v : VReg) : Vec := { u with v := tput 0 r.toNat v u.v }
def vPoisoned (u : Vec) (r : BitVec 5) : Bool := u.vPoison.contains r.toNat

/-- A number entered in, or removed from, a list of poisoned places. -/
def setIn (l : List Nat) (k : Nat) (on : Bool) : List Nat := (l.filter (fun j => j != k)) ++ (if on then [k] else [])

/-- A vector result with its poison bit: poisoned exactly when a source was (R304). -/
def wrVP (u : Vec) (r : BitVec 5) (v : VReg) (p : Bool) : Vec :=
  let u := wrV u r v
  { u with vPoison := setIn u.vPoison r.toNat p }

/-- Accumulator row `row` of bank `b` (R133). -/
def rdAcc (u : Vec) (b row : Nat) : VReg := tget 0 (b * 256 + row) u.acc
def wrAccP (u : Vec) (b row : Nat) (v : VReg) (p : Bool) : Vec :=
  { u with acc := tput 0 (b * 256 + row) v u.acc, accPoison := setIn u.accPoison (b * 256 + row) p }

/-! ### Local store (R134, R304, R305) -/

/-- Bytes of the local store. -/
def lsSize : Nat := 0x200000

/-- The 64 B words that a range touches. -/
def wordsOf (a n : Nat) : List Nat := if n = 0 then [] else (List.range ((a + n - 1) / 64 - a / 64 + 1)).map (· + a / 64)

/-- The poisoned words that a range touches. -/
def poisonIn (x : Tile) (a n : Nat) : List Nat := (wordsOf a n).filter (fun w => x.lsPoison.contains w)

/-- A write of a range: with poison every word it touches becomes poisoned; clean data clears the words it covers whole, and
leaves a poisoned word that it covers in part poisoned (R304). -/
def poisonWrite (x : Tile) (a n : Nat) (p : Bool) : Tile :=
  (wordsOf a n).foldl (fun x w =>
    if p then { x with lsPoison := setIn x.lsPoison w true }
    else if a ≤ 64 * w ∧ 64 * w + 64 ≤ a + n then { x with lsPoison := setIn x.lsPoison w false } else x) x

/-- LS_UE becomes pending, one at a time (R189, R199); TINFO holds the source and the address (R305). -/
def pendLsUe (x : Tile) (source addr : Nat) : Tile :=
  let info := BitVec.ofNat 64 (addr % 2 ^ 21 + source * 2 ^ 62)
  { x with seq := { x.seq with pendLs := some (x.seq.pendLs.getD info) } }

/-- Partition policy for uncorrectable data (R305): `true` = trap. -/
def trapPolicy (c : Core) (x : Tile) : Bool := (c.ptn x.ptn).ueTrap

/-- A read of a range by the vector unit or the array: whether it met poison, and the tile with LS_UE pending under the trap
policy (R305). The count is the poisoned words read (R536, event 14). -/
def unitRead (c : Core) (x : Tile) (a n : Nat) : Bool × Tile × Nat :=
  match poisonIn x a n with
  | [] => (false, x, 0)
  | w :: r => (true, if trapPolicy c x then pendLsUe x 1 (max a (64 * w)) else x, r.length + 1)

/-! ### Traps (R187–R190) -/

/-- An asynchronous cause is pending (R189). -/
def asyncPending (q : Seq) : Bool := q.pendLs.isSome || q.pendSync.isSome || !q.pendDma.isEmpty

/-- TSTATUS (R161). -/
def tstatus (q : Seq) : BitVec 64 :=
  BitVec.ofNat 64 ((if q.inTrap then 1 else 0) + (if q.dbl then 2 else 0) + (if q.pendLs.isSome then 4 else 0) +
    (if q.pendDma.isEmpty then 0 else 8) + (if q.pendSync.isSome then 16 else 0))

/-- The work item of the tile fails with a status (R190, R228), unless a status is already fixed. -/
def failWork (w : Option Work) (st : BitVec 8) (d64 : BitVec 64) : Option Work :=
  w.map (fun w => if w.status.isSome then w else { w with status := some (st, BitVec.ofNat 32 w.ci, d64) })

/-- A trap is taken (R188): the frame is written and FAULT.TRAP set; the handler runs, or, with no handler or inside one, the
sequencer enters the trapped state and the work item fails (R190). -/
def takeTrap (t cause : Nat) (async : Bool) (info tpc : BitVec 64) (c : Core) : Core :=
  let x := c.tile t
  let q := { x.seq with tcause := BitVec.ofNat 9 (cause + if async then 256 else 0), tpc := tpc, tinfo := info }
  let c := countEvent 4 t 13 1 (some x.ptn) c
  if x.seq.tvec ≠ 0 ∧ x.seq.inTrap = false then
    c.setTile t { x with fTrap := true, seq := { q with inTrap := true, pc := x.seq.tvec } }
  else
    let dbl := x.seq.inTrap || x.seq.dbl
    let d64 := BitVec.ofNat 64 (tpc.toNat % 2 ^ 21 + cause * 2 ^ 32 + if dbl then 2 ^ 40 else 0)
    logE 0x0601 4 t (some x.ptn) [(10, t), (10, x.logical), (9, q.tcause.toNat), (21, tpc.toNat % 2 ^ 21), (64, info.toNat),
        (1, if dbl then 1 else 0)]
      (c.setTile t { x with fTrap := true, seq := { q with dbl := dbl, st := .trapped }, work := failWork x.work 0x28 d64 })

/-- The channel holds no descriptor, and no line but of descriptors that a DMARES dropped (R156, R181). -/
def DmaChan.quiet (ch : DmaChan) : Bool := ch.queue.isEmpty && ch.run.isEmpty && ch.lines.all (fun l => l.dropped)

/-- What a DMAWAIT waits for has come: the channel is halted, or its count reached (R181). -/
def dmaWaitMet (x : Tile) (k : Nat) (n : BitVec 32) : Bool :=
  let ch := tget {} k x.chans
  ch.halted || decide ((ch.done - n).toNat < 2 ^ 31)

/-- The asynchronous trap at an instruction boundary, in the order LS_UE, DMA_FAULT, SYNC_FAULT; a sync wait in progress is
abandoned with CANCEL, and a DMAWAIT that had begun to wait and whose condition has come is complete (R189, R255). -/
def takeAsync (t : Nat) (c : Core) : Core :=
  let x := c.tile t
  let over? := x.seq.dmaWait.any (fun k => dmaWaitMet x k.1 k.2)
  let q := { x.seq with dmaWait := none, pc := if over? then x.seq.pc + 8 else x.seq.pc }
  let c := match q.wait with
    | some (o, _, _) => c.send (.sync ⟨7, o, x.logical, 0, false, false, 0, 0⟩)
    | none => c
  let q := { q with wait := none, st := .running }
  match q.pendLs, q.pendDma, q.pendSync with
  | some info, _, _ => takeTrap t 13 true info q.pc (c.setTile t { x with seq := { q with pendLs := none } })
  | none, (_, info) :: r, _ => takeTrap t 14 true (info.getD 0) q.pc (c.setTile t { x with seq := { q with pendDma := r } })
  | none, [], some info => takeTrap t 15 true info q.pc (c.setTile t { x with seq := { q with pendSync := none } })
  | none, [], none => c

/-! ### Running an instruction -/

/-- What an instruction's own rules make of it. -/
inductive YkRes where
  /-- Its effect; the next instruction follows. -/
  | go (c : Core)
  /-- Its effect, and a target (R166). -/
  | jump (c : Core) (target : BitVec 64)
  /-- A precise trap, with TPC = the instruction or, for TRAPI, the next (R187). -/
  | trap (cause : Nat) (info : BitVec 64) (next : Bool)
  /-- It has not completed: the sequencer stalls at it. -/
  | stay (c : Core)

/-- The sequencer of the tile issues instructions: it runs, its clock runs, and its cluster is Serving or finishes accepted
work (R154, R454, R543). -/
def tileIssues (c : Core) (t : Nat) : Bool :=
  let x := c.tile t
  decide (x.seq.st = .running) && decide (x.power = .active) && !x.resetting && !c.stopped t && !frozenChip c &&
  (decide (c.ust 4 t = .serving) || decide (c.ust 4 t = .draining))

/-- The x registers that an instruction reads or writes (R159). -/
def xUses (r : YkRow) (f : YkF) : List (BitVec 5) :=
  if r.cls = 0 then [f.d, f.a, f.b]
  else if r.cls = 1 ∨ r.cls = 2 ∨ r.cls = 3 ∨ r.cls = 9 then [f.d, f.a, f.b]
  else if r.cls = 4 then
    if r.op = 0x22 then [f.d] else if r.op = 0x20 ∨ r.op = 0x23 then [f.a] else if f.rep then [f.b] else []
  else if r.cls = 5 then (if r.op = 1 ∨ r.op = 5 then [f.a, f.b] else [f.a])
  else if r.cls = 7 then (if r.op = 0 then [f.a] else if r.op = 1 then [f.a, f.b] else [])
  else if r.cls = 8 then [f.a] else []

/-- The instruction waits for the VALUE of an SREAD whose register it names, or, a second SREAD, for the first (R159). -/
def awaitsValue (q : Seq) (r : YkRow) (f : YkF) : Bool :=
  match q.sread with
  | none => false
  | some d => (xUses r f).any (fun k => decide (k.toNat = d ∧ k ≠ 0)) || decide (r.cls = 9 ∧ r.op = 6)

/-- Cluster cycles that the vector unit takes for an instruction: 4 for the functions, 2 for a conversion, 1 for another (R198). -/
def vecCost (r : YkRow) : Nat := if r.cls = 6 then 2 else if r.cls = 4 ∧ 8 ≤ r.op ∧ r.op ≤ 10 then 4 else 1

/-- One cluster cycle of the vector unit: its oldest operation takes it (R138). -/
def vecCycle : List Nat → List Nat
  | [] => []
  | n :: l => if n ≤ 1 then l else (n - 1) :: l

/-- An instruction of the vector unit; its queue holds 16 (R139, log 151). -/
def ofVecUnit (r : YkRow) : Bool := decide (r.cls = 4) || decide (r.cls = 5) || decide (r.cls = 6)
def vecFull (u : Vec) (r : YkRow) : Bool := ofVecUnit r && decide (16 ≤ u.vecQ.length)

/-- An instruction of the vector unit joins its queue as it issues; its effect is taken at once (R138, R139, log 151). -/
def vecIssue (r : YkRow) (t : Nat) (c : Core) : Core :=
  if ofVecUnit r then c.modTile t (fun x => { x with vec := { x.vec with vecQ := vecCycle x.vec.vecQ ++ [vecCost r] } }) else c

/-- A cycle of waiting for the vector unit. -/
def vecWait (t : Nat) (c : Core) : Core := c.modTile t (fun x => { x with vec := { x.vec with vecQ := vecCycle x.vec.vecQ } })

/-- Queued array operations still write bank `b` (R126). -/
def bankBusy (u : Vec) (b : Nat) : Bool := u.arrayQ.any (fun o => match o with
  | .tmul k _ _ => decide (k = b)
  | .azero k _ _ => decide (k = b)
  | .tload _ _ => false)

/-- The sequencer of tile `t` meets an instruction: a pending asynchronous trap goes first (R189), then the fetch checks (R167,
R305), then ILLEGAL (R163); then the instruction's own rules. -/
def ykStep (r : YkRow) (t : Nat) (f : YkF) (body : Core → YkRes) (c : Core) : Core :=
  let x := c.tile t
  let pc := x.seq.pc
  let setPc (a : BitVec 64) (c : Core) : Core := c.modTile t (fun x => { x with seq := { x.seq with pc := a } })
  if !tileIssues c t then c
  else if asyncPending x.seq && !x.seq.inTrap then takeAsync t c
  else if pc.toNat % 8 ≠ 0 then takeTrap t 2 false pc pc c
  else if lsSize ≤ pc.toNat then takeTrap t 3 false pc pc c
  else if x.lsPoison.contains (pc.toNat / 64) then takeTrap t 12 false pc pc c
  else if !r.legal f then takeTrap t 1 false (r.word f) pc c
  else if awaitsValue x.seq r f then c
  else if vecFull x.vec r then vecWait t c
  else match body c with
    | .go c' => setPc (pc + 8) (vecIssue r t c')
    | .stay c' => c'
    | .trap cause info next => takeTrap t cause false info (if next then pc + 8 else pc) c
    | .jump c' a =>
      if a.toNat % 8 ≠ 0 then takeTrap t 2 false a pc c
      else if lsSize ≤ a.toNat then takeTrap t 3 false a pc c
      else setPc a c'

/-- The second scalar operand: x[B], or IMM sign-extended when OP[7] = 1 (R164). -/
def opB (q : Seq) (f : YkF) : BitVec 64 := if f.rep then f.imm.signExtend 64 else rdX q f.b

/-- The address x[A] + IMM of class 1 and of DMAQ (R165, R181). -/
def addrA (q : Seq) (f : YkF) : Nat := (rdX q f.a + f.imm.signExtend 64).toNat

/-- IMM[20:0], a signed OFFSET (R172, R177). -/
def offset21 (f : YkF) : BitVec 64 := (f.imm.setWidth 21).signExtend 64

/-- The sequencer's part of a tile changed. -/
def Core.modSeq (c : Core) (t : Nat) (g : Seq → Seq) : Core := c.modTile t (fun x => { x with seq := g x.seq })
/-- The vector part of a tile changed. -/
def Core.modVec (c : Core) (t : Nat) (g : Vec → Vec) : Core := c.modTile t (fun x => { x with vec := g x.vec })

end Sys2Proof.Machine
end

