-- ==== Sys2Proof/Machine/YkVector.lean ====
section
/-! DEFINITION. Vector arithmetic, vector memory, accumulator access and format conversion (classes 4 to 6, R169–R176), with
the poison rules of R304 and R305. Vector instructions complete as they issue in this model (log 8). -/

namespace Sys2Proof.Machine
open Sys2Proof

/-! ### Class 4 (R169–R171) -/

/-- Operand B of a lane: v[B], or x[B][31:0] in every lane when OP[7] = 1. -/
def laneB (x : Tile) (f : YkF) (i : Nat) : BitVec 32 :=
  if f.rep then (rdX x.seq f.b).setWidth 32 else lane (rdV x.vec f.b) i

/-- Operand B is a poisoned register. -/
def poisonB (x : Tile) (f : YkF) : Bool := !f.rep && vPoisoned x.vec f.b

/-- The flags of all lanes together. -/
def orFlags (g : Nat → LaneRes) : FFlags := (List.range 64).foldl (fun a i => a ||| (g i).2) 0

/-- A vector result: v[D] written with its poison bit, FFLAGS accumulated. -/
def vecDone (t : Nat) (f : YkF) (g : Nat → LaneRes) (p : Bool) (c : Core) : Core :=
  let x := c.tile t
  let c := c.setTile t { x with
    vec := wrVP x.vec f.d (mkVec (fun i => (g i).1)) p
    seq := { x.seq with fflags := x.seq.fflags ||| orFlags g } }
  countEvent 4 t 4 1 (some x.ptn) c

/-- v[D] lane by lane from A and B. -/
def vec2Instr (r : YkRow) (g : BitVec 32 → BitVec 32 → LaneRes) (t : Nat) (f : YkF) (s : State) :
    Host.Outcome State Fault Refusal :=
  actCore s (ykStep r t f (fun c =>
    let x := c.tile t
    .go (vecDone t f (fun i => g (lane (rdV x.vec f.a) i) (laneB x f i)) (vPoisoned x.vec f.a || poisonB x f) c)))

/-- v[D] lane by lane from A alone. -/
def vec1Instr (r : YkRow) (g : BitVec 32 → LaneRes) (t : Nat) (f : YkF) (s : State) : Host.Outcome State Fault Refusal :=
  actCore s (ykStep r t f (fun c =>
    let x := c.tile t
    .go (vecDone t f (fun i => g (lane (rdV x.vec f.a) i)) (vPoisoned x.vec f.a) c)))

/-- v[D] lane by lane from A, B and C. -/
def vec3Instr (r : YkRow) (g : BitVec 32 → BitVec 32 → BitVec 32 → LaneRes) (t : Nat) (f : YkF) (s : State) :
    Host.Outcome State Fault Refusal :=
  actCore s (ykStep r t f (fun c =>
    let x := c.tile t
    .go (vecDone t f (fun i => g (lane (rdV x.vec f.a) i) (laneB x f i) (lane (rdV x.vec f.c) i))
      (vPoisoned x.vec f.a || poisonB x f || vPoisoned x.vec f.c) c)))

/-- An operation without flags. -/
def noFlags (w : BitVec 32) : LaneRes := (w, 0)

def execVadd (t : Nat) (f : YkF) (s : State) : Host.Outcome State Fault Refusal := vec2Instr rowVadd fpAdd t f s
def execVsub (t : Nat) (f : YkF) (s : State) : Host.Outcome State Fault Refusal := vec2Instr rowVsub fpSub t f s
def execVmul (t : Nat) (f : YkF) (s : State) : Host.Outcome State Fault Refusal := vec2Instr rowVmul fpMul t f s
def execVmax (t : Nat) (f : YkF) (s : State) : Host.Outcome State Fault Refusal := vec2Instr rowVmax fpMax t f s
def execVmin (t : Nat) (f : YkF) (s : State) : Host.Outcome State Fault Refusal := vec2Instr rowVmin fpMin t f s
def execVclt (t : Nat) (f : YkF) (s : State) : Host.Outcome State Fault Refusal := vec2Instr rowVclt fpLt t f s
def execVcle (t : Nat) (f : YkF) (s : State) : Host.Outcome State Fault Refusal := vec2Instr rowVcle fpLe t f s
def execVceq (t : Nat) (f : YkF) (s : State) : Host.Outcome State Fault Refusal := vec2Instr rowVceq fpEq t f s
def execViadd (t : Nat) (f : YkF) (s : State) : Host.Outcome State Fault Refusal := vec2Instr rowViadd (fun a b => noFlags (a + b)) t f s
def execVisub (t : Nat) (f : YkF) (s : State) : Host.Outcome State Fault Refusal := vec2Instr rowVisub (fun a b => noFlags (a - b)) t f s
def execVimul (t : Nat) (f : YkF) (s : State) : Host.Outcome State Fault Refusal := vec2Instr rowVimul (fun a b => noFlags (a * b)) t f s
def execVand (t : Nat) (f : YkF) (s : State) : Host.Outcome State Fault Refusal := vec2Instr rowVand (fun a b => noFlags (a &&& b)) t f s
def execVor (t : Nat) (f : YkF) (s : State) : Host.Outcome State Fault Refusal := vec2Instr rowVor (fun a b => noFlags (a ||| b)) t f s
def execVxor (t : Nat) (f : YkF) (s : State) : Host.Outcome State Fault Refusal := vec2Instr rowVxor (fun a b => noFlags (a ^^^ b)) t f s
def execVshl (t : Nat) (f : YkF) (s : State) : Host.Outcome State Fault Refusal := vec2Instr rowVshl (fun a b => noFlags (a <<< (b.toNat % 32))) t f s
def execVshr (t : Nat) (f : YkF) (s : State) : Host.Outcome State Fault Refusal := vec2Instr rowVshr (fun a b => noFlags (a >>> (b.toNat % 32))) t f s
def execVsra (t : Nat) (f : YkF) (s : State) : Host.Outcome State Fault Refusal := vec2Instr rowVsra (fun a b => noFlags (a.sshiftRight (b.toNat % 32))) t f s
def execViclt (t : Nat) (f : YkF) (s : State) : Host.Outcome State Fault Refusal := vec2Instr rowViclt (fun a b => noFlags (if a.slt b then 0xFFFFFFFF else 0)) t f s
def execVabs (t : Nat) (f : YkF) (s : State) : Host.Outcome State Fault Refusal := vec1Instr rowVabs (fun a => noFlags (a &&& 0x7FFFFFFF)) t f s
def execVneg (t : Nat) (f : YkF) (s : State) : Host.Outcome State Fault Refusal := vec1Instr rowVneg (fun a => noFlags (a ^^^ 0x80000000)) t f s
def execVexp2 (t : Nat) (f : YkF) (s : State) : Host.Outcome State Fault Refusal := vec1Instr rowVexp2 fpExp2 t f s
def execVrcp (t : Nat) (f : YkF) (s : State) : Host.Outcome State Fault Refusal := vec1Instr rowVrcp fpRcp t f s
def execVrsqrt (t : Nat) (f : YkF) (s : State) : Host.Outcome State Fault Refusal := vec1Instr rowVrsqrt fpRsqrt t f s
def execVfma (t : Nat) (f : YkF) (s : State) : Host.Outcome State Fault Refusal := vec3Instr rowVfma fpFma t f s
def execVsel (t : Nat) (f : YkF) (s : State) : Host.Outcome State Fault Refusal := vec3Instr rowVsel (fun a b c => noFlags ((a &&& c) ||| (b &&& ~~~c))) t f s

/-- x[A][31:0] in every lane. -/
def execVbcast (t : Nat) (f : YkF) (s : State) : Host.Outcome State Fault Refusal :=
  actCore s (ykStep rowVbcast t f (fun c =>
    let x := c.tile t
    .go (vecDone t f (fun _ => noFlags ((rdX x.seq f.a).setWidth 32)) false c)))

/-- The lane number in every lane. -/
def execViota (t : Nat) (f : YkF) (s : State) : Host.Outcome State Fault Refusal :=
  actCore s (ykStep rowViota t f (fun c => .go (vecDone t f (fun i => noFlags (BitVec.ofNat 32 i)) false c)))

/-- x[D] = lane IMM[5:0] of v[A], zero-extended; of a poisoned register x[D] = 0 and LS_UE is pending, source 2 (R305). -/
def execVext (t : Nat) (f : YkF) (s : State) : Host.Outcome State Fault Refusal :=
  actCore s (ykStep rowVext t f (fun c =>
    let x := c.tile t
    let c := countEvent 4 t 4 1 (some x.ptn) c
    .go (if vPoisoned x.vec f.a then c.setTile t (pendLsUe { x with seq := wrX x.seq f.d 0 } 2 0)
      else c.modSeq t (fun q => wrX q f.d ((lane (rdV x.vec f.a) (field f.imm 5 0)).setWidth 64)))))

/-- Lane IMM[5:0] of v[D] = x[A][31:0]; other lanes kept. -/
def execVins (t : Nat) (f : YkF) (s : State) : Host.Outcome State Fault Refusal :=
  actCore s (ykStep rowVins t f (fun c =>
    let x := c.tile t
    .go (vecDone t f (fun i => noFlags (if i = field f.imm 5 0 then (rdX x.seq f.a).setWidth 32 else lane (rdV x.vec f.d) i))
      (vPoisoned x.vec f.d) c)))

/-- One level of the reduction tree: entry 2i with entry 2i + 1 (R171). -/
def reducePairs (g : BitVec 32 → BitVec 32 → LaneRes) : List (BitVec 32) → List (BitVec 32) × FFlags
  | a :: b :: r =>
    let (w, fl) := g a b
    let (ws, fls) := reducePairs g r
    (w :: ws, fl ||| fls)
  | l => (l, 0)

/-- `k` levels. -/
def reduceTree (g : BitVec 32 → BitVec 32 → LaneRes) : Nat → List (BitVec 32) → FFlags → LaneRes
  | 0, l, fl => (l.headD 0, fl)
  | k + 1, l, fl => let (l', f') := reducePairs g l; reduceTree g k l' (fl ||| f')

/-- The reduction over the 64 lanes of v[A], placed in every lane. -/
def vecReduce (r : YkRow) (g : BitVec 32 → BitVec 32 → LaneRes) (t : Nat) (f : YkF) (s : State) :
    Host.Outcome State Fault Refusal :=
  actCore s (ykStep r t f (fun c =>
    let x := c.tile t
    let res := reduceTree g 6 ((List.range 64).map (lane (rdV x.vec f.a))) 0
    .go (vecDone t f (fun _ => res) (vPoisoned x.vec f.a) c)))

def execVrsum (t : Nat) (f : YkF) (s : State) : Host.Outcome State Fault Refusal := vecReduce rowVrsum fpAdd t f s
def execVrmax (t : Nat) (f : YkF) (s : State) : Host.Outcome State Fault Refusal := vecReduce rowVrmax fpMax t f s
def execVrmin (t : Nat) (f : YkF) (s : State) : Host.Outcome State Fault Refusal := vecReduce rowVrmin fpMin t f s

/-! ### Class 5 (R172, R173) -/

/-- LANES of a vector memory instruction. -/
def lanesOf (f : YkF) : Nat := field f.imm 26 21 + 1

/-- The lane addresses of the three forms. -/
def addrUnit (x : Tile) (f : YkF) (i : Nat) : Nat := (rdX x.seq f.a + offset21 f + BitVec.ofNat 64 (4 * i)).toNat
def addrStride (x : Tile) (f : YkF) (i : Nat) : Nat := (rdX x.seq f.a + offset21 f + BitVec.ofNat 64 i * rdX x.seq f.b).toNat
def addrIndex (x : Tile) (f : YkF) (i : Nat) : Nat := (rdX x.seq f.a + offset21 f + (lane (rdV x.vec f.b) i).setWidth 64).toNat

/-- LS_ALIGN for the first misaligned lane, then LS_RANGE for the first lane out of range. -/
def lanesCheck (as : List Nat) (ok : YkRes) : YkRes :=
  match as.find? (fun a => decide (a % 4 ≠ 0)) with
  | some a => .trap 4 (BitVec.ofNat 64 a) false
  | none => match as.find? (fun a => decide (lsSize ≤ a)) with
    | some a => .trap 5 (BitVec.ofNat 64 a) false
    | none => ok

/-- The 64 B words that lane addresses touch, each once. -/
def laneWords (as : List Nat) : List Nat := (as.map (· / 64)).eraseDups

/-- Lane loads: poison met makes v[D] poisoned; the other lanes read zero. -/
def vecLoad (r : YkRow) (addr : Tile → YkF → Nat → Nat) (idxReg : Bool) (t : Nat) (f : YkF) (s : State) :
    Host.Outcome State Fault Refusal :=
  actCore s (ykStep r t f (fun c =>
    let x := c.tile t
    let n := lanesOf f
    let as := (List.range n).map (addr x f)
    lanesCheck as (.go (
      let bad := (laneWords as).filter (fun w => x.lsPoison.contains w)
      let p := !bad.isEmpty || (idxReg && vPoisoned x.vec f.b)
      let x := match bad with
        | [] => x
        | w :: _ => if trapPolicy c x then pendLsUe x 1 (64 * w) else x
      let v := mkVec (fun i => if i < n then BitVec.ofNat 32 (rdLE x.ls (addr x f i) 4) else 0)
      countEvent 4 t 14 bad.length (some x.ptn) (countEvent 4 t 4 1 (some x.ptn)
        (c.setTile t { x with vec := wrVP x.vec f.d v p }))))))

/-- Lane stores in ascending lane order, so the highest-numbered lane of one address stays (R173); a poisoned source poisons every
word touched, clean data clears a word it covers whole (R304). -/
def vecStore (r : YkRow) (addr : Tile → YkF → Nat → Nat) (idxReg : Bool) (t : Nat) (f : YkF) (s : State) :
    Host.Outcome State Fault Refusal :=
  actCore s (ykStep r t f (fun c =>
    let x := c.tile t
    let n := lanesOf f
    let as := (List.range n).map (addr x f)
    lanesCheck as (.go (
      let p := vPoisoned x.vec f.d || (idxReg && vPoisoned x.vec f.b)
      let ls := (List.range n).foldl (fun m i => wrLE m (addr x f i) 4 (lane (rdV x.vec f.d) i).toNat) x.ls
      let pz := (laneWords as).foldl (fun l w =>
        if p then setIn l w true
        else if (as.filter (fun a => a / 64 == w)).eraseDups.length = 16 then setIn l w false else l) x.lsPoison
      countEvent 4 t 4 1 (some x.ptn) (c.setTile t { x with ls := ls, lsPoison := pz })))))

def execVld (t : Nat) (f : YkF) (s : State) : Host.Outcome State Fault Refusal := vecLoad rowVld addrUnit false t f s
def execVlds (t : Nat) (f : YkF) (s : State) : Host.Outcome State Fault Refusal := vecLoad rowVlds addrStride false t f s
def execVldg (t : Nat) (f : YkF) (s : State) : Host.Outcome State Fault Refusal := vecLoad rowVldg addrIndex true t f s
def execVst (t : Nat) (f : YkF) (s : State) : Host.Outcome State Fault Refusal := vecStore rowVst addrUnit false t f s
def execVsts (t : Nat) (f : YkF) (s : State) : Host.Outcome State Fault Refusal := vecStore rowVsts addrStride false t f s
def execVstg (t : Nat) (f : YkF) (s : State) : Host.Outcome State Fault Refusal := vecStore rowVstg addrIndex true t f s

/-- The row x[A] + IMM[15:8] of VRDA and VWRA. -/
def accRow (x : Tile) (f : YkF) : Nat := (rdX x.seq f.a + BitVec.ofNat 64 (field f.imm 15 8)).toNat

/-- A row above 255 raises ACC_RANGE (R172, R187). -/
def accCheck (row : Nat) (ok : YkRes) : YkRes := if 255 < row then .trap 9 (BitVec.ofNat 64 (row % 512)) false else ok

/-- v[D] = the row of bank IMM[1:0]; poison is carried. It waits for results in flight to the bank (R126, R159). -/
def execVrda (t : Nat) (f : YkF) (s : State) : Host.Outcome State Fault Refusal :=
  actCore s (ykStep rowVrda t f (fun c =>
    let x := c.tile t
    let row := accRow x f
    let b := field f.imm 1 0
    accCheck row (if bankBusy x.vec b then .stay c else .go (countEvent 4 t 4 1 (some x.ptn)
      (c.setTile t { x with vec := wrVP x.vec f.d (rdAcc x.vec b row) (x.vec.accPoison.contains (b * 256 + row)) })))))

/-- The row of bank IMM[1:0] = v[D]; poison is carried. It waits for results in flight to the bank (R159). -/
def execVwra (t : Nat) (f : YkF) (s : State) : Host.Outcome State Fault Refusal :=
  actCore s (ykStep rowVwra t f (fun c =>
    let x := c.tile t
    let row := accRow x f
    let b := field f.imm 1 0
    accCheck row (if bankBusy x.vec b then .stay c else .go (countEvent 4 t 4 1 (some x.ptn)
      (c.setTile t { x with vec := wrAccP x.vec b row (rdV x.vec f.d) (vPoisoned x.vec f.d) })))))

/-! ### Class 6 (R174–R176) -/

/-- The elements of a list packed `w` bits each, least first. -/
def packBits (w : Nat) : List Nat → Nat
  | [] => 0
  | a :: r => a + 2 ^ w * packBits w r

/-- FP32's exponent of the largest magnitude in a block, if any lane is nonzero. -/
def blockTop (l : List FVal) : Option Int :=
  l.foldl (fun a v => match v with
    | .fin _ m e => if m = 0 then a else
        let k := (Nat.log2 m : Int) + e
        match a with
        | none => some k
        | some j => some (max j k)
    | _ => a) none

/-- One block of VQ (R175): its scale, its elements' codes, the elements saturated, flags. -/
def quantBlock (fmt : Nat) (sat : Bool) (l : List FVal) : Nat × List Nat × Nat × FFlags :=
  if l.any (fun v => match v with | .fin _ _ _ => false | _ => true) then (0xFF, l.map (fun _ => 0), 0, 0)
  else
    let x : Int := match blockTop l with
      | none => 127
      | some k => max 0 (min 254 (k - fmtEmax fmt + 127))
    let rs := l.map (fun v => toFormat fmt sat (v.shift (127 - x)))
    (x.toNat, rs.map (fun r => r.1), (rs.filter (fun r => r.2.1)).length, rs.foldl (fun a r => a ||| r.2.2) 0)

/-- 64 FP32 values to a packed vector: the vector, the elements saturated, flags (R174, R175). -/
def quantize (fmt : Nat) (sat : Bool) (l : List (BitVec 32)) : VReg × Nat × FFlags :=
  let vs := l.map decode32
  if fmtMx fmt then
    let (x0, e0, n0, f0) := quantBlock fmt sat (vs.take 32)
    let (x1, e1, n1, f1) := quantBlock fmt sat (vs.drop 32)
    let w := fmtBits fmt
    (BitVec.ofNat 2048 (packBits w (e0 ++ e1) + (x0 + 256 * x1) * 2 ^ (64 * w)), n0 + n1, f0 ||| f1)
  else
    let rs := vs.map (toFormat fmt sat)
    (BitVec.ofNat 2048 (packBits 16 (rs.map (fun r => r.1))), (rs.filter (fun r => r.2.1)).length,
      rs.foldl (fun a r => a ||| r.2.2) 0)

/-- Element `e` of a packed vector with its block's scale, rounded once to FP32 (R176). -/
def dequant1 (fmt : Nat) (v : Nat) (e : Nat) : LaneRes :=
  let w := fmtBits fmt
  let el := elemVal fmt (v / 2 ^ (w * e) % 2 ^ w)
  if fmtMx fmt then
    let x := v / 2 ^ (64 * w + 8 * (e / 32)) % 256
    if x = 255 then (canonNaN, 0) else toFp32 (el.shift ((x : Int) - 127))
  else toFp32 el

/-- FMT 7–15 are invalid codes: the instruction is ILLEGAL (log 23). -/
def fmtCheck (r : YkRow) (f : YkF) (ok : YkRes) : YkRes :=
  if 6 < field f.imm 3 0 then .trap 1 (r.word f) false else ok

def execVq (t : Nat) (f : YkF) (s : State) : Host.Outcome State Fault Refusal :=
  actCore s (ykStep rowVq t f (fun c =>
    let x := c.tile t
    fmtCheck rowVq f (.go (
      let (v, n, fl) := quantize (field f.imm 3 0) (f.imm.getLsbD 4) ((List.range 64).map (lane (rdV x.vec f.a)))
      countEvent 4 t 4 1 (some x.ptn) (c.setTile t { x with
        vec := wrVP x.vec f.d v (vPoisoned x.vec f.a)
        seq := { x.seq with fflags := x.seq.fflags ||| fl, satcnt := x.seq.satcnt + BitVec.ofNat 64 n } })))))

def execVdq (t : Nat) (f : YkF) (s : State) : Host.Outcome State Fault Refusal :=
  actCore s (ykStep rowVdq t f (fun c =>
    let x := c.tile t
    let v := (rdV x.vec f.a).toNat
    fmtCheck rowVdq f (.go (vecDone t f (dequant1 (field f.imm 3 0) v) (vPoisoned x.vec f.a) c))))

def execVcvti (t : Nat) (f : YkF) (s : State) : Host.Outcome State Fault Refusal := vec1Instr rowVcvti fpToInt t f s
def execVcvtf (t : Nat) (f : YkF) (s : State) : Host.Outcome State Fault Refusal := vec1Instr rowVcvtf intToFp t f s

end Sys2Proof.Machine
end

