-- ==== Sys2Proof/Machine/YkTensor.lean ====
section
/-! DEFINITION. The array: tile descriptors, stationary tiles, tile products and accumulator banks (class 7, R123–R133,
R177–R180), with the poison rules of R304. -/

namespace Sys2Proof.Machine
open Sys2Proof

/-! ### Tile descriptors (R160) -/

def tdBase (d : BitVec 128) : Nat := field d 20 0
def tdFmt (d : BitVec 128) : Nat := field d 27 24
def tdScale (d : BitVec 128) : Nat := field d 52 32
def tdRowStride (d : BitVec 128) : Nat := field d 79 64
def tdScaleStride (d : BitVec 128) : Nat := field d 95 80
def tdRows (d : BitVec 128) : Nat := field d 104 96

/-- Bytes of a row of 64 elements. -/
def rowBytes (fmt : Nat) : Nat := fmtBits fmt * 8

/-- Load t[D] from 16 B at x[A] + OFFSET, 16 B aligned; a poisoned word gives zero and LS_UE, as a scalar load (log 24). -/
def execTldd (t : Nat) (f : YkF) (s : State) : Host.Outcome State Fault Refusal :=
  actCore s (ykStep rowTldd t f (fun c =>
    let x := c.tile t
    let a := (rdX x.seq f.a + offset21 f).toNat
    if a % 16 ≠ 0 then .trap 4 (BitVec.ofNat 64 a) false
    else if lsSize ≤ a then .trap 5 (BitVec.ofNat 64 a) false
    else if (poisonIn x a 16).isEmpty then
      .go (c.modVec t (fun u => { u with td := tput 0 f.d.toNat (BitVec.ofNat 128 (rdLE x.ls a 16)) u.td }))
    else .go (countEvent 4 t 14 1 (some x.ptn)
      (c.setTile t (pendLsUe { x with vec := { x.vec with td := tput 0 f.d.toNat 0 x.vec.td } } 1 a)))))

/-- BASE += x[A], SCALE += x[B], each modulo 2^21; the other fields are kept. -/
def tdAdd (d : BitVec 128) (a b : BitVec 64) : BitVec 128 :=
  let base := (tdBase d + a.toNat) % 2 ^ 21
  let scale := (tdScale d + b.toNat) % 2 ^ 21
  BitVec.ofNat 128 (d.toNat - tdBase d - tdScale d * 2 ^ 32 + base + scale * 2 ^ 32)

def execTadd (t : Nat) (f : YkF) (s : State) : Host.Outcome State Fault Refusal :=
  actCore s (ykStep rowTadd t f (fun c =>
    let q := (c.tile t).seq
    .go (c.modVec t (fun u =>
      { u with td := tput 0 f.d.toNat (tdAdd (tget 0 f.d.toNat u.td) (rdX q f.a) (rdX q f.b)) u.td }))))

/-- The first address beyond the local store that rows of `n` bytes touch, if any. -/
def firstOut (base stride n rows : Nat) : Option Nat :=
  (List.range rows).findSome? (fun r => if lsSize < base + r * stride + n then some (max lsSize (base + r * stride)) else none)

/-- The checks of a descriptor at issue (R178): TILE_BAD with the descriptor's index, then LS_RANGE. -/
def tdCheck (d : BitVec 128) (idx : Nat) (ok : YkRes) : YkRes :=
  if 6 < tdFmt d ∨ tdRows d = 0 ∨ tdBase d % 16 ≠ 0 ∨ tdRowStride d % 16 ≠ 0 ∨ tdScale d % 2 ≠ 0 ∨
      tdScaleStride d % 2 ≠ 0 then .trap 6 (BitVec.ofNat 64 idx) false
  else match firstOut (tdBase d) (tdRowStride d) (rowBytes (tdFmt d)) (tdRows d) with
    | some a => .trap 5 (BitVec.ofNat 64 a) false
    | none =>
      match if fmtMx (tdFmt d) then firstOut (tdScale d) (tdScaleStride d) 2 (tdRows d) else none with
      | some a => .trap 5 (BitVec.ofNat 64 a) false
      | none => ok

/-- Row `r` of a descriptor's operand: its elements and its scale pair. -/
def tdRow (x : Tile) (d : BitVec 128) (r : Nat) : BitVec 1024 × BitVec 16 :=
  (BitVec.ofNat 1024 (rdLE x.ls (tdBase d + r * tdRowStride d) (rowBytes (tdFmt d))),
   if fmtMx (tdFmt d) then BitVec.ofNat 16 (rdLE x.ls (tdScale d + r * tdScaleStride d) 2) else 0x7F7F)

/-- The row is read: whether it met poison, LS_UE under the trap policy, poisoned words read. -/
def tdRowRead (c : Core) (x : Tile) (d : BitVec 128) (r : Nat) : Bool × Tile × Nat :=
  let (p, x, n) := unitRead c x (tdBase d + r * tdRowStride d) (rowBytes (tdFmt d))
  if fmtMx (tdFmt d) then
    let (p', x, n') := unitRead c x (tdScale d + r * tdScaleStride d) 2
    (p || p', x, n + n')
  else (p, x, n)

/-- Every row of an operand is read. -/
def tdReadAll (c : Core) (d : BitVec 128) : Nat → Nat → Tile → Bool × Tile × Nat
  | 0, _, x => (false, x, 0)
  | k + 1, r, x =>
    let (p, x, n) := tdRowRead c x d r
    let (p', x, n') := tdReadAll c d k (r + 1) x
    (p || p', x, n + n')

/-- The shadow tile is filled (R179). -/
def fxTload (t : Nat) (d : BitVec 128) (shape : Nat) (c : Core) : Core :=
  let x := c.tile t
  let (p, x, n) := tdReadAll c d (tdRows d) 0 x
  let st : StatTile := ⟨tdFmt d, shape, (List.range (tdRows d)).map (tdRow x d), p⟩
  countEvent 4 t 14 n (some x.ptn) (c.setTile t { x with vec := { x.vec with shadow := some st } })

/-- The array queue holds 8 operations (R139). -/
def arrayFull (u : Vec) : Bool := decide (8 ≤ u.arrayQ.length)

/-- TLOAD (R177–R179): a shadow tile that no TMUL has taken makes it wait in the queue. -/
def execTload (t : Nat) (f : YkF) (s : State) : Host.Outcome State Fault Refusal :=
  actCore s (ykStep rowTload t f (fun c =>
    let x := c.tile t
    let d := tget 0 f.d.toNat x.vec.td
    let shape := field f.imm 1 0
    tdCheck d f.d.toNat (
      if 2 < shape ∨ shape < fmtClass (tdFmt d) ∨ tdRows d ≠ tileN shape then .trap 6 (BitVec.ofNat 64 f.d.toNat) false
      else if arrayFull x.vec then .stay c
      else if x.vec.arrayQ.isEmpty && x.vec.shadow.isNone then .go (fxTload t d shape c)
      else .go (c.modVec t (fun u => { u with arrayQ := u.arrayQ ++ [.tload d shape] })))))

/-! ### The product (R130, R132) -/

/-- The terms a·w of one block. -/
def blockTerms (af wf : Nat) (a w : Nat) (b : Nat) : List FVal :=
  (List.range 32).map (fun i =>
    let k := 32 * b + i
    (vMul (elemVal af (a / 2 ^ (fmtBits af * k) % 2 ^ fmtBits af)) (elemVal wf (w / 2 ^ (fmtBits wf * k) % 2 ^ fmtBits wf))).1)

/-- The exact block sum: a NaN term, or infinities of both signs, give NaN; otherwise an infinite term gives that infinity. -/
def blockSum (l : List FVal) : FVal := l.foldl (fun a v => (vAdd a v).1) (.fin false 0 0)

/-- One block's contribution, rounded once to FP32. -/
def blockContribution (af wf : Nat) (a w : Nat) (sa sw : Nat) (b : Nat) : BitVec 32 :=
  let xa := sa / 256 ^ b % 256
  let xw := sw / 256 ^ b % 256
  if xa = 255 ∨ xw = 255 then canonNaN
  else (toFp32 ((blockSum (blockTerms af wf a w b)).shift ((xa : Int) - 127 + ((xw : Int) - 127)))).1

/-- What one row and column add: the two contributions, added in FP32. -/
def tileTerm (af wf : Nat) (a : BitVec 1024 × BitVec 16) (w : BitVec 1024 × BitVec 16) : BitVec 32 :=
  (fpAdd (blockContribution af wf a.1.toNat w.1.toNat a.2.toNat w.2.toNat 0)
         (blockContribution af wf a.1.toNat w.1.toNat a.2.toNat w.2.toNat 1)).1

/-- Row `r` of A updates row ACC_ROW + r, columns ACC_COL to ACC_COL + N − 1 (R180). -/
def tmulRow (c : Core) (st : StatTile) (bank : Nat) (d : BitVec 128) (accRow accCol : Nat) (zero : Bool) (r : Nat) (x : Tile) :
    Tile × Nat :=
  let (p, x, n) := tdRowRead c x d r
  let a := tdRow x d r
  let row := accRow + r
  let old := rdAcc x.vec bank row
  let v := mkVec (fun j =>
    if accCol ≤ j ∧ j < accCol + st.cols.length then
      let term := tileTerm (tdFmt d) st.fmt a (st.cols.getD (j - accCol) (0, 0))
      if zero then term else (fpAdd (lane old j) term).1
    else lane old j)
  let poison := st.poison || p || (!zero && x.vec.accPoison.contains (bank * 256 + row))
  ({ x with vec := wrAccP x.vec bank row v poison }, n)

/-- The rows of a product, in order. -/
def tmulRows (c : Core) (st : StatTile) (bank : Nat) (d : BitVec 128) (accRow accCol : Nat) (zero : Bool) :
    Nat → Nat → Tile → Tile × Nat
  | 0, _, x => (x, 0)
  | k + 1, r, x =>
    let (x, n) := tmulRow c st bank d accRow accCol zero r x
    let (x, n') := tmulRows c st bank d accRow accCol zero k (r + 1) x
    (x, n + n')

/-- A TMUL at the array: NEW = 1 makes the shadow tile active before the first row (R179). -/
def fxTmul (t bank : Nat) (d : BitVec 128) (imm : BitVec 32) (c : Core) : Core :=
  let x := c.tile t
  let x := if imm.getLsbD 16 then { x with vec := { x.vec with active := x.vec.shadow, shadow := none } } else x
  match x.vec.active with
  | none => c
  | some st =>
    let (x, n) := tmulRows c st bank d (field imm 7 0) (field imm 13 8) (imm.getLsbD 17) (tdRows d) 0 x
    countEvent 4 t 14 n (some x.ptn) (countEvent 4 t 3 (tdRows d) (some x.ptn) (c.setTile t x))

/-- The stationary tiles, shadow and active, by format and shape, that the array will hold when what is queued has run (R179): a TLOAD fills
the shadow tile, a TMUL with NEW = 1 takes it. -/
def tilesAhead (u : Vec) : Option (Nat × Nat) × Option (Nat × Nat) :=
  u.arrayQ.foldl (fun s o => match o with
    | .tload d sh => (some (tdFmt d, sh), s.2)
    | .tmul _ _ imm => if imm.getLsbD 16 then (none, s.1) else s
    | .azero .. => s) (u.shadow.map (fun k => (k.fmt, k.shape)), u.active.map (fun k => (k.fmt, k.shape)))

/-- The tile that a TMUL would use: with NEW = 1 the shadow tile, else the active one. -/
def tmulTile (u : Vec) (new : Bool) : Option (Nat × Nat) := if new then (tilesAhead u).1 else (tilesAhead u).2

/-- TMUL's checks at issue: the descriptor, NO_TILE, TILE_MISMATCH, ACC_RANGE (R178–R180). -/
def tmulCheck (u : Vec) (d : BitVec 128) (idx : Nat) (imm : BitVec 32) (ok : YkRes) : YkRes :=
  tdCheck d idx (
    match tmulTile u (imm.getLsbD 16) with
    | none => .trap 8 0 false
    | some (bf, shape) =>
      if shape ≠ max (fmtClass (tdFmt d)) (fmtClass bf) then .trap 7 (BitVec.ofNat 64 (shape + 16 * tdFmt d)) false
      else
        let row := field imm 7 0
        let col := field imm 13 8
        let n := tileN shape
        if 255 < row + tdRows d - 1 ∨ col % n ≠ 0 ∨ 64 < col + n then
          .trap 9 (BitVec.ofNat 64 ((row + tdRows d - 1) % 512 + col * 2 ^ 16)) false
        else ok)

def execTmul (t : Nat) (f : YkF) (s : State) : Host.Outcome State Fault Refusal :=
  actCore s (ykStep rowTmul t f (fun c =>
    let x := c.tile t
    let d := tget 0 f.a.toNat x.vec.td
    tmulCheck x.vec d f.a.toNat f.imm (
      if arrayFull x.vec then .stay c
      else if x.vec.arrayQ.isEmpty then .go (fxTmul t f.d.toNat d f.imm c)
      else .go (c.modVec t (fun u => { u with arrayQ := u.arrayQ ++ [.tmul f.d.toNat d f.imm] })))))

/-- Rows of a bank zeroed; their poison is cleared (R177, R304). Rows beyond 255 do not exist (log 25). -/
def zeroRows (u : Vec) (bank first rows : Nat) : Vec :=
  ((List.range rows).filter (fun r => decide (first + r < 256))).foldl (fun u r => wrAccP u bank (first + r) 0 false) u

def execAzero (t : Nat) (f : YkF) (s : State) : Host.Outcome State Fault Refusal :=
  actCore s (ykStep rowAzero t f (fun c =>
    let u := (c.tile t).vec
    let first := field f.imm 7 0
    let rows := field f.imm 16 8
    if arrayFull u then .stay c
    else if u.arrayQ.isEmpty then .go (c.modVec t (fun u => zeroRows u f.d.toNat first rows))
    else .go (c.modVec t (fun u => { u with arrayQ := u.arrayQ ++ [.azero f.d.toNat first rows] }))))

end Sys2Proof.Machine
end

