-- ==== Sys2Proof/Machine/PoolArith.lean ====
section
/-! DEFINITION. Descriptors of pool operations, their vectors in pool memory, and what a cluster's share of a built-in operation
computes from the lines that it has read (R210–R219, R225, R226, R231–R236). -/

namespace Sys2Proof.Machine
open Sys2Proof

/-! ### Descriptors (R210, R211) -/

/-- Word `i` of a descriptor. -/
def dword (d : Line) (i : Nat) : BitVec 32 := BitVec.ofNat 32 (d.toNat >>> (32 * i))

def cType (d : Line) : Nat := field (dword d 0) 3 0
def cSigEn (d : Line) : Bool := (dword d 0).getLsbD 4
def cOrder (d : Line) : Bool := (dword d 0).getLsbD 5
def cClass (d : Line) : Nat := field (dword d 0) 7 6
def cHint (d : Line) : Nat := field (dword d 0) 9 8
def cFields (d : Line) : Nat := field (dword d 0) 13 10
def cNclus (d : Line) : Nat := field (dword d 0) 23 14
def cObj (d : Line) : Nat := field (dword d 1) 11 0

/-- An operand reference (R211). -/
structure OpRef where
  pla : Nat
  pleat : Nat
  present : Bool
  deriving DecidableEq, Repr

def refOf (lo hi : BitVec 32) : OpRef := ⟨lo.toNat + field hi 7 0 * 2 ^ 32, field hi 10 8, hi.getLsbD 31⟩

/-- The operand reference in words `i` and `i + 1`. -/
def refAt (d : Line) (i : Nat) : OpRef := refOf (dword d i) (dword d (i + 1))

/-! ### Vectors (R212) -/

/-- Width of a code: 0–6 of R160, 8 = FP32. -/
def pfBits (fmt : Nat) : Nat := if fmt = 8 then 32 else fmtBits fmt
def pfMx (fmt : Nat) : Bool := decide (fmt ≠ 8) && fmtMx fmt
def roundUp (x n : Nat) : Nat := ceilDiv x n * n
/-- Bytes that a vector of `n` elements takes. -/
def vecBytes (fmt n : Nat) : Nat := if pfMx fmt then roundUp (n * pfBits fmt / 8) 16 + n / 32 else n * pfBits fmt / 8
/-- The scale byte of block `b` of a vector of `n` elements at `a`. -/
def scaleAt (fmt n a b : Nat) : Nat := a + roundUp (n * pfBits fmt / 8) 16 + b

/-! ### The lines that a share has read -/

/-- Why the computation of a share cannot go on: a line is still to be read, the command fails with a status and DETAIL64, or partial
results of other clusters are still to come. -/
inductive Stop where
  | need (key : Nat)
  | fail (st : BitVec 8) (d64 : Nat)
  | wait
  deriving DecidableEq, Repr

/-- The key of a line: pleat slot and line address. -/
def lineNo (pleat line : Nat) : Nat := pleat * 2 ^ 33 + line

/-- A line; one beyond extent 895 fails with WINDOW_RANGE (R150). -/
def bufLine (b : LineBuf) (pleat line : Nat) : Except Stop (Line × Bool) :=
  if 896 * 2 ^ 23 ≤ line then .error (.fail 0x14 (line * 128))
  else match tget none (lineNo pleat line) b with
    | some x => .ok x
    | none => .error (.need (lineNo pleat line))

/-- `n` lines from `line` on as one number, the first lowest; whether one is poisoned. -/
def bufLines (b : LineBuf) (pleat line : Nat) : Nat → Except Stop (Nat × Bool)
  | 0 => .ok (0, false)
  | n + 1 => do
    let (v, p) ← bufLine b pleat line
    let (w, q) ← bufLines b pleat (line + 1) n
    .ok (v.toNat + 2 ^ 1024 * w, p || q)

/-- Bytes `a` to `a + n − 1` as a little-endian number; whether a line that holds one is poisoned. -/
def bufBytes (b : LineBuf) (pleat a n : Nat) : Except Stop (Nat × Bool) := do
  let (v, p) ← bufLines b pleat (a / 128) (if n = 0 then 0 else (a + n - 1) / 128 - a / 128 + 1)
  .ok (v / 2 ^ (8 * (a % 128)) % 2 ^ (8 * n), p)

/-- Control data: a poisoned line fails the command with INPUT_POISON (R236). -/
def bufCtl (b : LineBuf) (pleat a n : Nat) : Except Stop Nat := do
  let (v, p) ← bufBytes b pleat a n
  if p then .error (.fail 0x3B (a / 128 * 128)) else .ok v

/-- An operand reference read from pool memory; one that is not a multiple of `al` fails with ALIGN. -/
def bufRef (b : LineBuf) (pleat a al : Nat) : Except Stop OpRef := do
  let v ← bufCtl b pleat a 8
  let r := refOf (BitVec.ofNat 32 v) (BitVec.ofNat 32 (v / 2 ^ 32))
  if r.pla % al ≠ 0 then .error (.fail 0x12 r.pla) else .ok r

/-- An element in FP32, and whether it was computed from a poisoned line. -/
abbrev Elem := BitVec 32 × Bool

/-- The code of element `e` of a vector at `a`. -/
def codeAt (b : LineBuf) (pleat a fmt e : Nat) : Except Stop (Nat × Bool) := do
  let w := pfBits fmt
  let (v, p) ← bufBytes b pleat (a + e * w / 8) (max 1 (w / 8))
  .ok (if w = 4 then v / (if e % 2 = 0 then 1 else 16) % 16 else v, p)

/-- Element `e` of a vector of `n` elements, dequantized (R176, R212). -/
def elemAt (b : LineBuf) (r : OpRef) (fmt n e : Nat) : Except Stop Elem := do
  let (k, p) ← codeAt b r.pleat r.pla fmt e
  if fmt = 8 then .ok (BitVec.ofNat 32 k, p)
  else if fmtMx fmt then do
    let (x, q) ← bufBytes b r.pleat (scaleAt fmt n r.pla (e / 32)) 1
    .ok (if x = 255 then canonNaN else (toFp32 ((elemVal fmt k).shift ((x : Int) - 127))).1, p || q)
  else .ok ((toFp32 (elemVal fmt k)).1, p)

/-- The 32 elements of block `k`. -/
def blockAt (b : LineBuf) (r : OpRef) (fmt n k : Nat) : Except Stop (List Elem) :=
  (List.range 32).mapM (fun i => elemAt b r fmt n (32 * k + i))

/-! ### Output -/

/-- A byte of output: its address, its value, whether it is poisoned. -/
abbrev OutByte := Nat × BitVec 8 × Bool

/-- The low `n` bytes of a number from address `a` up. -/
def outBytes (a : Nat) (p : Bool) : Nat → Nat → List OutByte
  | 0, _ => []
  | n + 1, v => (a, BitVec.ofNat 8 v, p) :: outBytes (a + 1) p n (v / 256)

/-- A NaN in FP32 is written as the canonical one (R226). -/
def canon32 (v : BitVec 32) : BitVec 32 := if (decode32 v).isNaN then canonNaN else v

/-- Block `k` of an output vector of `n` elements at `a`, and its saturated elements (R175, R212, R226). A block of an MX format is poisoned as
a whole, for its scale comes from all of its elements. -/
def outBlock (a fmt n : Nat) (sat : Bool) (k : Nat) (l : List Elem) : List OutByte × Nat :=
  let w := pfBits fmt
  let at0 := a + 4 * w * k
  if fmt = 8 then (((List.range l.length).zip l).flatMap (fun x => outBytes (at0 + 4 * x.1) x.2.2 4 (canon32 x.2.1).toNat), 0)
  else if fmtMx fmt then
    let p := l.any (fun x => x.2)
    let (x, es, c, _) := quantBlock fmt sat (l.map (fun x => decode32 x.1))
    (outBytes at0 p (4 * w) (packBits w es) ++ [(scaleAt fmt n a k, BitVec.ofNat 8 x, p)], c)
  else
    let rs := l.map (fun x => (toFormat fmt sat (decode32 x.1), x.2))
    (((List.range rs.length).zip rs).flatMap (fun x => outBytes (at0 + 2 * x.1) x.2.2 2 x.2.1.1),
      (rs.filter (fun r => r.1.2.1)).length)

/-- Byte `i` of a line replaced. -/
def putByte (l : Line) (i : Nat) (v : BitVec 8) : Line :=
  (l &&& ~~~((BitVec.ofNat 1024 0xFF) <<< (8 * i))) ||| (v.setWidth 1024 <<< (8 * i))

/-- A byte entered in the writes of its line. -/
def addByte (pleat : Nat) (t : Table PoolWr) (o : OutByte) : Table PoolWr :=
  let k := o.1 / 128
  let w := tget ⟨BitVec.ofNat 3 pleat, BitVec.ofNat 40 (k * 128), 0, 0, false⟩ k t
  tins k { w with data := putByte w.data (o.1 % 128) o.2.1, mask := w.mask ||| (1#128 <<< (o.1 % 128)), poison := w.poison || o.2.2 } (tdel k t)

/-- The writes of some output bytes, one for each line. -/
def linesWr (r : OpRef) (l : List OutByte) : List PoolWr := (l.foldl (addByte r.pleat) []).map Prod.snd

/-- Bytes `off` to `off + len − 1` of a line as a mask. -/
def chunkMask (off len : Nat) : BitVec 128 := BitVec.ofNat 128 ((2 ^ len - 1) * 2 ^ off)

/-- What a share comes to: its writes, elements saturated, non-finite gradients. -/
structure ShareOut where
  wr : List PoolWr
  sat : Nat := 0
  nonf : Nat := 0
  deriving DecidableEq, Repr

/-! ### Shares (R225) -/

/-- The units of cluster `i` of `n`: the first and the one after the last. -/
def shareOf (units i n : Nat) : Nat × Nat := (i * units / n, (i + 1) * units / n)

/-- Blocks of 32 elements of a share of `n` elements in units of 65,536. -/
def shareBlocks (n i cnt : Nat) : List Nat :=
  let (a, b) := shareOf (ceilDiv n 65536) i cnt
  (List.range (min (n / 32) (b * 2048) - a * 2048)).map (fun k => a * 2048 + k)

/-- The results of several blocks put together. -/
def joinBlocks (l : List (List OutByte × Nat)) : List OutByte × Nat := (l.flatMap Prod.fst, (l.map Prod.snd).sum)

/-! ### REDUCE, REQUANT (R231, R235) -/

/-- The FP32 value nearest to 1 / n. -/
def recip32 (n : Nat) : BitVec 32 :=
  if n = 0 then canonNaN
  else (toFp32 (.fin false (2 * (2 ^ 100 / n) + (if 2 ^ 100 % n = 0 then 0 else 1)) (-101))).1

/-- The running result of OP: 0 and 1 add, 2 the larger, 3 the smaller. -/
def combineOp (op : Nat) (a b : BitVec 32) : BitVec 32 :=
  (if op = 2 then fpMax a b else if op = 3 then fpMin a b else fpAdd a b).1

/-- The terms of one element, in order. -/
def combineTerms (op : Nat) (l : List Elem) : Elem :=
  match l with
  | [] => (0, false)
  | t :: r =>
    let s := r.foldl (fun a b => (combineOp op a.1 b.1, a.2 || b.2)) t
    if op = 1 then ((fpMul s.1 (recip32 l.length)).1, s.2) else s

/-- Element `i` of several blocks. -/
def column (i : Nat) (bs : List (List Elem)) : List Elem := bs.map (fun b => b.getD i (0, false))

/-- The inputs of a REDUCE: by stride, or from its list. -/
def reduceInputs (b : LineBuf) (d : Line) : Except Stop (List OpRef) :=
  let n := field (dword d 4) 6 0
  let r := refAt d 8
  if (dword d 4).getLsbD 20 then (List.range n).mapM (fun k => bufRef b r.pleat (r.pla + 8 * k) 16)
  else .ok ((List.range n).map (fun k => { r with pla := r.pla + k * ((dword d 10).toNat + field (dword d 11) 7 0 * 2 ^ 32) }))

def planReduce (b : LineBuf) (d : Line) (ci count : Nat) : Except Stop ShareOut := do
  let w4 := dword d 4
  let n := (dword d 5).toNat
  let inF := field w4 15 12
  let outF := field w4 19 16
  let out := refAt d 6
  let ins ← reduceInputs b d
  let bs ← (shareBlocks n ci count).mapM (fun k => do
    let cur ← if w4.getLsbD 22 then (do let x ← blockAt b out outF n k; .ok [x]) else .ok []
    let xs ← ins.mapM (fun r => blockAt b r inF n k)
    .ok (outBlock out.pla outF n (w4.getLsbD 21) k ((List.range 32).map (fun i => combineTerms (field w4 9 8) (column i (cur ++ xs))))))
  let (o, s) := joinBlocks bs
  .ok { wr := linesWr out o, sat := s }

/-- The output lines of a REQUANT's share: those of its elements, then those of its scales alone, ascending. -/
def requantLines (d : Line) (ci count : Nat) : List Nat :=
  let n := (dword d 5).toNat
  let f := field (dword d 4) 19 16
  let out := refAt d 6
  let span (a m : Nat) : List Nat := if m = 0 then [] else (List.range ((a + m - 1) / 128 - a / 128 + 1)).map (· + a / 128)
  match shareBlocks n ci count with
  | [] => []
  | k :: r =>
    let es := span (out.pla + 4 * pfBits f * k) (4 * pfBits f * (r.length + 1))
    es ++ (if pfMx f then (span (scaleAt f n out.pla k) (r.length + 1)).filter (fun l => !es.contains l) else [])

/-- Output line number `cur` of a REQUANT's share (R235): the blocks that put a byte into it, converted. A block's saturated elements count with
the line of its first byte. -/
def requantPiece (b : LineBuf) (d : Line) (ci count cur : Nat) : Except Stop (Option (PoolWr × Nat × Nat)) := do
  let w4 := dword d 4
  let n := (dword d 5).toNat
  let f := field w4 19 16
  let out := refAt d 6
  match (requantLines d ci count)[cur]? with
  | none => .ok none
  | some l =>
    let at0 (k : Nat) : Nat := out.pla + 4 * pfBits f * k
    let mine := (shareBlocks n ci count).filter (fun k =>
      (decide (at0 k / 128 ≤ l) && decide (l ≤ (at0 k + 4 * pfBits f - 1) / 128)) || (pfMx f && decide (scaleAt f n out.pla k / 128 = l)))
    let bs ← mine.mapM (fun k => do
      let x ← blockAt b (refAt d 8) (field w4 15 12) n k
      .ok (k, outBlock out.pla f n (w4.getLsbD 21) k (x.map (fun e => ((fpMul e.1 (dword d 10)).1, e.2)))))
    let bytes := (bs.flatMap (fun x => x.2.1)).filter (fun o => decide (o.1 / 128 = l))
    .ok ((linesWr out bytes).head?.map (fun k =>
      (k, ((bs.filter (fun x => decide (at0 x.1 / 128 = l))).map (fun x => x.2.2)).sum, cur + 1)))

/-! ### GATHERPOOL (R214, R232) -/

/-- The rows of bag `g`: index and weight of each, in index order, with the checks of R232. -/
def bagRows (b : LineBuf) (d : Line) (g : Nat) : Except Stop (List (Nat × BitVec 32)) := do
  let ix := refAt d 12
  let of := refAt d 14
  let wt := refAt d 16
  let lo ← bufCtl b of.pleat (of.pla + 4 * g) 4
  let hi ← bufCtl b of.pleat (of.pla + 4 * g + 4) 4
  if (g = 0 ∧ lo ≠ 0) ∨ hi < lo ∨ (lo < hi ∧ 896 * 2 ^ 30 < ix.pla + 4 * hi) then .error (.fail 0x39 g)
  else (List.range (hi - lo)).mapM (fun j => do
    let i ← bufCtl b ix.pleat (ix.pla + 4 * (lo + j)) 4
    if (dword d 6).toNat ≤ i then .error (.fail 0x38 (lo + j))
    else do
      let w ← if (dword d 4).getLsbD 20 then bufCtl b wt.pleat (wt.pla + 4 * (lo + j)) 4 else .ok 0
      .ok (i, BitVec.ofNat 32 w))

/-- One bag's output row. -/
def planBag (b : LineBuf) (d : Line) (g : Nat) : Except Stop (List OutByte × Nat) := do
  let w4 := dword d 4
  let dim := field (dword d 5) 15 0
  let tab := refAt d 8
  let out := refAt d 18
  let outF := field w4 19 16
  let rows ← bagRows b d g
  let vs ← (List.range (dim / 32)).mapM (fun k => rows.mapM (fun r => do
    let x ← blockAt b { tab with pla := tab.pla + r.1 * (dword d 10).toNat } (field w4 15 12) dim k
    .ok (x.map (fun e => if w4.getLsbD 20 then ((fpMul e.1 r.2).1, e.2) else e))))
  let p := vs.any (fun bs => bs.any (fun x => x.any (fun e => e.2)))
  let at0 := out.pla + g * roundUp (vecBytes outF dim) 16
  let bs := ((List.range vs.length).zip vs).map (fun v => outBlock at0 outF dim (w4.getLsbD 21) v.1
    ((List.range 32).map (fun i => ((combineTerms (field w4 9 8) (column i v.2)).1, p))))
  .ok (joinBlocks bs)

def planGather (b : LineBuf) (d : Line) (ci count : Nat) : Except Stop ShareOut := do
  let bags := field (dword d 7) 23 0
  let (lo, hi) := shareOf (ceilDiv bags 64) ci count
  let bs ← (List.range (min bags (64 * hi) - 64 * lo)).mapM (fun k => planBag b d (64 * lo + k))
  let (o, s) := joinBlocks bs
  .ok { wr := linesWr (refAt d 18) o, sat := s }

/-! ### OPTSTEP (R217, R234) -/

/-- sqrt of R234. -/
def sqrtOf (x : BitVec 32) : BitVec 32 :=
  match decode32 x with
  | .fin s m _ => if m = 0 then 0 else if s then Config.sqrtUnstated x else (fpMul x (fpRsqrt x).1).1
  | .inf false => (fpMul x (fpRsqrt x).1).1
  | _ => Config.sqrtUnstated x

/-- One element: new w, m and v; `none` when a non-finite gradient leaves it unchanged. -/
def optElem (d : Line) (w g m v : BitVec 32) : Option (BitVec 32 × BitVec 32 × BitVec 32) :=
  let add (a b : BitVec 32) : BitVec 32 := (fpAdd a b).1
  let sub (a b : BitVec 32) : BitVec 32 := (fpSub a b).1
  let mul (a b : BitVec 32) : BitVec 32 := (fpMul a b).1
  let k (i : Nat) : BitVec 32 := dword d (16 + i)
  let one : BitVec 32 := 0x3F800000
  let g := mul g (k 7)
  let nonf := match decode32 g with
    | .fin _ _ _ => false
    | _ => true
  if (dword d 4).getLsbD 20 && nonf then none
  else if field (dword d 4) 1 0 = 0 then
    let m := add (mul (k 1) m) g
    some (sub w (mul (k 0) (add m (mul (k 4) w))), m, v)
  else
    let m := add (mul (k 1) m) (mul (sub one (k 1)) g)
    let v := add (mul (k 2) v) (mul (sub one (k 2)) (mul g g))
    let dd := add (sqrtOf (mul v (k 6))) (k 3)
    some (sub w (mul (k 0) (add (mul (mul m (k 5)) (fpRcp dd).1) (mul (k 4) w))), m, v)

/-- The bytes of element `e` of w, m or v: the new value converted, or the code that it had. -/
def outState (a fmt e : Nat) (sat : Bool) (new : Option (BitVec 32)) (old : Nat) (p : Bool) : List OutByte × Nat :=
  let n := pfBits fmt / 8
  match new with
  | none => (outBytes (a + n * e) p n old, 0)
  | some v =>
    if fmt = 8 then (outBytes (a + n * e) p n (canon32 v).toNat, 0)
    else let r := toFormat fmt sat (decode32 v); (outBytes (a + n * e) p n r.1, if r.2.1 then 1 else 0)

/-- One element with all that it writes but WOUT: the value for WOUT, the bytes of W, M and V, saturated elements, skipped. -/
def optOne (b : LineBuf) (d : Line) (e : Nat) :
    Except Stop (Elem × List OutByte × List OutByte × List OutByte × Nat × Nat) := do
  let w4 := dword d 4
  let n := (dword d 5).toNat
  let (wf, mf, sat) := (field w4 7 4, field w4 15 12, w4.getLsbD 21)
  let adam := decide (field w4 1 0 = 1)
  let (rw, rm, rv) := (refAt d 6, refAt d 10, refAt d 12)
  let (w, pw) ← elemAt b rw wf n e
  let (g, pg) ← elemAt b (refAt d 8) (field w4 11 8) n e
  let (m, pm) ← elemAt b rm mf n e
  let (v, pv) ← if adam then elemAt b rv mf n e else .ok (0, false)
  let (cw, _) ← codeAt b rw.pleat rw.pla wf e
  let (cm, _) ← codeAt b rm.pleat rm.pla mf e
  let (cv, _) ← if adam then codeAt b rv.pleat rv.pla mf e else .ok (0, false)
  let r := optElem d w g m v
  let pa := pw || pg || pm || pv
  let (bw, sw) := outState rw.pla wf e sat (r.map (fun x => x.1)) cw pa
  let (bm, sm) := outState rm.pla mf e sat (r.map (fun x => x.2.1)) cm (pm || pg)
  let (bv, sv) := if adam then outState rv.pla mf e sat (r.map (fun x => x.2.2)) cv (pv || pg) else ([], 0)
  .ok (((r.map (fun x => x.1)).getD w, pa), bw, bm, bv, sw + sm + sv, if r.isNone then 1 else 0)

def planOptstep (b : LineBuf) (d : Line) (ci count : Nat) : Except Stop ShareOut := do
  let w4 := dword d 4
  let n := (dword d 5).toNat
  let wo := refAt d 14
  let bs ← (shareBlocks n ci count).mapM (fun k => do
    let es ← (List.range 32).mapM (fun i => optOne b d (32 * k + i))
    let (bo, so) := if wo.present then outBlock wo.pla (field w4 19 16) n (w4.getLsbD 21) k (es.map (fun x => x.1)) else ([], 0)
    .ok (es, bo, so))
  let es := bs.flatMap (fun x => x.1)
  .ok { wr := linesWr (refAt d 6) (es.flatMap (fun x => x.2.1)) ++ linesWr (refAt d 10) (es.flatMap (fun x => x.2.2.1)) ++
          linesWr (refAt d 12) (es.flatMap (fun x => x.2.2.2.1)) ++ linesWr wo (bs.flatMap (fun x => x.2.1)),
        sat := (es.map (fun x => x.2.2.2.2.1)).sum + (bs.map (fun x => x.2.2)).sum,
        nonf := (es.map (fun x => x.2.2.2.2.2)).sum }

/-! ### COPY, FILL (R218, R235) -/

/-- The address of granule `g` of rows at `a` with a stride. -/
def granuleAt (d : Line) (a stride g : Nat) : Nat :=
  let rb := (dword d 4).toNat
  a + g * 16 / rb * stride + g * 16 % rb

/-- Some row of the source shares a byte with some row of the destination. -/
def copyOverlaps (d : Line) : Bool :=
  let rb := (dword d 4).toNat
  let rows := field (dword d 5) 23 0
  let (t, s) := (refAt d 6, refAt d 8)
  decide (t.pleat = s.pleat) && (List.range rows).any (fun i => (List.range rows).any (fun j =>
    let x := t.pla + i * (dword d 10).toNat
    let y := s.pla + j * (dword d 11).toNat
    decide (x < y + rb) && decide (y < x + rb)))

/-- The next piece of a share that is worked row by row and line by line (R235): its write, elements saturated, and the cursor after it;
`none` at the end of the share. -/
abbrev Piece := Option (PoolWr × Nat × Nat)

/-- Rows of COPY and FILL: from granule `cur` of the share up to the end of its row, of its destination line or of the share; `src` gives the
`n` granules from granule `g` on. -/
def rowPiece (d : Line) (stride ci count cur : Nat) (src : Nat → Nat → Except Stop (Nat × Bool)) : Except Stop Piece := do
  let rb := (dword d 4).toNat
  let total := rb * field (dword d 5) 23 0
  let (lo, hi) := shareOf (ceilDiv total 0x100000) ci count
  let g := lo * 65536 + cur
  let stop := min (total / 16) (hi * 65536)
  if stop ≤ g then .ok none
  else
    let t := refAt d 6
    let a := granuleAt d t.pla stride g
    let n := min (min ((128 - a % 128) / 16) ((rb - g * 16 % rb) / 16)) (stop - g)
    let (v, p) ← src g n
    .ok (some (⟨BitVec.ofNat 3 t.pleat, BitVec.ofNat 40 (a / 128 * 128), BitVec.ofNat 1024 (v * 2 ^ (8 * (a % 128))),
      chunkMask (a % 128) (16 * n), p⟩, 0, cur + max 1 n))

/-- COPY; where source and destination overlap, the destination holds free values (log 33). -/
def copyPiece (b : LineBuf) (d : Line) (ci count seed cur : Nat) : Except Stop Piece :=
  let s := refAt d 8
  let over? := copyOverlaps d
  rowPiece d (dword d 10).toNat ci count cur (fun g n => do
    let (v, p) ← bufBytes b s.pleat (granuleAt d s.pla (dword d 11).toNat g) (16 * n)
    .ok (if over? then ((List.range n).map (fun i => (Config.copyOverlap seed (g + i)).toNat * 2 ^ (128 * i))).sum else v, p))

/-- FILL: PATTERN repeated from the start of each row, whose length is a multiple of its 16 B. -/
def fillPiece (d : Line) (ci count cur : Nat) : Except Stop Piece :=
  let pat := (List.range 4).foldl (fun a i => a + (dword d (10 + i)).toNat * 2 ^ (32 * i)) 0
  rowPiece d (dword d 8).toNat ci count cur (fun _ n => .ok (((List.range n).map (fun i => pat * 2 ^ (128 * i))).sum, false))

/-! ### ATTEND (R215, R216, R225, R233) -/

/-- The shape of an ATTEND. -/
structure AttShape where
  qh : Nat
  kvh : Nat
  dim : Nat
  kf : Nat
  qf : Nat
  outF : Nat
  t : Nat
  seqs : Nat
  deriving DecidableEq, Repr

def attShape (d : Line) : AttShape :=
  let w4 := dword d 4
  { qh := field w4 7 0, kvh := field w4 15 8, dim := 64 * 2 ^ field w4 17 16, kf := field w4 23 20, qf := field w4 27 24, outF := field w4 31 28,
    t := 2 ^ field (dword d 5) 3 0, seqs := field (dword d 5) 31 16 }

/-- Query heads of one KV head. -/
def AttShape.g (a : AttShape) : Nat := a.qh / a.kvh

/-- The units in the order sequence, head, chunk. -/
def attUnits (a : AttShape) (lens : List Nat) : List (Nat × Nat × Nat) :=
  (List.range a.seqs).flatMap (fun s => (List.range a.kvh).flatMap (fun h =>
    (List.range (ceilDiv (lens.getD s 0) 4096)).map (fun c => (s, h, c))))

/-- Offsets of the four areas of a page: K elements and scales, V elements and scales (R216). -/
def kvAreas (a : AttShape) : Nat × Nat × Nat × Nat :=
  let w := fmtBits a.kf
  let el := a.kvh * a.t * a.dim * w / 8
  let sc := if fmtMx a.kf then a.kvh * a.t * a.dim / 32 else 0
  let ks := roundUp el 128
  let v := roundUp (ks + sc) 128
  (0, ks, v, roundUp (v + el) 128)

/-- 64 elements of a row of the array with their scale pair. -/
abbrev ArrRow := BitVec 1024 × BitVec 16

/-- 64 elements at `a` with their two scales at `sa`, as stored; whether a line that holds them is poisoned. -/
def rawRow (b : LineBuf) (pleat fmt a sa : Nat) : Except Stop (ArrRow × Bool) := do
  let (v, p) ← bufBytes b pleat a (8 * fmtBits fmt)
  if fmtMx fmt then do
    let (x, q) ← bufBytes b pleat sa 2
    .ok ((BitVec.ofNat 1024 v, BitVec.ofNat 16 x), p || q)
  else .ok ((BitVec.ofNat 1024 v, 0x7F7F), p)

/-- 64 FP32 values quantized as a row of the array, SAT = 1. -/
def quantRow (fmt : Nat) (l : List (BitVec 32)) : ArrRow :=
  let (v, _, _) := quantize fmt true l
  let w := 64 * fmtBits fmt
  (BitVec.ofNat 1024 (v.toNat % 2 ^ w), if fmtMx fmt then BitVec.ofNat 16 (v.toNat / 2 ^ w) else 0x7F7F)

/-- Terms added in order, the first as it is (R130). -/
def sumTerms (l : List (BitVec 32)) : BitVec 32 :=
  match l with
  | [] => 0
  | t :: r => r.foldl (fun a b => (fpAdd a b).1) t

/-- The product of two rows of several 64-element runs (R130). -/
def dotRuns (fmt : Nat) (a b : List ArrRow) : BitVec 32 := sumTerms ((a.zip b).map (fun x => tileTerm fmt fmt x.1 x.2))

/-- The rows of query head `g` of the group, quantized to KV_FMT; whether they are poisoned. -/
def qRows (b : LineBuf) (d : Line) (a : AttShape) (s h g : Nat) : Except Stop (List ArrRow × Bool) := do
  let q := refAt d 8
  let row := { q with pla := q.pla + (s * a.qh + h * a.g + g) * a.dim * pfBits a.qf / 8 }
  let es ← (List.range a.dim).mapM (fun i => elemAt b row a.qf a.dim i)
  .ok ((List.range (a.dim / 64)).map (fun r => quantRow a.kf ((es.drop (64 * r)).take 64 |>.map (fun e => e.1))), es.any (fun e => e.2))

/-- The page of token `t` of a sequence. -/
def pageOf (b : LineBuf) (d : Line) (a : AttShape) (s t : Nat) : Except Stop OpRef := do
  let st := refAt d 12
  let e ← bufCtl b st.pleat (st.pla + 16 * s + 8) 8
  let pl := refOf (BitVec.ofNat 32 e) (BitVec.ofNat 32 (e / 2 ^ 32))
  bufRef b pl.pleat (pl.pla + 8 * (t / a.t)) 128

/-- Row (h, t) of K in 64-element runs. -/
def kRow (b : LineBuf) (a : AttShape) (pg : OpRef) (h t : Nat) : Except Stop (List ArrRow × Bool) := do
  let (_, ks, _, _) := kvAreas a
  let i := (h * a.t + t % a.t) * a.dim
  let rs ← (List.range (a.dim / 64)).mapM (fun r => rawRow b pg.pleat a.kf (pg.pla + (i + 64 * r) * fmtBits a.kf / 8) (pg.pla + ks + i / 32 + 2 * r))
  .ok (rs.map Prod.fst, rs.any Prod.snd)

/-- Tokens t to t + 63 of dimension `dd` of V. -/
def vRow (b : LineBuf) (a : AttShape) (pg : OpRef) (h dd t : Nat) : Except Stop (ArrRow × Bool) :=
  let (_, _, v, vs) := kvAreas a
  let i := (h * a.dim + dd) * a.t + t % a.t
  rawRow b pg.pleat a.kf (pg.pla + v + i * fmtBits a.kf / 8) (pg.pla + vs + i / 32)

/-- One unit (s, h, c): the partial results m, l and o of the heads of the group (R233). Tokens at or past LEN in the last 64-token run score −∞; runs
wholly past LEN are not formed. -/
def attUnit (b : LineBuf) (d : Line) (a : AttShape) (lens : List Nat) (k s h c : Nat) : Except Stop AttPart := do
  let len := lens.getD s 0
  if 1048576 < len then .error (.fail 0x3A s)
  else do
    let t0 := 4096 * c
    let runs := List.range (ceilDiv (min 4096 (len - t0)) 64)
    let qs ← (List.range a.g).mapM (fun g => qRows b d a s h g)
    let ks ← runs.mapM (fun r => (List.range 64).mapM (fun i => do
      let t := t0 + 64 * r + i
      if len ≤ t then .ok none
      else do
        let pg ← pageOf b d a s t
        let x ← kRow b a pg h t
        .ok (some x)))
    let vs ← runs.mapM (fun r => do
      let pg ← pageOf b d a s (t0 + 64 * r)
      (List.range a.dim).mapM (fun dd => vRow b a pg h dd (t0 + 64 * r)))
    let ninf : BitVec 32 := 0xFF800000
    let sc (q : List ArrRow) (x : Option (List ArrRow × Bool)) : BitVec 32 := match x with
      | none => ninf
      | some y => (fpMul (dotRuns a.kf q y.1) (dword d 6)).1
    let heads := qs.map (fun q =>
      let ss := ks.map (fun row => row.map (sc q.1))
      let m := match ss.flatten with
        | [] => ninf
        | x :: r => r.foldl (fun u v => (fpMax u v).1) x
      let ps := ss.map (fun row => row.map (fun x => (fpExp2 (fpSub x m).1).1))
      let l := sumTerms (ps.map (fun row => (reduceTree fpAdd 6 row 0).1))
      let pq := ps.map (quantRow a.kf)
      (m, l, (List.range a.dim).map (fun dd => dotRuns a.kf pq (vs.map (fun v => (v.getD dd ((0, 0), false)).1)))))
    let poison := qs.any Prod.snd || ks.any (fun row => row.any (fun x => (x.map Prod.snd).getD false)) || vs.any (fun v => v.any Prod.snd)
    .ok { k := k, m := heads.map (fun x => x.1), l := heads.map (fun x => x.2.1), o := heads.map (fun x => x.2.2), poison := poison }

/-- The partial results of the units of a share. -/
def planParts (b : LineBuf) (d : Line) (lens : List Nat) (ci count : Nat) : Except Stop (List AttPart) :=
  let a := attShape d
  let us := attUnits a lens
  (((List.range us.length).zip us).filter (fun u => decide (u.1 % count = ci))).mapM (fun u => attUnit b d a lens u.1 u.2.1 u.2.2.1 u.2.2.2)

/-- The bytes of partial results as they are pushed: m, then l, then o by head, FP32; and partial results read from them (R233, log 58). -/
def partBytes (x : AttPart) : List (BitVec 8) :=
  (x.m ++ x.l ++ x.o.flatten).flatMap (fun w => (List.range 4).map (fun i => BitVec.ofNat 8 (w.toNat / 256 ^ i)))
def partOf (a : AttShape) (k : Nat) (bytes : List (BitVec 8)) (poison : Bool) : AttPart :=
  let w (i : Nat) : BitVec 32 := BitVec.ofNat 32 (((List.range 4).map (fun j => (bytes.getD (4 * i + j) 0).toNat * 256 ^ j)).sum)
  { k := k, m := (List.range a.g).map w, l := (List.range a.g).map (fun i => w (a.g + i)),
    o := (List.range a.g).map (fun i => (List.range a.dim).map (fun j => w (2 * a.g + i * a.dim + j))), poison := poison }

/-- The cluster index that combines the chunks of unit `k`: that of chunk 0 of its sequence and head (R225). -/
def combinerOf (us : List (Nat × Nat × Nat)) (k count : Nat) : Nat := (k - (us.getD k (0, 0, 0)).2.2) % count

/-- The running m, l and o over the chunks, in chunk order, of one query head. -/
def attCombine (dim g : Nat) (ps : List AttPart) : List (BitVec 32) :=
  let mul (a b : BitVec 32) : BitVec 32 := (fpMul a b).1
  let mix (x a y b : BitVec 32) : BitVec 32 := (fpAdd (mul x a) (mul y b)).1
  let (_, ll, oo) := ps.foldl (fun (st : BitVec 32 × BitVec 32 × List (BitVec 32)) p =>
    let (mm, ll, oo) := st
    let mc := p.m.getD g 0
    let mn := (fpMax mm mc).1
    let a := (fpExp2 (fpSub mm mn).1).1
    let b := (fpExp2 (fpSub mc mn).1).1
    (mn, mix ll a (p.l.getD g 0) b, (oo.zip (p.o.getD g [])).map (fun x => mix x.1 a x.2 b)))
    (0xFF800000, 0, List.replicate dim 0)
  oo.map (fun x => mul x (fpRcp ll).1)

/-- The output row of query head `q` of sequence `s`. -/
def attRow (d : Line) (a : AttShape) (s q : Nat) (p : Bool) (vs : List (BitVec 32)) : List OutByte × Nat :=
  let at0 := (refAt d 10).pla + (s * a.qh + q) * a.dim * pfBits a.outF / 8
  joinBlocks ((List.range (a.dim / 32)).map (fun k => outBlock at0 a.outF a.dim true k (((vs.drop (32 * k)).take 32).map (fun v => (v, p)))))

/-- The rows that a cluster writes: of the (s, h) whose chunk 0 is its own, once every chunk has come, and zeros for sequences without
tokens at cluster 0. -/
def planAttend (b : LineBuf) (d : Line) (lens : List Nat) (parts : List AttPart) (ci count : Nat) : Except Stop ShareOut := do
  let a := attShape d
  let us := attUnits a lens
  let mine := ((List.range us.length).zip us).filter (fun u => decide (u.1 % count = ci ∧ u.2.2.2 = 0))
  let rows ← mine.mapM (fun u => do
    let (s, h, _) := u.2
    let ps ← (List.range (ceilDiv (lens.getD s 0) 4096)).mapM (fun c =>
      match parts.find? (fun p => decide (p.k = u.1 + c)) with
      | some p => (.ok p : Except Stop AttPart)
      | none => .error .wait)
    .ok ((List.range a.g).map (fun g => attRow d a s (h * a.g + g) (ps.any (fun p => p.poison)) (attCombine a.dim g ps))))
  let zeros ← if ci ≠ 0 then .ok [] else
    ((List.range a.seqs).filter (fun s => decide (lens.getD s 0 = 0))).mapM (fun s => do
      let st := refAt d 12
      let _ ← bufCtl b st.pleat (st.pla + 16 * s) 16
      .ok ((List.range a.qh).map (fun q => attRow d a s q false (List.replicate a.dim 0))))
  let (o, n) := joinBlocks ((rows ++ zeros).flatten)
  .ok { wr := linesWr (refAt d 10) o, sat := n }

end Sys2Proof.Machine
end

