-- ==== Sys2Proof/Machine/Sync.lean ====
section
/-! DEFINITION. Synchronization objects, their waiters, the messages of the sync port and the instructions that send them
(R183, R240–R264). -/

namespace Sys2Proof.Machine
open Sys2Proof

/-! ### Values (R243, R250) -/

/-- avail = (PRODUCED − CONSUMED) mod 2^64. -/
def SyncObj.avail (o : SyncObj) : Nat := (o.produced - o.consumed).toNat
/-- lim = BOUND, or 2^63 − 1 when BOUND = 0. -/
def SyncObj.lim (o : SyncObj) : Nat := if o.param = 0 then 2 ^ 63 - 1 else o.param.toNat
/-- PARTICIPANTS. -/
def SyncObj.parts (o : SyncObj) : Nat := field o.param 15 0

/-- The count has reached the target (R243). -/
def reached (count target : BitVec 64) : Bool := decide ((count - target).toNat < 2 ^ 63)

/-- The wait of a record is satisfied (R244, R250). -/
def waitMet (o : SyncObj) (kind n : Nat) : Bool :=
  if kind = 0 then decide (n ≤ o.avail)
  else if kind = 1 then decide (n ≤ o.lim - o.avail)
  else decide ((o.round.toNat + 4 - n % 4) % 4 = 1 ∨ (o.round.toNat + 4 - n % 4) % 4 = 2)

/-- The edge unit of an object (R14). -/
def objEdge (obj : Nat) : Nat := obj / 256

/-! ### What an applied and a refused operation do -/

/-- After an operation, the object's satisfied waiters are woken in ascending logical-cluster order (R242, R254). -/
def wakeWaiters (obj : Nat) (c : Core) : Core :=
  let e := objEdge obj
  let d := c.edge e
  let o := c.obj obj
  let hit := d.waiters.filter (fun w => decide (w.obj = obj) && waitMet o w.kind w.n)
  let c := c.setEdge e { d with waiters := d.waiters.filter (fun w => !(decide (w.obj = obj) && waitMet o w.kind w.n)) }
  (hit.mergeSort (fun a b => decide (a.c ≤ b.c))).foldl (fun c w => c.send (.sync ⟨10, obj, w.c, 0, false, false, 0, 0⟩)) c

/-- The answer to the issuer: ACK to a cluster (R253), Cmp to a host (R257). -/
def syncAck (obj : Nat) (o : Origin) (c : Core) : Core :=
  if o.kind = 0 then c.send (.sync ⟨9, obj, o.idx, 0, false, false, 0, 0⟩)
  else c.answer o (c.originPtn o) 0 { op := opCmp }

/-- A fault refuses its operation (R260): FAULTS counts it; the first since INIT or CLEAR_FAULT sets LAST_FAULT and is logged. -/
def objFault (obj : Nat) (o : Origin) (code : BitVec 4) (c : Core) : Core :=
  let x := c.obj obj
  let c := c.setObj obj { x with faults := x.faults + 1, lastFault := if x.lastFault = 0 then code else x.lastFault }
  if x.lastFault = 0 then
    logE 0x0801 8 (objEdge obj) (c.objOwner obj) [(12, obj), (8, code.toNat), issuerField o] c
  else c

/-- A refused operation of a host or a cluster: the fault, and NackRevoked, reason BAD_TYPE, or ACK with the code. -/
def syncRefuse (obj : Nat) (o : Origin) (code : BitVec 4) (c : Core) : Core :=
  let c := objFault obj o code c
  if o.kind = 0 then c.send (.sync ⟨9, obj, o.idx, 0, false, false, code.setWidth 32, 0⟩)
  else c.answer o (c.originPtn o) 0 { op := opNackRevoked, reason := 4 }

/-- An operation has been applied: waiters are evaluated and the owner's detector sees progress (R242, R262). -/
def objApplied (obj : Nat) (c : Core) : Core :=
  let c := wakeWaiters obj c
  match c.objOwner obj with
  | some p => progress p c
  | none => c

/-- A host reaches only the objects of its own partition; elsewhere its write is answered and has no effect (R47). -/
def hostMay (c : Core) (obj : Nat) (o : Origin) : Bool :=
  decide (o.kind ≠ 1) || decide (c.objOwner obj = some (c.originPtn o))

/-- The edge unit of the object takes the message. -/
def edgeTakes (c : Core) (obj : Nat) : Bool := decide (obj < 4096) && c.works 8 (objEdge obj)

/-- An operation at its edge unit: absent, foreign, or its own rule. -/
def syncOp (obj : Nat) (o : Origin) (f : Core → Core) (c : Core) : Core :=
  if !edgeTakes c obj then c
  else if !hostMay c obj o then c.answer o (c.originPtn o) 0 { op := opCmp }
  else f c

/-! ### Counter mode (R243) -/

/-- produce(n): the new object, or the fault code that refuses it. -/
def produceObj (x : SyncObj) (n : Nat) : Except (BitVec 4) SyncObj :=
  if x.mode ≠ .counter then .error 6
  else if x.lim < x.avail + n then .error 2
  else .ok { x with produced := x.produced + BitVec.ofNat 64 n }

/-- consume(n). -/
def consumeObj (x : SyncObj) (n : Nat) : Except (BitVec 4) SyncObj :=
  if x.mode ≠ .counter then .error 6
  else if x.avail < n then .error 1
  else .ok { x with consumed := x.consumed + BitVec.ofNat 64 n }

/-- The outcome of an operation on an object, applied or refused, with its answer. -/
def applyObj (obj : Nat) (o : Origin) (r : Except (BitVec 4) SyncObj) (c : Core) : Core :=
  match r with
  | .ok x => objApplied obj (syncAck obj o (c.setObj obj x))
  | .error code => syncRefuse obj o code c

def fxProduce (obj : Nat) (o : Origin) (cnt : BitVec 32) (c : Core) : Core :=
  syncOp obj o (fun c => applyObj obj o (produceObj (c.obj obj) cnt.toNat) c) c

def fxConsume (obj : Nat) (o : Origin) (cnt : BitVec 32) (c : Core) : Core :=
  syncOp obj o (fun c => applyObj obj o (consumeObj (c.obj obj) cnt.toNat) c) c

/-- SIGNAL: a produce of 1; a fault is reported to the cluster when NOTIFY = 1, and only logged otherwise (R245, R246). -/
def fxSignal (obj : Nat) (o : Origin) (notify : Bool) (c : Core) : Core :=
  if !edgeTakes c obj then c
  else match produceObj (c.obj obj) 1 with
    | .ok x => objApplied obj (c.setObj obj x)
    | .error code =>
      let c := objFault obj o code c
      if notify then c.send (.sync ⟨9, obj, o.idx, 0, false, true, code.setWidth 32, 0⟩) else c

/-! ### Barrier mode (R247–R249) -/

/-- The arrival counter and bitmap of a parity. -/
def SyncObj.arr (x : SyncObj) (odd : Bool) : BitVec 16 := if odd then x.arr1 else x.arr0
def SyncObj.bm (x : SyncObj) (odd : Bool) : BitVec 64 := if odd then x.bm1 else x.bm0
def SyncObj.setArr (x : SyncObj) (odd : Bool) (a : BitVec 16) (b : BitVec 64) : SyncObj :=
  if odd then { x with arr1 := a, bm1 := b } else { x with arr0 := a, bm0 := b }

/-- The current round's parity. -/
def SyncObj.cur (x : SyncObj) : Bool := x.round.getLsbD 0

/-- A release of the current round, and of the next at once if it is complete already (R249). -/
def releaseRounds : Nat → SyncObj → SyncObj
  | 0, x => x
  | k + 1, x =>
    if (x.arr x.cur).toNat = x.parts then
      releaseRounds k { x.setArr x.cur 0 0 with round := x.round + 1 }
    else x

/-- An arrival of participant `i` with PHASE `ph` (R248). -/
def arriveObj (x : SyncObj) (i : Nat) (ph : BitVec 2) : Except (BitVec 4) SyncObj :=
  let bits := decide (x.parts ≤ 64)
  let d := (ph.toNat + 4 - x.round.toNat % 4) % 4
  if x.mode ≠ .barrier then .error 6
  else if bits ∧ x.parts ≤ i then .error 9
  else if d = 0 then
    let b := x.cur
    if bits ∧ (x.bm b).getLsbD i then .error 4
    else .ok (releaseRounds 2 (x.setArr b (x.arr b + 1) (if bits then x.bm b ||| (1#64 <<< i) else x.bm b)))
  else if d = 1 then
    let b := !x.cur
    if bits ∧ (x.bm b).getLsbD i then .error 4
    else if (x.arr b).toNat = x.parts then .error 5
    else .ok (x.setArr b (x.arr b + 1) (if bits then x.bm b ||| (1#64 <<< i) else x.bm b))
  else if d = 2 then .error 3
  else .error 4

def fxArrive (obj : Nat) (o : Origin) (part : BitVec 16) (phase : BitVec 2) (c : Core) : Core :=
  syncOp obj o (fun c => applyObj obj o (arriveObj (c.obj obj) part.toNat phase) c) c

/-! ### Waits and reads (R244, R250–R255) -/

/-- A wait is answered WAKE at once or recorded; on an object of another mode it is refused with WRONG_MODE, reported to the
cluster (R240, log 26). -/
def waitOp (obj cl kind n : Nat) (mode : ObjMode) (c : Core) : Core :=
  if !edgeTakes c obj then c
  else
    let x := c.obj obj
    if x.mode ≠ mode then
      let o : Origin := ⟨0, cl, 0, 0, 0, none, 0⟩
      (objFault obj o 6 c).send (.sync ⟨9, obj, cl, 0, false, true, 6, 0⟩)
    else if waitMet x kind n then c.send (.sync ⟨10, obj, cl, 0, false, false, 0, 0⟩)
    else
      let d := c.edge (objEdge obj)
      c.setEdge (objEdge obj) { d with waiters := d.waiters ++ [⟨obj, cl, kind, n⟩] }

def fxWaitAvail (obj cl : Nat) (cnt : BitVec 32) (c : Core) : Core := waitOp obj cl 0 cnt.toNat .counter c
def fxWaitSpace (obj cl : Nat) (cnt : BitVec 32) (c : Core) : Core := waitOp obj cl 1 cnt.toNat .counter c
def fxWaitBarrier (obj cl : Nat) (phase : BitVec 2) (c : Core) : Core := waitOp obj cl 2 phase.toNat .barrier c

/-- The record of an abandoned wait is removed (R255). -/
def fxCancel (obj cl : Nat) (c : Core) : Core :=
  if !edgeTakes c obj then c
  else
    let d := c.edge (objEdge obj)
    c.setEdge (objEdge obj) { d with waiters := d.waiters.filter (fun w => !(decide (w.obj = obj ∧ w.c = cl))) }

/-- The count or round that SEL names (R183, R251). -/
def syncValue (x : SyncObj) (sel : Bool) : BitVec 64 :=
  if x.mode = .barrier then
    (if sel then BitVec.ofNat 64 (x.arr0.toNat + x.arr1.toNat * 65536) else x.round.setWidth 64)
  else if sel then x.consumed else x.produced

/-- READ is answered with VALUE. On an unconfigured object it is refused: the fault is reported to the cluster, and the VALUE that ends its
SREAD is one the manual does not give (R240, log 3, log 26). -/
def fxSyncRead (obj cl : Nat) (sel : Bool) (c : Core) : Core :=
  if !edgeTakes c obj then c
  else
    let x := c.obj obj
    if x.mode = .unconfigured then
      let (v, c) := c.free
      ((objFault obj ⟨0, cl, 0, 0, 0, none, 0⟩ 6 c).send (.sync ⟨9, obj, cl, 0, false, true, 6, 0⟩)).send
        (.sync ⟨11, obj, cl, 0, sel, false, 0, v.setWidth 64⟩)
    else c.send (.sync ⟨11, obj, cl, 0, sel, false, 0, syncValue x sel⟩)

/-! ### INIT, CLEAR_FAULT and bad writes (R257, R259, R260) -/

/-- The object holds a waiter record. -/
def hasWaiter (c : Core) (obj : Nat) : Bool := (c.edge (objEdge obj)).waiters.any (fun w => decide (w.obj = obj))

/-- A host INIT; a mode other than counter and barrier, or a barrier of no participants, is BAD_OP. -/
def fxInitObject (obj : Nat) (o : Origin) (mode : BitVec 2) (arg : BitVec 32) (c : Core) : Core :=
  syncOp obj o (fun c =>
    if hasWaiter c obj then syncRefuse obj o 7 c
    else if mode ≠ 1 ∧ mode ≠ 2 then syncRefuse obj o 8 c
    else if mode = 2 ∧ field arg 15 0 = 0 then syncRefuse obj o 8 c
    else objApplied obj (syncAck obj o (c.setObj obj
      { mode := if mode = 1 then .counter else .barrier, param := if mode = 1 then arg else BitVec.ofNat 32 (field arg 15 0) }))) c

def fxClearFault (obj : Nat) (o : Origin) (c : Core) : Core :=
  syncOp obj o (fun c => objApplied obj (syncAck obj o (c.modObj obj (fun x => { x with lastFault := 0 })))) c

/-- A WrPart that touches the operation words with a wrong mask is BAD_OP, for both objects of the line when it touches both (R257). An object
of another partition takes no fault (R47). -/
def fxSyncViewBadWrite (obj : Nat) (o : Origin) (both : Bool) (c : Core) : Core :=
  if !edgeTakes c obj then c
  else
    match (if both then [obj, obj ^^^ 1] else [obj]).filter (fun x => hostMay c x o) with
    | [] => c.answer o (c.originPtn o) 0 { op := opCmp }
    | x :: rest => syncRefuse x o 8 (forEach rest (fun y c => objFault y o 8 c) c)

/-! ### Answers at the tile (R155, R250–R255) -/

/-- What a cluster in reset still takes: DMA answers, whose data is written, and PUSH data while it serves (R503, R504). -/
def InPkt.passes : InPkt → Bool
  | .dma _ _ => true
  | .push _ => true
  | _ => false

/-- The cluster takes other packets: it serves or drains, and no reset runs (R503, R504). -/
def tileTakes (c : Core) (t : Nat) : Bool :=
  (decide (c.ust 4 t = .serving) || decide (c.ust 4 t = .draining)) && !(c.tile t).resetting

/-- A packet reaches a tile: an Active cluster takes it, one that can wake keeps it in the mesh-side buffer and wakes; one that is Off,
and one in reset or not Serving, absorbs it (R155, R491, R503, R504). -/
def tilePacket (t : Nat) (k : InPkt) (now : Core → Core) (c : Core) : Core :=
  let x := c.tile t
  if frozenChip c then c
  else if !k.passes && !tileTakes c t then c
  else match x.power with
    | .active => now c
    | .off => c
    | _ => c.setTile t { x with inbox := x.inbox ++ [k], waking := true }

/-- An ACK frees an unacknowledged slot, unless it reports the fault of a signal, a wait or a read (`signal`); a fault code makes
SYNC_FAULT pending (R246, R253). -/
def ackNow (t obj : Nat) (code : BitVec 4) (signal : Bool) (c : Core) : Core :=
  let x := c.tile t
  let q := x.seq
  let q := if signal then q else { q with unacked := q.unacked.erase obj }
  let info := BitVec.ofNat 64 (obj % 4096 + code.toNat * 65536)
  let q := if code = 0 then q else { q with pendSync := some (q.pendSync.getD info) }
  c.setTile t { x with seq := q }

/-- A WAKE ends the wait on its object; after the wait has been abandoned it is discarded (R255). -/
def wakeNow (t obj : Nat) (c : Core) : Core :=
  let x := c.tile t
  if x.seq.st = .waiting ∧ x.seq.wait.map (fun w => w.1) = some obj then
    c.setTile t { x with seq := { x.seq with st := .running, wait := none, pc := x.seq.pc + 8 } }
  else c

/-- A VALUE answer is written to the SREAD's register. -/
def valueNow (t : Nat) (v : BitVec 64) (c : Core) : Core :=
  let x := c.tile t
  match x.seq.sread with
  | some d => c.setTile t { x with seq := { wrX x.seq (BitVec.ofNat 5 d) v with sread := none } }
  | none => c

def fxAck (t obj : Nat) (code : BitVec 4) (signal : Bool) (c : Core) : Core :=
  tilePacket t (.ack obj code signal) (ackNow t obj code signal) c
def fxWake (t obj : Nat) (c : Core) : Core := tilePacket t (.wake obj) (wakeNow t obj) c
def fxValue (t : Nat) (v : BitVec 64) (c : Core) : Core := tilePacket t (.value v) (valueNow t v) c

/-! ### Long waits and the deadlock detector (R261–R263) -/

/-- Every queue and DMA channel of the cluster is idle; a halted channel is not (R156). -/
def tileQuiet (x : Tile) : Bool :=
  x.vec.arrayQ.isEmpty && x.vec.vecQ.isEmpty && x.chans.all (fun e => !e.2.halted && e.2.quiet)

/-- A wait outlasts SYNC_GATE_WAIT. -/
def fxLongWaitGate (t : Nat) (c : Core) : Core :=
  let x := c.tile t
  if decide (x.power = .active) && decide (x.seq.st = .waiting) && c.gateWait.getLsbD 16 && tileQuiet x && !frozenChip c then
    c.setTile t { x with power := .gated }
  else c

/-- The partition is blocked (R262): a cluster waits, and every cluster with a work item waits, is halted or trapped, with no
DMA descriptor queued or running. The share of a built-in operation is data movement by descriptors (R228), so its cluster is not. -/
def ptnBlocked (c : Core) (p : Nat) : Bool :=
  let ts := (ptnTiles c p).map c.tile
  ts.any (fun x => decide (x.seq.st = .waiting)) &&
  ts.all (fun x => match x.work with
    | none => true
    | some w => w.kernel && decide (x.seq.st ≠ .running) && x.chans.all (fun e => e.2.queue.isEmpty && e.2.run.isEmpty && e.2.lines.isEmpty))

/-- The window expires: reported once per blocked episode. -/
def fxDeadlockWindow (p : Nat) (c : Core) : Core :=
  let x := c.ptn p
  if x.dlkCfg.getLsbD 16 && ptnBlocked c p && !x.blocked then
    let ws := (ptnTiles c p).filterMap (fun t => if (c.tile t).seq.st = .waiting then (c.tile t).seq.wait else none)
    let low := ws.foldl (fun a w => min a w.1) 4095
    let c := c.setPtn p { x with blocked := true, dlkObject := low, dlkWaiters := ws.length, dlkCount := x.dlkCount + 1 }
    let c := logE 0x0802 8 (objEdge low) (some p) [(5, p), (12, low), (16, ws.length)] c
    faultEvent p 5 (BitVec.ofNat 32 low) c
  else c

/-! ### The instructions (R183, R250, R251, R253) -/

/-- The object lies in the partition's range, else SYNC_RANGE. -/
def syncRange (c : Core) (x : Tile) (obj : Nat) (ok : YkRes) : YkRes :=
  let p := c.ptn x.ptn
  if p.syncBase ≤ obj ∧ obj < p.syncBase + p.syncCount then ok else .trap 10 (BitVec.ofNat 64 obj) false

/-- An operation that is acknowledged: at most 16 outstanding. -/
def syncSend (r : YkRow) (msg : Tile → YkF → Nat → SyncMsg) (seq : Seq → YkF → Nat → Seq) (t : Nat) (f : YkF) (s : State) :
    Host.Outcome State Fault Refusal :=
  actCore s (ykStep r t f (fun c =>
    let x := c.tile t
    let obj := field (rdX x.seq f.a) 11 0
    syncRange c x obj (
      if 16 ≤ x.seq.unacked.length then .stay c
      else .go ((c.modSeq t (fun q => { seq q f obj with unacked := q.unacked ++ [obj] })).send (.sync (msg x f obj))))))

def execSprod (t : Nat) (f : YkF) (s : State) : Host.Outcome State Fault Refusal :=
  syncSend rowSprod (fun x f obj => ⟨1, obj, x.logical, 0, false, false, (rdX x.seq f.b).setWidth 32, 0⟩) (fun q _ _ => q) t f s

def execScons (t : Nat) (f : YkF) (s : State) : Host.Outcome State Fault Refusal :=
  syncSend rowScons (fun x f obj => ⟨2, obj, x.logical, 0, false, false, (rdX x.seq f.b).setWidth 32, 0⟩) (fun q _ _ => q) t f s

/-- SARR: participant index in [15:0], PHASE in [17:16] of x[B]. -/
def execSarr (t : Nat) (f : YkF) (s : State) : Host.Outcome State Fault Refusal :=
  syncSend rowSarr
    (fun x f obj => ⟨3, obj, x.logical, BitVec.ofNat 2 (field (rdX x.seq f.b) 17 16), false, false,
      BitVec.ofNat 32 (field (rdX x.seq f.b) 15 0), 0⟩)
    (fun q f obj => { q with lastArr := some (obj, BitVec.ofNat 2 (field (rdX q f.b) 17 16)) }) t f s

/-- A wait is sent and the sequencer waits at the instruction (SEQ = 2). -/
def sendWait (t kind : Nat) (m : SyncMsg) (n : Nat) (c : Core) : YkRes :=
  .stay ((c.modSeq t (fun q => { q with st := .waiting, wait := some (m.obj, kind, n) })).send (.sync m))

def execSwaita (t : Nat) (f : YkF) (s : State) : Host.Outcome State Fault Refusal :=
  actCore s (ykStep rowSwaita t f (fun c =>
    let x := c.tile t
    let obj := field (rdX x.seq f.a) 11 0
    let n := (rdX x.seq f.b).setWidth 32
    syncRange c x obj (sendWait t 0 ⟨4, obj, x.logical, 0, false, false, n, 0⟩ n.toNat c)))

def execSwaits (t : Nat) (f : YkF) (s : State) : Host.Outcome State Fault Refusal :=
  actCore s (ykStep rowSwaits t f (fun c =>
    let x := c.tile t
    let obj := field (rdX x.seq f.a) 11 0
    let n := (rdX x.seq f.b).setWidth 32
    syncRange c x obj (sendWait t 1 ⟨5, obj, x.logical, 0, false, false, n, 0⟩ n.toNat c)))

/-- SWAITB waits on the object and PHASE of the last SARR; with none since the work item started it raises SYNC_FAULT with code
BAD_OP at once, TPC being the next instruction (R250, log 27). -/
def execSwaitb (t : Nat) (f : YkF) (s : State) : Host.Outcome State Fault Refusal :=
  actCore s (ykStep rowSwaitb t f (fun c =>
    let x := c.tile t
    match x.seq.lastArr with
    | some (obj, ph) => sendWait t 2 ⟨6, obj, x.logical, ph, false, false, 0, 0⟩ ph.toNat c
    | none =>
      let info := BitVec.ofNat 64 (field (rdX x.seq f.a) 11 0 + 8 * 65536)
      let c := c.modSeq t (fun q => { q with pendSync := some (q.pendSync.getD info), pc := q.pc + 8 })
      .stay (if x.seq.inTrap then c else takeAsync t c)))

/-- SREAD: x[D] is written when VALUE answers. -/
def execSread (t : Nat) (f : YkF) (s : State) : Host.Outcome State Fault Refusal :=
  actCore s (ykStep rowSread t f (fun c =>
    let x := c.tile t
    let obj := field (rdX x.seq f.a) 11 0
    syncRange c x obj (.go ((c.modSeq t (fun q => { q with sread := some f.d.toNat })).send
      (.sync ⟨8, obj, x.logical, 0, f.imm.getLsbD 0, false, 0, 0⟩)))))

/-! ### The commands -/

def execProduce (obj : Nat) (o : Origin) (cnt : BitVec 32) (s : State) : Host.Outcome State Fault Refusal :=
  actCore s (fxProduce obj o cnt)
def execConsume (obj : Nat) (o : Origin) (cnt : BitVec 32) (s : State) : Host.Outcome State Fault Refusal :=
  actCore s (fxConsume obj o cnt)
def execArrive (obj : Nat) (o : Origin) (part : BitVec 16) (phase : BitVec 2) (s : State) : Host.Outcome State Fault Refusal :=
  actCore s (fxArrive obj o part phase)
def execSignal (obj : Nat) (o : Origin) (notify : Bool) (s : State) : Host.Outcome State Fault Refusal :=
  actCore s (fxSignal obj o notify)
def execWaitAvail (obj c : Nat) (cnt : BitVec 32) (s : State) : Host.Outcome State Fault Refusal :=
  actCore s (fxWaitAvail obj c cnt)
def execWaitSpace (obj c : Nat) (cnt : BitVec 32) (s : State) : Host.Outcome State Fault Refusal :=
  actCore s (fxWaitSpace obj c cnt)
def execWaitBarrier (obj c : Nat) (phase : BitVec 2) (s : State) : Host.Outcome State Fault Refusal :=
  actCore s (fxWaitBarrier obj c phase)
def execCancel (obj c : Nat) (s : State) : Host.Outcome State Fault Refusal := actCore s (fxCancel obj c)
def execSyncRead (obj c : Nat) (sel : Bool) (s : State) : Host.Outcome State Fault Refusal := actCore s (fxSyncRead obj c sel)
def execInitObject (obj : Nat) (o : Origin) (mode : BitVec 2) (arg : BitVec 32) (s : State) : Host.Outcome State Fault Refusal :=
  actCore s (fxInitObject obj o mode arg)
def execClearFault (obj : Nat) (o : Origin) (s : State) : Host.Outcome State Fault Refusal := actCore s (fxClearFault obj o)
def execSyncViewBadWrite (obj : Nat) (o : Origin) (both : Bool) (s : State) : Host.Outcome State Fault Refusal :=
  actCore s (fxSyncViewBadWrite obj o both)
def execAck (t obj : Nat) (code : BitVec 4) (signal : Bool) (s : State) : Host.Outcome State Fault Refusal :=
  actCore s (fxAck t obj code signal)
def execWake (t obj : Nat) (s : State) : Host.Outcome State Fault Refusal := actCore s (fxWake t obj)
def execValue (t : Nat) (v : BitVec 64) (s : State) : Host.Outcome State Fault Refusal := actCore s (fxValue t v)
def execLongWaitGate (t : Nat) (s : State) : Host.Outcome State Fault Refusal := actCore s (fxLongWaitGate t)
def execDeadlockWindow (p : Nat) (s : State) : Host.Outcome State Fault Refusal := actCore s (fxDeadlockWindow p)

end Sys2Proof.Machine
end

