-- ==== Sys2Proof/Machine/Dma.lean ====
section
/-! DEFINITION. The DMA channels of a cluster: descriptors, the access window, line requests and their answers, faults, PUSH, and
the class 8 instructions, the accesses of a built-in operation's share (R141–R153, R181, R225, R235, R236, R304–R306), with gating and
waking (R154, R155, R490, R491). -/

namespace Sys2Proof.Machine
open Sys2Proof

/-! ### Descriptors (R141) -/

def dOp (w : BitVec 256) : Nat := field w 3 0
def dPleat (w : BitVec 256) : Nat := field w 6 4
def dHint (w : BitVec 256) : Nat := field w 8 7
def dClass (w : BitVec 256) : Nat := field w 10 9
def dSig (w : BitVec 256) : Bool := w.getLsbD 11
def dChain (w : BitVec 256) : Bool := w.getLsbD 12
def dOrder (w : BitVec 256) : Bool := w.getLsbD 13
def dLs (w : BitVec 256) : Nat := field w 52 32
/-- ADDR: a PLA for READ and WRITE, a local-store address for LOCAL and PUSH. -/
def dAddr (w : BitVec 256) : Nat := field w 103 64
def dDst (w : BitVec 256) : Nat := field w 121 112
def dRowBytes (w : BitVec 256) : Nat := field w 149 128
def dRows (w : BitVec 256) : Nat := field w 175 160
def dObj (w : BitVec 256) : Nat := field w 187 176
def dStride (w : BitVec 256) : Nat := field w 223 192
def dLsStride (w : BitVec 256) : Nat := field w 244 224

/-- READ or WRITE. -/
def dPool (w : BitVec 256) : Bool := decide (dOp w = 1) || decide (dOp w = 2)

/-- Every reserved field is zero, and so are the fields that the OP does not use. -/
def dReservedZero (w : BitVec 256) : Bool :=
  decide (field w 31 14 = 0 ∧ field w 63 53 = 0 ∧ field w 111 104 = 0 ∧ field w 127 122 = 0 ∧ field w 159 150 = 0 ∧
    field w 191 188 = 0 ∧ field w 255 245 = 0) &&
  (dPool w || decide (dAddr w < 2 ^ 21)) && (decide (dOp w = 4) || decide (dDst w = 0))

/-- The fault code of the first check that fails when a descriptor starts, if any (R142, R152, R153); where several fail, the order is the
table's (log 142). -/
def descFault (c : Core) (x : Tile) (d : DmaDesc) : Option Nat :=
  let w := d.w
  let p := c.ptn x.ptn
  if dOp w = 0 ∨ 4 < dOp w ∨ dRows w = 0 ∨ dRowBytes w < 16 ∨ 2097152 < dRowBytes w ∨ !dReservedZero w ∨ d.addr % 32 ≠ 0 then
    some 0x0501
  else if dLs w % 16 ≠ 0 ∨ dAddr w % 16 ≠ 0 ∨ dRowBytes w % 16 ≠ 0 ∨ dStride w % 16 ≠ 0 ∨ dLsStride w % 16 ≠ 0 then some 0x0502
  else if lsSize < dLs w + (dRows w - 1) * dLsStride w + dRowBytes w ∨
      (!dPool w ∧ lsSize < dAddr w + (dRows w - 1) * dStride w + dRowBytes w) then some 0x0503
  else if dSig w ∧ !(p.syncBase ≤ dObj w ∧ dObj w < p.syncBase + p.syncCount) then some 0x0508
  else if dOp w = 4 then
    match c.tileOf (dDst w) with
    | some u => if (c.tile u).assigned ∧ (c.tile u).ptn = x.ptn ∧ c.ust 4 u = .serving then none else some 0x0509
    | none => some 0x0509
  else none

def chanOf (x : Tile) (k : Nat) : DmaChan := tget {} k x.chans
def setChan (x : Tile) (k : Nat) (d : DmaChan) : Tile := { x with chans := tput {} k d x.chans }

/-- A DMA fault of descriptor number `no` (R152): the channel halts, the faulting descriptor and those behind it are discarded, the fault is
recorded and logged, and DMA_FAULT becomes pending. The descriptors before it were issued whole and run to their end. -/
def dmaFault (t k code : Nat) (no : BitVec 32) (addr : Nat) (c : Core) : Core :=
  let x := c.tile t
  let ch := chanOf x k
  let x := setChan x k { ch with halted := true, queue := [], run := ch.run.takeWhile (fun d => d.no != no) }
  let x := { x with
    fDma := true,
    fDmaCh := x.fDmaCh ||| (1#8 <<< k),
    fcCode := if x.fcValid then x.fcCode else BitVec.ofNat 16 code,
    fcChan := if x.fcValid then x.fcChan else BitVec.ofNat 3 k,
    fcMulti := x.fcMulti || x.fcValid,
    fcValid := true,
    seq := { x.seq with
      pendDma := if (tget none k x.seq.pendDma).isSome then x.seq.pendDma
        else tput none k (some (BitVec.ofNat 64 (k + code * 65536))) x.seq.pendDma } }
  logE code 4 t (some x.ptn) [(10, t), (3, k), (32, addr)] (c.setTile t x)

/-- A line of descriptor `no` faults: the descriptor does, once (R152). -/
def lineFault (t k code : Nat) (no : BitVec 32) (c : Core) : Core :=
  match (chanOf (c.tile t) k).run.find? (fun d => d.no == no) with
  | some d => dmaFault t k code no d.addr c
  | none => c

/-- The channel runs on tile `t`: the clock runs, the unit takes or finishes work, no reset absorbs it. -/
def dmaRuns (c : Core) (t k : Nat) : Bool :=
  let x := c.tile t
  decide (x.power = .active) && !x.resetting && !c.stopped t && c.works 4 t && !(chanOf x k).halted && decide (k < 8)

/-- A descriptor completes (R146): DONE counts it, and READ and LOCAL send their signal themselves, except in a reset (R503). -/
def descDone (t k : Nat) (d : DmaDesc) (c : Core) : Core :=
  let x := c.tile t
  let ch := chanOf x k
  let c := c.setTile t (setChan x k { ch with run := ch.run.filter (fun e => e.no != d.no), done := ch.done + 1 })
  if x.resetting then c
  else if dSig d.w ∧ (dOp d.w = 1 ∨ dOp d.w = 3) then
    c.send (.sync ⟨12, dObj d.w, x.logical, 0, false, true, 0, 0⟩)
  else c

/-- Descriptors that are issued whole and have no line outstanding are complete, oldest first. -/
def finishDescs (t k : Nat) (c : Core) : Core :=
  let ch := chanOf (c.tile t) k
  (ch.run.filter (fun d => d.issued && ch.lines.all (fun l => l.desc != d.no))).foldl (fun c d => descDone t k d c) c

/-- The next queued descriptor starts (R141, R181): in order, after the one before is issued whole, with ORDER after it is complete; a
chained one is read when the channel reaches it. -/
def fxDescriptorStart (t k : Nat) (c : Core) : Core :=
  let x := c.tile t
  let ch := chanOf x k
  if !dmaRuns c t k then c
  else match ch.queue with
    | [] => c
    | d :: rest =>
      let d := if d.unread then
          { d with unread := false,
                   w := if (poisonIn x d.addr 32).isEmpty then BitVec.ofNat 256 (rdLE x.ls d.addr 32) else 0 }
        else d
      let fault (code : Nat) : Core := dmaFault t k code ch.started d.addr c
      if !(ch.run.all (fun e => e.issued)) ∨ (dOrder d.w ∧ !ch.run.isEmpty) then c
      else if lsSize < d.addr + 32 then fault 0x0503
      else match descFault c x d with
        | some code => fault code
        | none =>
          let next : List DmaDesc := if dChain d.w then
              [{ w := 0, addr := d.addr + 32, no := ch.started + 1, row := 0, col := 0, issued := false, unread := true }] else []
          let ch := { ch with
            queue := next ++ rest,
            run := ch.run ++ [{ d with no := ch.started, row := 0, col := 0, issued := false }],
            started := ch.started + 1 }
          c.setTile t (setChan x k ch)

/-! ### Lines (R143–R150) -/

/-- The next line of a descriptor: its address at ADDR, its local-store address, its bytes within the 128 B line. -/
structure Chunk where
  addr : Nat
  ls : Nat
  off : Nat
  len : Nat

def nextChunk (d : DmaDesc) : Chunk :=
  let a := dAddr d.w + d.row * dStride d.w + d.col
  let off := a % 128
  { addr := a, ls := dLs d.w + d.row * dLsStride d.w + d.col, off := off, len := min (dRowBytes d.w - d.col) (128 - off) }

/-- The descriptor after its next line. -/
def advance (d : DmaDesc) : DmaDesc :=
  let k := nextChunk d
  if d.col + k.len < dRowBytes d.w then { d with col := d.col + k.len }
  else if d.row + 1 < dRows d.w then { d with row := d.row + 1, col := 0 }
  else { d with issued := true }

/-- Local-store bytes of a chunk at their place in the line. -/
def chunkLine (x : Tile) (k : Chunk) : Line := BitVec.ofNat 1024 (rdLE x.ls k.ls k.len * 2 ^ (8 * k.off))

/-- The TAG of a channel's next request: 64 for each channel, the lowest that is free (R66, log 32). -/
def freeTag (k : Nat) (ls : List DmaLine) : BitVec 14 :=
  BitVec.ofNat 14 (((List.range 64).map (fun i => 64 * k + i)).find? (fun i => ls.all (fun l => decide (l.q.tag.toNat ≠ i))) |>.getD (64 * k))

/-- The request of a chunk (R143): RdOnce, WrFull for a whole line, WrPart with a mask otherwise. -/
def chunkReq (x : Tile) (w : BitVec 256) (k : Chunk) (poison : Bool) (tag : BitVec 14) : Req :=
  let wr := decide (dOp w = 2)
  { op := if !wr then 0x03 else if k.len = 128 then 0x08 else 0x09, dst := 0, src := BitVec.ofNat 18 x.logical, tag := tag,
    pleat := BitVec.ofNat 3 (dPleat w), hint := BitVec.ofNat 2 (dHint w), cls := BitVec.ofNat 2 (dClass w), ce := false,
    pla := BitVec.ofNat 40 (k.addr - k.off), mask := if wr then chunkMask k.off k.len else 0,
    data := if wr then chunkLine x k else 0, poison := poison }

/-- The channel with one of its running descriptors replaced. -/
def replaceDesc (ch : DmaChan) (d : DmaDesc) : DmaChan := { ch with run := ch.run.map (fun e => if e.no = d.no then d else e) }

/-- Lines outstanding in a cluster. -/
def linesOut (x : Tile) : Nat := (x.chans.map (fun e => e.2.lines.length)).sum

/-- A line that a LOCAL descriptor copies, or that it would push. -/
def localChunk (t k : Nat) (d : DmaDesc) (ck : Chunk) (c : Core) : Core :=
  let x := c.tile t
  let p := !(poisonIn x ck.ls ck.len).isEmpty
  let x := poisonWrite { x with ls := wrLE x.ls ck.addr ck.len (rdLE x.ls ck.ls ck.len) } ck.addr ck.len p
  let x := setChan x k (replaceDesc (chanOf x k) (advance d))
  finishDescs t k (c.setTile t x)

/-- A line request goes to its home; where the home's stack has failed, the tile answers it itself (R306). -/
def sendLine (t k : Nat) (l : DmaLine) (sig : Option Nat) (c : Core) : Core :=
  let x := c.tile t
  if x.stackFailed.getLsbD l.home then
    c.send (.toCluster x.logical k ⟨if l.write then opCmp else opCmpData, l.q.tag, l.pla, 0, !l.write, false, 0, 0⟩)
  else c.send (.toHome l.home ⟨0, x.logical, l.q.tag, 0, k, sig, l.q.cls⟩ l.q)

/-- A PUSH packet of a chunk, to the destination cluster's tile. -/
def pushChunk (t k : Nat) (d : DmaDesc) (ck : Chunk) (c : Core) : Core :=
  let x := c.tile t
  let poison := !(poisonIn x ck.ls ck.len).isEmpty
  if poison && trapPolicy c x then dmaFault t k 0x050B d.no d.addr c
  else match c.tileOf (dDst d.w) with
    | none => dmaFault t k 0x0509 d.no d.addr c
    | some u =>
      let d' := advance d
      let ch := replaceDesc (chanOf x k) d'
      let tag := freeTag k ch.lines
      let line : DmaLine :=
        { pla := 0, write := true, retry := false, lsAddr := ck.ls, off := ck.off, len := ck.len, desc := d.no, home := u,
          q := chunkReq x d.w ck poison tag }
      let c := c.setTile t (setChan x k { ch with lines := ch.lines ++ [line] })
      c.send (.push u ⟨t, k, tag, ck.addr, (List.range ck.len).map (fun i => rdByte x.ls (ck.ls + i)), poison, false,
        if dSig d.w ∧ d'.issued then some (dObj d.w) else none, none⟩)

/-- The work item of a tile changed, if it holds one. -/
def modWork (t : Nat) (g : Work → Work) (c : Core) : Core := c.modTile t (fun x => { x with work := x.work.map g })

/-- The signal that rides on the last packet of a WRITE (R146). -/
def lineSig (d : DmaDesc) : Option Nat := if dSig d.w ∧ d.issued ∧ dOp d.w = 2 then some (dObj d.w) else none

/-- A line of a READ or WRITE (R150): the window checks, then the request. -/
def poolChunk (t k : Nat) (d : DmaDesc) (ck : Chunk) (c : Core) : Core :=
  let x := c.tile t
  let poison := decide (dOp d.w = 2) && !(poisonIn x ck.ls ck.len).isEmpty
  if 895 < ck.addr / 2 ^ 30 then dmaFault t k 0x0504 d.no d.addr c
  else match tget none (ck.addr / 2 ^ 30) x.win with
    | none => dmaFault t k 0x0505 d.no d.addr c
    | some e =>
      if poison && trapPolicy c x then dmaFault t k 0x050B d.no d.addr c
      else
        let d' := advance d
        let ch := replaceDesc (chanOf x k) d'
        let line : DmaLine :=
          { pla := BitVec.ofNat 40 (ck.addr - ck.off), write := decide (dOp d.w = 2), retry := false, lsAddr := ck.ls, off := ck.off, len := ck.len,
            desc := d.no, home := (c.place (e.1 * 2 ^ 30 + (ck.addr - ck.off) % 2 ^ 30)).1, q := chunkReq x d.w ck poison (freeTag k ch.lines) }
        let c := c.setTile t (setChan x k { ch with lines := ch.lines ++ [line] })
        let c := if poison then modWork t (fun w => { w with poisonedOut := w.poisonedOut + 1 }) c else c
        sendLine t k line (lineSig d') c

/-! ### Lines of a work item (R195, R225, R228, R233, R235–R237)

A cluster loads a kernel's binary and moves the lines of a built-in operation's share on channel 0. Of a share it reads the lines it needs one
at a time, then writes its output lines; a COPY, FILL or REQUANT goes line by line. -/

/-- The tile holds a share of a built-in operation, or loads a kernel's binary: channel 0 moves the work item's own lines. -/
def ownLines (x : Tile) : Bool := x.work.any (fun w => !w.kernel || w.loading)

/-- The record status of a DMA fault code (R153, R237); a PUSH of partial results that is refused has lost its combining cluster (R230). -/
def statusOfFault (code : Nat) : BitVec 8 :=
  if code = 0x0505 then 0x30 else if code = 0x0506 then 0x31 else if code = 0x0507 then 0x32 else if code = 0x050A then 0x33
  else if code = 0x050B then 0x34 else if code = 0x0504 then 0x14 else if code = 0x0502 then 0x12 else if code = 0x0509 then 0x40 else 0x10

/-- The descriptor word of the operand through which a share reaches references that it reads from pool memory: the list of a REDUCE, the
weights of a GATHERPOOL, the sequence table of an ATTEND, the binary of a KERNEL. -/
def refWord (d : Line) : Nat := if cType d = 1 then 8 else if cType d = 2 then 16 else if cType d = 3 then 12 else 4

/-- A work item fails: DETAIL is the cluster index, or, of ALIGN and WINDOW_RANGE, the word, with DETAIL64 zero (R237). -/
def failShare (t : Nat) (st : BitVec 8) (d64 : Nat) (c : Core) : Core :=
  c.modTile t (fun x => { x with work := x.work.map (fun w => if w.status.isSome then w
    else if st = 0x12 ∨ st = 0x14 then { w with status := some (st, BitVec.ofNat 32 (refWord w.desc), 0) }
    else { w with status := some (st, BitVec.ofNat 32 w.ci, BitVec.ofNat 64 d64) }) })

/-- A DMA fault of a work item's own line: recorded and logged as any other, the sequencer being halted; the work item fails with its status and
the PLA of the line (R152, R237). -/
def shareFault (t code d64 : Nat) (c : Core) : Core :=
  let c := dmaFault t 0 code 0 0 c
  failShare t (statusOfFault code) d64 (c.modTile t (fun x => { x with seq := { x.seq with pendDma := [] } }))

/-- What the share of a work item comes to: REDUCE, GATHERPOOL, ATTEND, OPTSTEP. -/
def planShare (w : Work) : Except Stop ShareOut :=
  let k := cType w.desc
  if k = 1 then planReduce w.rd w.desc w.ci w.count
  else if k = 2 then planGather w.rd w.desc w.ci w.count
  else if k = 3 then planAttend w.rd w.desc w.lens w.parts w.ci w.count
  else planOptstep w.rd w.desc w.ci w.count

/-- REQUANT, COPY and FILL go line by line: the next piece of their share. -/
def byLine (d : Line) : Bool := decide (5 ≤ cType d)
def nextPiece (w : Work) : Except Stop Piece :=
  let k := cType w.desc
  if k = 5 then requantPiece w.rd w.desc w.ci w.count w.cursor
  else if k = 6 then copyPiece w.rd w.desc w.ci w.count w.seed w.cursor
  else fillPiece w.desc w.ci w.count w.cursor

/-- The command that a work item belongs to. -/
def Core.cmdOf (c : Core) (w : Work) : Option Cmd := (c.ptn w.p).cmds.find? (fun k => decide (k.r = w.r ∧ k.idx = w.idx))
def modCmd (p r : Nat) (idx : BitVec 32) (g : Cmd → Cmd) (c : Core) : Core :=
  c.modPtn p (fun x => { x with cmds := x.cmds.map (fun k => if k.r = r ∧ k.idx = idx then g k else k) })

/-- A work item's own line: the window checks, then the request (R143, R150, R306). -/
def ownAccess (t : Nat) (q : Req) (write : Bool) (ls off len : Nat) (c : Core) : Core :=
  let x := c.tile t
  let pla := q.pla.toNat
  if 896 ≤ pla / 2 ^ 30 then shareFault t 0x0504 pla c
  else match tget none (pla / 2 ^ 30) x.win with
    | none => shareFault t 0x0505 pla c
    | some e =>
      let ch := chanOf x 0
      let line : DmaLine := { pla := q.pla, write := write, retry := false, lsAddr := ls, off := off, len := len, desc := 0,
                              home := (c.place (e.1 * 2 ^ 30 + pla % 2 ^ 30)).1, q := { q with tag := freeTag 0 ch.lines } }
      sendLine t 0 line none (c.setTile t (setChan x 0 { ch with lines := ch.lines ++ [line] }))

/-- A read of a line for a work item, and a write of it. -/
def workReq (x : Tile) (w : Work) (pleat : BitVec 3) (pla : Nat) : Req :=
  { op := 0x03, dst := 0, src := BitVec.ofNat 18 x.logical, tag := 0, pleat := pleat, hint := BitVec.ofNat 2 (cHint w.desc),
    cls := BitVec.ofNat 2 (cClass w.desc), ce := false, pla := BitVec.ofNat 40 pla, mask := 0, data := 0, poison := false }
def shareRead (t : Nat) (w : Work) (key : Nat) (c : Core) : Core :=
  ownAccess t (workReq (c.tile t) w (BitVec.ofNat 3 (key / 2 ^ 33)) (key % 2 ^ 33 * 128)) false 0 0 128 c
def shareWrite (t : Nat) (w : Work) (k : PoolWr) (c : Core) : Core :=
  ownAccess t { workReq (c.tile t) w k.pleat k.pla.toNat with
    op := if k.mask = fullMask then 0x08 else 0x09, mask := k.mask, data := k.data, poison := k.poison } true 0 0 128 c

/-- A share cannot go on: a line is to be read, it fails, or it waits for partial results. -/
def shareStop (t : Nat) (w : Work) (e : Stop) (c : Core) : Core :=
  match e with
  | .need key => shareRead t w key c
  | .fail st d64 => failShare t st d64 c
  | .wait => c

/-- The share is done. -/
def shareDone (t : Nat) (c : Core) : Core := modWork t (fun w => { w with status := some (0, 0, 0) }) c

/-- Partial results of an ATTEND's share, once its lines are read: those that it combines itself are kept, the others are to be pushed (R233). -/
def shareParts (t : Nat) (w : Work) (c : Core) : Core :=
  match planParts w.rd w.desc w.lens w.ci w.count with
  | .error e => shareStop t w e c
  | .ok ps =>
    let us := attUnits (attShape w.desc) w.lens
    let dest (x : AttPart) : Nat := combinerOf us x.k w.count
    modWork t (fun w => { w with
      posted := true
      parts := w.parts ++ ps.filter (fun x => decide (dest x = w.ci))
      push := (ps.filter (fun x => decide (dest x ≠ w.ci))).map (fun x => (dest x, x)) }) c

/-- A PUSH of partial results to the tile that combines them (R147, R233). -/
def pushPart (t : Nat) (w : Work) (dest : Nat) (y : AttPart) (c : Core) : Core :=
  let x := c.tile t
  let u := w.peers.getD dest 0
  let ch := chanOf x 0
  let tag := freeTag 0 ch.lines
  let line : DmaLine := { pla := 0, write := true, retry := false, lsAddr := 0, off := 0, len := 0, desc := 0, home := u,
                          q := { workReq x w 0 0 with tag := tag } }
  let c := modWork t (fun w => { w with push := w.push.drop 1 }) (c.setTile t (setChan x 0 { ch with lines := ch.lines ++ [line] }))
  c.send (.push u ⟨t, 0, tag, 0, partBytes y, y.poison, false, none, some y.k⟩)

/-- The writes of a share that is computed as a whole. -/
def shareKnown (t : Nat) (w : Work) (c : Core) : Core :=
  match planShare w with
  | .error e => shareStop t w e c
  | .ok o => modWork t (fun w => { w with
      wr := some o.wr, sat := o.sat, nonf := o.nonf, poisonedOut := (o.wr.filter (fun k => k.poison)).length,
      status := if o.wr = [] then some (0, 0, 0) else w.status }) c

/-- The next line of a share that goes line by line. -/
def shareLine (t : Nat) (w : Work) (c : Core) : Core :=
  match nextPiece w with
  | .error e => shareStop t w e c
  | .ok none => shareDone t c
  | .ok (some (k, n, cur)) => shareWrite t w k (modWork t (fun w => { w with
      cursor := cur, sat := w.sat + n, poisonedOut := w.poisonedOut + Bool.toNat k.poison }) c)

/-- The next access of a work item's own lines: a line of the binary, or the next step of a share; with no write left and none outstanding the
share is done. -/
def shareIssue (t : Nat) (c : Core) : Core :=
  let x := c.tile t
  match x.work with
  | none => c
  | some w =>
    if !w.started ∨ w.status.isSome then c
    else if w.loading then
      match w.toLoad with
      | [] => c
      | (pla, ls, len) :: r =>
        ownAccess t (workReq x w 0 (pla / 128 * 128)) false ls (pla % 128) len (modWork t (fun w => { w with toLoad := r }) c)
    else if !(chanOf x 0).lines.isEmpty then c
    else match w.push with
      | (dest, y) :: _ => pushPart t w dest y c
      | [] =>
        if cType w.desc = 3 ∧ !w.posted then shareParts t w c
        else if byLine w.desc then shareLine t w c
        else match w.wr with
          | none => shareKnown t w c
          | some [] => shareDone t c
          | some (k :: r) => shareWrite t w k (modWork t (fun w => { w with wr := some r }) c)

/-- A channel issues its next line when the outstanding limits (R144), the order of writes (R143) and the holding of a signal's packet
(R146) allow; the limiter's own time is the sender's (R411). -/
def fxDmaLineIssue (t k : Nat) (c : Core) : Core :=
  let x := c.tile t
  let ch := chanOf x k
  if !dmaRuns c t k ∨ 64 ≤ ch.lines.length ∨ 512 ≤ linesOut x then c
  else if ownLines x then (if k = 0 then shareIssue t c else c)
  else match ch.run.find? (fun d => !d.issued) with
    | none => c
    | some d =>
      let ck := nextChunk d
      let last := (advance d).issued
      if dSig d.w ∧ last ∧ ch.lines.any (fun l => l.desc == d.no) then c
      else if dOp d.w = 2 ∧ ch.lines.any (fun l => l.write && decide (l.pla.toNat = ck.addr - ck.off)) then c
      else if dOp d.w = 3 then
        if !(poisonIn x ck.ls ck.len).isEmpty && trapPolicy c x then dmaFault t k 0x050B d.no d.addr c else localChunk t k d ck c
      else if dOp d.w = 4 then pushChunk t k d ck c
      else poolChunk t k d ck c

/-- Read data written to the local store, unless poisoned under the trap policy (R305). -/
def takeData (x : Tile) (l : DmaLine) (r : DmaResp) : Tile :=
  let v := r.data.toNat / 2 ^ (8 * l.off)
  poisonWrite { x with ls := wrLE x.ls l.lsAddr l.len v } l.lsAddr l.len r.poison

/-! ### The start of a kernel (R192, R195, R196) -/

/-- The header's words. -/
def hdr (h : Line) (i : Nat) : Nat := (dword h i).toNat
/-- An address field of the header. -/
def hdrA (h : Line) (i : Nat) : Nat := field (dword h i) 20 0

/-- Lines that a range touches. -/
def linesOf (a n : Nat) : List Nat := if n = 0 then [] else (List.range ((a + n - 1) / 128 - a / 128 + 1)).map (· + a / 128)

/-- What is read of a section: for each line of pool memory, the PLA, the local-store address and the bytes. -/
def loadChunks (start n ls : Nat) : List (Nat × Nat × Nat) :=
  (linesOf start n).map (fun l =>
    let a := max start (l * 128)
    (a, ls + (a - start), min (start + n) (l * 128 + 128) - a))

/-- The work-item area (R192). -/
def workArea (w : Work) (m : Mem) : Mem :=
  let m := zeroRange m 0x1FF000 0x1000
  let m := (List.range 16).foldl (fun m i => wrLE m (0x1FF000 + 4 * i) 4 (dword w.desc (8 + i)).toNat) m
  let m := wrLE m 0x1FF040 8 w.idx.toNat
  let m := wrLE (wrLE (wrLE m 0x1FF048 4 w.ci) 0x1FF04C 4 w.count) 0x1FF050 4 w.p
  wrLE m 0x1FF100 8 (rowHalt.word ⟨false, 0, 0, 0, 0, 0⟩).toNat

/-- The sequencer at entry (R161, R196). -/
def entrySeq (h : Line) (w : Work) : Seq :=
  { st := .running, pc := BitVec.ofNat 64 (hdrA h 2), tvec := BitVec.ofNat 64 (hdrA h 3),
    x := [(1, 0x1FF100), (2, BitVec.ofNat 64 (hdrA h 12)), (10, 0x1FF000), (11, BitVec.ofNat 64 w.ci), (12, BitVec.ofNat 64 w.count)].filter
      (fun e => decide (e.2 ≠ 0)) }

/-- Text and data are loaded: the BSS is zeroed, the work-item area, the registers and the accumulators are set, and the kernel starts at ENTRY. -/
def startKernel (t : Nat) (w : Work) (c : Core) : Core :=
  let x := c.tile t
  let h := w.hdr
  let x := poisonWrite { x with ls := zeroRange x.ls (hdrA h 10) (hdr h 11) } (hdrA h 10) (hdr h 11) false
  let x := poisonWrite { x with ls := workArea w x.ls } 0x1FF000 0x1000 false
  c.setTile t { x with
    vec := { x.vec with v := [], acc := [], vPoison := [], accPoison := [] }
    seq := entrySeq h w
    chans := []
    work := some { w with loading := false } }

/-- After the last line of the load, the kernel starts. -/
def loadedNow (t : Nat) (c : Core) : Core :=
  let x := c.tile t
  match x.work with
  | some w => if w.loading && w.status.isNone && w.toLoad.isEmpty && (chanOf x 0).lines.isEmpty then startKernel t w c else c
  | none => c

/-! ### Answers to line requests -/

/-- An answered line of a work item: a refusal or, under the trap policy, poison fails it; a line of the binary goes to the local store, one of a
share joins its lines (R195, R236). -/
def shareData (t : Nat) (l : DmaLine) (r : DmaResp) (c : Core) : Core :=
  let x := c.tile t
  if r.fault ≠ 0 then shareFault t r.fault.toNat (if r.fault = 0x0509 then (c.tile l.home).logical else l.pla.toNat) c
  else if l.write then countEvent 4 t 9 (if l.q.op = 0x03 then 0 else 1) (some x.ptn) c
  else if r.poison && trapPolicy c x then shareFault t 0x050B l.pla.toNat c
  else
    let c := countEvent 4 t 8 1 (some x.ptn) c
    if x.work.any (fun w => w.kernel) then
      loadedNow t (modWork t (fun w => { w with gotPoison := w.gotPoison || r.poison }) (c.setTile t (takeData (c.tile t) l r)))
    else modWork t (fun w => { w with rd := tput none (lineNo l.q.pleat.toNat (l.pla.toNat / 128)) (some (r.data, r.poison)) w.rd }) c

/-- The answer to a descriptor's line (R143, R151, R305). A refused line faults its descriptor; the lines that a fault leaves outstanding complete
and their data is written (R152). -/
def descData (t k : Nat) (l : DmaLine) (r : DmaResp) (c : Core) : Core :=
  let x := c.tile t
  if r.fault ≠ 0 then lineFault t k r.fault.toNat l.desc c
  else if l.write then finishDescs t k (countEvent 4 t 9 (if l.q.op = 0x03 then 0 else 1) (some x.ptn) c)
  else if r.poison && trapPolicy c x then lineFault t k 0x050B l.desc c
  else
    let x := takeData x l r
    let x := if r.poison then { x with work := x.work.map (fun w => { w with gotPoison := true }) } else x
    finishDescs t k (countEvent 4 t 8 1 (some x.ptn) (c.setTile t x))

/-- A response reaches the tile (R143, R145, R151, R305, R410): it answers the request of its TAG. -/
def dmaNow (t k : Nat) (r : DmaResp) (c : Core) : Core :=
  let x := c.tile t
  let ch := chanOf x k
  match ch.lines.find? (fun l => decide (l.q.tag = r.tag) && decide (l.pla = r.pla) && !l.retry) with
  | none => c
  | some l =>
    let c := if r.ce then countEvent 4 t 11 1 (some x.ptn) (c.setTile t { x with marks := x.marks + 1 }) else c
    let x := c.tile t
    if r.op = opNackRetry ∨ r.op = opNackBusy then
      c.setTile t (setChan x k { ch with lines := ch.lines.map (fun e => if e = l then { e with retry := true } else e) })
    else
      let c := c.setTile t (setChan x k { ch with lines := ch.lines.erase l })
      if ownLines x && decide (k = 0) then shareData t l r c else descData t k l r c

def fxDmaResponse (t k : Nat) (r : DmaResp) (c : Core) : Core := tilePacket t (.dma k r) (dmaNow t k r) c

/-- The back-off of a nacked request ends: it is issued again and counted in DMA_RETRY (R145, R306). -/
def fxDmaReissue (t k : Nat) (tag : BitVec 14) (c : Core) : Core :=
  let x := c.tile t
  let ch := chanOf x k
  if !(decide (x.power = .active) && !frozenChip c) then c
  else match ch.lines.find? (fun l => decide (l.q.tag = tag) && l.retry) with
    | none => c
    | some l =>
      let x := { setChan x k { ch with lines := ch.lines.map (fun e => if e = l then { e with retry := false } else e) } with
        dmaRetry := x.dmaRetry + 1 }
      sendLine t k l (((chanOf x k).run.find? (fun d => d.no == l.desc)).bind lineSig) (countEvent 4 t 10 1 (some x.ptn) (c.setTile t x))

/-- The response timer expires: DMA_TIMEOUT, and the oldest outstanding request is abandoned (R145, R503). A cluster that is Off has none. -/
def fxDmaTimeout (t k : Nat) (c : Core) : Core :=
  let x := c.tile t
  let ch := chanOf x k
  match ch.lines.find? (fun l => !l.retry) with
  | none => c
  | some l =>
    let c := c.setTile t (setChan x k { ch with lines := ch.lines.erase l })
    if ownLines x && decide (k = 0) then shareFault t 0x050A l.pla.toNat c else lineFault t k 0x050A l.desc c

/-- PUSH data at the destination (R147, R504): a Serving cluster writes it, answers and applies the signal, or takes the partial results; any
other discards it and answers so that the source faults with PUSH_TARGET. -/
def pushNow (t : Nat) (k : PushPkt) (c : Core) : Core :=
  let x := c.tile t
  let src := (c.tile k.src).logical
  if c.ust 4 t ≠ .serving then c.send (.toCluster src k.chan ⟨opNackFenced, k.tag, 0, 0, false, k.ce, 0x0509, 0⟩)
  else
    let c := match k.part with
      | some u => modWork t (fun w => if cType w.desc = 3 then
          { w with parts := w.parts ++ [partOf (attShape w.desc) u k.bytes k.poison] } else w) c
      | none =>
        let ls := (k.bytes.zipIdx).foldl (fun m (b : BitVec 8 × Nat) => wrByte m (k.addr + b.2) b.1) x.ls
        let c := c.setTile t (poisonWrite { x with ls := ls } k.addr k.bytes.length k.poison)
        if k.poison then modWork t (fun w => { w with gotPoison := true }) c else c
    let c := c.send (.toCluster src k.chan ⟨opCmp, k.tag, 0, 0, false, k.ce, 0, 0⟩)
    match k.sig with
    | some o => c.send (.sync ⟨12, o, src, 0, false, true, 0, 0⟩)
    | none => c

/-- A cluster that is Off, or not Serving, answers at once; one that sleeps keeps the packet and wakes (R155, R504). -/
def fxPushData (t : Nat) (k : PushPkt) (c : Core) : Core :=
  if c.ust 4 t ≠ .serving then (if frozenChip c then c else pushNow t k c) else tilePacket t (.push k) (pushNow t k) c

/-! ### Gating and waking (R154, R155, R490, R491) -/

/-- The idle count expires on a cluster that meets R155. -/
def fxAutoGate (t : Nat) (c : Core) : Core :=
  let x := c.tile t
  if decide (x.power = .active) && x.pwr.getLsbD 16 && decide (x.seq.st = .halted) && x.work.isNone && tileQuiet x &&
      x.inbox.isEmpty && !frozenChip c then
    c.setTile t { x with power := .gated }
  else c

/-- A packet that waited in the buffer is taken; the work item's loading belongs to WORK_ITEM. -/
def takeInbox (t : Nat) (k : InPkt) (c : Core) : Core :=
  match k with
  | .ack obj code sig => ackNow t obj code sig c
  | .wake obj => wakeNow t obj c
  | .value v => valueNow t v c
  | .dma ch r => dmaNow t ch r c
  | .push p => pushNow t p c
  | .work => c

/-- Registers, accumulators and local store of a tile that leaves Off are undefined (R154, log 6). -/
def tileFromOff (t : Nat) (x : Tile) : Tile :=
  let r (k : Nat) : BitVec 2048 := Config.registerAfterOff t x.offCount k
  { x with
    offCount := x.offCount + 1
    ls := (Config.localStoreAfterOff t x.offCount).foldl (fun m b => if b.1 < lsSize then wrByte m b.1 b.2 else m) []
    lsPoison := []
    seq := { x := (List.range 31).foldl (fun m i => tput 0 (i + 1) ((r (i + 1)).setWidth 64) m) [] }
    vec := {
      v := (List.range 32).foldl (fun m i => tput 0 i (r (64 + i)) m) []
      td := (List.range 8).foldl (fun m i => tput 0 i ((r (128 + i)).setWidth 128) m) []
      acc := (List.range 1024).foldl (fun m i => tput 0 i (r (1024 + i)) m) [] }
    chans := [] }

/-- A waking cluster reaches Active: from Off it is Held with undefined contents; the packets that waited are taken in order. -/
def fxClusterWakeDone (t : Nat) (c : Core) : Core :=
  let x := c.tile t
  if !x.waking ∨ frozenChip c then c
  else
    let off := decide (x.power = .off)
    let x' := if off then tileFromOff t x else x
    let c := c.setTile t { x' with power := .active, waking := false, inbox := [] }
    let c := if off then c.setUnit 4 t { c.unit 4 t with st := .held } else c
    x.inbox.foldl (fun c k => takeInbox t k c) c

/-! ### Class 8 (R181) -/

/-- The next queued descriptor has ORDER; one that is reached through CHAIN lies in the local store (R141, R181). -/
def nextOrdered (x : Tile) (ch : DmaChan) : Bool :=
  match ch.queue with
  | d :: _ => if d.unread then (poisonIn x d.addr 32).isEmpty && dOrder (BitVec.ofNat 256 (rdLE x.ls d.addr 32)) else dOrder d.w
  | [] => false

/-- DMAc_STATUS of channel `k` (R156). -/
def chanStatus (x : Tile) (k : Nat) : BitVec 32 :=
  let ch := chanOf x k
  let st := if ch.halted then 2 else if ch.quiet then 0 else 1
  let ow := if nextOrdered x ch && ch.run.all (fun d => d.issued) && !ch.run.isEmpty && !ch.halted then 4 else 0
  BitVec.ofNat 32 (st + ow + ch.lines.length % 128 * 256 + ch.queue.length % 8 * 65536)

/-- Copy the 32 B descriptor at x[A] + IMM into the channel's queue; stalls while it holds 4. -/
def execDmaq (t : Nat) (f : YkF) (s : State) : Host.Outcome State Fault Refusal :=
  actCore s (ykStep rowDmaq t f (fun c =>
    let x := c.tile t
    let a := addrA x.seq f
    let ch := chanOf x f.d.toNat
    if lsSize < a + 32 then .trap 5 (BitVec.ofNat 64 (max a lsSize)) false
    else if 4 ≤ ch.queue.length then .stay c
    else
      let bad := poisonIn x a 32
      let w := if bad.isEmpty then BitVec.ofNat 256 (rdLE x.ls a 32) else 0
      let x := if bad.isEmpty then x else pendLsUe x 1 a
      .go (c.setTile t (setChan x f.d.toNat
        { ch with queue := ch.queue ++ [{ w := w, addr := a, no := 0, row := 0, col := 0, issued := false, unread := false }] }))))

/-- Wait until (DONE − x[A]) mod 2^32 < 2^31, or until the channel is halted. -/
def execDmawait (t : Nat) (f : YkF) (s : State) : Host.Outcome State Fault Refusal :=
  actCore s (ykStep rowDmawait t f (fun c =>
    let x := c.tile t
    let n := (rdX x.seq f.a).setWidth 32
    if dmaWaitMet x f.d.toNat n then .go (c.modSeq t (fun q => { q with dmaWait := none }))
    else .stay (c.modSeq t (fun q => { q with dmaWait := some (f.d.toNat, n) }))))

/-- Clear the channel's halt; it becomes idle with an empty queue, and lines still outstanding belong to no descriptor any more. No effect on a
channel that is not halted. -/
def execDmares (t : Nat) (f : YkF) (s : State) : Host.Outcome State Fault Refusal :=
  actCore s (ykStep rowDmares t f (fun c =>
    let x := c.tile t
    let ch := chanOf x f.d.toNat
    .go (if ch.halted then c.setTile t (setChan x f.d.toNat 
      { ch with halted := false, queue := [], run := [], lines := ch.lines.map (fun l => { l with dropped := true }) }) else c)))

/-- x[A] = DMAc_STATUS in [31:0] and DONE in [63:32]. -/
def execDmastat (t : Nat) (f : YkF) (s : State) : Host.Outcome State Fault Refusal :=
  actCore s (ykStep rowDmastat t f (fun c =>
    let x := c.tile t
    .go (c.modSeq t (fun q => wrX q f.a ((chanOf x f.d.toNat).done ++ chanStatus x f.d.toNat)))))

/-! ### The commands -/

def execDescriptorStart (t c : Nat) (s : State) : Host.Outcome State Fault Refusal := actCore s (fxDescriptorStart t c)
def execDmaLineIssue (t c : Nat) (s : State) : Host.Outcome State Fault Refusal := actCore s (fxDmaLineIssue t c)
def execDmaResponse (t c : Nat) (r : DmaResp) (s : State) : Host.Outcome State Fault Refusal := actCore s (fxDmaResponse t c r)
def execDmaReissue (t c : Nat) (tag : BitVec 14) (s : State) : Host.Outcome State Fault Refusal := actCore s (fxDmaReissue t c tag)
def execDmaTimeout (t c : Nat) (s : State) : Host.Outcome State Fault Refusal := actCore s (fxDmaTimeout t c)
def execPushData (t : Nat) (k : PushPkt) (s : State) : Host.Outcome State Fault Refusal := actCore s (fxPushData t k)
def execAutoGate (t : Nat) (s : State) : Host.Outcome State Fault Refusal := actCore s (fxAutoGate t)
def execClusterWakeDone (t : Nat) (s : State) : Host.Outcome State Fault Refusal := actCore s (fxClusterWakeDone t)

end Sys2Proof.Machine
end

