-- ==== Sys2Proof/Machine/Coherence.lean ====
section
/-! DEFINITION. The home agents: lines of the pool, the page map, trackers, the directory, snoops, recall, back-invalidation,
fencing and salvage (R43, R62–R92, R95, R100, R110–R113, R301, R302). -/

namespace Sys2Proof.Machine
open Sys2Proof

/-! ### Lines of a stack -/

/-- The data a read of the line returns, and its poison: a poisoned line reads as 128 zero bytes (R301). -/
def Core.rdPool (c : Core) (e line : Nat) : Line × Bool :=
  if (c.lmeta e line).poison then (0, true) else (rdLine c.mem (caKey e (line * 128)), false)

/-- An access through the line store: resident after it, dirty after a write (R82 "memory"). -/
def touchLine (e line p : Nat) (dirty : Bool) (c : Core) : Core :=
  let h := c.home e
  let was := tget none line h.store
  let c := countEvent 6 e (if was.isSome then 2 else 3) 1 (some p) c
  c.setHome e { c.home e with store := tput none line (some (dirty || was.getD false)) (c.home e).store }

/-- A whole-line write under the partition's current key (R302, R337); scrub-seen stays (R299). -/
def stWhole (e line p : Nat) (data : Line) (poison : Bool) (c : Core) : Core :=
  let m := c.lmeta e line
  let c := { c with mem := wrLine c.mem (caKey e (line * 128)) (if poison then 0 else data) }
  touchLine e line p true (c.setLmeta e line { m with poison := poison, gen := (c.keys p).gen.getLsbD 0 })

/-- A masked write; the line stays poisoned unless all 128 bytes are enabled (R302). -/
def stMasked (e line p : Nat) (data : Line) (mask : BitVec 128) (poison : Bool) (c : Core) : Core :=
  if mask = fullMask ∨ poison then stWhole e line p data poison c
  else
    let m := c.lmeta e line
    let c := { c with mem := wrMasked c.mem (caKey e (line * 128)) data mask 0 128 }
    touchLine e line p true (c.setLmeta e line { m with gen := (c.keys p).gen.getLsbD 0 })

/-- A line lost: zero data, poison set. -/
def poisonLine (e line p : Nat) (c : Core) : Core := countEvent 6 e 9 1 (some p) (stWhole e line p 0 true c)

/-! ### Requesters -/

/-- A host's group holds a grant on the entry (R42 step 6). -/
def grants (x : Ext) (g : Nat) (write : Bool) : Bool :=
  x.allGrp || x.slots.any (fun s => decide (s.1 = g) && decide (s.2 ≠ 0) && (!write || decide (s.2 = 2)))

/-- Requests that need read-write access. -/
def needsWrite (op : BitVec 6) : Bool := decide (op = 2) || decide (op = 4) || decide (op = 8) || decide (op = 9)

/-- Request opcodes of R62, and its reserved request codes. -/
def requestOp (op : BitVec 6) : Bool := decide (op.toNat ∈ [1, 2, 3, 4, 8, 9, 10])
def reservedOp (op : BitVec 6) : Bool := decide (op.toNat ∈ [5, 6, 7, 11, 12, 13, 14, 15])

/-- The entry of a home's copy of the extent table. -/
def Core.homeExt (c : Core) (e p i : Nat) : Ext := tget {} (p * 1024 + i) (c.home e).ext

/-! ### Snapshot slots at a home (R100, R106, R110, R111) -/

/-- The commit that runs, once its markers have been sent. -/
def Region.sealing (g : Region) : Option Commit := g.commit.bind (fun k => if k.waitFree then none else some k)

/-- The parent of a slot; the new working slot of a running commit has the sealed one as parent (R106 step 4). -/
def Region.parentOf (g : Region) (s : Nat) : Option Nat :=
  match g.sealing with
  | some k => if s = k.new then some k.old else (tget {} s g.slots).parent
  | none => (tget {} s g.slots).parent

/-- The working slot at home `e`: the new one once that home has sealed. -/
def Region.workingAt (g : Region) (e : Nat) : Nat :=
  match g.sealing with
  | some k => if k.sealed.contains e then k.new else g.working
  | none => g.working

/-- A slot that serves reads at home `e`: published, retiring, working, or just sealed. -/
def Region.readable (g : Region) (e s : Nat) : Bool :=
  decide (s = g.workingAt e) || decide (s = g.working) || decide ((tget {} s g.slots).st = .published) ||
  decide ((tget {} s g.slots).st = .retiring)

/-- The page that serves a slot of a visible page (R111). -/
def resolvePage (g : Region) (words : List (Nat × Bool)) : Nat → Nat → Option Nat
  | 0, _ => none
  | n + 1, s =>
    match words[s]? with
    | some (pg, true) => some pg
    | _ => match g.parentOf s with
      | some q => resolvePage g words n q
      | none => none

/-- The line that holds the data of `line` for slot `s`. -/
def Core.slotLine (c : Core) (e r s line : Nat) : Option Nat :=
  (resolvePage (c.region r) (c.pageWords e (line / 512)) 8 s).map (fun pg => pg * 512 + line % 512)

/-- A nack of home `e` to an origin: it enters the nack queue and is sent from there (R73). -/
def sendNack (e : Nat) (o : Origin) (p : Nat) (pla : BitVec 40) (a : Ans) (c : Core) : Core :=
  (c.modHome e (fun h => { h with nackQ := h.nackQ + 1 })).answer o p pla a

/-! ### The checks of a request at its home (R43, R59, R62, R68, R95, R100) -/

def nack (reason : BitVec 4) (fault : BitVec 16) : Option Ans := some { op := opNackRevoked, reason := reason, fault := fault }

/-- The answer of the first check that fails, if any. -/
def homeRefusal (c : Core) (e p : Nat) (o : Origin) (q : Req) : Option Ans :=
  let i := plaExt q.pla
  let x := c.homeExt e p i
  if reservedOp q.op then nack 5 0
  else if 895 < i ∨ !x.valid then nack 3 0x0505
  else if x.typ = 3 ∧ o.kind = 1 then nack 4 0
  else if x.life = 2 ∧ o.kind ≠ 1 then nack 3 0x0506
  else if o.kind = 1 ∧ q.op ≠ 10 ∧ !grants x (c.host o.idx).group (needsWrite q.op) ∧ o.idx < 4096 then nack 2 0
  else if x.typ ≠ 0 ∧ !(decide (q.op = 3) || decide (q.op = 8) || decide (q.op = 9)) then nack 4 0x0507
  else if x.typ ≠ 1 then none
  else
    let g := c.region x.region
    let s := q.pleat.toNat
    if !g.created ∨ g.base + g.v ≤ i ∨ i < g.base then nack 4 0x0507
    else if q.op = 3 then (if g.readable e s then none else nack 4 0x0507)
    else if s = g.workingAt e then none
    else nack 4 0x0507

/-! ### Trackers (R73, R74) -/

def Core.trk (c : Core) (e idx : Nat) : Option Trk := (c.home e).trks.find? (fun t => decide (t.idx = idx))
def putTrk (e : Nat) (t : Trk) (c : Core) : Core :=
  c.modHome e (fun h => { h with trks := h.trks.map (fun u => if u.idx = t.idx then t else u) })
/-- A tracker freed; its index goes to the next generation. -/
def dropTrk (e idx : Nat) (c : Core) : Core :=
  c.modHome e (fun h => { h with trks := h.trks.filter (fun u => decide (u.idx ≠ idx)), gens := tput 0 idx (tget 0 idx h.gens + 1) h.gens })

/-- A transaction blocks the line. -/
def lineBlocked (h : Home) (line : Nat) : Bool := h.trks.any (fun t => decide (t.line = line) && decide (t.phase ≠ 0))

def nullOrigin : Origin := ⟨3, 0, 0, 0, 0, none, 0⟩
def nullReq : Req := ⟨0, 0, 0, 0, 0, 0, 0, false, 0, 0, 0, false⟩

/-- A DirtyEvict that is handled as recall data of a forced revocation: it came after the home's commit, from a host of a revoked group
(R56, R59). -/
def discards (c : Core) (e p : Nat) (o : Origin) (q : Req) : Bool :=
  match tget none (p * 1024 + plaExt q.pla) (c.home e).mode with
  | some (forced, groups) => forced && decide (q.op = 10) && decide (o.kind = 1) && groups.contains (c.host o.idx).group
  | none => false

/-- The lowest free tracker takes a transaction. -/
def addTrk (e : Nat) (kind : TrkKind) (o : Origin) (q : Req) (line p phase : Nat) (c : Core) : Core :=
  let h := c.home e
  let used := h.trks.map (fun t => t.idx)
  match (List.range 4096).find? (fun k => !used.contains k) with
  | none => c
  | some k =>
    let t : Trk := { idx := k, gen := tget 0 k h.gens, kind := kind, o := o, q := q, line := line, p := p, phase := phase, snoops := [],
                     salvage := [], salvaging := false, forHost := none, ownerAns := 0, gone := [], purge := false, data := 0,
                     dirty := false, poison := false, cfg := h.dirCfg, tmo := h.snoopTmo, discard := discards c e p o q }
    let n := h.trks.length + 1
    c.setHome e { h with trks := h.trks ++ [t], peak := if h.peak.toNat < n then BitVec.ofNat 13 n else h.peak }

/-! ### Directory entries (R78–R80) -/

def Core.dirEnt (c : Core) (e line : Nat) : Option DirEnt := tget none line (c.home e).dir

/-- The entry stored, used last. -/
def setDir (e line : Nat) (d : Option DirEnt) (c : Core) : Core :=
  c.modHome e (fun h =>
    { h with stamp := h.stamp + 1, dir := tput none line (d.map (fun x => { x with stamp := h.stamp + 1 })) h.dir })

def emptyPtrs : List (Option Nat) := [none, none, none, none]
def dirX (owner : Nat) : DirEnt := ⟨.x, false, owner, emptyPtrs, 0, 0⟩

/-- The vector bit of a host's group (R80). -/
def coarseBit (c : Core) (h : Nat) : BitVec 64 := 1#64 <<< (((c.host h).group - (c.ptn (c.host h).p).groupBase) % 64)

/-- A sharer added; the fifth turns the entry coarse (R80). -/
def addSharer (c : Core) (d : DirEnt) (h : Nat) : DirEnt :=
  if d.coarse then { d with vec := d.vec ||| coarseBit c h }
  else if d.ptrs.contains (some h) then d
  else match d.ptrs.idxOf? none with
    | some k => { d with ptrs := d.ptrs.set k (some h) }
    | none => { d with coarse := true, ptrs := emptyPtrs,
                       vec := (d.ptrs.filterMap id ++ [h]).foldl (fun v j => v ||| coarseBit c j) 0 }

/-- A sharer pointer removed; a coarse bit stays (R89). -/
def delSharer (d : DirEnt) (h : Nat) : DirEnt :=
  { d with ptrs := d.ptrs.map (fun x => if x = some h then none else x) }

/-- The entry with state S and the sharers it lists; no entry when it lists none. -/
def asShared (d : DirEnt) : Option DirEnt :=
  if !d.coarse && d.ptrs.all (fun x => x.isNone) then none else some { d with st := .s, owner := 0 }

/-- The sharers of an entry: pointers in order, or every host of a group whose bit is set, ascending, that is neither fenced nor the
owner (R80, R90). -/
def sharersOf (c : Core) (e p : Nat) (d : DirEnt) : List Nat :=
  let own (h : Nat) : Bool := decide (d.st ≠ .s) && decide (d.owner = h)
  if d.coarse then
    (c.hosts.filter (fun x => x.2.valid && decide (x.2.p = p) && decide (x.2.st ≠ 1) && !own x.1 &&
      !((c.home e).fence.contains x.1) && decide (d.vec &&& coarseBit c x.1 ≠ 0))).map (fun x => x.1)
  else (d.ptrs.filterMap id).filter (fun h => !own h)

/-- Every holder: the owner of X or O, then the sharers. -/
def holdersOf (c : Core) (e p : Nat) (d : DirEnt) : List Nat :=
  (if d.st = .s then [] else [d.owner]) ++ sharersOf c e p d

/-! ### Snoops (R64, R75, R81) -/

/-- The entry's owner, when it has one. -/
def ownerOf (d : Option DirEnt) : Option Nat :=
  match d with
  | some x => if x.st = .s then none else some x.owner
  | none => none

/-- One snoop of tracker `idx` opened and sent; a fenced host's is closed at once (R88, R89). -/
def openSnoop (e idx h : Nat) (inv salvage : Bool) (c : Core) : Core :=
  match c.trk e idx with
  | none => c
  | some t =>
    if (c.home e).fence.contains h then
      if ownerOf (c.dirEnt e t.line) = some h ∧ !t.salvaging then putTrk e { t with ownerAns := 5, forHost := some h } c
      else putTrk e { t with gone := t.gone ++ [h] } c
    else
      let c := putTrk e { t with snoops := t.snoops ++ [⟨h, inv, salvage, 0⟩] } c
      let c := countEvent 6 e 4 1 (some t.p) c
      c.send (.snoop e h (c.host h).port inv salvage (c.linePla e t.line) (BitVec.ofNat 16 (t.idx + t.gen.toNat * 4096)))

/-- Snoops to several hosts; the tracker waits for their answers. -/
def askAll (e idx : Nat) (hs : List Nat) (inv : Bool) (c : Core) : Core :=
  match c.trk e idx with
  | none => c
  | some t => hs.foldl (fun c h => openSnoop e idx h inv false c) (putTrk e { t with phase := 1, ownerAns := 0, gone := [], dirty := false } c)

/-! ### Loss and salvage (R84, R89, R90) -/

/-- Lines lost and salvaged of a fenced host, counted since the fence decision (R91). -/
def countWalk (h : Option Nat) (lost salvaged : Nat) (c : Core) : Core :=
  match h with
  | none => c
  | some h => c.modRot (fun r =>
      { r with walks := r.walks.map (fun w => if w.1 = h then (w.1, w.2.1, w.2.2.1 + lost, w.2.2.2 + salvaged) else w) })

/-- A line lost (LOST_LINE): poisoned, its entry freed. -/
def loseLine (e line p h : Nat) (c : Core) : Core :=
  let c := setDir e line none (poisonLine e line p c)
  let c := c.modHome e (fun x => { x with lostLines := x.lostLines + 1 })
  logE 0x0302 6 e (some p) [(12, h), (40, c.linePpa e line), (4, e)] (countWalk (some h) 1 0 c)

/-- COH_PROTOCOL. -/
def cohProtocol (e line p h : Nat) (op : Nat) (c : Core) : Core :=
  logE 0x0305 6 e (some p) [(12, h), (6, op), (40, c.linePpa e line)] c

/-- Lines being salvaged by a home, and the limit of a transaction (R90, R92). -/
def salvageCount (h : Home) : Nat := (h.trks.filter (fun t => t.salvaging && decide (t.phase = 1))).length
def salvageLimit (t : Trk) : Nat := max 1 (min 64 (field t.cfg 14 8))

/-- What a tracker does after the line's owner is gone: a fence-walk visit ends, any other transaction is served afresh. -/
def afterLoss (e idx : Nat) (c : Core) : Core :=
  match c.trk e idx with
  | none => c
  | some t => match t.kind with
    | .walk _ => dropTrk e idx c
    | _ => putTrk e { t with phase := 7, salvaging := false, purge := false, salvage := [], snoops := [], ownerAns := 0, gone := [],
                             forHost := none } c

/-- The next step of a salvage: the next sharer, or, when none is left, SnpInv to every sharer still listed, then the loss (R90). -/
def salvageStep (e idx : Nat) (c : Core) : Core :=
  match c.trk e idx with
  | none => c
  | some t => match t.salvage with
    | h :: rest =>
      let c := putTrk e { t with salvage := rest, phase := 1 } c
      if (c.home e).fence.contains h then
        (match c.dirEnt e t.line with
         | some d => setDir e t.line (some (delSharer d h)) c
         | none => c)
      else openSnoop e idx h false true c
    | [] =>
      if t.purge then afterLoss e idx (loseLine e t.line t.p (t.forHost.getD 0) c)
      else
        let hs := match c.dirEnt e t.line with
          | some d => (sharersOf c e t.p d)
          | none => []
        hs.foldl (fun c h => openSnoop e idx h true false c) (putTrk e { t with purge := true, phase := 1 } c)

/-- The salvage of an O line whose owner `h` is lost (R84, R90); poisoned at once with SALVAGE_EN = 0, SnpInv going to its sharers. -/
def startSalvage (e idx h : Nat) (c : Core) : Core :=
  match c.trk e idx, (c.trk e idx).bind (fun t => c.dirEnt e t.line) with
  | some t, some d =>
    let hm := c.home e
    if salvageLimit t ≤ salvageCount hm then putTrk e { t with phase := 6, forHost := some h, snoops := [] } c
    else
      let hs := if t.cfg.getLsbD 1 then sharersOf c e t.p d else []
      putTrk e { t with phase := 1, salvaging := true, purge := false, forHost := some h, salvage := hs, snoops := [], gone := [],
                        ownerAns := 0 } c
  | _, _ => c

/-! ### Serving a request (R82) -/

/-- The answer goes out; RdShared, RdOwn and Upgrade of a host then block the line until CmpAck, a replicated write until REPL_ACK,
anything else ends here (R74, R436). A signal that rides on a cluster's write is sent with its completion (R245). -/
def completeTrk (e idx : Nat) (a : Ans) (c : Core) : Core :=
  match c.trk e idx with
  | none => c
  | some t =>
    let c := if t.q.ce then countEvent 6 e 7 1 (some t.p) c else c
    let c := (if a.op = opNackRevoked then sendNack e t.o t.p t.q.pla { a with ce := t.q.ce } c else c.answer t.o t.p t.q.pla { a with ce := t.q.ce })
    let c := match t.o.sig with
      | some ob => if a.op = opCmp ∧ t.o.kind = 0 then c.send (.sync ⟨12, ob, t.o.idx, 0, false, true, 0, 0⟩) else c
      | none => c
    if t.o.kind = 1 ∧ (t.q.op = 1 ∨ t.q.op = 2 ∨ t.q.op = 4) ∧ (a.op = opCmp ∨ a.op = opCmpData) then
      (if (c.home e).fence.contains t.o.idx then dropTrk e idx c else putTrk e { t with phase := 2, snoops := [] } c)
    else if t.o.kind = 1 ∧ a.op = opCmp ∧ ((c.mirr t.p).pendOf t.o).isSome then putTrk e { t with phase := 5, snoops := [] } c
    else dropTrk e idx c

/-- CmpData from memory. -/
def answerMem (e idx line : Nat) (grant : BitVec 2) (c : Core) : Core :=
  match c.trk e idx with
  | none => c
  | some t =>
    let (v, p) := c.rdPool e line
    completeTrk e idx { op := opCmpData, grant := grant, poison := p, data := v } (touchLine e line t.p false c)

/-- The request's own write to `line`. -/
def writeReq (e line : Nat) (t : Trk) (c : Core) : Core :=
  if t.q.op = 9 then stMasked e line t.p t.q.data t.q.mask t.q.poison c else stWhole e line t.p t.q.data t.q.poison c

/-- Entries in the set of a line (R78). -/
def setOf (h : Home) (line : Nat) : List (Nat × DirEnt) :=
  h.dir.filterMap (fun x => if x.1 % 65536 = line % 65536 then x.2.map (fun d => (x.1, d)) else none)

/-- The least recently used of a list of entries. -/
def lru : List (Nat × DirEnt) → Option (Nat × DirEnt)
  | [] => none
  | x :: r => match lru r with
    | none => some x
    | some y => if x.2.stamp ≤ y.2.stamp then some x else some y

/-- A way for a new entry: free, or else the least recently used line that is not blocked is back-invalidated, or the request waits
(R85). `true` when the way is there. -/
def takeWay (e idx line p : Nat) (c : Core) : Bool × Core :=
  let h := c.home e
  if (setOf h line).length < 16 then (true, c)
  else match c.trk e idx, lru ((setOf h line).filter (fun x => !lineBlocked h x.1)) with
    | some t, some v =>
      let c := putTrk e { t with phase := 4 } c
      if h.trks.any (fun u => decide (u.kind = .backInv idx)) ∨ 4096 ≤ h.trks.length then (false, c)
      else
        let c := c.modHome e (fun x => { x with backInv := x.backInv + 1 })
        (false, addTrk e (.backInv idx) nullOrigin nullReq v.1 ((c.lineOwner e v.1).map (fun x => x.1) |>.getD p) 7 (countEvent 6 e 5 1 (some p) c))
    | some t, none => (false, putTrk e { t with phase := 4 } c)
    | none, _ => (false, c)

/-- The host that requests, if it is one: clusters, the dispatcher and the RoT never cache (R77). -/
def requester (t : Trk) : Option Nat := if t.o.kind = 1 then some t.o.idx else none

/-- A coherent request started from the directory state (R82). -/
def serveCoherent (e idx : Nat) (c : Core) : Core :=
  match c.trk e idx with
  | none => c
  | some t =>
    let line := t.line
    let r := requester t
    let rh := r.getD 4096
    match c.dirEnt e line with
    | none =>
      if t.q.op = 3 then answerMem e idx line 0 c
      else if t.q.op = 8 ∨ t.q.op = 9 then completeTrk e idx { op := opCmp } (writeReq e line t c)
      else if t.q.op = 10 then completeTrk e idx { op := opCmp } c
      else
        let (ok, c) := takeWay e idx line t.p c
        if !ok then c
        else if t.q.op = 1 ∧ !(t.cfg.getLsbD 0) then
          answerMem e idx line 1 (setDir e line (some ⟨.s, false, 0, [some rh, none, none, none], 0, 0⟩) c)
        else answerMem e idx line 2 (setDir e line (some (dirX rh)) c)
    | some d =>
      let c := setDir e line (some d) c
      let others := (holdersOf c e t.p d).filter (fun h => decide (h ≠ rh))
      if t.q.op = 10 then
        if d.st ≠ .s ∧ d.owner = rh then
          if t.discard ∨ (2 ≤ (c.ptn t.p).resetStep ∧ (c.ptn t.p).forced) then
            -- forced revocation or forced partition reset: the data is discarded and no copy of it stays (R59, R87, R506)
            let c := setDir e line (some { d with st := .s, owner := 0 }) (poisonLine e line t.p c)
            askAll e idx others true c
          else
            let c := stWhole e line t.p t.q.data false c
            completeTrk e idx { op := opCmp } (setDir e line (if d.st = .x then none else asShared d) c)
        else
          let d' := delSharer d rh
          completeTrk e idx { op := opCmp } (setDir e line (some d') c)
      else if t.q.op = 8 ∨ t.q.op = 9 then askAll e idx (holdersOf c e t.p d) true c
      else match d.st with
        | .s =>
          if t.q.op = 1 then answerMem e idx line 1 (setDir e line (some (addSharer c d rh)) c)
          else if t.q.op = 3 then answerMem e idx line 0 c
          else askAll e idx others true c
        | .x =>
          if d.owner = rh then
            if t.q.op = 3 then answerMem e idx line 0 c else answerMem e idx line 2 (setDir e line (some (dirX rh)) c)
          else askAll e idx [d.owner] (decide (t.q.op = 2 ∨ t.q.op = 4)) c
        | .o =>
          if d.owner = rh then
            if t.q.op = 4 then askAll e idx others true c
            else startSalvage e idx rh (cohProtocol e line t.p rh t.q.op.toNat c)
          else if t.q.op = 1 ∨ t.q.op = 3 then askAll e idx [d.owner] false c
          else askAll e idx others true c

/-! ### The page map and copy-on-write (R112, R113) -/

/-- A free pool page of region `r` leaves the list of home `e` (R112); which one is a free choice (log 51). -/
def takePage (e r : Nat) (c : Core) : Option Nat × Core :=
  let l := (c.home e).freePages.filter (fun x => decide (x.1 = r))
  match l[(Config.freeValue c.fresh).toNat % l.length]? with
  | none => (none, c)
  | some fp => (some fp.2, { c with fresh := c.fresh + 1 }.modHome e (fun h => { h with freePages := h.freePages.erase fp }))

/-- Requests that wait at a page are looked at again. -/
def wakePage (e page : Nat) (c : Core) : Core :=
  c.modHome e (fun h => { h with trks := h.trks.map (fun u => if u.phase = 3 ∧ u.line / 512 = page then { u with phase := 7 } else u) })

/-- A copy of the page that serves slot `w` begins, into a free pool page; with none, POOL_EMPTY (R112, R113). -/
def startCopy (e idx r w line : Nat) (c : Core) : Core :=
  match c.trk e idx with
  | none => c
  | some t =>
    let h := c.home e
    let page := line / 512
    match takePage e r c, resolvePage (c.region r) (c.pageWords e page) 8 w with
    | (some pg, c), some src =>
      c.modHome e (fun h => { h with copies := h.copies ++ [⟨r, page, w, src, pg⟩],
                                     trks := h.trks.map (fun u => if u.idx = idx then { u with phase := 3 } else u) })
    | _, _ =>
      let c := c.modRegion r (fun g => { g with poolEmpty := g.poolEmpty + 1, refusal := 6 })
      let c := if h.poolLogged.contains r then c
        else logE 0x0401 6 e (some t.p) [(10, r), (4, e)] (c.modHome e (fun x => { x with poolLogged := x.poolLogged ++ [r] }))
      wakePage e page (completeTrk e idx { op := opNackRevoked, reason := 4, fault := 0x0507 } c)

/-- A request to a snapshot region (R100, R111, R112): reads of the working slot and writes wait for a copy of their page; a write to a
page the working slot does not own starts one. At most 16 copies run. A read that finds no slot with OWN, which only a slot whose retirement
is under way can give, reads the visible page (log 142). A write accepted before a seal completes into its slot (R106). A request
that waited while its region was destroyed is answered as R95 says. -/
def serveSnap (e idx r : Nat) (c : Core) : Core :=
  match c.trk e idx with
  | none => c
  | some t =>
    let h := c.home e
    let g := c.region r
    let s := t.q.pleat.toNat
    let page := t.line / 512
    let copying := h.copies.any (fun k => decide (k.region = r ∧ k.page = page))
    -- a write to the page that came before a seal goes into its own slot first, else a copy for the next slot would lack it
    let earlier := h.trks.any (fun u => decide (u.kind = .request) && (decide (u.q.op = 8) || decide (u.q.op = 9)) && decide (u.p = t.p) &&
      decide (u.line / 512 = page) && decide (u.q.pleat ≠ t.q.pleat) && decide (u.phase ≠ 5))
    if !g.created then completeTrk e idx { op := opNackRevoked, reason := 4, fault := 0x0507 } c
    else if copying ∧ (t.q.op ≠ 3 ∨ s = g.workingAt e) then putTrk e { t with phase := 3 } c
    else if t.q.op = 3 then
      if !g.readable e s then completeTrk e idx { op := opNackRevoked, reason := 4, fault := 0x0507 } c
      else match c.slotLine e r s t.line with
        | some l => answerMem e idx l 0 c
        | none => answerMem e idx t.line 0 c
    else match (c.pageWords e page)[s]? with
      | some (pg, true) => wakePage e page (completeTrk e idx { op := opCmp } (writeReq e (pg * 512 + t.line % 512) t c))
      | _ => if 16 ≤ h.copies.length ∨ (earlier ∧ s = g.workingAt e) then putTrk e { t with phase := 3 } c else startCopy e idx r s t.line c

/-! ### Recall, back-invalidation and the fence walk -/

/-- A recall started (R87): SnpShare to an owner whose access is lowered, else SnpInv to every affected holder. -/
def serveRecall (e idx : Nat) (lower : Bool) (hosts : List Nat) (c : Core) : Core :=
  match c.trk e idx, (c.trk e idx).bind (fun t => c.dirEnt e t.line) with
  | some t, some d =>
    let mine := if lower then (holdersOf c e t.p d).filter (fun h => decide (d.st ≠ .s ∧ d.owner = h) && hosts.contains h)
      else (holdersOf c e t.p d).filter (fun h => hosts.contains h)
    if mine = [] then dropTrk e idx c else askAll e idx mine (!lower) c
  | _, _ => dropTrk e idx c

/-- A victim's back-invalidation (R85): the owner first, then the sharers. -/
def serveBackInv (e idx : Nat) (c : Core) : Core :=
  match c.trk e idx, (c.trk e idx).bind (fun t => c.dirEnt e t.line) with
  | some t, some d =>
    if d.st = .s then askAll e idx (sharersOf c e t.p d) true (putTrk e { t with purge := true } c)
    else askAll e idx [d.owner] true c
  | _, _ => dropTrk e idx c

/-- The fence walk at a line that involves host `h` (R89). -/
def serveWalk (e idx h : Nat) (c : Core) : Core :=
  match c.trk e idx, (c.trk e idx).bind (fun t => c.dirEnt e t.line) with
  | some t, some d =>
    if d.st ≠ .s ∧ d.owner = h then
      if d.st = .x then dropTrk e idx (loseLine e t.line t.p h c) else startSalvage e idx h c
    else
      dropTrk e idx (setDir e t.line (some (delSharer d h)) c)
  | _, _ => dropTrk e idx c

/-- A transaction to be served (phase 7). -/
def serve (e idx : Nat) (c : Core) : Core :=
  match c.trk e idx with
  | none => c
  | some t => match t.kind with
    | .recall lower _ hosts => serveRecall e idx lower hosts c
    | .backInv _ => serveBackInv e idx c
    | .walk h => serveWalk e idx h c
    | .request =>
      if t.o.kind = 1 ∧ (c.home e).fence.contains t.o.idx then
        if t.q.op = 10 then dropTrk e idx c else completeTrk e idx { op := opNackFenced, reason := 6 } c
      else
        let x := c.homeExt e t.p (plaExt t.q.pla)
        if x.typ = 0 then serveCoherent e idx c
        else if x.typ = 1 then serveSnap e idx x.region c
        else if t.q.op = 3 then answerMem e idx t.line 0 c
        else completeTrk e idx { op := opCmp } (writeReq e t.line t c)

/-! ### When the last answer of a round is in (R82, R85, R87) -/

/-- The owner's answers that hand its data over. -/
def gaveData (t : Trk) : Bool := decide (t.ownerAns = 1) || decide (t.ownerAns = 2)

/-- The entry without the sharers that hold no copy any more. -/
def dropGone (d : DirEnt) (gone : List Nat) : DirEnt := gone.foldl delSharer d

/-- The owner's copy is gone: fenced (R89), or an owner in O that denied it (R84). -/
def ownerGone (t : Trk) (d : DirEnt) : Bool :=
  decide (t.ownerAns = 5) || (decide (d.st = .o) && (decide (t.ownerAns = 3) || decide (t.ownerAns = 4)))

/-- The owner's line lost or salvaged, the sharers that answered dropped; the transaction is then served afresh. -/
def recoverLine (e idx : Nat) (d : DirEnt) (c : Core) : Core :=
  match c.trk e idx with
  | none => c
  | some t =>
    let c := if t.ownerAns = 5 then c else cohProtocol e t.line t.p d.owner (if t.ownerAns = 3 then 0x21 else 0x20) c
    let c := setDir e t.line (some (dropGone d t.gone)) c
    if d.st = .x then afterLoss e idx (loseLine e t.line t.p d.owner c) else startSalvage e idx d.owner c

/-- Data that came back dirty is written to memory, and the data of an owner in O, which is always dirty (R79, R82). -/
def writeBack (e : Nat) (t : Trk) (d : DirEnt) (c : Core) : Core := if t.dirty || (gaveData t && decide (d.st = .o)) then stWhole e t.line t.p t.data false c else c

def resolveRequest (e idx : Nat) (t : Trk) (d : DirEnt) (c : Core) : Core :=
  let line := t.line
  let rh := (requester t).getD 4096
  let host := decide (t.o.kind = 1)
  let fwd (grant : BitVec 2) (c : Core) : Core := completeTrk e idx { op := opCmpData, grant := grant, data := t.data } c
  if ownerGone t d then recoverLine e idx d c
  else if t.q.op = 10 then completeTrk e idx { op := opCmp } (setDir e line none c)
  else if t.q.op = 8 ∨ t.q.op = 9 then
    completeTrk e idx { op := opCmp } (setDir e line none (writeReq e line t (writeBack e t d c)))
  else if t.q.op = 1 ∨ t.q.op = 3 then
    let rd := decide (t.q.op = 1) && host
    let with' (x : DirEnt) : DirEnt := if rd then addSharer c x rh else x
    let g : BitVec 2 := if rd then 1 else 0
    if d.st = .o then
      if t.ownerAns = 1 then fwd g (setDir e line (some (with' d)) c)
      else fwd g (setDir e line (asShared (with' { d with st := .s, owner := 0 })) (stWhole e line t.p t.data false c))
    else
      let none' : DirEnt := ⟨.s, false, 0, emptyPtrs, 0, 0⟩
      if t.ownerAns = 1 then
        if !rd && !t.dirty then fwd g (setDir e line (some (addSharer c none' d.owner)) c)
        else fwd g (setDir e line (some (with' { dirX d.owner with st := .o })) c)
      else if t.ownerAns = 2 then fwd g (setDir e line (asShared (with' none')) (stWhole e line t.p t.data false c))
      else if t.ownerAns = 3 then answerMem e idx line g (setDir e line (some (with' (addSharer c none' d.owner))) c)
      else if rd then answerMem e idx line 2 (setDir e line (some (dirX rh)) c)
      else answerMem e idx line 0 (setDir e line none c)
  else
    let listed := decide (t.q.op = 4) && !d.coarse && (decide (d.st ≠ .x)) && (d.ptrs.contains (some rh))
    let own := decide (d.st = .o) && decide (d.owner = rh)
    let c := setDir e line (some (dirX rh)) (if own then c else writeBack e t d c)
    if listed || own then completeTrk e idx { op := opCmp, grant := 2 } c else answerMem e idx line 2 c

/-- A recall whose holders have answered (R87). -/
def resolveRecall (e idx : Nat) (t : Trk) (lower forced : Bool) (hosts : List Nat) (d : DirEnt) (c : Core) : Core :=
  if t.purge then dropTrk e idx (setDir e t.line none c)
  else if ownerGone t d then recoverLine e idx d c
  else if (t.dirty || (gaveData t && decide (d.st = .o))) && forced then
    let c := poisonLine e t.line t.p c
    let others := (sharersOf c e t.p d).filter (fun h => !hosts.contains h)
    askAll e idx others true (putTrk e { t with purge := true } c)
  else
    let c := writeBack e t (if lower then { d with st := .o } else d) c
    let asked := decide (t.ownerAns ≠ 0)
    let d1 := if asked then (if lower ∧ t.ownerAns ≠ 4 then addSharer c { d with st := .s, owner := 0 } d.owner else { d with st := .s, owner := 0 }) else d
    let d2 := if lower then d1 else (hosts.foldl delSharer d1)
    dropTrk e idx (setDir e t.line (if d2.st = .s then asShared d2 else some d2) c)

/-- A victim whose holders have answered: after the owner the sharers, then its way is free (R85). -/
def resolveBackInv (e idx : Nat) (t : Trk) (d : DirEnt) (c : Core) : Core :=
  if t.purge then dropTrk e idx (setDir e t.line none (writeBack e t d c))
  else if ownerGone t d then recoverLine e idx d c
  else
    let d' := { d with st := .s, owner := 0 }
    let c := setDir e t.line (some d') (writeBack e t d c)
    askAll e idx (sharersOf c e t.p d') true (putTrk e { t with purge := true, dirty := false } c)

/-- A snooping tracker with no open snoop left. -/
def resolve (e idx : Nat) (c : Core) : Core :=
  match c.trk e idx with
  | none => c
  | some t =>
    if t.salvaging then salvageStep e idx c
    else match c.dirEnt e t.line, t.kind with
      | some d, .request => resolveRequest e idx t d c
      | some d, .recall lower forced hosts => resolveRecall e idx t lower forced hosts d c
      | some d, .backInv _ => resolveBackInv e idx t d c
      | none, .request => putTrk e { t with phase := 7 } c
      | _, _ => dropTrk e idx c

/-! ### The home's work, until nothing more can move -/

/-- Whether a waiting tracker may move: its line is free, its way is there, its salvage place is there. -/
def mayMove (h : Home) (t : Trk) : Bool :=
  if t.phase = 7 then true
  else if t.phase = 1 then t.snoops.isEmpty
  else if t.phase = 0 then !lineBlocked h t.line
  else if t.phase = 4 then
    !h.trks.any (fun u => decide (u.kind = .backInv t.idx)) &&
    (decide ((setOf h t.line).length < 16) || ((setOf h t.line).any (fun x => !lineBlocked h x.1) && decide (h.trks.length < 4096)))
  else if t.phase = 6 then decide (salvageCount h < salvageLimit t)
  else false

/-- One move of home `e`: the first tracker, in order of acceptance, that may move; else a recall that waits for a tracker. -/
def homeMove (e : Nat) (c : Core) : Option Core :=
  let h := c.home e
  match h.trks.find? (mayMove h) with
  | some t =>
    some (if t.phase = 7 then serve e t.idx c
      else if t.phase = 1 then resolve e t.idx c
      else if t.phase = 6 then startSalvage e t.idx (t.forHost.getD 0) c
      else putTrk e (if t.phase = 0 then { t with phase := 7, cfg := h.dirCfg, tmo := h.snoopTmo } else { t with phase := 7 }) c)
  | none =>
    match h.recallQ with
    | [] => none
    | k :: rest =>
      if 4096 ≤ h.trks.length then none
      else
        let p := ((c.lineOwner e k.1).map (fun x => x.1)).getD 0
        some (addTrk e k.2 nullOrigin nullReq k.1 p 0 (c.setHome e { h with recallQ := rest }))

/-- Moves in order, at most `n`. -/
def settleN (e : Nat) : Nat → Core → Core
  | 0, c => c
  | n + 1, c => match homeMove e c with
    | none => c
    | some c => settleN e n c

/-- Every move that is possible now. -/
def settle (e : Nat) (c : Core) : Core :=
  settleN e (16 + 32 * ((c.home e).trks.length + (c.home e).recallQ.length)) c

/-! ### The commands -/

/-- A request at its home (R43, R62, R73, R82, R88). While the nack queue is full the home takes none: it stays in the mesh. -/
def fxHomeReq (e : Nat) (o : Origin) (q : Req) (c : Core) : Core :=
  if !c.works 6 e ∨ 16 ≤ e ∨ 256 ≤ (c.home e).nackQ then c
  else
    let p := c.originPtn o
    if o.kind = 1 ∧ (c.home e).fence.contains o.idx then
      if q.op = 10 then c else sendNack e o p q.pla { op := opNackFenced, reason := 6, ce := q.ce } c
    else match homeRefusal c e p o q with
      | some a => sendNack e o p q.pla { a with ce := q.ce } c
      | none =>
        if 4096 ≤ (c.home e).trks.length then
          let c := c.modHome e (fun h => { h with nackBusy := h.nackBusy + 1 })
          sendNack e o p q.pla { op := opNackBusy, reason := 8, backoff := 10, ce := q.ce } (countEvent 6 e 6 1 (some p) c)
        else
          let x := c.homeExt e p (plaExt q.pla)
          let off := (c.place (x.ppa * 2 ^ 30 + q.pla.toNat % 2 ^ 30)).2
          settle e (countEvent 6 e 1 1 (some p) (addTrk e .request o q (off / 128) p 0 c))

/-- The request command of one opcode: a packet with another opcode is not this command. -/
def homeRow (op : BitVec 6) (e : Nat) (o : Origin) (q : Req) (c : Core) : Core := fxHomeReq e o { q with op := op } c

def execRdShared (e : Nat) (o : Origin) (q : Req) (s : State) : Host.Outcome State Fault Refusal := actCore s (homeRow 0x01 e o q)
def execRdOwn (e : Nat) (o : Origin) (q : Req) (s : State) : Host.Outcome State Fault Refusal := actCore s (homeRow 0x02 e o q)
def execUpgrade (e : Nat) (o : Origin) (q : Req) (s : State) : Host.Outcome State Fault Refusal := actCore s (homeRow 0x04 e o q)
def execDirtyEvict (e : Nat) (o : Origin) (q : Req) (s : State) : Host.Outcome State Fault Refusal := actCore s (homeRow 0x0A e o q)
/-- A request with a reserved request code: NackRevoked, reason BAD_OPCODE (R62). -/
def execReservedRequest (e : Nat) (o : Origin) (q : Req) (s : State) : Host.Outcome State Fault Refusal :=
  actCore s (homeRow (if reservedOp q.op then q.op else 0x05) e o q)

/-- The live tracker that a snoop tag names. -/
def trkOfTag (c : Core) (e : Nat) (tag : BitVec 16) : Option Trk :=
  match c.trk e (field tag 11 0) with
  | some t => if t.gen.toNat = field tag 15 12 then some t else none
  | none => none

/-- A salvaging sharer's answer (R90). -/
def salvageAnswer (e : Nat) (t : Trk) (h code : Nat) (r : SnpResp) (c : Core) : Core :=
  match c.dirEnt e t.line with
  | none => c
  | some d =>
    if code ≤ 2 then
      let c := stWhole e t.line t.p r.data false c
      let d' := if code = 2 then delSharer d h else d
      let c := setDir e t.line (asShared { d' with st := .s, owner := 0 }) c
      let c := c.modHome e (fun x => { x with salvaged := x.salvaged + 1 })
      let c := logE 0x0303 6 e (some t.p) [(12, t.forHost.getD 0), (40, c.linePpa e t.line), (12, h)] (countWalk t.forHost 0 1 c)
      afterLoss e t.idx c
    else if code = 3 then cohProtocol e t.line t.p h 0x21 c
    else setDir e t.line (some (delSharer d h)) c

/-- A snoop response (R75): `code` 3 = SnpAckS, 4 = SnpAckI, 1 or 2 = SnpAckData by RETAINED. It closes the open snoop that it names; any
other is counted and discarded, with no log entry (log 74), a fenced host's is discarded. -/
def snpResponse (e code : Nat) (r : SnpResp) (c : Core) : Core :=
  if !c.works 6 e ∨ (c.home e).fence.contains r.h then c
  else match trkOfTag c e r.tag with
    | none => c.modHome e (fun x => { x with cohProto := x.cohProto + 1 })
    | some t => match t.snoops.find? (fun s => decide (s.h = r.h)) with
      | none => c.modHome e (fun x => { x with cohProto := x.cohProto + 1 })
      | some sn =>
        let t1 := { t with snoops := t.snoops.erase sn }
        if sn.salvage then settle e (salvageAnswer e t1 r.h code r (putTrk e t1 c))
        else
          let own := decide (ownerOf (c.dirEnt e t.line) = some r.h)
          let t2 := if own then { t1 with ownerAns := code } else if code = 3 ∨ code = 1 then t1 else { t1 with gone := t1.gone ++ [r.h] }
          let t3 := if code ≤ 2 ∧ (own ∨ !t2.dirty) then { t2 with data := r.data, dirty := r.dirty } else t2
          settle e (putTrk e t3 c)

def execSnpAckI (e : Nat) (r : SnpResp) (s : State) : Host.Outcome State Fault Refusal := actCore s (snpResponse e 4 r)
def execSnpAckS (e : Nat) (r : SnpResp) (s : State) : Host.Outcome State Fault Refusal := actCore s (snpResponse e 3 r)
def execSnpAckData (e : Nat) (r : SnpResp) (s : State) : Host.Outcome State Fault Refusal :=
  actCore s (snpResponse e (if r.retained then 1 else 2) r)

/-- CmpAck ends the transaction that awaits it; another is counted and discarded (R74, R75). -/
def fxCmpAck (e h : Nat) (tag : BitVec 14) (c : Core) : Core :=
  if !c.works 6 e ∨ (c.home e).fence.contains h then c
  else match (c.home e).trks.find? (fun t => decide (t.phase = 2 ∧ t.o.kind = 1 ∧ t.o.idx = h ∧ t.o.tag = tag)) with
    | some t => settle e (dropTrk e t.idx c)
    | none => c.modHome e (fun x => { x with cohProto := x.cohProto + 1 })

def execCmpAck (e h : Nat) (tag : BitVec 14) (s : State) : Host.Outcome State Fault Refusal := actCore s (fxCmpAck e h tag)

/-- A host fenced at a home (R88, R89): awaited CmpAcks count as received, open snoops to it are closed, and the lines that involve it are
queued for the walk. -/
def fenceAtHome (e h : Nat) (c : Core) : Core :=
  if (c.home e).fence.contains h then c
  else
    let hm := c.home e
    let close (t : Trk) : Trk :=
      match t.snoops.find? (fun s => decide (s.h = h)) with
      | none => t
      | some sn =>
        let t1 := { t with snoops := t.snoops.erase sn }
        if sn.salvage then t1
        else if ownerOf (tget none t.line hm.dir) = some h then { t1 with ownerAns := 5, forHost := some h }
        else { t1 with gone := t1.gone ++ [h] }
    let involved (d : DirEnt) : Bool := (decide (d.st ≠ .s) && decide (d.owner = h)) || d.ptrs.contains (some h)
    let lines := hm.dir.filterMap (fun x => match x.2 with
      | some d => if involved d then some x.1 else none
      | none => none)
    -- a request of the host that still waits is refused when its turn comes, and a line it is granted before that is found by its own visit
    let later := (hm.trks.filter (fun t => decide (t.o.kind = 1 ∧ t.o.idx = h) && decide (t.phase ≠ 0) && !lines.contains t.line)).map (fun t => t.line)
    let acked := (hm.trks.filter (fun t => decide (t.phase = 2 ∧ t.o.kind = 1 ∧ t.o.idx = h))).map (fun t => t.idx)
    let salv := hm.trks.filter (fun t => t.snoops.any (fun s => s.salvage && decide (s.h = h)))
    let c := c.setHome e { hm with fence := hm.fence ++ [h], trks := hm.trks.map close,
                                   recallQ := hm.recallQ ++ (lines ++ later).map (fun l => (l, TrkKind.walk h)) }
    let c := salv.foldl (fun c t => match c.dirEnt e t.line with
      | some d => setDir e t.line (some (delSharer d h)) c
      | none => c) c
    settle e (acked.foldl (fun c k => dropTrk e k c) c)

/-- The fence decision about host `h` (R88, R89): its entry is fenced, the fence goes out to every other
home and port over the ring, the event is logged and sent, and the walk of every home is owed. -/
def fenceDecision (h cause reason : Nat) (c : Core) : Core :=
  let x := c.host h
  let c := c.setHost h { x with st := 1 }
  let homes := c.glb.fuse.stacks.filter (fun e => decide (c.ust 6 e ≠ .failed))
  let c := c.modRot (fun r => { r with walks := r.walks.filter (fun w => decide (w.1 ≠ h)) ++ [(h, homes, 0, 0)] })
  let c := forEach homes (fun e => ringPut (.fence 6 e h)) c
  let c := forEach (bitsOf 8 c.glb.fuse.portPresent) (fun n => ringPut (.fence 9 n h)) c
  let c := logE 0x0301 0 0 (some x.p) [(12, h), (5, x.p), (4, cause), (8, reason)] c
  faultEvent x.p 1 (BitVec.ofNat 32 h) c

/-- The snoop timer (R81): the same snoops again with the same tag, and after the last retry the fence. A salvage snoop has its own
timer (R90). -/
def fxSnoopTimeout (e : Nat) (tag : BitVec 16) (c : Core) : Core :=
  if !c.works 6 e then c
  else match trkOfTag c e tag with
    | none => c
    | some t =>
      let due := t.snoops.filter (fun s => !s.salvage)
      let again := due.filter (fun s => decide (s.tries < field t.tmo 26 24))
      let last := due.filter (fun s => decide (field t.tmo 26 24 ≤ s.tries))
      let c := putTrk e { t with snoops := t.snoops.map (fun s => if again.contains s then { s with tries := s.tries + 1 } else s) } c
      let c := again.foldl (fun c s =>
        let c := c.send (.snoop e s.h (c.host s.h).port s.inv false (c.linePla e t.line) tag)
        let c := countEvent 6 e 4 1 (some t.p) (c.modHome e (fun x => { x with snoopRetry := x.snoopRetry + 1 }))
        logE 0x0304 6 e (some t.p) [(12, s.h), (40, c.linePpa e t.line), (32, s.tries + 1)] c) c
      last.foldl (fun c s =>
        let c := if (c.host s.h).st = 1 then c else fenceDecision s.h 1 0 c
        let c := c.modRot (fun r => { r with walks := r.walks.map (fun w => if w.1 = s.h then (w.1, w.2.1.erase e, w.2.2) else w) })
        fenceAtHome e s.h (ringDrop (fun m => decide (m = .fence 6 e s.h)) c)) c

def execSnoopTimeout (e : Nat) (snpTag : BitVec 16) (s : State) : Host.Outcome State Fault Refusal := actCore s (fxSnoopTimeout e snpTag)

/-- A salvage snoop that is not answered: the sharer is skipped and its pointer removed (R90). -/
def fxSalvageTimeout (e : Nat) (tag : BitVec 16) (c : Core) : Core :=
  if !c.works 6 e then c
  else match trkOfTag c e tag with
    | none => c
    | some t => match t.snoops.find? (fun s => s.salvage) with
      | none => c
      | some sn =>
        let t1 := { t with snoops := t.snoops.erase sn }
        settle e (salvageAnswer e t1 sn.h 4 ⟨sn.h, tag, false, false, 0⟩ (putTrk e t1 c))

def execSalvageTimeout (e : Nat) (snpTag : BitVec 16) (s : State) : Host.Outcome State Fault Refusal := actCore s (fxSalvageTimeout e snpTag)

/-- The fence reaches a unit: class 6 a home, class 9 a port (R88). -/
def fxFenceApply (cls i h : Nat) (c : Core) : Core :=
  let c := ringDrop (fun m => decide (m = .fence cls i h)) c
  if (c.host h).st ≠ 1 then c
  else if cls = 9 then
    if (c.port i).fence.contains h ∨ 8 ≤ i then c else c.modPort i (fun x => { x with fence := x.fence ++ [h] })
  else if cls = 6 ∧ i < 16 then
    let c := c.modRot (fun r => { r with walks := r.walks.map (fun w => if w.1 = h then (w.1, w.2.1.erase i, w.2.2) else w) })
    if c.works 6 i then fenceAtHome i h c else c.modHome i (fun x => if x.fence.contains h then x else { x with fence := x.fence ++ [h] })
  else c

/-- A home still has a visit or a salvage for the host outstanding. -/
def walkOwed (hm : Home) (h : Nat) : Bool :=
  hm.recallQ.any (fun k => decide (k.2 = .walk h)) || hm.trks.any (fun t => decide (t.kind = .walk h) || decide (t.forHost = some h))

/-- An event of a home's walks: recalls or fence visits outstanding (R92 WALK_BUSY). -/
def walkBusy (hm : Home) : Bool :=
  !hm.walking.isEmpty || !hm.recallQ.isEmpty || hm.trks.any (fun t => match t.kind with
    | .walk _ => true
    | .recall _ _ _ => true
    | _ => false)

/-- A host-table entry cleared, with its fence everywhere (R88). -/
def clearHost (h : Nat) (c : Core) : Core :=
  let c := ringDrop (fun m => match m with
    | .fence _ _ k => decide (k = h)
    | .step _ _ _ => false) (c.setHost h {})
  let c := forEach (c.homes.map Prod.fst) (fun e c => c.modHome e (fun x => { x with fence := x.fence.filter (fun k => decide (k ≠ h)) })) c
  forEach (c.ports.map Prod.fst) (fun n c => c.modPort n (fun x => { x with fence := x.fence.filter (fun k => decide (k ≠ h)) })) c

end Sys2Proof.Machine
end

