-- ==== Sys2Proof/Machine/Mailbox.lean ====
section
/-! DEFINITION. The mailboxes: submission of a request, its taking by the RoT, its answer, and the requests that no other chapter owns
(R464–R471, R526). -/

namespace Sys2Proof.Machine
open Sys2Proof

/-! ### Status codes (R466) -/

def stOk : Nat := 0x00
def stPartitionBusy : Nat := 0x01
def stQuotaExceeded : Nat := 0x02
def stNoFreeExtent : Nat := 0x03
def stExtentMapped : Nat := 0x04
def stExtentUnmapped : Nat := 0x05
def stGroupNotOwned : Nat := 0x06
def stSlotsFull : Nat := 0x07
def stTypeRefused : Nat := 0x08
def stGrantExpired : Nat := 0x09
def stHostTableFull : Nat := 0x0A
def stDuplicateHost : Nat := 0x0B
def stHostNotAdmitted : Nat := 0x0C
def stAlreadyFenced : Nat := 0x0D
def stRegionNotOwned : Nat := 0x0E
def stRegionInUse : Nat := 0x0F
def stRegionUnknown : Nat := 0x10
def stSnapLayout : Nat := 0x11
def stRegionOpen : Nat := 0x12
def stNoConsent : Nat := 0x13
def stSetRange : Nat := 0x14
def stSetMode : Nat := 0x15
def stNotDataPage : Nat := 0x16
def stRetireBusy : Nat := 0x17
def stNoSpare : Nat := 0x18
def stStackFailed : Nat := 0x19
def stRotationBusy : Nat := 0x1A
def stAttestBusy : Nat := 0x1B
def stConsentRefused : Nat := 0x1C
def stSvnLower : Nat := 0x1D
def stPtnNotEnabled : Nat := 0x1E
def stRouteBusy : Nat := 0x1F
def stRouteBad : Nat := 0x20
def stBadRequest : Nat := 0x30
def stNotPermitted : Nat := 0x31
def stUnitRefused : Nat := 0x32
def stFlashRange : Nat := 0x33
def stFlashError : Nat := 0x34
def stImageInvalid : Nat := 0x35
def stImageMismatch : Nat := 0x36
def stImageLiveRefused : Nat := 0x37
def stChunkRange : Nat := 0x38

/-- The RoT firmware runs: started, and no restart in progress (R461). -/
def rotUp (c : Core) : Bool :=
  c.pins.powered && c.pins.resetN && !c.glb.restarting && c.sec.attestReady

/-! ### Submission (R465, R467, R469) -/

/-- A channel that takes writes: its STATE is idle or done. -/
def mbFree (m : Mbx) : Bool := decide (m.st = .idle) || decide (m.st = .done)

/-- GO submits the request. -/
def mbSubmit (ch host : Nat) (c : Core) : Core :=
  c.modMb ch (fun m => { m with st := .accepted, full := true, goHost := host })

/-- The edge unit of a partition's tenant mailbox answers a host (R46, R469). -/
def tenantEdgeUp (c : Core) (p : Nat) : Bool := c.works 8 (p / 2)

/-- A GO: at a device channel it submits, or is ignored and counted; at a tenant mailbox a host's GO submits and is answered with Cmp, or is
refused while a request is accepted or running (R467, R469). -/
def fxMailboxGo (ch : Nat) (o : Origin) (c : Core) : Core :=
  let m := c.mb ch
  if !c.pins.powered ∨ !c.pins.resetN ∨ 48 ≤ ch then c
  else if ch < 16 then
    if o.kind = 1 then c
    else if mbFree m then mbSubmit ch 0 c else c.setMb ch { m with ignored := m.ignored + 1 }
  else
    let p := ch - 16
    if o.kind ≠ 1 ∨ (c.host o.idx).p ≠ p ∨ !(c.host o.idx).valid ∨ !tenantEdgeUp c p then c
    else if mbFree m then (mbSubmit ch o.idx c).answer o p 0 { op := opCmp }
    else c.answer o p 0 { op := opNackRevoked, reason := 4 }

def execMailboxGo (ch : Nat) (o : Origin) (s : State) : Host.Outcome State Fault Refusal := actCore s (fxMailboxGo ch o)

/-! ### The answer (R467, R470) -/

/-- The first 16 skipped units, two a word in DATA8–15 (R467). -/
def skippedWord (l : List (BitVec 16)) (i : Nat) : BitVec 32 := (l.getD (2 * i + 1) 0) ++ (l.getD (2 * i) 0)

/-- A request's answer: RESULT, TAG, the skipped units, STATE = done last, and the channel's interrupt. The answer of a request that a
partition reset detached is discarded and logged MAILBOX_ANSWER_LOST (R470). -/
def mbDoneWith (ch status : Nat) (skipped : List (BitVec 16)) (ans : List (Nat × BitVec 32)) (c : Core) : Core :=
  match c.rot.detached.find? (fun d => decide (d.1 + 16 = ch)) with
  | some d =>
    logE 0x0F08 0 0 (some d.1) [(5, d.1), (12, field d.2.cmd 11 0), (8, field d.2.cmd 31 24)]
      (c.modRot (fun r => { r with detached := r.detached.filter (fun x => decide (x.1 + 16 ≠ ch)) }))
  | none =>
    let m := c.mb ch
    let d0 := ans.foldl (fun t e => tput 0 e.1 e.2 t) m.data
    let d1 := if skipped = [] then d0 else (List.range 8).foldl (fun t i => tput 0 (8 + i) (skippedWord skipped i) t) d0
    let c := c.setMb ch { m with st := .done, full := false, result := BitVec.ofNat 8 status, tag := (m.cmd >>> 24).setWidth 8,
                                 skipped := BitVec.ofNat 16 (min skipped.length 65535), data := d1 }
    if ch < 16 then raiseInt ch c else c

def mbDone (ch status : Nat) (c : Core) : Core := mbDoneWith ch status [] [] c

/-- The answer of a request that may have come from no mailbox (an expiry, PTNp_RESET). -/
def mbReply (ch : Option Nat) (status : Nat) (skipped : List (BitVec 16)) (c : Core) : Core :=
  match ch with
  | some k => mbDoneWith k status skipped [] c
  | none => c

/-! ### Taking a request (R464, R467, R526) -/

/-- Code and partition of the request in a channel; its DATA words. -/
def reqCode (c : Core) (ch : Nat) : Nat := field (c.mb ch).cmd 11 0
def reqPtn (c : Core) (ch : Nat) : Nat := if 16 ≤ ch then ch - 16 else field (c.mb ch).cmd 20 16
def reqData (c : Core) (ch i : Nat) : BitVec 32 := tget 0 i (c.mb ch).data

/-- The listed request codes. -/
def listedCodes : List Nat :=
  [0x001, 0x002, 0x003, 0x004, 0x005, 0x006, 0x007, 0x010, 0x011, 0x020, 0x030, 0x040, 0x041, 0x042, 0x043, 0x044, 0x045, 0x050, 0x060, 0x061,
   0x062, 0x063, 0x064, 0x065, 0x070]

/-- Where a request is accepted: bit 0 secure device channels, bit 1 non-secure ones, bit 2 tenant mailboxes. -/
def chanOk (ch chans : Nat) : Bool :=
  if ch < 8 then chans.testBit 0 else if ch < 16 then chans.testBit 1 else chans.testBit 2

/-- The requests answered PTN_NOT_ENABLED first. -/
def needsPtn (code : Nat) : Bool :=
  decide (code ∈ [0x001, 0x002, 0x003, 0x004, 0x005, 0x006, 0x007, 0x010, 0x011, 0x040, 0x041])

/-- The checks on channel, readiness and partition, then the request's own rules. -/
def runRequest (ch code chans : Nat) (body : Core → Core) (c : Core) : Core :=
  if !chanOk ch chans then mbDone ch stNotPermitted c
  else if c.glb.ready ≠ .ready ∧ !(decide (code ∈ [0x070, 0x062, 0x043, 0x044])) then mbDone ch stNotPermitted c
  else if needsPtn code && !(c.ptn (reqPtn c ch)).en then mbDone ch stPtnNotEnabled c
  else body c

/-- The RoT takes the request that a channel holds: FULL clears, STATE = running (R467). A request that a partition reset detached is run
from its own copy, and one submitted after it waits until it has completed (R470). -/
def takeRequest (ch code chans : Nat) (body : Core → Core) (c : Core) : Core :=
  let m := c.mb ch
  if !rotUp c ∨ 48 ≤ ch then c
  else match c.rot.detached.find? (fun d => decide (d.1 + 16 = ch)) with
    | some d =>
      if d.2.st ≠ .accepted ∨ field d.2.cmd 11 0 ≠ code then c
      else
        let run : Mbx := { d.2 with st := .running, full := false }
        let c := c.modRot (fun r => { r with detached := r.detached.map (fun x => if x.1 = d.1 then (x.1, run) else x) })
        (runRequest ch code chans body (c.setMb ch run)).setMb ch m
    | none =>
      if m.st ≠ .accepted ∨ reqCode c ch ≠ code then c
      else runRequest ch code chans body (c.setMb ch { m with st := .running, full := false })

/-- An unlisted code is answered BAD_REQUEST (R466). -/
def fxUnlistedRequest (ch : Nat) (c : Core) : Core :=
  if listedCodes.contains (reqCode c ch) then c
  else takeRequest ch (reqCode c ch) 7 (mbDone ch stBadRequest) c

def execUnlistedRequest (ch : Nat) (s : State) : Host.Outcome State Fault Refusal := actCore s (fxUnlistedRequest ch)

/-- ECHO: DATA0–15 returned unchanged (R464). -/
def execEcho (ch : Nat) (s : State) : Host.Outcome State Fault Refusal := actCore s (takeRequest ch 0x070 7 (mbDone ch stOk))

/-- Bits of a word outside the listed fields. -/
def reservedClear (w : BitVec 32) (used : BitVec 32) : Bool := decide (w &&& ~~~used = 0)

end Sys2Proof.Machine
end

