-- ==== Sys2Proof/Machine/Snapshot.lean ====
section
/-! DEFINITION. Snapshot regions at their edge unit and homes: OPEN, CLOSE, COMMIT, seal and retire markers, page copies, creation and
destruction (R94–R119). -/

namespace Sys2Proof.Machine
open Sys2Proof

/-- Present home agents that are not Failed. -/
def liveHomes (c : Core) : List Nat := c.glb.fuse.stacks.filter (fun e => decide (c.ust 6 e ≠ .failed))

/-- Records that hold slot `s` of region `r` open. -/
def holders (c : Core) (r s : Nat) : Nat := ((c.edge (r / 64)).opens.filter (fun k => decide (k.2.1 = r ∧ k.2.2 = s))).length

/-- `a` is newer than `b` (R108). -/
def newer (a b : BitVec 32) : Bool := decide (1 ≤ (a - b).toNat) && decide ((a - b).toNat ≤ 2 ^ 31 - 1)

/-! ### Pages of a region -/

/-- Stack-local pages of a PPA extent in stack `e` (R36). -/
def extPages (c : Core) (e ppa : Nat) : List Nat :=
  let r := c.extRange e ppa
  (List.range (r.2 / 512)).map (fun i => r.1 / 512 + i)

/-- Pages of `n` extents of a region from PLA extent `i` on, in stack `e`. -/
def runPages (c : Core) (e p i n : Nat) : List Nat :=
  (List.range n).flatMap (fun k => extPages c e (tget {} (i + k) (c.ptn p).ext).ppa)

/-! ### Retirement (R99, R114) -/

/-- The next waiting retirement starts when none runs: a marker to every home that is not Failed. -/
def startRetire (r : Nat) (c : Core) : Core :=
  let g := c.region r
  match g.retire, g.retireQ with
  | none, s :: rest =>
    let hs := liveHomes c
    let c := c.setRegion r { g with retire := some (s, hs), retireQ := rest, retireAt := [] }
    hs.foldl (fun c e => c.send (.retire e r s)) c
  | _, _ => c

/-- Published slots that are neither newest nor open become retiring, those of one moment in ascending order (R99, R114, log 142). -/
def retirePleats (r : Nat) (c : Core) : Core :=
  let g := c.region r
  let hit := (List.range 8).filter (fun s =>
    decide ((tget {} s g.slots).st = .published) && decide (g.newest ≠ some s) && decide (holders c r s = 0))
  startRetire r (c.setRegion r { g with
    slots := hit.foldl (fun t s => tput {} s { tget {} s t with st := .retiring } t) g.slots,
    retireQ := g.retireQ ++ hit })

/-! ### Commit (R106) -/

/-- The seal markers of a commit whose new slot is free. -/
def sendSeals (r : Nat) (c : Core) : Core :=
  let g := c.region r
  match g.commit with
  | none => c
  | some k =>
    let hs := liveHomes c
    let c := c.setRegion r { g with commit := some { k with waitFree := false, await := hs, sealed := [] } }
    hs.foldl (fun c e => c.send (.seal e r k.old k.new k.ver)) c

/-- A refused operation: LAST_REFUSAL and NackRevoked, reason BAD_TYPE (R104, R107). -/
def snapRefuse (r : Nat) (o : Origin) (code : BitVec 4) (c : Core) : Core :=
  (c.modRegion r (fun g => { g with refusal := code })).answer o (c.originPtn o) 0 { op := opNackRevoked, reason := 4 }

/-- The host's group holds the grant on extent BASE that the operation needs (R105); a record of the peer's for a host that is not admitted
here is applied all the same (R439). -/
def mayUse (c : Core) (g : Region) (o : Origin) (write : Bool) : Bool :=
  decide (4096 ≤ o.idx) || grants (tget {} g.base (c.ptn g.p).ext) (c.host o.idx).group write

/-- The checks of a COMMIT, and its start (R105, R106 steps 1 and 2). -/
def beginCommit (r : Nat) (o : Origin) (ver : BitVec 32) (c : Core) : Core :=
  let g := c.region r
  if !mayUse c g o true then snapRefuse r o 5 c
  else if g.newest.isSome && !newer ver g.newestVer then snapRefuse r o 2 c
  else
    let room := (List.range 8).filter (fun s => decide (s ≠ g.working) &&
      (decide ((tget {} s g.slots).st = .free) || decide ((tget {} s g.slots).st = .retiring)))
    match room with
    | [] => snapRefuse r o 3 c
    | w :: _ =>
      let wait := decide ((tget {} w g.slots).st = .retiring)
      let c := c.setRegion r { g with commit := some ⟨o, ver, g.working, w, [], [], wait⟩ }
      if wait then c else sendSeals r c

/-- A region destroyed (R116): commits that wait are refused, the map entries are zeroed, every field is cleared, and requests that waited
for a page copy go on (R95). -/
def destroyRegion (r : Nat) (c : Core) : Core :=
  let g := c.region r
  let c := g.queue.foldl (fun c k => c.answer k.o g.p 0 { op := opNackRevoked, reason := 4 }) c
  let c := c.modEdge (r / 64) (fun d => { d with opens := d.opens.filter (fun k => decide (k.2.1 ≠ r)) })
  let c := forEach (c.homes.map Prod.fst) (fun e c =>
    let vis := runPages c e g.p g.base g.v
    let c := forEach vis (fun pg c => c.setPageWords e pg []) c
    c.modHome e (fun h => { h with freePages := h.freePages.filter (fun x => decide (x.1 ≠ r)),
                                   copies := h.copies.filter (fun k => decide (k.region ≠ r)),
                                   poolLogged := h.poolLogged.filter (fun k => decide (k ≠ r)),
                                   trks := h.trks.map (fun t => if t.phase = 3 ∧ vis.contains (t.line / 512) then { t with phase := 7 } else t) })) c
  forEach ((c.homes.filter (fun h => h.2.trks.any (fun t => decide (t.phase = 7)))).map Prod.fst) (fun e c => settle e c) (c.setRegion r {})

/-- A SNAP_DESTROY that waited for the running commit is carried out (R116). -/
def destroyDue (r : Nat) (c : Core) : Core :=
  let g := c.region r
  match g.destroy with
  | some ch => if g.commit.isNone then mbDone ch stOk (destroyRegion r c) else c
  | none => c

/-- Step 4, when no home is awaited any more: the sealed slot is published and the new one works (R106). -/
def finishCommit (r : Nat) (c : Core) : Core :=
  let g := c.region r
  match g.sealing with
  | none => c
  | some k =>
    if k.await ≠ [] then c
    else
      let old := tget {} k.old g.slots
      let slots := tput {} k.old { old with st := .published, ver := k.ver } g.slots
      let slots := tput {} k.new ⟨.working, 0, some k.old⟩ slots
      let c := c.setRegion r { g with slots := slots, newest := some k.old, newestVer := k.ver, working := k.new, commit := none,
                                      commits := g.commits + 1 }
      destroyDue r (retirePleats r (c.answer k.o g.p 0 { op := opCmp }))

/-- Step 4 of a retirement, when no home is awaited: the child takes the slot's parent, the slot is free (R114). -/
def finishRetire (r : Nat) (c : Core) : Core :=
  let g := c.region r
  match g.retire with
  | none => c
  | some (s, await) =>
    if await ≠ [] then c
    else
      let par := (tget {} s g.slots).parent
      let slots := g.slots.map (fun x => if x.2.parent = some s then (x.1, { x.2 with parent := par }) else x)
      let c := c.setRegion r { g with slots := tput {} s {} slots, retire := none, retireAt := [] }
      let c := forEach (c.homes.map Prod.fst) (fun e c =>
        c.modHome e (fun h => { h with poolLogged := h.poolLogged.filter (fun k => decide (k ≠ r)) })) c
      let c := match g.commit with
        | some k => if k.waitFree ∧ k.new = s then sendSeals r c else c
        | none => c
      startRetire r c

/-! ### The operations of the window (R104, R105) -/

/-- An operation at its edge unit: in a region outside the host's partition a write has no effect (R47); a region not created refuses. -/
def snapOp (r : Nat) (o : Origin) (f : Region → Core → Core) (c : Core) : Core :=
  if 1024 ≤ r ∨ !c.works 8 (r / 64) ∨ o.kind ≠ 1 then c
  else if c.regionOwner r ≠ some (c.originPtn o) then c.answer o (c.originPtn o) 0 { op := opCmp }
  else if !(c.region r).created then snapRefuse r o 8 c
  else f (c.region r) c

def fxOpen (r : Nat) (o : Origin) (slot : Nat) (ver : BitVec 32) (c : Core) : Core :=
  snapOp r o (fun g c =>
    let s := tget {} slot g.slots
    let d := c.edge (r / 64)
    if !mayUse c g o false then snapRefuse r o 5 c
    else if 8 ≤ slot ∨ s.st ≠ .published ∨ s.ver ≠ ver then snapRefuse r o 1 c
    else if d.opens.contains (o.idx, r, slot) then c.answer o g.p 0 { op := opCmp }
    else if 4096 ≤ d.opens.length then snapRefuse r o 4 c
    else (c.setEdge (r / 64) { d with opens := d.opens ++ [(o.idx, r, slot)] }).answer o g.p 0 { op := opCmp }) c

def fxClose (r : Nat) (o : Origin) (slot : Nat) (c : Core) : Core :=
  snapOp r o (fun g c =>
    let c := c.modEdge (r / 64) (fun d => { d with opens := d.opens.erase (o.idx, r, slot) })
    retirePleats r (c.answer o g.p 0 { op := opCmp })) c

/-- A COMMIT waits while another runs; one that comes when none runs is started even if others still wait to be checked (log 142). -/
def fxCommit (r : Nat) (o : Origin) (ver : BitVec 32) (c : Core) : Core :=
  snapOp r o (fun g c =>
    if g.commit.isSome then c.setRegion r { g with queue := g.queue ++ [⟨o, ver, 0, 0, [], [], false⟩] }
    else beginCommit r o ver c) c

/-- A COMMIT that waited is checked once none runs (R106). -/
def fxQueuedCommitStart (r : Nat) (c : Core) : Core :=
  let g := c.region r
  match g.commit, g.queue with
  | none, k :: rest =>
    if c.works 8 (r / 64) then beginCommit r k.o k.ver (c.setRegion r { g with queue := rest }) else c
  | _, _ => c

/-- A write that is no operation (R104): BAD_OP, for both views of the line when both are touched. -/
def fxSnapViewBadWrite (r : Nat) (o : Origin) (both : Bool) (c : Core) : Core :=
  if 1024 ≤ r ∨ !c.works 8 (r / 64) ∨ o.kind ≠ 1 then c
  else
    let p := c.originPtn o
    let rs := (if both then [r, r ^^^ 1] else [r]).filter (fun k => decide (c.regionOwner k = some p))
    if rs = [] then c.answer o p 0 { op := opCmp }
    else
      let c := rs.foldl (fun c k => c.modRegion k (fun g => { g with refusal := 7 })) c
      c.answer o p 0 { op := opNackRevoked, reason := 4 }

/-! ### Markers at the homes and their answers -/

/-- A home seals and answers (R106 step 3), whatever writes of the sealed slot are still to complete (log 142). -/
def fxSealMarker (e r : Nat) (c : Core) : Core :=
  let g := c.region r
  match g.sealing with
  | some k =>
    if k.await.contains e ∧ !k.sealed.contains e ∧ c.works 6 e then
      (c.setRegion r { g with commit := some { k with sealed := k.sealed ++ [e] } }).send (.sealAnswer e r)
    else c
  | none => c

/-- A home's answer reaches the edge unit (R106 step 4). -/
def fxSealAnswer (e r : Nat) (c : Core) : Core :=
  let g := c.region r
  match g.sealing with
  | some k =>
    if k.await.contains e ∧ k.sealed.contains e ∧ c.works 8 (r / 64) then
      finishCommit r (c.setRegion r { g with commit := some { k with await := k.await.erase e } })
    else c
  | none => c

/-- A home begins its retirement walk (R114). -/
def fxRetireMarker (e r : Nat) (c : Core) : Core :=
  let g := c.region r
  match g.retire with
  | some (_, await) => if await.contains e ∧ tget 0 e g.retireAt = 0 ∧ c.works 6 e then c.setRegion r { g with retireAt := tput 0 e 1 g.retireAt } else c
  | none => c

/-- A map entry when slot `s` is retired: its own page goes to the child, if that has none, else back to the free list (R114). -/
def retireWords (s : Nat) (child : Option Nat) (ws : List (Nat × Bool)) : List (Nat × Bool) × Option Nat :=
  match ws[s]? with
  | some (pg, true) =>
    match child with
    | some k => match ws[k]? with
      | some (_, true) => (ws.set s (0, false), some pg)
      | _ => ((ws.set k (pg, true)).set s (0, false), none)
    | none => (ws.set s (0, false), some pg)
  | _ => (ws.set s (0, false), none)

/-- The child of a slot. -/
def Region.childOf (g : Region) (s : Nat) : Option Nat := (List.range 8).find? (fun k => decide (g.parentOf k = some s))

/-- The walk of a home over the region's map entries ends, and the home reports (R114). -/
def fxRetireWalkDone (e r : Nat) (c : Core) : Core :=
  let g := c.region r
  match g.retire with
  | some (s, await) =>
    if await.contains e ∧ tget 0 e g.retireAt = 1 ∧ c.works 6 e then
      let vis := runPages c e g.p g.base g.v
      let c := vis.foldl (fun c pg =>
        let (ws, back) := retireWords s (g.childOf s) (c.pageWords e pg)
        (c.setPageWords e pg ws).modHome e (fun h => { h with freePages := h.freePages ++ (match back with
          | some b => [(r, b)]
          | none => []) })) c
      (c.setRegion r { g with retireAt := tput 0 e 2 g.retireAt }).send (.retireReport e r)
    else c
  | none => c

/-- A home's report reaches the edge unit (R114). -/
def fxRetireReport (e r : Nat) (c : Core) : Core :=
  let g := c.region r
  match g.retire with
  | some (s, await) =>
    if await.contains e ∧ tget 0 e g.retireAt = 2 ∧ c.works 8 (r / 64) then
      finishRetire r (c.setRegion r { g with retire := some (s, await.erase e) })
    else c
  | none => c

/-- A home that becomes Failed is no longer awaited by commits and retirements (R106, R114). -/
def snapHomeGone (e : Nat) (c : Core) : Core :=
  forEach (c.regions.map Prod.fst) (fun r c =>
    let c := c.modRegion r (fun g =>
      { g with commit := g.commit.map (fun k => { k with await := k.await.erase e }), retire := g.retire.map (fun k => (k.1, k.2.erase e)) })
    finishRetire r (finishCommit r c)) c

/-! ### Page copies (R112) -/

/-- One line of a page copy: data and poison carried over, scrub-seen clear in the new place (R112, R299). -/
def copyLine (e p src dst i : Nat) (c : Core) : Core :=
  let (v, bad) := c.rdPool e (src * 512 + i)
  let c := stWhole e (dst * 512 + i) p v bad c
  c.setLmeta e (dst * 512 + i) { c.lmeta e (dst * 512 + i) with scrubSeen := false }

/-- A page copy ends: the word names the new page, and what waited for the page goes on (R112). -/
def fxPageCopyDone (e page : Nat) (c : Core) : Core :=
  if !c.works 6 e then c
  else match (c.home e).copies.find? (fun k => decide (k.page = page)) with
    | none => c
    | some k =>
      let p := (c.region k.region).p
      let c := (List.range 512).foldl (fun c i => copyLine e p k.src k.dst i c) c
      let c := c.modRegion k.region (fun g => { g with copies := g.copies + 1 })
      let c := (c.setPageWord e page k.slot k.dst true).modHome e (fun h => { h with
        copies := h.copies.erase k,
        trks := h.trks.map (fun t => if t.phase = 3 then { t with phase := 7 } else t) })
      settle e (countEvent 6 e 10 1 (some p) c)

/-! ### Opens closed by a fence or a revocation (R115) -/

/-- The records of a host that meet a test on the region are closed; the pleats now neither newest nor open retire. -/
def closeOpens (h : Nat) (which : Nat → Bool) (c : Core) : Core :=
  let rs := (c.edges.flatMap (fun e => (e.2.opens.filter (fun k => decide (k.1 = h) && which k.2.1)).map (fun k => k.2.1))).eraseDups
  let c := forEach (c.edges.map Prod.fst) (fun e c => c.modEdge e (fun d =>
    { d with opens := d.opens.filter (fun k => !(decide (k.1 = h) && which k.2.1)) })) c
  forEach rs retirePleats c

/-- A host fenced or removed loses every record. -/
def closeHostOpens (h : Nat) (c : Core) : Core := closeOpens h (fun _ => true) c

/-- The fence reaches a unit (R88); the host's open pleats are closed (R115). -/
def execFenceApply (cls idx h : Nat) (s : State) : Host.Outcome State Fault Refusal :=
  actCore s (fun c => if (c.host h).st = 1 then closeHostOpens h (fxFenceApply cls idx h c) else c)

/-! ### Creation (R94, R111) -/

/-- The region's fields, map entries and free pages as SNAP_CREATE writes them. -/
def createRegion (r p base v q : Nat) (c : Core) : Core :=
  let c := c.setRegion r { created := true, p := p, base := base, v := v, q := q, slots := [(0, ⟨.working, 0, none⟩)] }
  forEach c.glb.fuse.stacks (fun e c =>
    let vis := runPages c e p base v
    let pool := runPages c e p (base + v) q
    (forEach vis (fun pg c => c.setPageWords e pg [(pg, true)]) c).modHome e (fun h => { h with
      freePages := h.freePages ++ pool.map (fun pg => (r, pg)) })) c

/-! ### The commands -/

def execOpenPleat (r : Nat) (o : Origin) (slot : Nat) (ver : BitVec 32) (s : State) : Host.Outcome State Fault Refusal :=
  actCore s (fxOpen r o slot ver)
def execClosePleat (r : Nat) (o : Origin) (slot : Nat) (s : State) : Host.Outcome State Fault Refusal := actCore s (fxClose r o slot)
def execCommitPleat (r : Nat) (o : Origin) (ver : BitVec 32) (s : State) : Host.Outcome State Fault Refusal :=
  actCore s (fxCommit r o ver)
def execQueuedCommitStart (r : Nat) (s : State) : Host.Outcome State Fault Refusal := actCore s (fxQueuedCommitStart r)
def execSnapViewBadWrite (r : Nat) (o : Origin) (both : Bool) (s : State) : Host.Outcome State Fault Refusal :=
  actCore s (fxSnapViewBadWrite r o both)
def execSealMarker (e r : Nat) (s : State) : Host.Outcome State Fault Refusal := actCore s (fxSealMarker e r)
def execSealAnswer (e r : Nat) (s : State) : Host.Outcome State Fault Refusal := actCore s (fxSealAnswer e r)
def execRetireMarker (e r : Nat) (s : State) : Host.Outcome State Fault Refusal := actCore s (fxRetireMarker e r)
def execRetireWalkDone (e r : Nat) (s : State) : Host.Outcome State Fault Refusal := actCore s (fxRetireWalkDone e r)
def execRetireReport (e r : Nat) (s : State) : Host.Outcome State Fault Refusal := actCore s (fxRetireReport e r)
def execPageCopyDone (e page : Nat) (s : State) : Host.Outcome State Fault Refusal := actCore s (fxPageCopyDone e page)

end Sys2Proof.Machine
end

