-- ==== Sys2Proof/Machine/Training.lean ====
section
/-! DEFINITION. Training of an HBM stack: lanes and their delays, patterns, sweeps, and the verdict of R293 (R290–R293). -/

namespace Sys2Proof.Machine
open Sys2Proof

/-! ### Lanes and delays (R290) -/

/-- Key of a lane's delay: direction 0 receive, 1 transmit (R290). -/
def dlyKey (dir lane : Nat) : Nat := dir * 4096 + lane
/-- The lane has a delay in that direction: command lanes have a transmit delay only (R290). -/
def hasDelay (dir lane : Nat) : Bool := decide (lane < 2304) || (decide (lane < 2880) && decide (dir = 1))
def delayOf (x : Hbmc) (dir lane : Nat) : BitVec 8 := tget 0x80 (dlyKey dir lane) x.dly

/-! ### Runs and patterns (R291) -/

/-- The channels of a run. -/
def runChannels (ctl : BitVec 32) : BitVec 32 := if ctl.getLsbD 13 then 0xFFFFFFFF else 1#32 <<< field ctl 12 8

/-- The `n` bits of a PRBS with feedback taps `a` and `b` of a register that starts at all ones (log 144), oldest first. -/
def prbs (a b : Nat) : Nat → Nat → List Bool
  | 0, _ => []
  | n + 1, r =>
    let t := Nat.testBit r (a - 1) ^^ Nat.testBit r (b - 1)
    Nat.testBit r (a - 1) :: prbs a b n ((2 * r + t.toNat) % 2 ^ a)

/-- The first 512 bits that a lane sends: PRBS7, PRBS15, PRBS31, a one or a zero that walks over the 64 data lanes or 18 command lanes of a
channel, or the user pattern, word 0 and bit 0 first (R291). -/
def patternBits (x : Hbmc) (pat lane : Nat) : List Bool :=
  let n := if lane < 2048 then 64 else if lane < 2304 then 8 else 18
  let j := if lane < 2048 then lane % 64 else if lane < 2304 then lane % 8 else (lane - 2304) % 18
  if pat = 0 then prbs 7 6 512 127
  else if pat = 1 then prbs 15 14 512 32767
  else if pat = 2 then prbs 31 28 512 2147483647
  else if pat = 3 then (List.range 512).map (fun t => decide (t % n = j))
  else if pat = 4 then (List.range 512).map (fun t => decide (t % n ≠ j))
  else if pat = 5 then (List.range 512).map (fun t => (tget 0 (t / 32) x.pat).getLsbD (t % 32))
  else List.replicate 512 false

/-- A list of bits as a number, the first in bit 0. -/
def numBits (l : List Bool) : Nat := l.foldr (fun b a => b.toNat + 2 * a) 0

/-! ### Sweeps and the verdict (R292, R293) -/

/-- The sweep that a run belongs to (R292): 0 command/address with PRBS15, 1 read data with PRBS31, 2 and 3 write data with walking one and
PRBS31. -/
def sweepOf (ctl : BitVec 32) : Option Nat :=
  let (m, p) := (field ctl 3 1, field ctl 6 4)
  if m = 1 ∧ p = 1 then some 0 else if m = 4 ∧ p = 2 then some 1 else if m = 3 ∧ p = 3 then some 2 else if m = 3 ∧ p = 2 then some 3 else none

/-- Lanes, direction and TRN_CTRL.MODE of a sweep. -/
def sweepLanes (s : Nat) : List Nat := if s = 0 then (List.range 576).map (· + 2304) else List.range 2304
def sweepDir (s : Nat) : Nat := if s = 1 then 0 else 1
def sweepMode (s : Nat) : Nat := if s = 0 then 1 else if s = 1 then 4 else 3

/-- The channel of a lane (R290). -/
def laneChannel (lane : Nat) : Nat := if lane < 2048 then lane / 64 else if lane < 2304 then (lane - 2048) / 8 else (lane - 2304) / 18

/-- Errors of a lane in a run. -/
def errsOf (k : TrnReport) (lane : Nat) : Nat := ((k.errs.filter (fun x => decide (x.1 = lane))).map Prod.snd).sum

/-- The passing steps of the lanes of a sweep after a run at their present delays. -/
def sweepAfter (x : Hbmc) (k : TrnReport) (s : Nat) : Table (BitVec 256) :=
  ((sweepLanes s).filter (fun l => (runChannels x.trnRun).getLsbD (laneChannel l))).foldl (fun t l =>
    let b : BitVec 256 := 1#256 <<< (delayOf x (sweepDir s) l).toNat
    let was := tget 0 (s * 4096 + l) t
    tput 0 (s * 4096 + l) (if errsOf k l = 0 then was ||| b else was &&& ~~~b) t) x.sweep

/-- The chosen delay lies in a window of passing steps, at least 16 steps inside each edge, which makes the window 33 steps or more (R293). -/
def lanePasses (x : Hbmc) (s lane : Nat) : Bool :=
  let d := (delayOf x (sweepDir s) lane).toNat
  let w := tget 0 (s * 4096 + lane) x.sweep
  decide (16 ≤ d) && decide (d ≤ 239) && (List.range 33).all (fun i => w.getLsbD (d - 16 + i))

/-- Length of the longest run of passing steps. -/
def windowOf (w : BitVec 256) : Nat :=
  ((List.range 256).foldl (fun (a : Nat × Nat) i => let n := if w.getLsbD i then a.1 + 1 else 0; (n, max a.2 n)) (0, 0)).2

/-- What fails R293, if anything: mode, the first failing lane in the order of the sweeps, and its window; then the verify run. -/
def trainFail (x : Hbmc) : Option (Nat × Nat × Nat) :=
  match [0, 1, 2, 3].findSome? (fun s => ((sweepLanes s).find? (fun l => !lanePasses x s l)).map (fun l =>
      (sweepMode s, l, windowOf (tget 0 (s * 4096 + l) x.sweep)))) with
  | some f => some f
  | none =>
    if !x.verified then some (field x.trnRun 3 1, 0, windowOf (tget 0 4096 x.sweep))
    else x.verifyBad.head?.map (fun l => (field x.trnRun 3 1, l, windowOf (tget 0 (4096 + l) x.sweep)))

/-- The log entry of a stack that failed training. -/
def logTrainFail (e : Nat) (f : Nat × Nat × Nat) (c : Core) : Core := logE 0x0905 7 e none [(4, e), (3, f.1), (12, f.2.1), (16, f.2.2)] c

/-- The verify run of R292 step 6: the user pattern on all channels, LENGTH = 64. -/
def isVerify (ctl : BitVec 32) : Bool := decide (field ctl 6 4 = 5) && ctl.getLsbD 13 && decide (field ctl 31 16 = 64)

/-- A run ends: its counts, what its mode sets, the steps that passed. TRN_BITS counts eight bits of a lane for each burst (log 144). -/
def runDone (x : Hbmc) (k : TrnReport) (v : BitVec 1024) : Hbmc :=
  let ctl := x.trnRun
  let mode := field ctl 3 1
  { x with
    trnBusy := false, trnDone := true, trnAlert := x.trnAlert || k.alert
    trnErr := BitVec.ofNat 32 (min 0xFFFFFFFF (errsOf k (field x.trnLane 11 0)))
    trnBits := BitVec.ofNat 32 (max 1 (field ctl 31 16) * 8192)
    alertLat := if mode = 1 then k.alertLat else x.alertLat
    wclk := if mode = 2 then (bitsOf 32 (runChannels ctl)).foldl (fun t ch => tput 0 ch ((v >>> (8 * ch)).setWidth 8) t) x.wclk else x.wclk
    sweep := match sweepOf ctl with
      | some s => sweepAfter x k s
      | none => x.sweep
    verified := x.verified || isVerify ctl
    verifyBad := if isVerify ctl then (List.range 2880).filter (fun l => decide (errsOf k l ≠ 0)) else x.verifyBad }

end Sys2Proof.Machine
end

