-- ==== Sys2Proof/Machine/Units.lean ====
section
/-! DEFINITION. Unit states and their changes: commands, forcing, faults, drains, the reconciler, tile resets, parking and the consequences
of a failed unit (R401, R454–R458, R492, R502–R505, R524). -/

namespace Sys2Proof.Machine
open Sys2Proof

/-! ### Codes and restrictiveness (R454, R455) -/

def UnitSt.code : UnitSt → Nat
  | .off => 0 | .held => 1 | .ready => 2 | .serving => 3 | .draining => 4 | .fenced => 5 | .failed => 6

def unitStOf (k : Nat) : Option UnitSt :=
  if k = 0 then some .off else if k = 1 then some .held else if k = 2 then some .ready else if k = 3 then some .serving
  else if k = 4 then some .draining else if k = 5 then some .fenced else if k = 6 then some .failed else none

/-- Place in the order of R455, the most restrictive first. -/
def UnitSt.rank : UnitSt → Nat
  | .failed => 0 | .fenced => 1 | .off => 2 | .held => 3 | .draining => 4 | .ready => 5 | .serving => 6

def stricter (a b : UnitSt) : Bool := decide (a.rank < b.rank)

/-- The unit exists on this part (R4, R14, R515). -/
def Core.hasUnit (c : Core) (cls i : Nat) : Bool :=
  let f := c.glb.fuse
  if cls = 4 then decide (i < 840) && !f.tileBad.getLsbD i && !f.tileOff.getLsbD i
  else if cls = 5 then decide (i < 840)
  else if cls = 6 ∨ cls = 7 then decide (i < 16) && f.stackPresent.getLsbD i
  else if cls = 8 then decide (i < 16)
  else if cls = 9 then decide (i < 8) && f.portPresent.getLsbD i
  else false

/-- The managers have been started (R330 step 6). -/
def mgrsStarted (c : Core) : Bool := c.sec.attestReady && decide (c.glb.ready ≠ .boot) && decide (c.glb.ready ≠ .fuseError)

/-- The RoT has declared the device ready. -/
def inService (c : Core) : Bool := decide (c.glb.ready = .ready)

/-- A manager whose core runs (R463). -/
def mgrUp (c : Core) (m : Nat) : Bool := !(c.mgr m).stopped && !(c.mgr m).restarting

/-! ### What a change of state brings with it -/

/-- The work item of a cluster of a running command ends with CLUSTER_FAILED (R228, R230, R503). -/
def clusterLost (t : Nat) (c : Core) : Core :=
  let x := c.tile t
  match x.work with
  | none => c
  | some w =>
    if w.status.isSome then c
    else
      let c := c.setTile t { x with work := failWork x.work 0x40 (BitVec.ofNat 64 x.logical) }
      logE 0x0702 4 t (some w.p) [(5, w.p), (10, x.logical), (4, w.r), (32, w.idx.toNat)] c

/-- A logical cluster enters Failed: its command ends, its partition is told once in service, the CLUSTER cause is raised (R230, R309, R528). -/
def clusterFailed (t : Nat) (c : Core) : Core :=
  let x := c.tile t
  let c := clusterLost t c
  if !x.en then c
  else
    let c := if x.assigned && inService c then faultEvent x.ptn 4 (BitVec.ofNat 32 x.logical) c else c
    raiseService 4 c

/-- A partition is held while an edge unit that it needs is Failed (R524). -/
def needsEdge (x : Ptn) (p e : Nat) : Bool :=
  decide (p / 2 = e) ||
  (decide (0 < x.syncCount) && decide (x.syncBase / 256 ≤ e) && decide (e ≤ (x.syncBase + x.syncCount - 1) / 256)) ||
  (decide (0 < x.snapCount) && decide (x.snapBase / 64 ≤ e) && decide (e ≤ (x.snapBase + x.snapCount - 1) / 64))

def ptnHeld (c : Core) (p : Nat) : Bool :=
  (List.range 16).any (fun e => decide (c.ust 8 e = .failed) && needsEdge (c.ptn p) p e)

/-- Every admitted host of a partition fenced by the RoT (R88, cause 3). -/
def fenceAll (p : Nat) (c : Core) : Core := forEach (admittedHosts c p) (fun h c => fenceDecision h 3 0 c) c

/-- An edge unit fails: the partitions that need it are held, in service their hosts are fenced (R524). -/
def edgeFailed (e : Nat) (c : Core) : Core :=
  let ps := (c.ptns.filter (fun x => x.2.en && needsEdge x.2 x.1 e)).map Prod.fst
  let c := forEach ps (fun p c => c.modPtn p (fun x => { x with hostsFenced := true })) c
  raiseService 6 (if inService c then forEach ps fenceAll c else c)

/-- What the state Off loses (R154, R454). -/
def losePower (cls i : Nat) (c : Core) : Core :=
  if cls = 4 then c.modTile i (fun x => { x with
    power := .off, waking := false, inbox := [], work := none, resetting := false, resetCluster := false, seq := {}, chans := []
    vec := { x.vec with arrayQ := [], vecQ := [] } })
  else if cls = 5 then c.modRouter i (fun x => { x with bufs := [] })
  else if cls = 6 then c.modHome i (fun h => { h with dir := [], trks := [], recallQ := [], store := [], copies := [] })
  else if cls = 7 then c.modHbmc i (fun x => { x with
    trained := false, pcs := [], chans := [], md := [], sweep := [], verified := false, verifyBad := [], wclk := [], selfRefresh := false })
  else if cls = 8 then c.modEdge i (fun _ => {})
  else c

/-- Present ports. -/
def presentPorts (c : Core) : List Nat := bitsOf 8 c.glb.fuse.portPresent

/-- Every marker of a revocation is at a port: both planes of every present home that is not Failed (R57). -/
def allMarkers (c : Core) (n : Nat) (seq : BitVec 32) : Bool :=
  (liveHomes c).all (fun e => (c.port n).markers.contains (e, false, seq) && (c.port n).markers.contains (e, true, seq))

/-- A port that holds all the markers answers the revoked group itself from now on, and reports (R57). -/
def portCollected (a : Action) (n : Nat) (c : Core) : Core :=
  if !allMarkers c n a.seq ∨ tget {} (a.p * 1024 + a.i) (c.port n).ext = a.ent then c
  else (c.modPort n (fun x => { x with ext := tput {} (a.p * 1024 + a.i) a.ent x.ext })).send (.report 9 n 1 a.p)

/-- A home that becomes Failed is no longer awaited by the ports that collect markers (R57). -/
def markersGone (c : Core) : Core :=
  (c.rot.actions.filter (fun a => decide (a.step = 6) || decide (a.step = 7))).foldl (fun c a => forEach (presentPorts c) (portCollected a) c) c

/-- A home that is Failed is told no fence any more (R88). -/
def fenceGone (e : Nat) (c : Core) : Core := ringDrop (fun m => match m with
  | .fence cls i _ => decide (cls = 6 ∧ i = e)
  | .step _ _ _ => false) c

/-- The state is entered, with all that it brings. -/
def enterState (cls i : Nat) (st : UnitSt) (c : Core) : Core :=
  let u := c.unit cls i
  if u.st = st then c
  else
    let c := if cls = 7 ∧ u.st = .serving then mdFlush i c else c
    let c := c.setUnit cls i { u with st := st }
    let c := if cls = 4 ∧ u.st = .serving then dropWaiters (c.tile i).logical c else c
    let c := if cls = 7 ∧ u.st = .held then c.modHbmc i (fun x => { x with trnBusy := false }) else c
    if st = .off then losePower cls i c
    else if st = .fenced then (if cls = 4 then clusterLost i c else c)
    else if st = .failed then
      if cls = 4 then clusterFailed i c
      else if cls = 5 then
        let c := raiseService 5 (logE 0x0D03 5 i none [(10, i)] c)
        if c.ust 4 i = .off ∨ c.ust 4 i = .failed then c
        else
          let c := if c.ust 4 i = .serving then dropWaiters (c.tile i).logical c else c
          clusterFailed i (c.modUst 4 i .failed)
      else if cls = 6 then markersGone (snapHomeGone i (fenceGone i c))
      else if cls = 8 then edgeFailed i c
      else c
    else c

/-! ### Faults (R456) -/

/-- UNIT_FAULT: any state except Off becomes Failed. What failed in a home is not said by the event; its HOME_FAILED entry carries a free
value among the two structures (log 3). -/
def fxUnitFault (cls i : Nat) (c : Core) : Core :=
  let u := c.unit cls i
  if !c.hasUnit cls i ∨ frozenChip c ∨ u.st = .off ∨ u.st = .failed then c
  else
    let c := if cls = 6 then
        let (v, c) := c.free
        c.modHome i (fun h => { h with failHow := if v.getLsbD 0 then 1 else 0 })
      else c
    enterState cls i .failed c

def execUnitFault (cls idx : Nat) (s : State) : Host.Outcome State Fault Refusal := actCore s (fxUnitFault cls idx)

/-! ### The checks of an HBM controller that leaves Held (R272, R293) -/

/-- Base bit of hashed bit `h`. -/
def baseBit (h : Nat) : Nat := if h < 5 then 7 + h else if h = 5 then 12 else if h < 8 then 10 + h else 10 + h

/-- The first hashed bit whose mask breaks R272. -/
def hashBad (masks : List (BitVec 40)) : Option Nat :=
  (List.range 12).find? (fun h =>
    let m := masks.getD h 0
    !m.getLsbD (baseBit h) || (List.range 12).any (fun k => decide (k ≠ h) && m.getLsbD (baseBit k)) ||
    decide (m &&& 0x7F ≠ 0))

/-- What keeps the controller in Held: the log entry it makes. -/
def hbmcCheck (i : Nat) (c : Core) : Option (Core → Core) :=
  let x := c.hbmc i
  match hashBad x.masks with
  | some h => some (logE 0x0904 7 i none [(4, i), (4, h)])
  | none =>
    if !x.cfg.getLsbD 14 then some (logE 0x0904 7 i none [(4, i), (4, 15)])
    else if !x.trained then some (logTrainFail i ((trainFail x).getD (field x.trnRun 3 1, 0, 0)))
    else none

/-! ### Commands (R456, R457) -/

/-- The unit reports a commanded state: a waiting UNIT_STATE is answered (R464). -/
def reported (cls i : Nat) (st : UnitSt) (c : Core) : Core :=
  let u := c.unit cls i
  if u.cmd = some st then
    let c := c.setUnit cls i { u with cmd := none, ch := none }
    match u.ch with
    | some k => mbDone k stOk c
    | none => c
  else c

/-- A command of a manager reaches the unit. The unit's own steps are Held to Ready with its checks, Ready to Serving and Serving to
Draining; the others are made by management (R456). A cluster in Off wakes first (R490), one that no
partition has stays in Off (R122). -/
def fxUnitCommand (cls i : Nat) (code : BitVec 3) (c : Core) : Core :=
  let u := c.unit cls i
  match u.cmd, unitStOf code.toNat with
  | some w, some st =>
    if !c.hasUnit cls i ∨ frozenChip c ∨ !(decide (st = w) || (decide (st = .ready) && decide (w = .serving)) ||
        (decide (st = .held) && (decide (w = .ready) || decide (w = .serving)))) then c
    else if u.st = .failed ∨ u.st = .fenced ∨ (cls = 4 ∧ (c.tile i).resetting) ∨ st = .failed ∨ !stricter u.st st then c
    else if u.st = .off then
      if st ≠ .held then c
      else if cls = 4 then (if (c.tile i).assigned then c.modTile i (fun x => { x with waking := true }) else c)
      else reported cls i .held (enterState cls i .held c)
    else if u.st = .held ∧ st = .ready then
      match (if cls = 7 then hbmcCheck i c else none) with
      | some log => log c
      | none => reported cls i .ready (enterState cls i .ready c)
    else if u.st = .held then c
    else reported cls i st (enterState cls i st c)
  | _, _ => c

def execUnitCommand (cls idx : Nat) (st : BitVec 3) (s : State) : Host.Outcome State Fault Refusal := actCore s (fxUnitCommand cls idx st)

/-- Management forces a more restrictive state at once (R456, R457); the desired state follows. A home so declared Failed is HOME_FAILED with
structure 2 (R322). -/
def forceState (cls i : Nat) (st : UnitSt) (c : Core) : Core :=
  let u := c.unit cls i
  let c := c.setUnit cls i { u with want := st, cmd := none, ch := none }
  let c := match u.ch with
    | some k => mbDone k stUnitRefused c
    | none => c
  let c := if cls = 6 ∧ st = .failed then c.modHome i (fun h => { h with failHow := 2 }) else c
  enterState cls i st c

def fxUnitForce (cls i : Nat) (code : BitVec 3) (c : Core) : Core :=
  match unitStOf code.toNat with
  | some st => if c.hasUnit cls i ∧ !frozenChip c ∧ stricter st (c.ust cls i) then forceState cls i st c else c
  | none => c

def execUnitForce (cls idx : Nat) (st : BitVec 3) (s : State) : Host.Outcome State Fault Refusal := actCore s (fxUnitForce cls idx st)

/-- The accepted work of a Draining unit is complete. -/
def drained (c : Core) (cls i : Nat) : Bool :=
  if cls = 4 then (c.tile i).work.isNone && tileQuiet (c.tile i) && !(c.tile i).resetting
  else if cls = 5 then (c.router i).bufs.isEmpty
  else if cls = 6 then (c.home i).trks.isEmpty && (c.home i).recallQ.isEmpty
  else if cls = 7 then (c.hbmc i).pcs.all (fun k => k.2.rq.isEmpty && k.2.wq.isEmpty)
  else if cls = 9 then
    (c.port i).queues.all (fun k => k.2.pkts.isEmpty) && (c.port i).answers.isEmpty && (c.port i).snoops.isEmpty && (c.port i).reqs.isEmpty &&
    (c.port i).mgt.isEmpty
  else true

/-- The drain ends: Ready, and so the desired state (R456, R457). -/
def fxDrainComplete (cls i : Nat) (c : Core) : Core :=
  let u := c.unit cls i
  if c.hasUnit cls i ∧ !frozenChip c ∧ u.st = .draining ∧ drained c cls i then
    enterState cls i .ready (c.setUnit cls i { u with want := .ready })
  else c

def execDrainComplete (cls idx : Nat) (s : State) : Host.Outcome State Fault Refusal := actCore s (fxDrainComplete cls idx)

/-- The command timer: the command is no longer outstanding and the desired state follows the reconciler (R457, R464). -/
def fxUnitCommandTimeout (cls i : Nat) (c : Core) : Core :=
  let u := c.unit cls i
  if u.cmd.isNone then c
  else
    let c := c.setUnit cls i { u with cmd := none, ch := none }
    match u.ch with
    | some k => mbDone k stUnitRefused c
    | none => c

def execUnitCommandTimeout (cls idx : Nat) (s : State) : Host.Outcome State Fault Refusal := actCore s (fxUnitCommandTimeout cls idx)

/-- Units of a class. -/
def unitCount (cls : Nat) : Nat := if cls = 4 ∨ cls = 5 then 840 else if cls = 9 then 8 else 16

/-- A desired state asked for: a less restrictive one is commanded, a more restrictive one forced at once (R457). A change that waits is
replaced, and its request answered UNIT_REFUSED (log 159). -/
def wantState (cls i : Nat) (st : UnitSt) (ch : Option Nat) (c : Core) : Core :=
  let u := c.unit cls i
  let c := mbReply u.ch stUnitRefused [] (c.setUnit cls i { u with cmd := none, ch := none })
  let u := c.unit cls i
  if u.st = st then mbReply ch stOk [] (c.setUnit cls i { u with want := st })
  else if stricter st u.st ∧ !frozenChip c then mbReply ch stOk [] (forceState cls i st c)
  else c.setUnit cls i { u with want := st, cmd := some st, ch := ch }

/-- UNIT_STATE (R457, R464). -/
def fxUnitState (ch : Nat) (c : Core) : Core :=
  takeRequest ch 0x050 3 (fun c =>
    let d := reqData c ch 0
    let cls := field d 3 0
    let i := field d 15 4
    let k := field d 18 16
    if !reservedClear d 0x0007FFFF ∨ cls < 4 ∨ 9 < cls ∨ unitCount cls ≤ i ∨ k = 7 then mbDone ch stBadRequest c
    else match unitStOf k with
      | none => mbDone ch stBadRequest c
      | some st =>
        let u := c.unit cls i
        if !c.hasUnit cls i ∨ st = .failed ∨ u.st = .failed ∨ u.st = .fenced then mbDone ch stUnitRefused c
        else wantState cls i st (some ch) c) c

def execUnitState (ch : Nat) (s : State) : Host.Outcome State Fault Refusal := actCore s (fxUnitState ch)

/-! ### The reconciler (R458) -/

/-- A tile whose reset runs is under its manager's command. -/
def underReset (c : Core) (cls i : Nat) : Bool :=
  decide (cls = 4) && ((c.tile i).resetting || ((c.tile i).assigned && decide ((c.ptn (c.tile i).ptn).resetStep ≠ 0)))

/-- One unit at a pass: the more restrictive of the two states wins. -/
def reconcile (cls i : Nat) (c : Core) : Core :=
  let u := c.unit cls i
  let c := c.setUnit cls i { u with seen := u.st }
  if u.cmd.isSome ∨ underReset c cls i ∨ u.st = u.want then c
  else
    let unitWins := stricter u.st u.want
    let c := if unitWins then c.setUnit cls i { u with seen := u.st, want := u.st } else enterState cls i u.want c
    let c := c.modGlb (fun g => { g with discrepancy := g.discrepancy + 1 })
    raiseInt 19 (logE 0x0F01 cls i none
      [(4, cls), (12, i), (3, u.st.code), (3, u.want.code), (4, (Config.logEnum 0x0F01 (if unitWins then 0 else 1)).toNat)] c)

/-- Every unit that a manager governs, once. -/
def fxReconcilerPass (m : Nat) (c : Core) : Core :=
  if 6 ≤ m ∨ !mgrUp c m ∨ !mgrsStarted c ∨ frozenChip c then c
  else
    let keys := (c.rot.units.map Prod.fst).filter (fun k => decide (managerOf (k / 4096) (k % 4096) = m) && c.hasUnit (k / 4096) (k % 4096))
    forEach keys (fun k c => reconcile (k / 4096) (k % 4096) c) c

def execReconcilerPass (mgr : Nat) (s : State) : Host.Outcome State Fault Refusal := actCore s (fxReconcilerPass mgr)

/-! ### Tile resets (R502–R505) -/

/-- A sequencer reset begins: a wait is cancelled, queued work discarded, the work item fails; lines already issued are answered. Only a
cluster or partition reset is a wake source (R491). -/
def startSeqReset (t : Nat) (cluster : Bool) (c : Core) : Core :=
  let x := c.tile t
  let c := match x.seq.wait with
    | some (o, _, _) => c.send (.sync ⟨7, o, x.logical, 0, false, false, 0, 0⟩)
    | none => c
  let chans := x.chans.map (fun k => (k.1, { lines := k.2.lines : DmaChan }))
  let c := c.setTile t { x with
    seq := {}
    vec := { x.vec with arrayQ := [], vecQ := [] }
    chans := chans.filter (fun k => !k.2.lines.isEmpty)
    resetting := true
    resetCluster := cluster
    waking := x.waking || (cluster && (decide (x.power = .gated) || decide (x.power = .parked)))
    work := failWork x.work 0x40 (BitVec.ofNat 64 x.logical) }
  if cluster && stricter .draining (c.ust 4 t) then enterState 4 t .draining c else c

/-- A cluster reset: Draining first, then the sequencer reset (R504). A unit already more restrictive stays as it is until Held. -/
def startClusterReset (t : Nat) (c : Core) : Core := startSeqReset t true c

/-- The reset ends: a cluster reset also clears WIN_GEN, the limiter, t registers and waiter records, and leaves the cluster Held
(R502), but for one without power. -/
def endReset (t : Nat) (c : Core) : Core :=
  let x := c.tile t
  let c := c.setTile t { x with seq := {}, chans := [], resetting := false, resetCluster := false }
  let c := if x.resetCluster then
      let c := c.modTile t (fun x => { x with winGen := 0, rate := 65536, marks := 0, vec := { x.vec with td := [] } })
      let c := dropWaiters x.logical c
      if c.ust 4 t = .off then c else c.modUst 4 t .held
    else c
  if c.rst.st = 1 ∧ c.rst.tile = t then { c with rst := { c.rst with st := 2, result := 0 } } else c

def fxSequencerResetDone (t : Nat) (c : Core) : Core :=
  let x := c.tile t
  if x.resetting ∧ linesOut x = 0 ∧ !frozenChip c then endReset t c else c

/-- A tile reset of the selected tile (R505, R511). -/
def tileReset (t : Nat) (cluster : Bool) (c : Core) : Core :=
  let x := c.tile t
  let r := c.rst
  if !c.pins.powered ∨ !c.pins.resetN ∨ frozenChip c ∨ r.tileSel.toNat ≠ t ∨ 840 ≤ t then c
  else if r.st = 1 ∧ r.tile = t ∧ x.resetting ∧ x.resetCluster = cluster then c
  else if r.st = 1 ∨ x.resetting then { c with rst := { r with result := 1 } }
  else if !x.en ∨ (c.tileOf x.logical) ≠ some t then { c with rst := { r with st := 2, result := 2, tile := t } }
  else if x.assigned ∧ (c.ptn x.ptn).resetStep ≠ 0 then { c with rst := { r with st := 2, result := 1, tile := t } }
  else startSeqReset t cluster { c with rst := { r with st := 1, result := 0, tile := t } }

def execSequencerReset (t : Nat) (s : State) : Host.Outcome State Fault Refusal := actCore s (tileReset t false)
def execClusterReset (t : Nat) (s : State) : Host.Outcome State Fault Refusal := actCore s (tileReset t true)
def execSequencerResetDone (t : Nat) (s : State) : Host.Outcome State Fault Refusal := actCore s (fxSequencerResetDone t)

/-! ### Parking (R492) -/

/-- A cluster Gated for PARK_TICKS is parked, unless parking is off or a wake source is there. -/
def fxParkDelay (t : Nat) (c : Core) : Core :=
  let x := c.tile t
  if x.power = .gated ∧ !x.waking ∧ x.inbox.isEmpty ∧ field c.pwr.ctrl 23 8 ≠ 0 then c.setTile t { x with power := .parked } else c

def execParkDelay (t : Nat) (s : State) : Host.Outcome State Fault Refusal := actCore s (fxParkDelay t)

/-! ### Failed stacks (R306) -/

/-- Partitions with a VALID extent that has pages in a stack. -/
def ptnsOnStack (c : Core) (e : Nat) : List Nat :=
  (c.ptns.filter (fun x => x.2.ext.any (fun i => i.2.valid && (c.extStacks i.2.ppa).contains e))).map Prod.fst

/-- The stack-failed bit at every port and tile. -/
def setStackFailed (e : Nat) (c : Core) : Core :=
  let b : BitVec 16 := 1#16 <<< e
  let c := forEach (bitsOf 8 c.glb.fuse.portPresent) (fun n c => c.modPort n (fun x => { x with stackFailed := x.stackFailed ||| b })) c
  { c with tiles := (List.range 840).foldl (fun t k => tput {} k { tget {} k t with stackFailed := (tget {} k t).stackFailed ||| b } t) c.tiles }

/-- STACK_FAILED: the bits, the log entry, the fault events and the service cause. -/
def fxStackFailed (e : Nat) (c : Core) : Core :=
  let home := decide (c.ust 6 e = .failed)
  if !c.hasUnit 6 e ∨ (c.home e).failTold ∨ !(home || decide (c.ust 7 e = .failed)) then c
  else
    let c := setStackFailed e (c.modHome e (fun h => { h with failTold := true }))
    let c := if home then logE 0x0A08 6 e none [(4, e), (4, (c.home e).failHow)] c else logE 0x0A07 7 e none [(4, e)] c
    let c := forEach (ptnsOnStack c e) (fun p c => faultEvent p 3 (BitVec.ofNat 32 e) c) c
    raiseErlService 2 c

def execStackFailed (e : Nat) (s : State) : Host.Outcome State Fault Refusal := actCore s (fxStackFailed e)

end Sys2Proof.Machine
end

