-- ==== Sys2Proof/Machine/Actions.lean ====
section
/-! DEFINITION. Partition-wide actions: their steps, the reports that end them, and what each step does — map, grant, revocation, lining,
rotation, host removal, partition reset (R25–R27, R49–R60, R87, R337–R350, R479, R506–R508). -/

namespace Sys2Proof.Machine
open Sys2Proof

/-! ### Entries of the extent tables -/

/-- The master entry. -/
def Core.masterExt (c : Core) (p i : Nat) : Ext := tget {} i (c.ptn p).ext

/-- Ranges of stack `e` that hold pages of some PPA extents, ascending. -/
def rangesOf (c : Core) (e : Nat) (ppas : List Nat) : List (Nat × Nat) :=
  ((ppas.map (fun a => c.extRange e a)).filter (fun r => decide (r.2 ≠ 0))).mergeSort (fun a b => decide (a.1 ≤ b.1))

/-- Ranges of the assigned lines of stack `e`: every VALID extent that is not being lined (R310), and how many they are. -/
def assigned (c : Core) (e : Nat) : List (Nat × Nat) :=
  rangesOf c e (c.ptns.flatMap (fun x => (x.2.ext.filter (fun i => i.2.valid && decide (i.2.life ≠ 2))).map (fun i => i.2.ppa)))
def assignedLines (c : Core) (e : Nat) : Nat := ((assigned c e).map (fun r => r.2)).sum

/-- Ticks of a patrol interval over some lines; no interval with none (R310). -/
def intervalOf (h : Home) (lines : Nat) : Nat :=
  if lines = 0 then 0 else max 1 (clampNat 10 10080 (field h.patrolCfg 29 16) * 1500000000 / lines)

/-- The master entry written; a home whose number of assigned lines changes recomputes its patrol interval (R310). -/
def setMaster (p i : Nat) (x : Ext) (c : Core) : Core :=
  let c' := c.modPtn p (fun q => { q with ext := tput {} i x q.ext })
  forEach (c.glb.fuse.stacks.filter (fun e => decide (assignedLines c e ≠ assignedLines c' e)))
    (fun e c => c.modHome e (fun h => { h with patrolInterval := BitVec.ofNat 32 (intervalOf h (assignedLines c' e)) })) c'
def setHomeExt (e p i : Nat) (x : Ext) (c : Core) : Core := c.modHome e (fun h => { h with ext := tput {} (p * 1024 + i) x h.ext })

def setPortExt (p i : Nat) (x : Ext) (c : Core) : Core :=
  forEach (presentPorts c) (fun n c => c.modPort n (fun t => { t with ext := tput {} (p * 1024 + i) x t.ext })) c

/-- The entry in the master table and in every copy. -/
def setEverywhere (p i : Nat) (x : Ext) (c : Core) : Core :=
  setPortExt p i x (forEach (liveHomes c) (fun e c => setHomeExt e p i x c) (setMaster p i x c))

/-- The window copies of a partition's tiles in one field (R149). -/
def setWindows (p i fld : Nat) (x : Option (Nat × BitVec 2)) (c : Core) : Core :=
  forEach ((ptnTiles c p).filter (fun t => decide (tileField t = fld)))
    (fun t c => c.modTile t (fun y => { y with win := tput none i x y.win, winGen := y.winGen + 1 })) c

/-- An entry without grants. -/
def noSlots : List (Nat × BitVec 2) := [(0, 0), (0, 0), (0, 0), (0, 0)]
def hasGrant (x : Ext) : Bool := x.allGrp || x.slots.any (fun s => decide (s.2 ≠ 0))

/-- Homes that a step works on: present, neither Failed nor Fenced (R27). -/
def stepHomes (c : Core) : List Nat := (liveHomes c).filter (fun e => decide (c.ust 6 e ≠ .fenced))

/-- An entry with the expiry count as it runs in the master table. -/
def withCount (x cur : Ext) : Ext := { x with ms := cur.ms, msSlots := cur.msSlots, msAll := cur.msAll }

/-! ### Actions (R25, R26) -/

def noAction : Action :=
  { kind := 0, p := 0, ch := none, step := 0, await := [], skipped := [], i := 0, ent := {}, groups := [], forced := false, unmap := false,
    lower := false, seq := 0, host := 0, recalled := 0, img := none }

/-- A revocation that lines its extent: no grant remains (R53), or an unmap. -/
def Action.lines (a : Action) : Bool := decide (a.kind = 7) || (decide (a.kind = 6) && !a.lower && !hasGrant a.ent)

/-- The steps of an action, in order: 1 fence hosts, 2 move clusters, 3 map pass, 4 install at homes, 5 install at ports and tiles, 6 install
with markers, 7 markers collected, 8 recall, 9 next key generation, 11–15 steps 1–5 of R506, 16 lining pass, 17 destroy regions, 18 zero
clusters, 19 write shares, 20 recall a host's lines, 21 clear window copies, 22 apply the rest of an image. -/
def planOf (a : Action) : List Nat :=
  if a.kind = 1 then [11, 12, 13, 14, 15]
  else if a.kind = 2 then [1, 11, 12, 13, 14, 15, 17, 18, 9, 16]
  else if a.kind = 3 then [9]
  else if a.kind = 4 then [3, 4, 5]
  else if a.kind = 5 then [4, 5]
  else if a.kind = 6 then [6, 7, 8] ++ (if a.lines then [9, 16] else [])
  else if a.kind = 7 then [21, 6, 7, 8, 9, 16]
  else if a.kind = 8 then [11, 12, 13, 14, 15, 2, 19, 22]
  else if a.kind = 10 then [20]
  else []

def nextStep (a : Action) : Option Nat :=
  if a.step = 0 then (planOf a).head? else ((planOf a).drop ((planOf a).idxOf a.step + 1)).head?

/-- Field managers of a partition's tiles. -/
def fieldsOf (c : Core) (p : Nat) : List Nat := (List.range 4).filter (fun f => (ptnTiles c p).any (fun t => decide (tileField t = f)))

/-- The managers that a step names (0–3 field, 4 port, 5 memory). -/
def managersOf (c : Core) (a : Action) (s : Nat) : List Nat :=
  let fs := fieldsOf c a.p
  if s = 1 ∨ s = 11 then [4, 5]
  else if s = 5 then (if a.kind = 4 then fs ++ [4] else [4])
  else if s = 12 then fs ++ [5]
  else if s = 14 ∨ s = 18 ∨ s = 21 ∨ s = 2 then fs
  else if s = 15 then fs ++ [4, 5]
  else if s = 7 then [4]
  else if s = 19 then [4, 5]
  else if s = 22 then []
  else [5]

def putAction (a : Action) (c : Core) : Core :=
  c.modRot (fun r => { r with actions := r.actions.map (fun b => if b.p = a.p then a else b) })

/-! ### Passes over lines (R345, R348, R350) -/

/-- PPA extents of some entries of a partition. -/
def ppasOf (c : Core) (p : Nat) (is : List Nat) : List Nat := is.map (fun i => (c.masterExt p i).ppa)

/-- Entries of a partition that are VALID. -/
def validExts (c : Core) (p : Nat) : List Nat := ((c.ptn p).ext.filter (fun x => x.2.valid)).map Prod.fst

def inRanges (rs : List (Nat × Nat)) (line : Nat) : Bool := rs.any (fun r => decide (r.1 ≤ line) && decide (line < r.1 + r.2))

/-- A lining or map pass begins at every home that holds pages: its line-store entries for the range are dropped (R348 step 2). -/
def startPasses (p : Nat) (ppas : List Nat) (c : Core) : Core :=
  forEach (stepHomes c) (fun e c =>
    let rs := rangesOf c e ppas
    if rs = [] then c
    else c.modHome e (fun h => { h with store := h.store.filter (fun x => !inRanges rs x.1), passes := h.passes ++ [⟨0, p, rs, 0⟩] })) c

/-- The sweep of a partition's lines begins (R345). -/
def startSweep (p : Nat) (skip : Option Nat) (c : Core) : Core :=
  let ppas := ppasOf c p ((validExts c p).filter (fun i => decide (some i ≠ skip)))
  let hs := stepHomes c
  let n := (hs.flatMap (fun e => (rangesOf c e ppas).map (fun r => r.2))).sum / 512
  let c := c.modKeys p (fun k => { k with sweep := true, pagesLeft := BitVec.ofNat 23 n })
  forEach hs (fun e c => c.modHome e (fun h => { h with passes := h.passes ++ [⟨1, p, rangesOf c e ppas, 0⟩] })) c

/-- Two keys drawn from the random generator (R337). -/
def drawSlot (g : Nat) (c : Core) : KeySlot × Core :=
  let (v, d) := c.sec.drbg.draw
  (⟨g, v.setWidth 256, (v >>> 256).setWidth 256⟩, c.modSec (fun x => { x with drbg := d }))

/-- The first keys of a partition that has none: generation 0 (R337, log 14). -/
def firstKeys (p : Nat) (c : Core) : Core :=
  if (c.keys p).slot0 ≠ {} ∨ (c.keys p).slot1 ≠ {} then c
  else
    let (k, c) := drawSlot 0 c
    c.modKeys p (fun x => { x with slot0 := k })

/-- New keys for the next generation, current at every home; the old slot becomes previous (R337, R344 steps 1 and 2). -/
def advanceGen (p : Nat) (c : Core) : Core :=
  let g := (c.keys p).gen + 1
  let (k, c) := drawSlot g.toNat c
  c.modKeys p (fun x => { x.setSlot (g.getLsbD 0) k with gen := g, prevValid := true, lineWait := false })

/-- The previous slot zeroed (R345, R349 step 6). -/
def Keys.dropPrev (x : Keys) : Keys := { x.setSlot (!x.gen.getLsbD 0) {} with prevValid := false }

/-- One line of a lining or map pass: zeros under the current key, poison clear (R346, R348). -/
def lineZero (e line p : Nat) (c : Core) : Core :=
  let c := { c with mem := zeroRange c.mem (caKey e (line * 128)) 128 }
  let c := c.setLmeta e line { c.lmeta e line with poison := false, gen := (c.keys p).gen.getLsbD 0 }
  c.modHome e (fun h => { h with store := tput none line none h.store })

/-- The pass one line on; `none` at its end. -/
def Pass.next (k : Pass) : Option Pass :=
  match k.ranges with
  | [] => none
  | r :: rest =>
    if k.pos + 1 < r.2 then some { k with pos := k.pos + 1 }
    else if rest = [] then none else some { k with ranges := rest, pos := 0 }

def replacePass (e : Nat) (k : Pass) (k' : Option Pass) (c : Core) : Core :=
  c.modHome e (fun h => { h with passes := h.passes.flatMap (fun x => if x = k then k'.toList else [x]) })

/-- LINING_LINE: the next line of the home's pass for the partition. -/
def fxLiningLine (e p : Nat) (c : Core) : Core :=
  if !c.works 6 e then c
  else match (c.home e).passes.find? (fun k => decide (k.what = 0 ∧ k.p = p)) with
    | none => c
    | some k => match k.ranges with
      | [] => replacePass e k none c
      | r :: _ => replacePass e k k.next (lineZero e (r.1 + k.pos) p c)

def execLiningLine (e p : Nat) (s : State) : Host.Outcome State Fault Refusal := actCore s (fxLiningLine e p)

/-! ### Recalls (R87) -/

/-- Lines of the directory that a recall looks at, and lines that a transaction accepted before it may still give to one of `hosts`; a
recall of such a line waits behind the transaction and snoops whatever holders result (R86, R87). -/
def recallCandidates (c : Core) (e p : Nat) (hosts : List Nat) : List Nat :=
  let h := c.home e
  let held := h.dir.filterMap (fun x => match x.2 with
    | some d => if (holdersOf c e p d).any (fun k => hosts.contains k) then some x.1 else none
    | none => none)
  let coming := (h.trks.filter (fun t => decide (t.kind = .request) && decide (t.o.kind = 1) && hosts.contains t.o.idx &&
    (decide (t.q.op = 1) || decide (t.q.op = 2) || decide (t.q.op = 4)))).map (fun t => t.line)
  held ++ coming.eraseDups.filter (fun l => !held.contains l)

/-- The recalls of one home: every line of the partition (of one extent, if given) with a holder among `hosts`, there or to come; how many. -/
def recallLines (e p : Nat) (ext : Option Nat) (lower forced : Bool) (hosts : List Nat) (c : Core) : Nat × Core :=
  let h := c.home e
  let hit := (recallCandidates c e p hosts).filter (fun l => match c.lineOwner e l with
    | some (q, pla) => decide (q = p) && (ext.isNone || decide (ext = some (plaExt pla)))
    | none => false)
  (hit.length, c.setHome e { h with walking := h.walking ++ [p], recallQ := h.recallQ ++ hit.map (fun l => (l, TrkKind.recall lower forced hosts)) })

/-- The recall of a step at every home; the count goes into the action. -/
def startRecall (p : Nat) (ext : Option Nat) (lower forced : Bool) (hosts : List Nat) (c : Core) : Core :=
  (stepHomes c).foldl (fun c e =>
    let (n, c) := recallLines e p ext lower forced hosts c
    let c := match actionOf c p with
      | some a => putAction { a with recalled := a.recalled + n } c
      | none => c
    if c.works 6 e then settle e c else c) c

/-- A home still recalls lines of a partition. -/
def recalling (c : Core) (e p : Nat) : Bool :=
  let own (line : Nat) : Bool := decide ((c.lineOwner e line).map (fun x => x.1) = some p)
  let rec? : TrkKind → Bool
    | .recall _ _ _ => true
    | _ => false
  (c.home e).recallQ.any (fun k => rec? k.2 && own k.1) || (c.home e).trks.any (fun t => rec? t.kind && own t.line)

/-- RECALL_WALK_DONE: the walk and its recalls have ended, and the home reports. -/
def fxRecallWalkDone (e p : Nat) (c : Core) : Core :=
  if c.works 6 e ∧ (c.home e).walking.contains p ∧ !recalling c e p then
    (c.modHome e (fun h => { h with walking := h.walking.erase p })).send (.report 6 e 0 p)
  else c

def execRecallWalkDone (e p : Nat) (s : State) : Host.Outcome State Fault Refusal := actCore s (fxRecallWalkDone e p)

/-! ### What a partition reset does (R502, R506, R507) -/

/-- MIRROR cause of the service request: some mirrored partition is in SoloPending or Solo (R528). -/
def mirrService (c : Core) : Core :=
  if c.mirrs.any (fun m => decide (m.2.st = .soloPending) || decide (m.2.st = .solo)) then raiseService 7 c else clearService 7 c

/-- A device that goes Stale: held answers are discarded, pending requests are never answered (R447). -/
def mirrStale (p : Nat) (c : Core) : Core :=
  let c := c.modMirr p (fun m => { m with
    st := .stale, seek := false, releasing := false, rsOn := false, rsDone := false,
    pend := (m.pend.filter (fun k => decide (k.op = 0))).map (fun k => if k.order = 0 then { k with dead := true } else k),
    dedupe := (m.dedupe.map (fun h => (h.1, h.2.filter (fun d => d.done)))).filter (fun h => decide (h.2 ≠ [])) })
  mirrService (forEach (c.homes.map Prod.fst) (fun e c =>
    let mine := (c.home e).trks.filter (fun t => decide (t.phase = 5 ∧ t.p = p))
    if mine = [] then c else settle e (mine.foldl (fun c t => dropTrk e t.idx c) c)) c)

/-- Hosts of a partition in the host table. -/
def hostsOf (c : Core) (p : Nat) : List Nat := (c.hosts.filter (fun h => h.2.valid && decide (h.2.p = p))).map Prod.fst

/-- The objects of a partition return to unconfigured, without waiters (R259). -/
def resetObjects (p : Nat) (c : Core) : Core :=
  let x := c.ptn p
  let own (o : Nat) : Bool := decide (x.syncBase ≤ o ∧ o < x.syncBase + x.syncCount)
  let c := { c with objs := c.objs.filter (fun o => !own o.1) }
  forEach (c.edges.map Prod.fst) (fun e c => c.modEdge e (fun d => { d with waiters := d.waiters.filter (fun w => !own w.obj) })) c

/-- The tenant mailbox returns to its reset values; a request in it is detached and runs on (R470). -/
def resetMailbox (p : Nat) (c : Core) : Core :=
  let m := c.mb (16 + p)
  let c := if m.st = .accepted ∨ m.st = .running then
      c.modRot (fun r => { r with detached := r.detached.filter (fun d => decide (d.1 ≠ p)) ++ [(p, m)] }) else c
  c.setMb (16 + p) {}

/-- A partition freeze ends with the reset of its scope: READOUT is logged (R543, R545). -/
def endFreeze (p : Nat) (c : Core) : Core :=
  if !frozenPtn c p then c
  else
    let e := c.evc
    let c := c.modEvc (fun v => { v with fzState := 0, fzScope := false, fzPtn := 0, fzCause := 0, opened := 0, refused := 0, saved := [] })
    logE 0x1203 0 0 (some p) [(4, 1), (5, p), (16, e.opened.toNat), (16, e.refused.toNat)] c

/-- Tiles that a step works on: all of the partition in a field but Failed ones and, unless the freeze of the partition holds them, Fenced
ones (R27, R543). -/
def stepTiles (c : Core) (p : Nat) : List Nat :=
  (ptnTiles c p).filter (fun t => decide (c.ust 4 t ≠ .failed) && (decide (c.ust 4 t ≠ .fenced) || frozenPtn c p))

/-- Work aborted without records: commands dropped, clusters told (R230, R506 step 2). -/
def dropCommands (p : Nat) (c : Core) : Core :=
  let c := c.modPtn p (fun x => { x with cmds := [], ended := [] })
  forEach (ptnTiles c p) (fun t c => if (c.tile t).work.isSome then (c.modTile t (fun x => { x with work := none })).send (.abortWork t) else c) c

/-- The end of R506: HOSTS_FENCED clears unless the partition is held (R524), the reset is reported and logged. -/
def finishReset (a : Action) (c : Core) : Core :=
  let p := a.p
  let c := c.modPtn p (fun x => { x with hostsFenced := ptnHeld c p, resetStep := 0, resetBusy := false, resetResult := 0 })
  let c := c.modRot (fun r => { r with seam := r.seam.filter (fun k => decide (k ≠ p)) })
  let c := logE 0x1005 0 0 (some p) [(5, p), (4, if a.forced then 1 else 0), (16, a.recalled)] c
  let c := endFreeze p c
  if (c.ptn p).mirrored then mirrStale p c else c

/-! ### What a step does when it starts -/

/-- The clusters that an image gives a partition (R479 step 2): released ones go to Off, new ones to Held. -/
def moveClusters (p : Nat) (ls : List Nat) (c : Core) : Core :=
  let old := (c.ptn p).clusters
  let c := forEach (old.filter (fun l => !ls.contains l)) (fun l c => match c.tileOf l with
    | some t =>
      if (c.tile t).ptn = p then forceState 4 t .off (c.modTile t (fun x => { x with assigned := false, ptn := 0, win := [] })) else c
    | none => c) c
  let c := forEach (ls.filter (fun l => !old.contains l)) (fun l c => match c.tileOf l with
    | some t =>
      let c := c.modTile t (fun x => { (if x.power = .off then tileFromOff t x else x) with assigned := true, ptn := p, power := .active })
      if c.ust 4 t = .failed then c
      else c.setUnit 4 t { c.unit 4 t with st := .held, want := .serving, cmd := some .serving, ch := none }
    | none => c) c
  c.modPtn p (fun x => { x with clusters := ls })

/-- The image entry of a partition. -/
def imgPtn (img : Option Image) (p : Nat) : Option ImgPtn :=
  match img with
  | some i => i.ptns.find? (fun x => decide (x.p = p))
  | none => none

/-- The shares of R38 written into PTN, TMGR and PWR. -/
def writeShares (p : Nat) (x : ImgPtn) (c : Core) : Core :=
  let c := c.modPtn p (fun q => { q with
    en := true, mirrored := x.mirrored, ueTrap := x.ueTrap, endpoint := x.endpoint, quota := x.quota, groupBase := x.groupBase, groupCount := x.groupCount,
    syncBase := x.syncBase, syncCount := x.syncCount, snapBase := x.snapBase, snapCount := x.snapCount })
  let rate := if x.rate = 0 then 0 else max 1000 x.rate
  let burst := max 256 x.burst / 64
  let c := forEach (presentPorts c) (fun n c => c.modPort n (fun t =>
    { t with shapers := tput {} p { en := decide (rate ≠ 0), rate := rate, burst := burst, b := ⟨burst * 64 * 65536, 0⟩, holds := 0 } t.shapers })) c
  let c := c.modMirr p (fun m => { m with port := BitVec.ofNat 3 x.mirrorPort })
  firstKeys p (c.modPwr (fun w => { w with ptns := tput {} p { tget {} p w.ptns with image := x.watts, budget := BitVec.ofNat 12 x.watts } w.ptns }))

/-- A partition that an image does not name. -/
def clearShares (p : Nat) (c : Core) : Core :=
  let c := c.modPtn p (fun _ => {})
  c.modPwr (fun w => { w with ptns := tput {} p {} w.ptns })

def enterStep (a : Action) (c : Core) : Core :=
  let p := a.p
  let s := a.step
  if s = 1 then forEach (admittedHosts c p) (fun h c => closeHostOpens h (fenceDecision h 3 0 c)) c
  else if s = 2 then moveClusters p (((imgPtn a.img p).map (fun x => x.clusters)).getD []) c
  else if s = 3 then startPasses p [a.ent.ppa] c
  else if s = 4 then setMaster p a.i a.ent c
  else if s = 8 then
    let hs := (hostsOf c p).filter (fun h => a.groups.contains (c.host h).group && decide ((c.host h).st ≠ 1))
    let c := if a.lower then c else forEach hs (fun h c => closeOpens h (fun r =>
      (c.region r).created && decide ((c.region r).p = p) && decide ((c.region r).base = a.i)) c) c
    startRecall p (some a.i) a.lower a.forced hs c
  else if s = 9 then
    let wait := (c.keys p).sweep
    let c := c.modKeys p (fun k => { k with lineWait := wait && decide (a.kind ≠ 3) })
    if a.kind = 2 then forEach (validExts c p) (fun i c => setEverywhere p i { c.masterExt p i with life := 2 } c) c
    else if a.kind = 3 then c
    else setEverywhere p a.i (withCount { a.ent with life := 2 } (c.masterExt p a.i)) c
  else if s = 16 then startPasses p (if a.kind = 2 then ppasOf c p (validExts c p) else [a.ent.ppa]) c
  else if s = 18 then
    forEach (stepTiles c p) (fun t c => c.modTile t (fun x => { x with
      ls := [], lsPoison := [], seq := { x.seq with x := [] }
      vec := { x.vec with v := [], acc := [], td := [], vPoison := [], accPoison := [] } })) c
  else if s = 19 then
    let c := resetObjects p c
    match imgPtn a.img p with
    | some x =>
      let c := writeShares p x c
      c.modPtn p (fun x => { x with hostsFenced := ptnHeld c p })
    | none => clearShares p c
  else if s = 20 then
    if (c.host a.host).st = 1 then c else startRecall p none false false [a.host] c
  else if s = 11 then c.modPtn p (fun x => { x with hostsFenced := true, resetStep := 1, resetBusy := true })
  else if s = 12 then
    let c := c.modPtn p (fun x => { x with resetStep := 2 })
    dropCommands p (c.modRot (fun r => { r with seam := r.seam.filter (fun k => decide (k ≠ p)) ++ [p] }))
  else if s = 13 then
    let c := c.modPtn p (fun x => { x with resetStep := 3 })
    let hs := hostsOf c p
    startRecall p none false a.forced (hs.filter (fun h => decide ((c.host h).st ≠ 1))) (forEach hs closeHostOpens c)
  else if s = 14 then
    let c := c.modPtn p (fun x => { x with resetStep := 4 })
    let saved := if frozenPtn c p then c.evc.saved else []
    let c := forEach (stepTiles c p) startClusterReset c
    let c := saved.foldl (fun c k => if c.ust 4 k.1 = .failed then c else c.setUnit 4 k.1 { c.unit 4 k.1 with want := k.2 }) c
    forEach ((c.ptn p).clusters) dropWaiters c
  else if s = 15 then
    let c := c.modPtn p (fun x => { x with resetStep := 5, rings := [], cmds := [], ended := [], turn := 15, blocked := false })
    resetMailbox p (resetObjects p c)
  else c

/-! ### When a step is complete for a manager -/

def stepDone (c : Core) (a : Action) (m : Nat) : Bool :=
  let p := a.p
  let s := a.step
  let mine (t : Nat) : Bool := decide (tileField t = m)
  if s = 1 then
    let hs := (hostsOf c p).filter (fun h => decide ((c.host h).st = 1))
    if m = 4 then (presentPorts c).all (fun n => hs.all (fun h => (c.port n).fence.contains h))
    else (liveHomes c).all (fun e => hs.all (fun h => (c.home e).fence.contains h))
  else if s = 4 ∨ s = 6 then (liveHomes c).all (fun e => decide (c.homeExt e p a.i = a.ent))
  else if s = 7 then (presentPorts c).all (fun n => decide (tget {} (p * 1024 + a.i) (c.port n).ext = a.ent) || allMarkers c n a.seq)
  else if s = 3 ∨ s = 16 then (stepHomes c).all (fun e => !(c.home e).passes.any (fun k => decide (k.what = 0 ∧ k.p = p)))
  else if s = 9 then !(c.keys p).sweep
  else if s = 8 ∨ s = 13 then (stepHomes c).all (fun e => !(c.home e).walking.contains p)
  else if s = 20 then
    (stepHomes c).all (fun e => !(c.home e).walking.contains p) && !(c.rot.walks.any (fun w => decide (w.1 = a.host)))
  else if s = 12 then
    if m = 5 then (stepHomes c).all (fun e => !(c.home e).trks.any (fun t => decide (t.p = p) && decide (t.kind = .request)))
    else (stepTiles c p).all (fun t => !mine t || decide (linesOut (c.tile t) = 0))
  else if s = 14 then (ptnTiles c p).all (fun t => !mine t || !(c.tile t).resetting)
  else if s = 17 then c.regions.all (fun g => !(g.2.created && decide (g.2.p = p)) || g.2.commit.isNone)
  else true

/-! ### What a manager's report of a step brings with it -/

def stepEffect (a : Action) (m : Nat) (c : Core) : Core :=
  let p := a.p
  let s := a.step
  if s = 5 then (if m = 4 then setPortExt p a.i a.ent c else setWindows p a.i m (some (a.ent.ppa, a.ent.typ)) c)
  else if s = 21 then setWindows p a.i m none c
  else if s = 7 then
    let c := setPortExt p a.i a.ent c
    let c := forEach (presentPorts c) (fun n c => c.modPort n (fun x => { x with markers := x.markers.filter (fun k => decide (k.2.2 ≠ a.seq)) })) c
    c.modRot (fun r => { r with revokeSeq := a.seq })
  else if s = 9 then advanceGen p c
  else if s = 17 then
    forEach ((c.regions.filter (fun g => g.2.created && decide (g.2.p = p))).map Prod.fst) destroyRegion c
  else if s = 15 ∧ m < 4 then
    forEach ((ptnTiles c p).filter (fun t => decide (tileField t = m) && decide (c.ust 4 t = .held)))
      (fun t c => if (c.unit 4 t).want = .ready ∨ (c.unit 4 t).want = .serving then c.modUst 4 t (c.unit 4 t).want else c) c
  else c

/-! ### The end of an action -/

/-- A lining completed (R348 step 3, R349 step 7). Scope: enumeration 0 extent, 1 partition (log 29). -/
def logLined (p scope n : Nat) (c : Core) : Core :=
  logE 0x0B04 0 0 (some p) [(5, p), (4, (Config.logEnum 0x0B04 scope).toNat), (16, n)] c

def setConsent (p : Nat) (v : Bool) (cause : Nat) (c : Core) : Core :=
  if c.sec.consent.getLsbD p = v then c
  else
    let b : BitVec 32 := 1#32 <<< p
    let c := c.modSec (fun x => { x with consent := if v then x.consent ||| b else x.consent &&& ~~~b })
    logE 0x0B05 0 0 (some p) [(5, p), (1, if v then 1 else 0), (4, (Config.logEnum 0x0B05 cause).toNat)] c

def finishAction (a : Action) (c : Core) : Core :=
  let p := a.p
  let c := c.modRot (fun r => { r with actions := r.actions.filter (fun b => decide (b.p ≠ p)) })
  let clearMode (c : Core) : Core := forEach (liveHomes c) (fun e c => c.modHome e (fun h => { h with mode := tput none (p * 1024 + a.i) none h.mode })) c
  let c :=
    if a.kind = 2 then
      let is := validExts c p
      let ppas := ppasOf c p is
      let c := c.modKeys p (fun k => { k.dropPrev with ptnLined := k.ptnLined + 1 })
      let c := forEach is (fun i c => setEverywhere p i {} c) c
      let c := forEach (ptnTiles c p) (fun t c => c.modTile t (fun x => { x with win := [], winGen := if x.win = [] then x.winGen else x.winGen + 1 })) c
      let c := c.modRot (fun r => { r with taken := r.taken.filter (fun x => !ppas.contains x) })
      let c := forEach (hostsOf c p) (fun h c => clearHost h (c.modRot (fun r => { r with walks := r.walks.filter (fun w => decide (w.1 ≠ h)) }))) c
      logLined p 1 is.length (setConsent p false 1 c)
    else if a.kind = 3 then startSweep p none c
    else if a.kind = 6 then
      let c := clearMode (setEverywhere p a.i (withCount { a.ent with life := 0 } (c.masterExt p a.i)) c)
      if a.lines then startSweep p (some a.i) (logLined p 0 1 (c.modKeys p (fun k => { k with extLined := k.extLined + 1 }))) else c
    else if a.kind = 7 then
      let c := clearMode (setEverywhere p a.i {} c)
      let c := c.modRot (fun r => { r with taken := r.taken.filter (fun x => decide (x ≠ a.ent.ppa)) })
      startSweep p none (logLined p 0 1 (c.modKeys p (fun k => { k with extLined := k.extLined + 1 })))
    else if a.kind = 10 then clearHost a.host (closeHostOpens a.host c)
    else c
  mbReply a.ch stOk a.skipped c

/-- The RoT goes on as far as no report is awaited (R25); it starts nothing while it restarts (R462). The last step of a live image update
belongs to the image. -/
def advanceN (p : Nat) : Nat → Core → Core
  | 0, c => c
  | n + 1, c => match actionOf c p with
    | none => c
    | some a =>
      if a.await ≠ [] ∨ c.glb.restarting ∨ a.step = 22 then c
      else
        let c := if a.step = 15 then finishReset a c else c
        match nextStep a with
        | none => finishAction a c
        | some s =>
          let a := { a with step := s, await := managersOf c a s }
          advanceN p n (enterStep a (forEach a.await (fun m => ringPut (.step p m s)) (putAction a c)))

def advanceAction (p : Nat) (c : Core) : Core := advanceN p 16 c

/-- An action starts: at most one runs for a partition (R26). -/
def startAction (a : Action) (c : Core) : Core := advanceAction a.p (c.modRot (fun r => { r with actions := r.actions ++ [a] }))

/-- Units that a manager skips in a step (R27), by class and index: Failed and Fenced ones, but that a Fenced home still takes an entry and
commits it (R56). -/
def skippedUnits (c : Core) (a : Action) (m : Nat) : List (BitVec 16) :=
  let out (cls i : Nat) : Bool := decide (c.ust cls i = .failed) || (decide (c.ust cls i = .fenced) && !decide (a.step = 4 ∨ a.step = 6))
  let name (cls : Nat) (l : List Nat) : List (BitVec 16) := (l.filter (out cls)).map (fun i => BitVec.ofNat 16 (cls * 4096 + i))
  if m = 5 then name 6 c.glb.fuse.stacks
  else if m = 4 then name 9 (presentPorts c)
  else name 4 ((ptnTiles c a.p).filter (fun t => decide (tileField t = m) && !(decide (c.ust 4 t = .fenced) && frozenPtn c a.p)))

/-- A report of a manager (R25, R27): the step has come to it over the ring and is complete for its units; it names those it skipped. -/
def fxStepReport (p m : Nat) (c : Core) : Core :=
  match actionOf c p with
  | none => c
  | some a =>
    if !a.await.contains m ∨ !mgrUp c m ∨ c.glb.restarting ∨ !stepArrived c m ∨ !stepDone c a m ∨ frozenChip c then c
    else
      let c := ringDrop (fun x => decide (x = .step p m a.step)) c
      advanceAction p (stepEffect a m (putAction { a with await := a.await.erase m, skipped := (a.skipped ++ skippedUnits c a m).eraseDups } c))

/-! ### Installing an entry, and markers (R56, R57) -/

/-- EXTENT_ENTRY_INSTALL: the home commits the entry; in a revocation it takes its mode and sends its markers to every port on both planes. -/
def fxEntryInstall (e p i : Nat) (c : Core) : Core :=
  match actionOf c p with
  | none => c
  | some a =>
    if !(liveHomes c).contains e ∨ a.i ≠ i ∨ !(decide (a.step = 4) || decide (a.step = 6)) ∨ c.homeExt e p i = a.ent ∨ !mgrUp c 5 then c
    else
      let c := setHomeExt e p i a.ent c
      if a.step = 4 then c
      else
        let c := c.modHome e (fun h => { h with mode := tput none (p * 1024 + i) (some (a.forced, a.groups)) h.mode })
        forEach (presentPorts c) (fun n c => (c.send (.commitMarker e n a.seq false)).send (.commitMarker e n a.seq true)) c

def execExtentEntryInstall (e p i : Nat) (s : State) : Host.Outcome State Fault Refusal := actCore s (fxEntryInstall e p i)

/-- COMMIT_MARKER at a port: with all of them held the port answers the revoked group itself and reports. -/
def fxCommitMarker (n e : Nat) (seq : BitVec 32) (planeB : Bool) (c : Core) : Core :=
  match c.rot.actions.find? (fun a => decide (a.seq = seq) && (decide (a.step = 6) || decide (a.step = 7))) with
  | none => c
  | some a =>
    if !(presentPorts c).contains n ∨ c.homeExt e a.p a.i ≠ a.ent ∨ (c.port n).markers.contains (e, planeB, seq) then c
    else
      portCollected a n (c.modPort n (fun x => { x with markers := x.markers ++ [(e, planeB, seq)] }))

def execCommitMarker (n e : Nat) (seq : BitVec 32) (planeB : Bool) (s : State) : Host.Outcome State Fault Refusal :=
  actCore s (fxCommitMarker n e seq planeB)

/-! ### The seam timer (R508) -/

/-- Hosts that hold a transaction of the partition at a home. -/
def transactHosts (c : Core) (p : Nat) : List Nat :=
  ((c.homes.flatMap (fun e => e.2.trks.flatMap (fun t =>
    if t.p = p then (if t.o.kind = 1 then [t.o.idx] else []) ++ t.snoops.map (fun s => s.h) else []))).eraseDups).filter
      (fun h => (c.host h).valid && decide ((c.host h).st ≠ 1))

def fxSeamTimeout (p : Nat) (c : Core) : Core :=
  if !c.rot.seam.contains p then c
  else
    let hs := transactHosts c p
    let c := c.modRot (fun r => { r with seam := r.seam.filter (fun k => decide (k ≠ p)) })
    let c := forEach hs (fun h c => closeHostOpens h (fenceDecision h 3 0 c)) c
    logE 0x1006 0 0 (some p) [(5, p), (16, hs.length)] c

def execSeamTimeout (p : Nat) (s : State) : Host.Outcome State Fault Refusal := actCore s (fxSeamTimeout p)

/-! ### The end of a fence walk (R89, R91) -/

/-- FENCE_WALK_DONE: every home that is not Failed has applied the fence and, if it is not Fenced, ended its walk. A HOST_REMOVE that waits completes. -/
def fxFenceWalkDone (h : Nat) (c : Core) : Core :=
  match c.rot.walks.find? (fun w => decide (w.1 = h)) with
  | none => c
  | some w =>
    if (liveHomes c).any (fun e => !(c.home e).fence.contains h) ∨ (stepHomes c).any (fun e => walkOwed (c.home e) h) then c
    else
      let x := c.host h
      let c := closeHostOpens h (c.modRot (fun r => { r with walks := r.walks.filter (fun k => decide (k.1 ≠ h)) }))
      let c := logE 0x0306 0 0 (some x.p) [(12, h), (16, w.2.2.1), (16, w.2.2.2)] c
      match actionOf c x.p with
      | some a =>
        if a.kind = 10 ∧ a.host = h ∧ a.step = 20 ∧ (stepHomes c).all (fun e => !(c.home e).walking.contains x.p) then
          advanceAction x.p (putAction { a with await := [] } c)
        else c
      | none => c

def execFenceWalkDone (h : Nat) (s : State) : Host.Outcome State Fault Refusal := actCore s (fxFenceWalkDone h)

end Sys2Proof.Machine
end

