-- ==== Sys2Proof/Machine/Hbm.lean ====
section
/-! DEFINITION. The HBM controllers: the queues and the scheduler, metadata cache, refresh and self-refresh, command parity with replay and
retrain, and training (R269–R296). -/

namespace Sys2Proof.Machine
open Sys2Proof

def chanOfHbm (x : Hbmc) (i : Nat) : Chan := tget {} i x.chans
def setChanOf (x : Hbmc) (i : Nat) (k : Chan) : Hbmc := { x with chans := tput {} i k x.chans }

/-! ### Requests from the home (R269, R276, R277) -/

/-- One more access that has to be queued: write or not, its controller address, hint and data. -/
structure Access where
  write : Bool
  ca : BitVec 40
  hint : BitVec 2
  data : Line

/-- Entries of a queue of the pseudo-channel of a controller address. -/
def queueLen (x : Hbmc) (write : Bool) (ca : BitVec 40) : Nat :=
  let p := pcOf x (caPc x ca)
  if write then p.wq.length else p.rq.length

/-- A request put into its queue. -/
def enqueue (x : Hbmc) (a : Access) : Hbmc :=
  let i := caPc x a.ca
  let p := pcOf x i
  let q : QReq := { ca := a.ca, hint := a.hint, data := a.data, age := x.arrivals }
  let x := { x with arrivals := x.arrivals + 1 }
  setPcs x i (if a.write then { p with wq := p.wq ++ [q] } else { p with rq := p.rq ++ [q] })

/-- Requests put into their queues of 32 entries; none where one of them finds its queue full (R277). -/
def enqueueAll (x : Hbmc) : List Access → Option Hbmc
  | [] => some x
  | a :: r => if 32 ≤ queueLen x a.write a.ca then none else enqueueAll (enqueue x a) r

/-- What the metadata line of a data access asks for: nothing on a hit; on a miss the whole line is read, and the least recently used line
leaves a full cache, written back when dirty (R276). -/
def mdNeeds (c : Core) (e m : Nat) : List Access :=
  let x := c.hbmc e
  if x.md.any (fun k => decide (k.1 = m)) then []
  else
    ⟨false, caOf x e (mdAddr m), 0, 0⟩ ::
      (x.md.drop 2047).filterMap (fun k => if k.2 then some ⟨true, caOf x e (mdAddr k.1), 0, c.stackLine e (mdAddr k.1)⟩ else none)

/-- The cache after the access, most recently used line first. -/
def mdAfter (write : Bool) (m : Nat) (l : List (Nat × Bool)) : List (Nat × Bool) :=
  (m, write || l.any (fun k => decide (k.1 = m) && k.2)) :: (l.filter (fun k => decide (k.1 ≠ m))).take 2047

/-- A dirty line of the line store leaves it with its write to the stack; one of a retired page moves to its spare thereby, where its
scrub-seen flag is clear (R299, R314 step 3). -/
def evictLine (e line : Nat) (c : Core) : Core :=
  let c := if tget none line (c.home e).store = some true then c.modHome e (fun h => { h with store := tput none line none h.store }) else c
  if (c.hbmc e).lateLines.contains line then
    (c.modHbmc e (fun x => { x with lateLines := x.lateLines.erase line })).setLmeta e line { c.lmeta e line with scrubSeen := false }
  else c

/-- A line access from the home: the request, with what its metadata needs, goes into the queues; it waits at the home while one of them is
full, and a controller that is not Serving takes no new work. -/
def lineAccess (e : Nat) (write : Bool) (k : HbmReq) (c : Core) : Core :=
  if c.ust 7 e ≠ .serving ∨ frozenChip c then c
  else
    let data := decide (k.addr < saMeta)
    let m := mdLine k.addr
    let c1 := if write then evictLine e (k.addr / 128) c else c
    let x := c1.hbmc e
    let own : Access := ⟨write, caOf x e k.addr, k.hint, if write then c1.stackLine e k.addr else 0⟩
    match enqueueAll x (own :: (if data then mdNeeds c1 e m else [])) with
    | none => c
    | some y =>
      if !data then c1.setHbmc e y
      else if (mdNeeds c1 e m).isEmpty then c1.setHbmc e { y with md := mdAfter write m x.md }
      else countEvent 7 e 8 1 none (c1.setHbmc e { y with md := mdAfter write m x.md, mdMiss := x.mdMiss + 1 })

def execLineRead (e : Nat) (k : HbmReq) (s : State) : Host.Outcome State Fault Refusal := actCore s (lineAccess e false k)
def execLineWrite (e : Nat) (k : HbmReq) (s : State) : Host.Outcome State Fault Refusal := actCore s (lineAccess e true k)

/-! ### The scheduler (R277–R282) -/

/-- A refresh of a bank, its row closed first. -/
def refreshBank (e pc bank : Nat) (c : Core) : Core :=
  if (tget none bank (pcOf (c.hbmc e) pc).rows).isSome then issueOp e pc (.precharge bank) c
  else countEvent 7 e 5 1 none (issueOp e pc (.refresh bank) (modPc e pc (fun p => { p with due := p.due.erase bank }) c))

/-- An all-bank refresh, which meets every refresh owed, its rows closed first (R280). -/
def refreshEvery (e pc : Nat) (c : Core) : Core :=
  if (pcOf (c.hbmc e) pc).rows ≠ [] then issueOp e pc .prechargeAll c
  else countEvent 7 e 5 1 none (issueOp e pc .refreshAll (modPc e pc (fun p => { p with due := [], allDue := false }) c))

/-- The issue threshold, at least 1. -/
def rfmStep (e : Nat) : Nat := max 1 (Config.rfmIssue e)

/-- The bank that is to receive RFM: the lowest whose activations have come to the issue threshold, or to the stack's maximum (R282). -/
def rfmBankOf (e : Nat) (x : Hbmc) (p : Pc) : Option Nat :=
  if x.cfg.getLsbD 13 then (p.acts.find? (fun k => decide (min (rfmStep e) (Config.rfmMax e) ≤ k.2) && decide (k.2 ≠ 0))).map Prod.fst else none

/-- RFM for a bank; its count falls by the issue threshold (log 18). -/
def rfmBank (e pc bank : Nat) (c : Core) : Core :=
  if (tget none bank (pcOf (c.hbmc e) pc).rows).isSome then issueOp e pc (.precharge bank) c
  else
    let c := modPc e pc (fun p => { p with acts := tput 0 bank (tget 0 bank p.acts - rfmStep e) p.acts }) c
    let c := c.modHbmc e (fun x => { x with rfm := x.rfm + 1 })
    countEvent 7 e 6 1 none (issueOp e pc (.rfm bank) c)

/-- An older request of the same line waits (R269). -/
def behindSame (p : Pc) (q : QReq) : Bool := (p.rq ++ p.wq).any (fun r => decide (caLine r.ca = caLine q.ca) && decide (r.age < q.age))

/-- The open row serves the request. -/
def rowHit (x : Hbmc) (p : Pc) (q : QReq) : Bool :=
  match tget none (caBank x q.ca) p.rows with
  | some r => decide (r.1 = caRow q.ca)
  | none => false

/-- The oldest of a list. -/
def oldest : List QReq → Option QReq
  | [] => none
  | q :: r => match oldest r with
    | none => some q
    | some k => if k.age < q.age then some k else some q

/-- Write drain: from WR_HI entries down to WR_LO (R277 rule 3, R294). Values outside the fields' ranges act as the nearest ones inside
(log 143). -/
def drainNow (x : Hbmc) (p : Pc) : Bool :=
  let hi := clampNat 2 32 (field x.sched 5 0)
  let lo := min (field x.sched 13 8) (hi - 1)
  if hi ≤ p.wq.length then true else if p.wq.length ≤ lo then false else p.drain

/-- The request that rules 2 to 5 choose; whether the oldest has passed AGE_CAP is a matter of time and comes as a free bit (log 32). -/
def chooseReq (x : Hbmc) (p : Pc) (drain aged : Bool) : Option (QReq × Bool) :=
  let ready (l : List QReq) : List QReq := l.filter (fun q => !behindSame p q)
  if aged then (oldest (ready (p.rq ++ p.wq))).map (fun q => (q, p.wq.contains q))
  else
    let l := ready (if drain then p.wq else p.rq)
    ((oldest (l.filter (rowHit x p))).or (oldest l)).map (fun q => (q, drain))

/-- A line whose bursts have begun: its four bursts go to one open row (R271), so it goes on before anything else is chosen (log 32). -/
def begun (p : Pc) : Option (QReq × Bool) :=
  match p.rq.find? (fun q => decide (q.left < 4)) with
  | some q => some (q, false)
  | none => (p.wq.find? (fun q => decide (q.left < 4))).map (fun q => (q, true))

/-- A request's entry replaced or taken from its queue. -/
def putReq (p : Pc) (write : Bool) (q : QReq) (q' : Option QReq) : Pc :=
  let upd (l : List QReq) : List QReq := l.flatMap (fun k => if k = q then q'.toList else [k])
  if write then { p with wq := upd p.wq } else { p with rq := upd p.rq }

/-- One column command of a request: the next of its four bursts; the last decides the row's treatment (R271, R278, R279). -/
def columnOp (e pc : Nat) (q : QReq) (write : Bool) (c : Core) : Core :=
  let x := c.hbmc e
  let p := pcOf x pc
  let (bank, row) := (caBank x q.ca, caRow q.ca)
  let c := modPc e pc (fun p => putReq p write q (if q.left ≤ 1 then none else some { q with left := q.left - 1 })) c
  let p' := pcOf (c.hbmc e) pc
  let more := (p'.rq ++ p'.wq).any (fun k => decide (caBank x k.ca = bank) && decide (caRow k.ca = row))
  let close := !more && (decide (q.hint = 1) || (decide (q.hint = 0) && decide (field x.cfg 9 0 = 0)))
  let hint : BitVec 2 := if q.hint = 2 then 2 else 0
  let c := if q.left < 4 then c
    else
      let hit := (tget none bank p.rows).any (fun r => decide (r.2 ≠ 3))
      let c := countEvent 7 e (if write then 3 else 2) 1 none c
      if hit then countEvent 7 e 4 1 none c else c
  let b := 4 - q.left
  issueOp e pc (if write then .write q.ca b hint close (burstOf q.data b) else .read q.ca b hint close) c

/-- The next command of a request: precharge, activate or column command. An activate that would take the bank past the stack's maximum waits
for RFM (R282). -/
def serveReq (e pc : Nat) (q : QReq) (write : Bool) (c : Core) : Core :=
  let x := c.hbmc e
  let p := pcOf x pc
  let (bank, row) := (caBank x q.ca, caRow q.ca)
  match tget none bank p.rows with
  | some r => if r.1 = row then columnOp e pc q write c else issueOp e pc (.precharge bank) c
  | none =>
    let n := tget 0 bank p.acts + 1
    if x.cfg.getLsbD 13 ∧ Config.rfmMax e < n then c
    else
      let c := if x.cfg.getLsbD 13 then modPc e pc (fun p => { p with acts := tput 0 bank n p.acts }) c else c
      countEvent 7 e 1 1 none (issueOp e pc (.activate bank row) c)

/-- The controller can issue on a pseudo-channel: it is neither Off nor Failed, its stack is trained and awake, the channel is not in
recovery, the replay buffer has room (R284). -/
def pcIssues (c : Core) (e pc : Nat) : Bool :=
  let x := c.hbmc e
  c.hasUnit 7 e && !frozenChip c && decide (c.ust 7 e ≠ .off) && decide (c.ust 7 e ≠ .failed) && x.trained && !x.trnBusy && decide (pc < 64) &&
  !x.selfRefresh && decide ((chanOfHbm x (pc / 2)).step = 0) && decide ((pcOf x pc).replay.length < 64)

/-- HBM_COMMAND_ISSUE: the next command by the first rule that applies (R277). A controller serves requests only in Serving and Draining; it
refreshes its stack in every state that keeps the stack (R268, R280). -/
def fxCommandIssue (e pc : Nat) (c : Core) : Core :=
  let x := c.hbmc e
  let p := pcOf x pc
  if !pcIssues c e pc then c
  else match begun p with
    | some (q, w) => if c.works 7 e then serveReq e pc q w c else c
    | none =>
      if p.allDue then refreshEvery e pc c
      else match p.due, rfmBankOf e x p with
        | b :: _, _ => refreshBank e pc b c
        | [], some b => rfmBank e pc b c
        | [], none =>
          if !c.works 7 e then c
          else
            let (v, c) := c.free
            let d := drainNow x p
            let c := modPc e pc (fun p => { p with drain := d }) c
            match chooseReq x p d (v.getLsbD 0) with
            | some (q, w) => serveReq e pc q w c
            | none => c

def execHbmCommandIssue (e pc : Nat) (s : State) : Host.Outcome State Fault Refusal := actCore s (fxCommandIssue e pc)

/-- A refresh falls due, of the bank whose turn it is; when eight are owed, the ninth makes it an all-bank refresh (R280, R281). A stack in
self-refresh refreshes itself. -/
def fxRefreshDeadline (e pc : Nat) (c : Core) : Core :=
  let x := c.hbmc e
  let st := c.ust 7 e
  if !c.hasUnit 7 e ∨ !x.trained ∨ x.selfRefresh ∨ frozenChip c ∨ st = .off ∨ st = .failed ∨ 64 ≤ pc then c
  else
    let p := pcOf x pc
    let next := (p.nextBank + 1) % 64
    if p.allDue then c
    else if p.due.length < 8 then modPc e pc (fun p => { p with due := p.due ++ [p.nextBank], nextBank := next }) c
    else modPc e pc (fun p => { p with allDue := true, nextBank := next }) c

def execRefreshDeadline (e pc : Nat) (s : State) : Host.Outcome State Fault Refusal := actCore s (fxRefreshDeadline e pc)

/-- The open-page timer closes a row under the auto rule, unless a queued request hits it (R278, R279). -/
def fxOpenPageTimeout (e pc bank : Nat) (c : Core) : Core :=
  let x := c.hbmc e
  let p := pcOf x pc
  if !pcIssues c e pc then c
  else match tget none bank p.rows with
    | none => c
    | some r =>
      let hit := (p.rq ++ p.wq).any (fun k => decide (caBank x k.ca = bank) && decide (caRow k.ca = r.1))
      if r.2 = 2 ∨ hit then c else issueOp e pc (.precharge bank) c

def execOpenPageTimeout (e pc bank : Nat) (s : State) : Host.Outcome State Fault Refusal := actCore s (fxOpenPageTimeout e pc bank)

/-! ### Self-refresh (R283) -/

def queuesEmpty (x : Hbmc) : Bool := x.pcs.all (fun k => k.2.rq.isEmpty && k.2.wq.isEmpty)

def fxSelfRefreshIdle (e : Nat) (c : Core) : Core :=
  let x := c.hbmc e
  if !c.hasUnit 7 e ∨ frozenChip c ∨ !x.trained ∨ x.selfRefresh ∨ !x.pwr.getLsbD 0 ∨ !queuesEmpty x ∨ !(ptnsOnStack c e).isEmpty ∨
      x.chans.any (fun k => decide (k.2.step ≠ 0)) ∨ c.ust 7 e = .off ∨ c.ust 7 e = .failed then c
  else enterSelfRefresh e c

def execSelfRefreshIdle (e : Nat) (s : State) : Host.Outcome State Fault Refusal := actCore s (fxSelfRefreshIdle e)

def fxSelfRefreshExit (e : Nat) (c : Core) : Core :=
  let x := c.hbmc e
  if x.selfRefresh ∧ !frozenChip c ∧ !queuesEmpty x then (c.setHbmc e { x with selfRefresh := false }).send (.hbm e 0 (.selfRefresh false) false) else c

def execSelfRefreshExit (e : Nat) (s : State) : Host.Outcome State Fault Refusal := actCore s (fxSelfRefreshExit e)

/-! ### Command parity (R284–R288) -/

def modChan (e k : Nat) (f : Chan → Chan) (c : Core) : Core := c.modHbmc e (fun x => setChanOf x k (f (chanOfHbm x k)))

/-- A channel in normal issue or in an episode can signal an alert; in Held an error during a command/address run only sets
TRN_STATUS.ALERT (R289). -/
def fxParityAlert (e k : Nat) (c : Core) : Core :=
  let x := c.hbmc e
  if c.ust 7 e = .held then
    (if c.hasUnit 7 e ∧ x.trnBusy ∧ field x.trnRun 3 1 = 1 ∧ k < 32 then c.setHbmc e { x with trnAlert := true } else c)
  else if !c.hasUnit 7 e ∨ frozenChip c ∨ c.ust 7 e = .off ∨ c.ust 7 e = .failed ∨ 32 ≤ k ∨ !x.cfg.getLsbD 14 ∨ (chanOfHbm x k).step = 1 ∨
      (chanOfHbm x k).step = 6 then c
  else
    let c := modChan e k (fun h => { h with step := 1, alerts := h.alerts + 1 }) c
    countEvent 7 e 7 1 none (c.modHbmc e (fun x => { x with parityAlert := x.parityAlert + 1 }))

def execParityAlert (e c : Nat) (s : State) : Host.Outcome State Fault Refusal := actCore s (fxParityAlert e c)

/-- A channel retrain begins (R287). -/
def startHbmRetrain (e k : Nat) (c : Core) : Core :=
  modChan e k (fun h => { h with step := 6, slices := 0 }) (c.modHbmc e (fun x => { x with retrain := x.retrain + 1 }))

/-- The refreshes that a pseudo-channel owes, as commands. -/
def owedOps (p : Pc) : List HbmOp := if p.allDue then [.refreshAll] else p.due.map .refresh

/-- The owed refreshes of a channel are issued (R287). -/
def oweRefresh (e k : Nat) (c : Core) : Core :=
  forEach [2 * k, 2 * k + 1] (fun pc c =>
    let ops := owedOps (pcOf (c.hbmc e) pc)
    let c := modPc e pc (fun p => { p with due := [], allDue := false }) c
    ops.foldl (fun c op => countEvent 7 e 5 1 none (issueOp e pc op c)) c) c

/-- The replayed command that leaves its buffer first ends the episode. -/
def endEpisode (e k : Nat) (c : Core) : Core :=
  let h := chanOfHbm (c.hbmc e) k
  logE 0x0901 7 e none [(4, e), (5, k), (16, h.alerts), (16, h.replays)] (modChan e k (fun _ => {}) c)

/-- Steps 3 and 4 of R285 on one pseudo-channel: precharge-all and the owed refreshes go out and into the buffer ahead of the commands that
are replayed after them, oldest first. -/
def replayPc (e pc : Nat) (c : Core) : Core :=
  let p := pcOf (c.hbmc e) pc
  let ops := .prechargeAll :: owedOps p
  let kept := (ops ++ p.replay).drop (ops.length + p.replay.length - 64)
  let c := modPc e pc (fun p => { p with due := [], allDue := false, replay := kept, ahead := kept.length - p.replay.length }) c
  let c := ops.foldl (fun c op => sendOp e pc op false c) c
  let c := countEvent 7 e 5 (ops.length - 1) none c
  p.replay.foldl (fun c op => sendOp e pc op true c) c

/-- The signal clears: precharge-all, owed refreshes, replay; or a retrain after the third replay (R285, R286). -/
def fxParityAlertClear (e k : Nat) (c : Core) : Core :=
  let x := c.hbmc e
  let h := chanOfHbm x k
  if h.step ≠ 1 then c
  else if 3 ≤ h.replays then startHbmRetrain e k c
  else
    let pcs := [2 * k, 2 * k + 1]
    let none? := pcs.all (fun pc => (pcOf x pc).replay.isEmpty)
    let c := forEach pcs (replayPc e) c
    let c := c.modHbmc e (fun x => { x with replay := x.replay + 1 })
    let c := modChan e k (fun h => { h with step := 4, replays := h.replays + 1 }) c
    if none? then endEpisode e k c else c

def execParityAlertClear (e c : Nat) (s : State) : Host.Outcome State Fault Refusal := actCore s (fxParityAlertClear e c)

def fxAlertRecoveryTimeout (e k : Nat) (c : Core) : Core :=
  if (chanOfHbm (c.hbmc e) k).step = 1 then startHbmRetrain e k c else c

def execAlertRecoveryTimeout (e c : Nat) (s : State) : Host.Outcome State Fault Refusal := actCore s (fxAlertRecoveryTimeout e c)

/-- The oldest command leaves the replay buffer; in a replay the oldest replayed one ends the episode (R284, R285 step 5). -/
def fxCommandBufferRetire (e pc : Nat) (c : Core) : Core :=
  let x := c.hbmc e
  let p := pcOf x pc
  let st := (chanOfHbm x (pc / 2)).step
  if p.replay.isEmpty ∨ st = 1 ∨ st = 6 then c
  else
    let c := modPc e pc (fun p => { p with replay := p.replay.drop 1, ahead := p.ahead - 1 }) c
    if st = 4 ∧ p.ahead = 0 then endEpisode e (pc / 2) c else c

def execCommandBufferRetire (e pc : Nat) (s : State) : Host.Outcome State Fault Refusal := actCore s (fxCommandBufferRetire e pc)

def fxRetrainSlice (e k : Nat) (c : Core) : Core :=
  if (chanOfHbm (c.hbmc e) k).step ≠ 6 then c else oweRefresh e k (modChan e k (fun h => { h with slices := h.slices + 1 }) c)

def execHbmRetrainSlice (e c : Nat) (s : State) : Host.Outcome State Fault Refusal := actCore s (fxRetrainSlice e c)

/-- The transmit delays of a channel's command lanes that a training finds; the manual gives no values, so they are free (log 3). -/
def newDelays (k : Nat) (v : BitVec 1024) (d : Table (BitVec 8)) : Table (BitVec 8) :=
  (List.range 18).foldl (fun t j => tput 0x80 (dlyKey 1 (2304 + 18 * k + j)) ((v >>> (8 * j)).setWidth 8) t) d

/-- Success, in the slice that is running: the channel's command lanes have their new delays. -/
def fxHbmRetrain (e k : Nat) (c : Core) : Core :=
  let h := chanOfHbm (c.hbmc e) k
  if h.step ≠ 6 then c
  else
    let (v, c) := c.free
    let c := modChan e k (fun _ => {}) (c.modHbmc e (fun x => { x with dly := newDelays k v x.dly }))
    logE 0x0902 7 e none [(4, e), (5, k), (16, h.slices + 1)] (oweRefresh e k c)

def execHbmRetrain (e c : Nat) (s : State) : Host.Outcome State Fault Refusal := actCore s (fxHbmRetrain e c)

/-- The limit: the controller becomes Failed. -/
def fxHbmRetrainLimit (e k : Nat) (c : Core) : Core :=
  if (chanOfHbm (c.hbmc e) k).step ≠ 6 then c
  else enterState 7 e .failed (logE 0x0903 7 e none [(4, e), (5, k)] (modChan e k (fun _ => {}) c))

def execHbmRetrainLimit (e c : Nat) (s : State) : Host.Outcome State Fault Refusal := actCore s (fxHbmRetrainLimit e c)

/-! ### Training (R289–R293), and stacks that bring-up leaves unused (R521) -/

/-- A stack is unused: cause 0 training, 1 home, 2 system area. -/
def stackUnused (e cause : Nat) (c : Core) : Core :=
  if c.glb.unused.getLsbD e then c
  else
    let c := c.modGlb (fun g => { g with unused := g.unused ||| (1#16 <<< e) })
    let c := setStackFailed e (c.modHome e (fun h => { h with failTold := true }))
    raiseService 1 (logE 0x1105 6 e none [(4, e), (4, cause)] c)

/-- TRN_CTRL written with GO: a run starts in Held, unless one is running (log 144); anywhere else REFUSED is set and nothing else happens
(R289). -/
def fxTrainingGo (e : Nat) (w : BitVec 32) (c : Core) : Core :=
  let x := c.hbmc e
  if !c.hasUnit 7 e then c
  else if c.ust 7 e ≠ .held then c.setHbmc e { x with trnRefused := true }
  else if x.trnBusy then c
  else
    let ctl := w &&& 0xFFFF3F7E
    (c.setHbmc e { x with trnCtrl := ctl, trnRun := ctl, trnBusy := true, trnDone := false, trnRefused := false, trnAlert := false }).send
      (.training e (field ctl 3 1) (field ctl 6 4) (runChannels ctl) (max 1 (field ctl 31 16))
        (BitVec.ofNat 512 (numBits (patternBits x (field ctl 6 4) (field x.trnLane 11 0)))))

def execTrainingGo (e : Nat) (w : BitVec 32) (s : State) : Host.Outcome State Fault Refusal := actCore s (fxTrainingGo e w)

/-- TRAINING_RUN_DONE. When the firmware then reports the stack, R293 decides: trained, or HBM_TRAIN_FAIL with the first failing lane, which
at bring-up leaves the stack unused. -/
def fxTrainingRunDone (e : Nat) (k : TrnReport) (c : Core) : Core :=
  let x := c.hbmc e
  if !x.trnBusy then c
  else
    let (v, c) := c.free
    let y := runDone x k v
    if !k.report then c.setHbmc e y
    else match trainFail y with
      | none => (c.setHbmc e { y with trained := true }).modGlb (fun g => { g with trained := g.trained ||| (1#16 <<< e) })
      | some f =>
        let c := logTrainFail e f (c.setHbmc e { y with trained := false })
        if inService c then c else stackUnused e 0 c

def execTrainingRunDone (e : Nat) (k : TrnReport) (s : State) : Host.Outcome State Fault Refusal := actCore s (fxTrainingRunDone e k)

end Sys2Proof.Machine
end

