-- ==== Sys2Proof/Machine/Slh.lean ====
section
/-! DEFINITION. SLH-DSA with the parameter set SLH-DSA-SHA2-128s, in pure mode with an empty context: key generation, signing and
verification, as FIPS 205 has them (R327, R332, R334; log 141). -/

namespace Sys2Proof.Machine
open Sys2Proof

/-- An address of FIPS 205 in its compressed form: layer, tree, type, and the three words after the type. -/
structure SlhAdrs where
  layer : Nat := 0
  tree : Nat := 0
  typ : Nat := 0
  w1 : Nat := 0
  w2 : Nat := 0
  w3 : Nat := 0
  deriving DecidableEq, Repr

def SlhAdrs.bytes (a : SlhAdrs) : List Byte :=
  bytesBE 1 a.layer ++ bytesBE 8 a.tree ++ bytesBE 1 a.typ ++ bytesBE 4 a.w1 ++ bytesBE 4 a.w2 ++ bytesBE 4 a.w3

/-- F, H and T_l, and PRF: SHA-256 of the padded public seed, the address and the message, cut to 16 bytes. -/
def slhHash (pkSeed : List Byte) (a : SlhAdrs) (m : List Byte) : List Byte :=
  (sha256 (pkSeed ++ List.replicate 48 0 ++ a.bytes ++ m)).take 16

/-- The digest of a message: 30 bytes of MGF1 (H_msg). -/
def slhDigest (r pkSeed pkRoot m : List Byte) : List Byte :=
  (sha256 (r ++ pkSeed ++ sha256 (r ++ pkSeed ++ pkRoot ++ m) ++ bytesBE 4 0)).take 30

/-- The first `n` digits of `b` bits of some bytes, most significant first. -/
def slhDigits (b n : Nat) (x : List Byte) : List Nat :=
  let v := numBE x
  (List.range n).map (fun i => v >>> (8 * x.length - b * (i + 1)) % 2 ^ b)

/-! ### WOTS+ -/

/-- `s` steps of a chain from step `i`. -/
def slhChain (pkSeed : List Byte) (a : SlhAdrs) : Nat → Nat → List Byte → List Byte
  | _, 0, x => x
  | i, s + 1, x => slhChain pkSeed a (i + 1) s (slhHash pkSeed { a with w3 := i } x)

/-- The 35 digits of a 16 B message: 32 digits and the three of the checksum. -/
def wotsDigits (m : List Byte) : List Nat :=
  let d := slhDigits 4 32 m
  d ++ slhDigits 4 3 (bytesBE 2 ((d.map (fun x => 15 - x)).sum * 16))

def wotsSecret (skSeed pkSeed : List Byte) (a : SlhAdrs) (i : Nat) : List Byte :=
  slhHash pkSeed { a with typ := 5, w2 := i, w3 := 0 } skSeed

/-- The public key from the ends of the chains. -/
def wotsPk (pkSeed : List Byte) (a : SlhAdrs) (ends : List (List Byte)) : List Byte :=
  slhHash pkSeed { a with typ := 1, w2 := 0, w3 := 0 } ends.flatten

def wotsPkGen (skSeed pkSeed : List Byte) (a : SlhAdrs) : List Byte :=
  wotsPk pkSeed a ((List.range 35).map (fun i => slhChain pkSeed { a with typ := 0, w2 := i } 0 15 (wotsSecret skSeed pkSeed a i)))

def wotsSign (m skSeed pkSeed : List Byte) (a : SlhAdrs) : List (List Byte) :=
  (wotsDigits m).mapIdx (fun i d => slhChain pkSeed { a with typ := 0, w2 := i } 0 d (wotsSecret skSeed pkSeed a i))

def wotsPkOf (sig : List (List Byte)) (m pkSeed : List Byte) (a : SlhAdrs) : List Byte :=
  wotsPk pkSeed a ((wotsDigits m).mapIdx (fun i d => slhChain pkSeed { a with typ := 0, w2 := i } d (15 - d) (sig.getD i [])))

/-! ### Merkle trees -/

/-- The root that a leaf and its authentication path give, the tree's hashes at address `a`; `idx` is the leaf's index in the tree
that `a` numbers, `z` the height so far. -/
def slhClimb (pkSeed : List Byte) (a : SlhAdrs) : Nat → Nat → List (List Byte) → List Byte → List Byte
  | _, _, [], x => x
  | z, idx, s :: auth, x =>
    slhClimb pkSeed a (z + 1) (idx / 2) auth
      (slhHash pkSeed { a with w2 := z + 1, w3 := idx / 2 } (if idx % 2 = 0 then x ++ s else s ++ x))

/-- A node at height `z` over leaves given by index. -/
def slhNode (pkSeed : List Byte) (a : SlhAdrs) (leaf : Nat → List Byte) : Nat → Nat → List Byte
  | 0, i => leaf i
  | z + 1, i => slhHash pkSeed { a with w2 := z + 1, w3 := i } (slhNode pkSeed a leaf z (2 * i) ++ slhNode pkSeed a leaf z (2 * i + 1))

/-- The authentication path of leaf `i` in a tree of height `h`. -/
def slhAuth (pkSeed : List Byte) (a : SlhAdrs) (leaf : Nat → List Byte) (h i : Nat) : List (List Byte) :=
  (List.range h).map (fun j => slhNode pkSeed a leaf j (if i / 2 ^ j % 2 = 0 then i / 2 ^ j + 1 else i / 2 ^ j - 1))

/-- Leaf `i` of an XMSS tree. -/
def xmssLeaf (skSeed pkSeed : List Byte) (layer tree i : Nat) : List Byte := wotsPkGen skSeed pkSeed { layer, tree, w1 := i }

def xmssRoot (skSeed pkSeed : List Byte) (layer tree : Nat) : List Byte :=
  slhNode pkSeed { layer, tree, typ := 2 } (xmssLeaf skSeed pkSeed layer tree) 9 0

def xmssSign (m skSeed pkSeed : List Byte) (layer tree i : Nat) : List (List Byte) :=
  wotsSign m skSeed pkSeed { layer, tree, w1 := i } ++ slhAuth pkSeed { layer, tree, typ := 2 } (xmssLeaf skSeed pkSeed layer tree) 9 i

def xmssPkOf (sig : List (List Byte)) (m pkSeed : List Byte) (layer tree i : Nat) : List Byte :=
  slhClimb pkSeed { layer, tree, typ := 2 } 0 i ((sig.drop 35).take 9) (wotsPkOf sig m pkSeed { layer, tree, w1 := i })

/-- The hypertree's layers from `layer` on: `n` of them, 44 values each. -/
def htSign (skSeed pkSeed : List Byte) : Nat → Nat → Nat → Nat → List Byte → List (List Byte)
  | 0, _, _, _, _ => []
  | n + 1, layer, tree, i, m =>
    let s := xmssSign m skSeed pkSeed layer tree i
    s ++ htSign skSeed pkSeed n (layer + 1) (tree / 512) (tree % 512) (xmssPkOf s m pkSeed layer tree i)

def htPkOf (pkSeed : List Byte) : Nat → Nat → Nat → Nat → List (List Byte) → List Byte → List Byte
  | 0, _, _, _, _, m => m
  | n + 1, layer, tree, i, sig, m =>
    htPkOf pkSeed n (layer + 1) (tree / 512) (tree % 512) (sig.drop 44) (xmssPkOf sig m pkSeed layer tree i)

/-! ### FORS -/

def forsAdrs (tree i : Nat) : SlhAdrs := { tree, typ := 3, w1 := i }

def forsSecret (skSeed pkSeed : List Byte) (tree i j : Nat) : List Byte := slhHash pkSeed { tree, typ := 6, w1 := i, w2 := 0, w3 := j } skSeed

def forsLeaf (skSeed pkSeed : List Byte) (tree i j : Nat) : List Byte :=
  slhHash pkSeed { forsAdrs tree i with w2 := 0, w3 := j } (forsSecret skSeed pkSeed tree i j)

/-- Fourteen trees of height 12: the secret value and the path of each. -/
def forsSign (md skSeed pkSeed : List Byte) (tree i : Nat) : List (List Byte) :=
  ((slhDigits 12 14 md).mapIdx (fun t x =>
    let leaf := forsLeaf skSeed pkSeed tree i
    forsSecret skSeed pkSeed tree i (t * 4096 + x) ::
      (List.range 12).map (fun j =>
        let k := (t * 4096 + x) / 2 ^ j
        slhNode pkSeed (forsAdrs tree i) leaf j (if k % 2 = 0 then k + 1 else k - 1)))).flatten

def forsPkOf (sig : List (List Byte)) (md pkSeed : List Byte) (tree i : Nat) : List Byte :=
  let roots := (slhDigits 12 14 md).mapIdx (fun t x =>
    let k := t * 4096 + x
    let s := sig.drop (13 * t)
    slhClimb pkSeed (forsAdrs tree i) 0 k ((s.drop 1).take 12) (slhHash pkSeed { forsAdrs tree i with w2 := 0, w3 := k } (s.headD [])))
  slhHash pkSeed { tree, typ := 4, w1 := i } roots.flatten

/-! ### The scheme -/

/-- The bytes of a list of 16 B values, and back. -/
def sixteens : Nat → List Byte → List (List Byte)
  | 0, _ => []
  | n + 1, l => l.take 16 :: sixteens n (l.drop 16)

/-- PK.root of the key with SK.seed and PK.seed. -/
def slhRoot (skSeed pkSeed : List Byte) : List Byte := xmssRoot skSeed pkSeed 6 0

/-- The message of pure mode with an empty context. -/
def slhPure (m : List Byte) : List Byte := 0 :: 0 :: m

/-- The 21 bytes for FORS, the tree and the leaf that a digest names. -/
def slhPlace (d : List Byte) : List Byte × Nat × Nat :=
  (d.take 21, numBE ((d.drop 21).take 7) % 2 ^ 54, numBE ((d.drop 28).take 2) % 2 ^ 9)

/-- A signature, 7,856 B, with 16 bytes of randomizer. -/
def slhSign (skSeed skPrf pkSeed rand m : List Byte) : List Byte :=
  let root := slhRoot skSeed pkSeed
  let r := (hmac skPrf (rand ++ slhPure m)).take 16
  let (md, tree, i) := slhPlace (slhDigest r pkSeed root (slhPure m))
  let fors := forsSign md skSeed pkSeed tree i
  r ++ (fors ++ htSign skSeed pkSeed 7 0 tree i (forsPkOf fors md pkSeed tree i)).flatten

/-- The signature is one of the message under the public key. -/
def slhVerify (pkSeed pkRoot m sig : List Byte) : Bool :=
  let r := sig.take 16
  let vals := sixteens 490 (sig.drop 16)
  let (md, tree, i) := slhPlace (slhDigest r pkSeed pkRoot (slhPure m))
  decide (sig.length = 7856) &&
    decide (htPkOf pkSeed 7 0 tree i (vals.drop 182) (forsPkOf vals md pkSeed tree i) = pkRoot)

end Sys2Proof.Machine
end

