-- ==== Sys2Proof/Machine/Objects.lean ====
section
/-! DEFINITION. Signed objects of the boot flash and their checks, the keys that boot derives, and the reading of a Kotik image (R325–R328,
R330, R332, R333, R473–R475). -/

namespace Sys2Proof.Machine
open Sys2Proof

/-- Bytes `a` to `a + n − 1` of a memory. -/
def bytesAt (m : Mem) (a n : Nat) : List Byte := (List.range n).map (fun i => rdByte m (a + i))
/-- The little-endian word at offset `a` of some bytes (R5). -/
def wordAt (l : List Byte) (a : Nat) : Nat := numLE ((l.drop a).take 4)

/-! ### Places in the flash (R325) -/

def fwSlotAddr (b : Bool) : Nat := if b then 0x900000 else 0x100000
def imgSlotAddr (b : Bool) : Nat := if b then 0x2100000 else 0x1100000
def fwSlotSize : Nat := 0x800000
def imgSlotSize : Nat := 0x1000000
/-- The byte of the flash header whose bit 0 names the image slot of the next boot; the manual gives it no place (log 16). -/
def slotPointer : Nat := Config.slotPointer % 0x1000
def nextSlot (m : Mem) : Bool := (rdByte m slotPointer).getLsbD 0
def setNextSlot (m : Mem) (b : Bool) : Mem := wrByte m slotPointer ((rdByte m slotPointer &&& 0xFE) ||| BitVec.ofNat 8 b.toNat)

/-! ### Signed objects (R326) -/

/-- The header's fields, its bytes, the signature and the body. -/
structure SignedObj where
  magic : Nat
  typ : Nat
  signer : Nat
  svn : Nat
  bodySize : Nat
  bodyHash : List Byte
  pubkey : List Byte
  header : List Byte
  sig : List Byte
  body : List Byte

/-- The object at offset `a` of the flash. -/
def objAt (m : Mem) (a : Nat) : SignedObj :=
  let h := bytesAt m a 80
  let size := wordAt h 12
  { magic := wordAt h 0, typ := wordAt h 4 % 256, signer := wordAt h 4 / 256 % 256, svn := wordAt h 8 % 128, bodySize := size,
    bodyHash := (h.drop 16).take 32, pubkey := (h.drop 48).take 32, header := h, sig := bytesAt m (a + 80) 7856, body := bytesAt m (a + 8192) size }

/-- The signer that R328 asks of a type: Lannak's root key, and for a Kotik image the owner key once it is programmed. -/
def signerFor (f : Fuses) (typ : Nat) : Nat := if typ = 3 ∧ f.ownerHash ≠ 0 then 1 else 0

/-- The first check that an object of some type fails, in a place of `room` bytes: 0 its header, 1 its signer (R328), 2 the public key, 3 the
signature, 4 the body's hash, 5 the security version (R327). -/
def objFail (f : Fuses) (typ room : Nat) (o : SignedObj) : Option Nat :=
  let fuse := if o.signer = 0 then f.rootHash else f.ownerHash
  if o.magic ≠ 0x534C4E4B ∨ o.typ ≠ typ ∨ room < 8192 + o.bodySize then some 0
  else if o.signer ≠ signerFor f typ then some 1
  else if fuse = 0 ∨ digestBits o.pubkey ≠ fuse then some 2
  else if !slhVerify (o.pubkey.take 16) (o.pubkey.drop 16) o.header o.sig then some 3
  else if sha256 o.body ≠ o.bodyHash then some 4
  else if o.svn < f.svn then some 5
  else none

/-- RoT and manager firmware of a slot. The manual does not say where in the slot the manager firmware begins (log 147). -/
def rotFirmware (m : Mem) (b : Bool) : SignedObj := objAt m (fwSlotAddr b)
def mgrFirmware (m : Mem) (b : Bool) : SignedObj := objAt m (fwSlotAddr b + Config.managerOffset)

/-- The first check that a firmware slot fails. -/
def slotFail (f : Fuses) (m : Mem) (b : Bool) : Option Nat :=
  match objFail f 1 fwSlotSize (rotFirmware m b) with
  | some k => some k
  | none => objFail f 2 (fwSlotSize - Config.managerOffset) (mgrFirmware m b)

/-! ### Keys (R332) -/

/-- The seed material of the SLH-DSA keys, 48 of its 64 bytes: SK.seed, SK.prf and PK.seed. -/
def identitySeed (s : List Byte) : List Byte := (sha256 (s ++ textBytes "LNK-ID") ++ sha256 (s ++ textBytes "LNK-ID2")).take 48
def attestSeed (s m0 m1 : List Byte) : List Byte :=
  (sha256 (s ++ m0 ++ m1 ++ textBytes "LNK-AT") ++ sha256 (s ++ m1 ++ textBytes "LNK-AT2")).take 48

/-- The public key of a seed: PK.seed, then PK.root. -/
def publicKey (seed : List Byte) : List Byte := (seed.drop 32).take 16 ++ slhRoot (seed.take 16) ((seed.drop 32).take 16)

/-- A message signed under a seed, with 16 bytes of randomness. -/
def signUnder (seed rand msg : List Byte) : List Byte :=
  slhSign (seed.take 16) ((seed.drop 16).take 16) ((seed.drop 32).take 16) rand msg

/-- Step 4 of R330: the attestation key, its certificate signed by the identity key, and the system-area keys. The identity seed is not kept.
The randomness of the signature is a free value (log 15). -/
def bootKeys (c : Core) : Core :=
  let s := bytesLE 32 c.glb.fuse.deviceSecret.toNat
  let m (i : Nat) : List Byte := bytesLE 32 (tget 0 i c.sec.m).toNat
  let seed := attestSeed s (m 0) (m 1)
  let pub := publicKey seed
  let (v, c) := c.free
  let cert := signUnder (identitySeed s) (bytesLE 16 v.toNat) (pub ++ m 0 ++ m 1)
  c.modSec (fun x => { x with
    attSk := bitsOfBytes 384 seed, attPub := bitsOfBytes 256 pub, attCert := bitsOfBytes 62848 cert
    sys1 := digestBits (s ++ textBytes "LNK-SYS1"), sys2 := digestBits (s ++ textBytes "LNK-SYS2"), attestReady := true })

/-! ### A Kotik image (R473, R474) -/

/-- A directory entry: type, offset, size and CRC. -/
structure DirEntry where
  typ : Nat
  off : Nat
  size : Nat
  crc : Nat
  deriving DecidableEq, Repr

def imageDir (body : List Byte) : List DirEntry :=
  (List.range (wordAt body 16 % 256)).map (fun i =>
    let a := 32 + 16 * i
    ⟨wordAt body a % 256, wordAt body (a + 4), wordAt body (a + 8), wordAt body (a + 12)⟩)

def sectionOf (body : List Byte) (d : DirEntry) : List Byte := (body.drop d.off).take d.size

/-- KIND is tuning. -/
def imageTuning (body : List Byte) : Bool := (wordAt body 4).testBit 16

/-- Check 2 of R475: MAGIC, VERSION, the directory and its sections in bounds, their CRCs, and the sections that the kind must and may
carry. -/
def imageFormed (body : List Byte) : Bool :=
  let n := wordAt body 16 % 256
  let dir := imageDir body
  decide (wordAt body 0 = 0x4B544F4B) && decide (wordAt body 4 % 65536 = 1) && decide (1 ≤ n) && decide (n ≤ 32) && decide (32 + 16 * n ≤ body.length) &&
  dir.all (fun d => decide (d.off % 64 = 0) && decide (d.off + d.size ≤ body.length) && decide ((crc32 (sectionOf body d)).toNat = d.crc)) &&
  (if imageTuning body then dir.all (fun d => decide (8 ≤ d.typ)) else (List.range 7).all (fun k => dir.any (fun d => decide (d.typ = k + 1))))

/-- The image of a body: its header, and what its sections set; their contents are the compiler's, in a form that the manual does not give
(log 148). -/
def imageOf (body : List Byte) : Image :=
  let dir := imageDir body
  let has (k : Nat) : Bool := dir.any (fun d => decide (d.typ = k))
  let i := Config.imageSections (dir.map (fun d => (d.typ, sectionOf body d)))
  { i with
    tuning := imageTuning body, parts := BitVec.ofNat 3 (wordAt body 4 / 2 ^ 24), imageId := BitVec.ofNat 32 (wordAt body 8),
    baseId := BitVec.ofNat 32 (wordAt body 12), ptns := i.ptns.filter (fun x => decide (x.p < 32))
    routes := if has 8 then some (i.routes.getD ⟨[], [], [], [], [], 0⟩) else none
    traffic := if has 9 then i.traffic else [], settings := if has 10 then i.settings else [], digest := digestBits body }

end Sys2Proof.Machine
end

