-- ==== Sys2Proof/Machine/Requests.lean ====
section
/-! DEFINITION. The mailbox requests on extents, hosts, regions, objects and keys, the grant expiry, and PTNp_RESET (R50–R55, R88, R94, R116,
R264, R344, R349, R353, R506, R573, R574). -/

namespace Sys2Proof.Machine
open Sys2Proof

/-- A partition-wide action runs, or an expiry revocation waits to start before any later request (R26, R55). -/
def ptnBusy (c : Core) (p : Nat) : Bool := (actionOf c p).isSome || c.rot.queued.any (fun q => decide (q.1 = p))

/-- A request that starts an action: PARTITION_BUSY refuses it (R26). -/
def unlessBusy (ch p : Nat) (f : Core → Core) (c : Core) : Core := if ptnBusy c p then mbDone ch stPartitionBusy c else f c

/-- The group lies in the partition's range (R41). -/
def ownsGroup (c : Core) (p g : Nat) : Bool :=
  decide ((c.ptn p).groupBase ≤ g) && decide (g < (c.ptn p).groupBase + (c.ptn p).groupCount)

/-! ### EXT_MAP (R51, R150 of the window, R350) -/

/-- A stack is unused or failed at bring-up: its pages are withheld (R521). -/
def withheld (c : Core) (ppa : Nat) : Bool := (c.extStacks ppa).any (fun e => c.glb.unused.getLsbD e)

/-- PPA extents of a placement: 0 = spread, 1–4 = field-local to field 0–3 (R35). -/
def placementRange (c : Core) (pl : Nat) : Nat × Nat :=
  let n := c.glb.fuse.stacks.length
  let k := c.kSpread
  if pl = 0 then (0, n * k) else (n * k + (pl - 1) * (n / 4 * (56 - k)), n / 4 * (56 - k))

/-- A free, lined PPA extent. -/
def freeExt (c : Core) (ppa : Nat) : Bool := !c.rot.taken.contains ppa && !withheld c ppa

/-- The lowest free one of a placement. -/
def lowestFree (c : Core) (pl : Nat) : Option Nat :=
  let r := placementRange c pl
  ((List.range r.2).map (fun i => r.1 + i)).find? (freeExt c)

/-- Entries VALID in a partition (PTNp_EXTENTS.MAPPED). -/
def mappedCount (c : Core) (p : Nat) : Nat := (validExts c p).length

/-- The checks after PARTITION_BUSY follow the order in which R61 lists their statuses, with the entry's own state first (log 30). -/
def fxExtMap (ch : Nat) (c : Core) : Core :=
  takeRequest ch 0x001 7 (fun c =>
    let p := reqPtn c ch
    let d0 := reqData c ch 0
    let d1 := reqData c ch 1
    let i := field d0 9 0
    let typ := field d0 17 16
    let pl := field d0 22 20
    let r := field d1 9 0
    if !reservedClear d0 0x007303FF ∨ !reservedClear d1 0x3FF ∨ 895 < i ∨ 4 < pl then mbDone ch stBadRequest c
    else unlessBusy ch p (fun c =>
      if (c.masterExt p i).valid then mbDone ch stExtentMapped c
      else if (c.ptn p).mirrored ∧ (typ = 0 ∨ typ = 3) then mbDone ch stTypeRefused c
      else if typ = 1 ∧ c.regionOwner r ≠ some p then mbDone ch stTypeRefused c
      else if (c.ptn p).quota ≤ mappedCount c p then mbDone ch stQuotaExceeded c
      else match lowestFree c pl with
        | none => mbDone ch stNoFreeExtent c
        | some ppa =>
          let ent : Ext := { valid := true, typ := BitVec.ofNat 2 typ, ppa := ppa, region := if typ = 1 then r else 0 }
          let c := c.modRot (fun k => { k with taken := k.taken ++ [ppa] })
          startAction { noAction with kind := 4, p := p, ch := some ch, i := i, ent := ent } c) c) c

def execExtMap (ch : Nat) (s : State) : Host.Outcome State Fault Refusal := actCore s (fxExtMap ch)

/-! ### Expiry of grants (R50, R54, R55) -/

/-- Slot bit `j` of SLOTS. -/
def slotBit (j : Nat) : BitVec 4 := 1#4 <<< j

/-- The expiry of one slot set (R50). -/
def slotExpiry (x : Ext) (j e : Nat) : Ext :=
  if x.allGrp then x
  else if e = 0 then
    let b := x.msSlots &&& ~~~(slotBit j)
    { x with msSlots := b, ms := if b = 0 then 0 else x.ms }
  else if e = x.ms then { x with msSlots := x.msSlots ||| slotBit j }
  else { x with ms := e, msSlots := slotBit j }

/-- The expiry of ALLGRP set (R50). -/
def allExpiry (x : Ext) (e : Nat) : Ext := { x with ms := e, msSlots := 0, msAll := decide (e ≠ 0) }

/-- Groups that a running expiry count covers; 256 stands for ALLGRP. -/
def coveredGroups (x : Ext) : List Nat :=
  if x.msAll then [256] else ((x.slots.zipIdx).filter (fun s => x.msSlots.getLsbD s.2 && decide (s.1.2 ≠ 0))).map (fun s => s.1.1)

/-! ### Revocation (R58, R574) -/

/-- The entry without the slots of some groups. -/
def dropSlots (x : Ext) (gs : List Nat) : Ext :=
  let keep := x.slots.map (fun s => if gs.contains s.1 ∧ s.2 ≠ 0 then ((0, 0) : Nat × BitVec 2) else s)
  let bits := (x.slots.zipIdx).foldl (fun b s => if gs.contains s.1.1 then b &&& ~~~(slotBit s.2) else b) x.msSlots
  { x with slots := keep, msSlots := bits, ms := if bits = 0 ∧ !x.msAll then 0 else x.ms }

/-- The entry without any grant. -/
def dropAll (x : Ext) : Ext := { x with allGrp := false, slots := noSlots, ms := 0, msSlots := 0, msAll := false }

/-- ALLGRP replaced by read-write slots for other groups, in ascending order (log 142), which keep its expiry (R574). -/
def splitAll (x : Ext) (gs : List Nat) : Ext :=
  let sl := (gs.map (fun g => ((g, 2) : Nat × BitVec 2)) ++ noSlots).take 4
  { x with allGrp := false, msAll := false, slots := sl, msSlots := if x.msAll then BitVec.ofNat 4 (2 ^ gs.length - 1) else 0,
           ms := if x.msAll then x.ms else 0 }

/-- The groups of a partition. -/
def groupsOf (c : Core) (p : Nat) : List Nat := (List.range (c.ptn p).groupCount).map (fun k => (c.ptn p).groupBase + k)

/-- The next sequence number; 0 is skipped (R58). -/
def nextSeq (n : BitVec 32) : BitVec 32 := if n + 1 = 0 then 1 else n + 1

/-- A revocation begins: step 1 writes the new entry with LIFE = revoking (R58). -/
def startRevoke (ch : Option Nat) (p i : Nat) (ent : Ext) (gs : List Nat) (forced lower unmap : Bool) (c : Core) : Core :=
  let seq := nextSeq c.rot.lastSeq
  let ent := { ent with life := 1 }
  let c := setMaster p i ent (c.modRot (fun r => { r with lastSeq := seq }))
  startAction { noAction with kind := if unmap then 7 else 6, p := p, ch := ch, i := i, ent := ent, groups := gs, forced := forced, lower := lower,
                              unmap := unmap, seq := seq } c

def fxExtRevoke (ch : Nat) (c : Core) : Core :=
  takeRequest ch 0x003 7 (fun c =>
    let p := reqPtn c ch
    let d0 := reqData c ch 0
    let d1 := reqData c ch 1
    let i := field d0 9 0
    let g := field d1 8 0
    let forced := d1.getLsbD 16
    let x := c.masterExt p i
    if !reservedClear d0 0x3FF ∨ !reservedClear d1 0x000101FF ∨ 895 < i ∨ 256 < g then mbDone ch stBadRequest c
    else unlessBusy ch p (fun c =>
      if !x.valid then mbDone ch stExtentUnmapped c
      else if g ≠ 256 ∧ !ownsGroup c p g then mbDone ch stGroupNotOwned c
      else if g = 256 then
        if hasGrant x then startRevoke (some ch) p i (dropAll x) (groupsOf c p) forced false false c else mbDone ch stOk c
      else if x.allGrp then
        let others := (groupsOf c p).filter (fun k => decide (k ≠ g))
        if others = [] then startRevoke (some ch) p i (dropAll x) [g] forced false false c
        else if 4 < others.length then mbDone ch stSlotsFull c
        else startRevoke (some ch) p i (splitAll x others) [g] forced false false c
      else if x.slots.any (fun s => decide (s.1 = g ∧ s.2 ≠ 0)) then startRevoke (some ch) p i (dropSlots x [g]) [g] forced false false c
      else mbDone ch stOk c) c) c

def execExtRevoke (ch : Nat) (s : State) : Host.Outcome State Fault Refusal := actCore s (fxExtRevoke ch)

def fxExtUnmap (ch : Nat) (c : Core) : Core :=
  takeRequest ch 0x004 7 (fun c =>
    let p := reqPtn c ch
    let d0 := reqData c ch 0
    let d1 := reqData c ch 1
    let i := field d0 9 0
    let x := c.masterExt p i
    if !reservedClear d0 0x3FF ∨ !reservedClear d1 0x00010000 ∨ 895 < i then mbDone ch stBadRequest c
    else unlessBusy ch p (fun c =>
      if !x.valid then mbDone ch stExtentUnmapped c
      else if x.typ = 1 ∧ (c.region x.region).created ∧ (c.region x.region).p = p ∧ (c.region x.region).base ≤ i ∧
          i < (c.region x.region).base + (c.region x.region).v + (c.region x.region).q then mbDone ch stRegionInUse c
      else startRevoke (some ch) p i (dropAll x) (groupsOf c p) (d1.getLsbD 16) false true c) c) c

def execExtUnmap (ch : Nat) (s : State) : Host.Outcome State Fault Refusal := actCore s (fxExtUnmap ch)

/-! ### EXT_GRANT (R50–R54, R573) -/

/-- A grant on slot `j`: group and access written, expiry set. -/
def grantSlot (x : Ext) (j g : Nat) (acc : BitVec 2) (e : Nat) : Ext := slotExpiry { x with slots := x.slots.set j (g, acc) } j e

/-- A renewal has lost against the expiry of its slot: the expiry's revocation is queued (R55), or began in this very tick (R54). -/
def grantExpired (c : Core) (p i g : Nat) : Bool :=
  c.rot.queued.any (fun q => decide (q.1 = p ∧ q.2.1 = i) && q.2.2.contains g) ||
  c.rot.expired.any (fun q => decide (q.1 = p ∧ q.2.1 = i ∧ q.2.2.2 = c.evc.tick) && q.2.2.1.contains g)

/-- EXT_GRANT. Under ALLGRP every group holds read-write access already: a grant to one group changes nothing (log 31). A new grant takes the
lowest empty slot (log 142). -/
def fxExtGrant (ch : Nat) (c : Core) : Core :=
  takeRequest ch 0x002 7 (fun c =>
    let p := reqPtn c ch
    let d0 := reqData c ch 0
    let d1 := reqData c ch 1
    let d2 := reqData c ch 2
    let i := field d0 9 0
    let g := field d1 8 0
    let acc := BitVec.ofNat 2 (field d1 17 16)
    let e := field d2 23 0
    let x := c.masterExt p i
    if !reservedClear d0 0x3FF ∨ !reservedClear d1 0x000301FF ∨ !reservedClear d2 0x00FFFFFF ∨ 895 < i ∨ 256 < g ∨ acc = 0 ∨ acc = 3 ∨
        (g = 256 ∧ acc = 1) then mbDone ch stBadRequest c
    else if grantExpired c p i g then mbDone ch stGrantExpired c
    else unlessBusy ch p (fun c =>
      let start (ent : Ext) (c : Core) : Core := startAction { noAction with kind := 5, p := p, ch := some ch, i := i, ent := ent } c
      if !x.valid then mbDone ch stExtentUnmapped c
      else if g ≠ 256 ∧ !ownsGroup c p g then mbDone ch stGroupNotOwned c
      else if x.typ = 3 then mbDone ch stTypeRefused c
      else if g = 256 then start (allExpiry { x with allGrp := true, slots := noSlots } e) c
      else if x.allGrp then mbDone ch stOk c
      else match x.slots.findIdx? (fun s => decide (s.1 = g ∧ s.2 ≠ 0)) with
        | some j =>
          if (x.slots.getD j (0, 0)).2 = 2 ∧ acc = 1 then
            startRevoke (some ch) p i (grantSlot x j g 1 e) [g] false true false c
          else start (grantSlot x j g acc e) c
        | none => match x.slots.findIdx? (fun s => decide (s.2 = 0)) with
          | some j => start (grantSlot x j g acc e) c
          | none => mbDone ch stSlotsFull c) c) c

def execExtGrant (ch : Nat) (s : State) : Host.Outcome State Fault Refusal := actCore s (fxExtGrant ch)

/-- The graceful revocation of an expired count's slots, or of ALLGRP. -/
def revokeExpired (p i : Nat) (gs : List Nat) (c : Core) : Core :=
  let x := c.masterExt p i
  if !x.valid then c
  else if gs.contains 256 then
    (if x.allGrp then startRevoke none p i (dropAll x) (groupsOf c p) false false false c else c)
  else if x.slots.any (fun s => gs.contains s.1 && decide (s.2 ≠ 0)) then startRevoke none p i (dropSlots x gs) gs false false false c
  else c

/-- GRANT_EXPIRY: the count reaches zero; the revocation starts, or waits its turn (R54, R55). -/
def fxGrantExpiry (p i : Nat) (c : Core) : Core :=
  let x := c.masterExt p i
  if !rotUp c ∨ !x.valid ∨ x.ms = 0 then c
  else
    let gs := coveredGroups x
    let c := setMaster p i { x with ms := 0, msSlots := 0, msAll := false } c
    let c := c.modRot (fun r => { r with expired := r.expired.filter (fun q => decide (q.2.2.2 = c.evc.tick)) ++ [(p, i, gs, c.evc.tick)] })
    if ptnBusy c p then c.modRot (fun r => { r with queued := r.queued ++ [(p, i, gs)] }) else revokeExpired p i gs c

def execGrantExpiry (p i : Nat) (s : State) : Host.Outcome State Fault Refusal := actCore s (fxGrantExpiry p i)

/-- QUEUED_REVOCATION_START: the oldest one of the partition, once no action runs (R55). -/
def fxQueuedRevocationStart (p : Nat) (c : Core) : Core :=
  if !rotUp c ∨ (actionOf c p).isSome then c
  else match c.rot.queued.find? (fun q => decide (q.1 = p)) with
    | none => c
    | some q => revokeExpired p q.2.1 q.2.2 (c.modRot (fun r => { r with queued := r.queued.erase q }))

def execQueuedRevocationStart (p : Nat) (s : State) : Host.Outcome State Fault Refusal := actCore s (fxQueuedRevocationStart p)

/-! ### Hosts (R41, R51, R88, R573) -/

/-- HOST_ADMIT is done at once: it awaits no manager; the endpoint-to-port entry is written for both epochs (R402). -/
def fxHostAdmit (ch : Nat) (c : Core) : Core :=
  takeRequest ch 0x005 7 (fun c =>
    let p := reqPtn c ch
    let d0 := reqData c ch 0
    let d1 := reqData c ch 1
    let ep := BitVec.ofNat 18 (field d0 17 0)
    let g := field d1 7 0
    let n := field d1 10 8
    if ptnHeld c p then mbDone ch stPtnNotEnabled c
    else if !reservedClear d0 0x3FFFF ∨ !reservedClear d1 0x7FF ∨ !(presentPorts c).contains n ∨ (c.port n).cfg.getLsbD 4 then mbDone ch stBadRequest c
    else unlessBusy ch p (fun c =>
      if !ownsGroup c p g then mbDone ch stGroupNotOwned c
      else if c.hosts.any (fun h => h.2.valid && decide (h.2.ep = ep ∧ h.2.p = p)) then mbDone ch stDuplicateHost c
      else match (List.range 4096).find? (fun h => !(c.host h).valid) with
        | none => mbDone ch stHostTableFull c
        | some h =>
          let c := c.setHost h { ep := ep, p := p, group := g, valid := true, st := 0, port := n }
          let c := c.modMesh (fun m => { m with hostPort := tput 0 h n m.hostPort })
          mbDoneWith ch stOk [] [(0, BitVec.ofNat 32 h)] c) c) c

def execHostAdmit (ch : Nat) (s : State) : Host.Outcome State Fault Refusal := actCore s (fxHostAdmit ch)

/-- HOST_REMOVE: a fenced entry is cleared once its walk has completed at every home. -/
def fxHostRemove (ch : Nat) (c : Core) : Core :=
  takeRequest ch 0x006 7 (fun c =>
    let p := reqPtn c ch
    let d0 := reqData c ch 0
    let h := field d0 11 0
    let x := c.host h
    if !reservedClear d0 0xFFF then mbDone ch stBadRequest c
    else if !x.valid ∨ x.p ≠ p then mbDone ch stHostNotAdmitted c
    else unlessBusy ch p (fun c =>
      if x.st = 1 ∧ !c.rot.walks.any (fun w => decide (w.1 = h)) then mbDone ch stOk (clearHost h (closeHostOpens h c))
      else
        let c := if x.st = 1 then c else c.setHost h { x with st := 2 }
        startAction { noAction with kind := 10, p := p, ch := some ch, host := h } c) c) c

def execHostRemove (ch : Nat) (s : State) : Host.Outcome State Fault Refusal := actCore s (fxHostRemove ch)

/-- HOST_FENCE is no partition-wide action and is never refused PARTITION_BUSY. -/
def fxHostFence (ch : Nat) (c : Core) : Core :=
  takeRequest ch 0x007 3 (fun c =>
    let p := reqPtn c ch
    let d0 := reqData c ch 0
    let d1 := reqData c ch 1
    let h := field d0 11 0
    let x := c.host h
    if !reservedClear d0 0xFFF ∨ !reservedClear d1 0xFF then mbDone ch stBadRequest c
    else if !x.valid ∨ x.p ≠ p then mbDone ch stHostNotAdmitted c
    else if x.st = 1 then mbDone ch stAlreadyFenced c
    else mbDone ch stOk (fenceDecision h 2 (field d1 7 0) c)) c

def execHostFence (ch : Nat) (s : State) : Host.Outcome State Fault Refusal := actCore s (fxHostFence ch)

/-! ### Snapshot regions (R94, R116) -/

/-- The placement of a PPA extent: 0 = spread, 1–4 = field-local. -/
def placementOf (c : Core) (ppa : Nat) : Nat :=
  let n := c.glb.fuse.stacks.length
  let k := c.kSpread
  if ppa < n * k then 0 else 1 + (ppa - n * k) / (n / 4 * (56 - k))

/-- The run of extents fits R94. -/
def layoutOk (c : Core) (p r base len : Nat) : Bool :=
  decide (base + len ≤ 896) &&
  (List.range len).all (fun k =>
    let x := c.masterExt p (base + k)
    x.valid && decide (x.typ = 1) && decide (x.region = r) && decide (placementOf c x.ppa = placementOf c (c.masterExt p base).ppa))

def fxSnapCreate (ch : Nat) (c : Core) : Core :=
  takeRequest ch 0x010 7 (fun c =>
    let p := reqPtn c ch
    let d0 := reqData c ch 0
    let d1 := reqData c ch 1
    let r := field d0 9 0
    let base := field d1 9 0
    let v := field d1 19 10
    let q := field d1 29 20
    if !reservedClear d0 0x3FF ∨ !reservedClear d1 0x3FFFFFFF then mbDone ch stBadRequest c
    else if c.regionOwner r ≠ some p then mbDone ch stRegionNotOwned c
    else if (c.region r).created then mbDone ch stRegionInUse c
    else if v = 0 ∨ !layoutOk c p r base (v + q) then mbDone ch stSnapLayout c
    else mbDone ch stOk (createRegion r p base v q c)) c

def execSnapCreate (ch : Nat) (s : State) : Host.Outcome State Fault Refusal := actCore s (fxSnapCreate ch)

/-- SNAP_DESTROY. A region whose destruction already waits is unknown to a second request (log 142). -/
def fxSnapDestroy (ch : Nat) (c : Core) : Core :=
  takeRequest ch 0x011 7 (fun c =>
    let p := reqPtn c ch
    let d0 := reqData c ch 0
    let d1 := reqData c ch 1
    let r := field d0 9 0
    let g := c.region r
    let open' := (c.edge (r / 64)).opens.any (fun k => decide (k.2.1 = r))
    if !reservedClear d0 0x3FF ∨ !reservedClear d1 0x00010000 then mbDone ch stBadRequest c
    else if c.regionOwner r ≠ some p then mbDone ch stRegionNotOwned c
    else if !g.created ∨ g.destroy.isSome then mbDone ch stRegionUnknown c
    else if !d1.getLsbD 16 ∧ open' then mbDone ch stRegionOpen c
    else
      let c := c.modEdge (r / 64) (fun d => { d with opens := d.opens.filter (fun k => decide (k.2.1 ≠ r)) })
      destroyDue r (c.modRegion r (fun g => { g with destroy := some ch }))) c

def execSnapDestroy (ch : Nat) (s : State) : Host.Outcome State Fault Refusal := actCore s (fxSnapDestroy ch)

/-! ### SYNC_SET (R264) -/

/-- Old and new values as the log carries them: the two counts, or the round. -/
def setFields (old new : SyncObj) : List (Nat × Nat) :=
  if old.mode = .barrier then [(32, old.round.toNat), (32, new.round.toNat)]
  else [(64, old.produced.toNat), (64, old.consumed.toNat), (64, new.produced.toNat), (64, new.consumed.toNat)]

def fxSyncSet (ch : Nat) (c : Core) : Core :=
  takeRequest ch 0x020 3 (fun c =>
    let d0 := reqData c ch 0
    let w (i : Nat) : Nat := (reqData c ch i).toNat
    let obj := field d0 11 0
    let mode := field d0 17 16
    let x := c.obj obj
    let own := c.objOwner obj
    if !reservedClear d0 0xC0130FFF ∨ (mode ≠ 2 ∧ field d0 31 30 ≠ 0) then mbDone ch stBadRequest c
    else if (match own with
      | some p => !c.sec.consent.getLsbD p
      | none => false) then mbDone ch stNoConsent c
    else if field d0 31 30 ≠ 0 then mbDone ch stSetRange c
    else if !(decide (mode = 1 ∧ x.mode = .counter) || decide (mode = 2 ∧ x.mode = .barrier)) then mbDone ch stSetMode c
    else
      let clr (y : SyncObj) : SyncObj := if d0.getLsbD 20 then { y with arr0 := 0, arr1 := 0, bm0 := 0, bm1 := 0 } else y
      let y : SyncObj := if mode = 1 then
          { x with produced := BitVec.ofNat 64 (w 1 + w 2 * 2 ^ 32), consumed := BitVec.ofNat 64 (w 3 + w 4 * 2 ^ 32) }
        else clr { x with round := reqData c ch 1 }
      if mode = 1 ∧ y.lim < y.avail then mbDone ch stSetRange c
      else
        let y := if mode = 2 then releaseRounds 2 y else y
        let c := objApplied obj (c.setObj obj y)
        mbDone ch stOk (logE 0x0803 8 (objEdge obj) own ([(12, obj)] ++ setFields x y ++ [(14, 3)]) c)) c

def execSyncSet (ch : Nat) (s : State) : Host.Outcome State Fault Refusal := actCore s (fxSyncSet ch)

/-! ### Keys, lining, consent (R344, R349, R353) -/

def fxRotate (ch : Nat) (c : Core) : Core :=
  takeRequest ch 0x040 7 (fun c =>
    let p := reqPtn c ch
    unlessBusy ch p (fun c =>
      if (c.keys p).sweep then mbDone ch stRotationBusy c
      else startAction { noAction with kind := 3, p := p, ch := some ch } c) c) c

def execRotate (ch : Nat) (s : State) : Host.Outcome State Fault Refusal := actCore s (fxRotate ch)

def fxPtnLine (ch : Nat) (c : Core) : Core :=
  takeRequest ch 0x041 3 (fun c =>
    let p := reqPtn c ch
    unlessBusy ch p (startAction { noAction with kind := 2, p := p, ch := some ch, forced := true }) c) c

def execPtnLine (ch : Nat) (s : State) : Host.Outcome State Fault Refusal := actCore s (fxPtnLine ch)

/-- CONSENT, from a host of the partition's first group (R353). -/
def fxConsent (ch : Nat) (c : Core) : Core :=
  takeRequest ch 0x042 4 (fun c =>
    let p := ch - 16
    let d0 := reqData c ch 0
    if !(c.ptn p).en then mbDone ch stPtnNotEnabled c
    else if !reservedClear d0 1 then mbDone ch stBadRequest c
    else if (c.host (c.mb ch).goHost).group ≠ (c.ptn p).groupBase then mbDone ch stConsentRefused c
    else mbDone ch stOk (setConsent p (d0.getLsbD 0) 0 c)) c

def execConsent (ch : Nat) (s : State) : Host.Outcome State Fault Refusal := actCore s (fxConsent ch)

/-! ### PTNp_RESET (R506, R511) -/

/-- GO with FORCED as written: refused PARTITION_BUSY while an action runs; ignored while the partition's reset runs. -/
def fxPartitionReset (p : Nat) (forced : Bool) (c : Core) : Core :=
  if !rotUp c ∨ 32 ≤ p ∨ frozenChip c ∨ (c.ptn p).resetBusy then c
  else
    let c := c.modPtn p (fun x => { x with forced := forced })
    if !(c.ptn p).en then c.modPtn p (fun x => { x with resetResult := BitVec.ofNat 8 stPtnNotEnabled })
    else if ptnBusy c p then c.modPtn p (fun x => { x with resetResult := BitVec.ofNat 8 stPartitionBusy })
    else startAction { noAction with kind := 1, p := p, forced := forced } c

def execPartitionReset (p : Nat) (forced : Bool) (s : State) : Host.Outcome State Fault Refusal := actCore s (fxPartitionReset p forced)

end Sys2Proof.Machine
end

