-- ==== Sys2Proof/Machine/Mirror.lean ====
section
/-! DEFINITION. Mirror pairs: replicated requests, the cuff and its lease, the mirror states, resync (R432–R453). -/

namespace Sys2Proof.Machine
open Sys2Proof

def MirrSt.code : MirrSt → BitVec 3
  | .stale => 0 | .resync => 1 | .standby => 2 | .active => 3 | .soloPending => 4 | .solo => 5

/-- A partition of a mirror group (R432). -/
def Core.mirrored (c : Core) (p : Nat) : Bool := (c.ptn p).en && (c.ptn p).mirrored

/-- The mirror port of a partition is Up. -/
def mirrLinkUp (c : Core) (p : Nat) : Bool := decide ((c.port (c.mirr p).port.toNat).link = .up)

/-- A log entry of the mirror engine; it lies at the mirror port. -/
def logMirr (code p : Nat) (fs : List (Nat × Nat)) (c : Core) : Core := logE code 9 (c.mirr p).port.toNat (some p) ((5, p) :: fs) c

/-! ### Where a request goes (R42 step 7, R46) -/

/-- Whether a PLA lies in the tenant window, and its offset there (R45, R46). -/
def inWindow (pla : BitVec 40) : Bool := decide (plaExt pla = 1023)
def windowOff (pla : BitVec 40) : Nat := pla.toNat % 2 ^ 30

/-- The edge unit of a window offset; none outside the ranges of R46. -/
def windowEdge (p off : Nat) : Option Nat :=
  if off < 0x10000 then some (p / 2)
  else if 0x100000 ≤ off ∧ off < 0x140000 then some ((off - 0x100000) / 16384)
  else if 0x200000 ≤ off ∧ off < 0x210000 then some ((off - 0x200000) / 4096)
  else if 0x300000 ≤ off ∧ off < 0x301000 then some (p / 2)
  else if 0x310000 ≤ off ∧ off < 0x320000 then some (p / 2)
  else none

/-- The host index of a source endpoint in a partition (R41). -/
def hostOfEp (c : Core) (p : Nat) (ep : BitVec 18) : Option Nat :=
  (c.hosts.find? (fun h => h.2.valid && decide (h.2.p = p) && decide (h.2.ep = ep))).map (fun h => h.1)

/-- The stack and the line within it of a PLA of partition `p`. -/
def plaLine (c : Core) (p : Nat) (pla : BitVec 40) : Nat × Nat :=
  let a := c.place ((c.masterExt p (plaExt pla)).ppa * 2 ^ 30 + pla.toNat % 2 ^ 30)
  (a.1, a.2 / 128)

/-- A request forwarded to its home or edge unit. -/
def forwardReq (p : Nat) (o : Origin) (q : Req) (c : Core) : Core :=
  if inWindow q.pla then
    match windowEdge p (windowOff q.pla) with
    | some e => c.send (.toEdge e o q)
    | none => c
  else c.send (.toHome (plaLine c p q.pla).1 o q)

/-! ### The cuff -/

/-- The port through which the device reaches the arbiter: its lowest fabric port that is Up (R442, log 153). -/
def cuffPort (c : Core) : Option Nat := (presentPorts c).find? (fun n => decide ((c.port n).link = .up) && !(c.port n).cfg.getLsbD 4)

/-- A cuff packet from MIRR_G_SELF_EP to MIRR_G_ARB_EP: the message, and its MGT packet in the port's queue. -/
def cuffSend (p : Nat) (m : Msg) (typ : BitVec 4) (payload : List (BitVec 128)) (c : Core) : Core :=
  let c := c.send m
  match cuffPort c with
  | some n => portQueue n ⟨p, .mgt typ (c.mirrG.arbEp.setWidth 18) (c.mirrG.selfEp.setWidth 18) payload⟩ c
  | none => c

/-- DURATION_MS as asked (R451). -/
def leaseMs (m : Mirr) : Nat := clampNat 5 1000 (field m.lease 9 0)

/-- CUFF_REQ with the next number; the last four sends are kept (R444). -/
def sendCuffReq (p : Nat) (solo : Bool) (c : Core) : Core :=
  let m := c.mirr p
  let n := m.reqNo + 1
  let sends := m.sends ++ [(n, c.evc.tick.toNat, solo)]
  let c := c.setMirr p { m with reqNo := n, sends := sends.drop (sends.length - 4) }
  let d := BitVec.ofNat 10 (leaseMs m)
  cuffSend p (.cuffReq p m.st.code m.leaseEnd.isSome solo n m.epoch d) 4
    (cuffReqPayload (c.ptn p).endpoint m.st.code m.leaseEnd.isSome solo n m.epoch d) c

/-- CUFF_RENEW (R444, R448). -/
def fxCuffRenew (p : Nat) (c : Core) : Core :=
  let m := c.mirr p
  if !c.mirrored p then c
  else if m.st = .soloPending then sendCuffReq p true c
  else if m.st = .standby ∨ m.st = .active ∨ m.st = .solo then sendCuffReq p false c
  else if m.st = .stale ∧ m.seek then sendCuffReq p true c
  else c

/-- A replicated request whose answer may be given: the host is answered and the line unblocked (R436 step 6). -/
def completePend (p : Nat) (k : MirrPend) (c : Core) : Core :=
  let m := putDedupe ((c.mirr p).dropPend k.o) k.o.idx ⟨k.o.tag, k.order, k.op, true⟩
  let c := (c.setMirr p m).toHost k.o p { op := k.op, reason := k.reason, order := k.order }
  forEach (c.homes.map Prod.fst) (fun e c =>
    match (c.home e).trks.find? (fun t => decide (t.phase = 5 ∧ t.p = p ∧ t.o.idx = k.o.idx) && decide (t.o.tag = k.o.tag)) with
    | some t => settle e (dropTrk e t.idx c)
    | none => c) c

/-- Solo: held answers go out and applied requests complete without REPL_ACK (R447). -/
def goSolo (p : Nat) (c : Core) : Core :=
  let ks := (c.mirr p).pend.filter (fun k => decide (k.op ≠ 0))
  let c := c.modMirr p (fun m => { m with st := .solo, seek := false, releasing := false })
  mirrService (ks.foldl (fun c k => completePend p k c) c)

def takeCuffLog (p : Nat) (c : Core) : Core :=
  let m := c.mirr p
  logMirr 0x0E03 p [(32, m.epoch.toNat), (48, m.order.toNat)] c

/-- The peer is lost (R447); `why`: 0 the mirror link, 1 the replication timer, 2 the peer timer, 3 R440. -/
def peerLost (p why : Nat) (c : Core) : Core :=
  let m := c.mirr p
  -- with its peer lost, a device in Stale seeks the cuff only for a TAKE written since (R448)
  let c := c.setMirr p { m with peerLost := true, peerSeen := false, seek := m.seek && (m.peerLost || decide (m.st ≠ .stale)) }
  let log := logMirr 0x0E01 p [(4, (Config.logEnum 0x0E01 why).toNat)]
  match m.st with
  | .active =>
    let c := log (c.modMirr p (fun m => { m with st := .soloPending, releasing := false, rsOn := false, rsDone := false }))
    mirrService (sendCuffReq p true c)
  | .resync => mirrStale p c
  | .standby => log c
  | .solo => c.modMirr p (fun m => { m with rsOn := false, rsDone := false })
  | _ => c

/-- The lease ends (R445, R447). -/
def leaveCuff (p : Nat) (c : Core) : Core :=
  let m := c.mirr p
  let c := c.setMirr p { m with leaseEnd := none }
  if holderSt m.st then mirrStale p (logMirr 0x0E02 p [(32, m.epoch.toNat)] c) else c

/-- CUFF_GRANT (R444, R445, R447). The lease ends d × (1 − 2 × 200 ppm) − 1 ms after the send of the matching request, 24,990 d − 25,000
ticks; an end that has come already wins over the grant. -/
def fxCuffGrant (p : Nat) (reqNo epoch : BitVec 32) (dur : BitVec 10) (c : Core) : Core :=
  let m := c.mirr p
  match m.sends.find? (fun s => decide (s.1 = reqNo)) with
  | none => c
  | some (_, sent, solo) =>
    if dur = 0 ∨ !c.mirrored p then c
    else
      let e := max (m.leaseEnd.getD 0) (sent + dur.toNat * 24990 - 25000)
      if e ≤ c.evc.tick.toNat then (if m.leaseEnd.isSome then leaveCuff p c else c)
      else
        let c := c.setMirr p { m with leaseEnd := some e, epoch := epoch }
        match m.st with
        | .stale => if m.seek && solo then goSolo p (takeCuffLog p c) else c
        | .standby =>
          if m.peerLost ∨ m.peer = 0 then goSolo p (takeCuffLog p c)
          else if m.peer = 2 then c.modMirr p (fun m => { m with st := .active })
          else c
        | .soloPending => if solo then goSolo p c else c
        | _ => c

/-- RELEASE is complete: nothing is pending any more (R447). -/
def releaseDue (p : Nat) (c : Core) : Core :=
  let m := c.mirr p
  if m.releasing ∧ m.st = .active ∧ m.pend.all (fun k => k.dead) then
    cuffSend p (.cuffRelease p m.epoch) 6 (cuffReleasePayload (c.ptn p).endpoint m.epoch)
      (c.setMirr p { m with st := .standby, releasing := false, leaseEnd := none })
  else c

def fxRelease (p : Nat) (c : Core) : Core :=
  if c.mirrored p ∧ (c.mirr p).st = .active then releaseDue p (c.modMirr p (fun m => { m with releasing := true })) else c

/-- TAKE: only from Stale, with the peer lost or the mirror link not Up (R448). -/
def fxTake (p : Nat) (c : Core) : Core :=
  let m := c.mirr p
  if c.mirrored p ∧ m.st = .stale ∧ (m.peerLost ∨ !mirrLinkUp c p) then sendCuffReq p true (c.setMirr p { m with seek := true }) else c

/-! ### Replicated requests (R435, R436, R439, R440) -/

/-- A device that is not the holder, or hands the cuff over, refuses host requests (R447). -/
def notHolder (p : Nat) (o : Origin) (c : Core) : Core :=
  (c.modMirr p (fun m => { m with notHolder := m.notHolder + 1 })).toHost o p { op := opNackFenced, reason := 7 }

def holderServes (m : Mirr) : Bool := holderSt m.st && !m.releasing

/-- Steps 1 and 2 of R436. -/
def fxReplicated (p : Nat) (o : Origin) (q : Req) (c : Core) : Core :=
  let m := c.mirr p
  if !c.mirrored p then c
  else if !holderServes m then notHolder p o c
  else match (tget [] o.idx m.dedupe).find? (fun d => decide (d.tag = o.tag)) with
    | some d =>
      if d.done then
        (c.setMirr p { m with hits := m.hits + 1 }).toHost o p { op := d.op, order := d.order }
      else c
    | none =>
      if 4096 ≤ (c.mirrs.map (fun x => (x.2.pend.filter (fun k => !k.dead)).length)).sum then
        c.toHost o p { op := opNackBusy, reason := 8, backoff := 10 }
      else
        let m := putDedupe { m with pend := m.pend ++ [⟨0, o, q, 0, 0, false⟩] } o.idx ⟨o.tag, 0, 0, false⟩
        forwardReq p o q (c.setMirr p m)

/-- A REPL at the peer: the request goes to its home with its order number (step 5). Without an admitted host it is applied without a
dedupe entry (R439). -/
def fxRepl (p : Nat) (k : ReplPkt) (c : Core) : Core :=
  let m := c.mirr p
  if !c.mirrored p ∨ !(decide (m.st = .standby) || decide (m.st = .resync)) then c
  else
    let host := (hostOfEp c p k.q.src).filter (fun h => decide ((c.host h).st = 0))
    let c := if host.isSome then c else logMirr 0x0E06 p [(18, k.q.src.toNat)] c
    let o : Origin := match host with
      | some h => ⟨1, h, k.q.tag, (c.host h).port, 0, none, k.q.cls⟩
      | none => ⟨1, strangerIdx p k.q.src, k.q.tag, 0, 0, none, k.q.cls⟩
    forwardReq p o k.q (c.modMirr p (fun m => { m with pend := m.pend ++ [⟨k.order, o, k.q, 0, 0, false⟩] }))

/-! ### Resync (R450) -/

/-- The stream has been sent and acknowledged: the pair is restored. -/
def resyncDone (p : Nat) (c : Core) : Core :=
  let m := c.mirr p
  if m.rsOn ∧ m.rsDone ∧ m.rsOut = 0 then
    mirrService (logMirr 0x0E05 p [(16, m.rsPages)] (c.setMirr p { m with
      rsOn := false, rsDone := false, pagesLeft := 0, st := if m.st = .solo then .active else m.st }))
  else c

/-- REPL_ACK (R436 step 6, R440): of a pending record, else of a packet of the resync stream. -/
def fxReplAck (p : Nat) (order : BitVec 48) (ans : BitVec 6) (c : Core) : Core :=
  let m := c.mirr p
  match m.pend.find? (fun k => decide (k.order = order) && decide (k.op ≠ 0)) with
  | some k =>
    if m.st ≠ .active then c
    else if ans = k.op then releaseDue p (completePend p k c)
    else peerLost p 3 (logMirr 0x0E04 p [(48, order.toNat), (6, k.op.toNat), (6, ans.toNat)] c)
  | none =>
    if m.rsOn ∧ 0 < m.rsOut then resyncDone p (c.setMirr p { m with rsOut := m.rsOut - 1 }) else c

/-- 64 KiB pages of the walk that follow line `l` of extent `i`. -/
def pagesAfter (c : Core) (p i l : Nat) : Nat := ((validExts c p).filter (fun j => decide (i < j))).length * 16384 + (16384 - (l + 1) / 512)

def ObjMode.code : ObjMode → Nat
  | .unconfigured => 0 | .counter => 1 | .barrier => 2
def objModeOf (k : Nat) : ObjMode := if k = 1 then .counter else if k = 2 then .barrier else .unconfigured
def SlotSt.code : SlotSt → Nat
  | .free => 0 | .working => 1 | .published => 2 | .retiring => 3
def slotStOf (k : Nat) : SlotSt := if k = 1 then .working else if k = 2 then .published else if k = 3 then .retiring else .free
def RingSt.code : RingSt → Nat
  | .disabled => 0 | .running => 1 | .draining => 2 | .stopped => 3
def ringStOf (k : Nat) : RingSt := if k = 1 then .running else if k = 2 then .draining else if k = 3 then .stopped else .disabled

/-- Regions of a partition that exist. -/
def ptnRegions (c : Core) (p : Nat) : List Nat :=
  (c.regions.filter (fun g => g.2.created && decide (g.2.p = p))).map Prod.fst

/-- The state blocks of step 1. -/
def stateBlocks (c : Core) (p : Nat) : List StateBlk :=
  let x := c.ptn p
  let rs := ptnRegions c p
  [.epoch (c.mirr p).epoch] ++
  (List.range x.syncCount).map (fun i =>
    let n := x.syncBase + i
    let o := c.obj n
    .obj n o.mode.code o.produced o.consumed o.param o.round o.arr0 o.arr1 o.bm0 o.bm1) ++
  (List.range 16).map (fun r =>
    let g := tget {} r x.rings
    .ring r g.st.code g.stop g.ctrl g.tmo g.cmdBase g.cplBase g.tail g.head g.done g.cplAck) ++
  rs.flatMap (fun r =>
    let g := c.region r
    .region r g.working g.newest g.newestVer :: g.slots.map (fun s => .slot r s.1 s.2.st.code s.2.ver s.2.parent)) ++
  rs.flatMap (fun r => ((c.edge (r / 64)).opens.filter (fun k => decide (k.2.1 = r))).map (fun k => .opened k.1 r k.2.2)) ++
  (c.mirr p).dedupe.flatMap (fun h => (h.2.filter (fun d => d.done)).map (fun d => .dedupe h.1 d.tag d.order d.op))

/-- One packet of the stream. -/
def sendRsync (p : Nat) (blk : Option StateBlk) (i : Nat) (slot : Nat) (pla : BitVec 40) (data : Line) (c : Core) : Core :=
  let c := c.mirrSend (.rsync p ⟨(c.mirr p).order, blk, BitVec.ofNat 32 i, BitVec.ofNat 3 slot, pla, data⟩)
  c.modMirr p (fun m => { m with rsOut := m.rsOut + 1 })

/-- The holder starts a resync: the state blocks go out and the walk stands at its beginning. -/
def startResync (p : Nat) (c : Core) : Core :=
  let n := (validExts c p).length * 16384
  let c := c.modMirr p (fun m => { m with
    rsOn := true, rsDone := false, rsOut := 0, rsEnt := 0, rsLine := 0, rsPages := n, pagesLeft := BitVec.ofNat 23 n })
  (((stateBlocks c p).zipIdx).foldl (fun c b => sendRsync p (some b.1) b.2 0 0 0 c) c)

/-- RESYNC_LINE: the next line of the walk, once no transaction blocks it: its data, or for a snapshot region one packet for each live slot
whose page differs from its parent's (step 2). A last block ends the stream. -/
def fxResyncLine (p : Nat) (c : Core) : Core :=
  let m := c.mirr p
  if !(m.rsOn && !m.rsDone && (decide (m.st = .active) || decide (m.st = .solo))) then c
  else match ((validExts c p).mergeSort (fun a b => decide (a ≤ b))).find? (fun i => decide (m.rsEnt ≤ i)) with
    | none => (sendRsync p (some .fin) 0 0 0 0 c).modMirr p (fun m => { m with rsDone := true, pagesLeft := 0 })
    | some i =>
      let l := if i = m.rsEnt then m.rsLine else 0
      let pla := BitVec.ofNat 40 (i * 2 ^ 30 + l * 128)
      let (e, line) := plaLine c p pla
      let h := c.home e
      if !c.works 6 e ∨ lineBlocked h line then c
      else
        let x := c.masterExt p i
        let g := c.region x.region
        let c := if x.typ ≠ 1 then sendRsync p none 0 0 pla (c.rdPool e line).1 c
          else if !g.created ∨ i < g.base ∨ g.base + g.v ≤ i then c
          else ((c.pageWords e (line / 512)).zipIdx).foldl (fun c w =>
            if w.1.2 && decide ((tget {} w.2 g.slots).st ≠ .free) then
              sendRsync p none 0 w.2 pla (c.rdPool e (w.1.1 * 512 + line % 512)).1 c
            else c) c
        let next := l + 1
        c.modMirr p (fun m => { m with
          rsEnt := if next = 2 ^ 23 then i + 1 else i, rsLine := if next = 2 ^ 23 then 0 else next,
          pagesLeft := BitVec.ofNat 23 (pagesAfter c p i l) })

/-- The returning device begins a resync: what the stream will bring is cleared, and every page of its regions is free (R447, R450). -/
def beginReturn (p : Nat) (c : Core) : Core :=
  let n := (validExts c p).length * 16384
  let c := c.modMirr p (fun m => { m with st := .resync, seek := false, dedupe := [], rsOn := true, rsDone := false, pagesLeft := BitVec.ofNat 23 n })
  forEach (ptnRegions c p) (fun r c =>
    let g := c.region r
    let c := c.modEdge (r / 64) (fun d => { d with opens := d.opens.filter (fun k => decide (k.2.1 ≠ r)) })
    let c := c.setRegion r { g with slots := [], newest := none }
    forEach c.glb.fuse.stacks (fun e c =>
      let vis := runPages c e p g.base g.v
      let pool := runPages c e p (g.base + g.v) g.q
      (forEach vis (fun pg c => c.setPageWords e pg []) c).modHome e (fun h => { h with
        freePages := h.freePages.filter (fun k => decide (k.1 ≠ r)) ++ (vis ++ pool).map (fun pg => (r, pg)),
        copies := h.copies.filter (fun k => decide (k.region ≠ r)) })) c) c

/-- A line of the stream written; a slot that owns no page of its own yet takes a free one. -/
def applyLine (p : Nat) (k : RsyncPkt) (c : Core) : Core :=
  let i := plaExt k.pla
  let x := c.masterExt p i
  let (e, line) := plaLine c p k.pla
  let c := c.modMirr p (fun m => { m with pagesLeft := BitVec.ofNat 23 (pagesAfter c p i (k.pla.toNat % 2 ^ 30 / 128)) })
  if !x.valid then c
  else if x.typ ≠ 1 then stWhole e line p k.data false c
  else
    let s := k.slot.toNat
    match (c.pageWords e (line / 512))[s]? with
    | some (pg, true) => stWhole e (pg * 512 + line % 512) p k.data false c
    | _ =>
      match takePage e x.region c with
      | (none, _) => c
      | (some f, c) =>
        let c := c.setPageWord e (line / 512) s f true
        stWhole e (f * 512 + line % 512) p k.data false c

/-- A state block applied. A ring's commands that have no record yet are fetched again. -/
def applyBlk (p : Nat) (b : StateBlk) (c : Core) : Core :=
  match b with
  | .epoch e => c.modMirr p (fun m => { m with peerEpoch := e })
  | .obj o mode pr co pa ro a0 a1 b0 b1 =>
    c.modObj o (fun x => { x with mode := objModeOf mode, produced := pr, consumed := co, param := pa, round := ro, arr0 := a0, arr1 := a1,
                                  bm0 := b0, bm1 := b1 })
  | .ring r st stop ctrl tmo cmd cpl tail _ done ack =>
    let old := fun (x : Ptn) => tget {} r x.rings
    c.modPtn p (fun x => { x with rings := tput {} r { old x with st := ringStOf st, stop := stop, ctrl := ctrl, tmo := tmo, cmdBase := cmd, cplBase := cpl,
                                                                  tail := tail, head := done, done := done, cplAck := ack } x.rings })
  | .region r w n v => c.modRegion r (fun g => { g with working := w, newest := n, newestVer := v })
  | .slot r s st v par => c.modRegion r (fun g => { g with slots := tput {} s ⟨slotStOf st, v, par⟩ g.slots })
  | .opened h r s => c.modEdge (r / 64) (fun d => { d with opens := d.opens ++ [(h, r, s)] })
  | .dedupe h tag order op => c.modMirr p (fun m => putDedupe m h ⟨tag, order, op, true⟩)
  | .fin => c.modMirr p (fun m => { m with rsDone := true })

/-- RSYNC at the returning device: applied in stream order and acknowledged (step 3). -/
def fxRsync (p : Nat) (k : RsyncPkt) (c : Core) : Core :=
  if (c.mirr p).st ≠ .resync then c
  else
    let c := match k.blk with
      | some b => applyBlk p b c
      | none => applyLine p k c
    (c.mirrSend (.replAck p k.order opCmp)).modMirr p (fun m => ({ m with order := k.order } : Mirr).resynced)

/-! ### PEER_STATE and the timers (R442, R447–R449) -/

def fxPeerStateSend (p : Nat) (c : Core) : Core :=
  let m := c.mirr p
  if c.mirrored p ∧ mirrLinkUp c p then c.mirrSend (.peerState p m.st.code m.order m.epoch) else c

/-- This device is the newer of the two (R448). -/
def isNewer (c : Core) (m : Mirr) (ep : BitVec 18) (order : BitVec 48) (epoch : BitVec 32) : Bool :=
  if m.epoch ≠ epoch then newer m.epoch epoch
  else if m.order ≠ order then orderNewer m.order order
  else decide ((c.mirrG.selfEp.setWidth 18).toNat < ep.toNat)

/-- PEER_STATE (R447): what the peer reports restarts the peer timer, and may move the state. -/
def fxPeerState (p : Nat) (ep : BitVec 18) (st : BitVec 3) (order : BitVec 48) (epoch : BitVec 32) (c : Core) : Core :=
  let m0 := c.mirr p
  if !c.mirrored p then c
  else
    let m := { m0 with peer := st, peerOrder := order, peerEpoch := epoch, peerSeen := true, peerLost := false }
    let c := c.setMirr p m
    match m.st with
    | .stale =>
      if !mirrLinkUp c p then c
      else if st = 3 ∨ st = 5 then beginReturn p c
      else if m.order = 0 ∧ order = 0 ∧ (st = 0 ∨ st = 2) then c.setMirr p { m with st := .standby, seek := false }
      else c.setMirr p { m with seek := decide (st = 0) && (decide (m.order ≠ 0) || decide (order ≠ 0)) && isNewer c m ep order epoch }
    | .resync => if st = 3 ∨ st = 5 then c else mirrStale p c
    | .standby => if newer epoch m.epoch ∨ st = 5 then mirrStale p c else c
    | .active => if st = 1 ∧ !m.rsOn then startResync p c else c
    | .solo => if st = 1 ∧ !m.rsOn then startResync p c else c
    | .soloPending => c

def fxPeerTimeout (p : Nat) (c : Core) : Core := if c.mirrored p ∧ !(c.mirr p).peerLost then peerLost p 2 c else c

/-- The replication timer of a record whose REPL_ACK is awaited (R449). -/
def fxReplTimeout (p : Nat) (order : BitVec 48) (c : Core) : Core :=
  let m := c.mirr p
  if (m.st = .active ∧ m.pend.any (fun k => decide (k.order = order) && decide (k.op ≠ 0))) ∨ (m.st = .solo ∧ m.rsOn ∧ 0 < m.rsOut) then
    peerLost p 1 c
  else c

/-- The mirror port `n` leaves Up for Down or Disabled: every partition of it loses its peer (R447). -/
def mirrPortLost (n : Nat) (c : Core) : Core :=
  forEach ((c.ptns.map Prod.fst).filter (fun p => c.mirrored p && decide ((c.mirr p).port.toNat = n))) (fun p c => peerLost p 0 c) c

/-! ### The commands -/

def execReplicatedRequest (p : Nat) (o : Origin) (q : Req) (s : State) : Host.Outcome State Fault Refusal := actCore s (fxReplicated p o q)
def execRepl (p : Nat) (k : ReplPkt) (s : State) : Host.Outcome State Fault Refusal := actCore s (fxRepl p k)
def execReplAck (p : Nat) (order : BitVec 48) (answer : BitVec 6) (s : State) : Host.Outcome State Fault Refusal :=
  actCore s (fxReplAck p order answer)
def execRsync (p : Nat) (k : RsyncPkt) (s : State) : Host.Outcome State Fault Refusal := actCore s (fxRsync p k)
def execResyncLine (p : Nat) (s : State) : Host.Outcome State Fault Refusal := actCore s (fxResyncLine p)
def execCuffRenew (p : Nat) (s : State) : Host.Outcome State Fault Refusal := actCore s (fxCuffRenew p)
def execCuffGrant (p : Nat) (reqNo epoch : BitVec 32) (durMs : BitVec 10) (s : State) : Host.Outcome State Fault Refusal :=
  actCore s (fxCuffGrant p reqNo epoch durMs)
def execLeaseExpiry (p : Nat) (s : State) : Host.Outcome State Fault Refusal := actCore s (leaveCuff p)
def execReplTimeout (p : Nat) (order : BitVec 48) (s : State) : Host.Outcome State Fault Refusal := actCore s (fxReplTimeout p order)
def execPeerTimeout (p : Nat) (s : State) : Host.Outcome State Fault Refusal := actCore s (fxPeerTimeout p)
def execPeerStateSend (p : Nat) (s : State) : Host.Outcome State Fault Refusal := actCore s (fxPeerStateSend p)
def execPeerState (p : Nat) (ep : BitVec 18) (st : BitVec 3) (order : BitVec 48) (epoch : BitVec 32) (s : State) :
    Host.Outcome State Fault Refusal := actCore s (fxPeerState p ep st order epoch)
def execRelease (p : Nat) (s : State) : Host.Outcome State Fault Refusal := actCore s (fxRelease p)
def execTakeCuff (p : Nat) (s : State) : Host.Outcome State Fault Refusal := actCore s (fxTake p)

end Sys2Proof.Machine
end

