-- ==== Sys2Proof/Machine/Port.lean ====
section
/-! DEFINITION. Optical ports and the link layer: link states, training, flits, sequence numbers, replay, credits, the checker, capture,
egress scheduling and shaping (R358–R392, R422–R428). -/

namespace Sys2Proof.Machine
open Sys2Proof

/-! ### The port (R361–R363) -/

/-- The port exists and its clock runs (R4, R542). -/
def portRuns (c : Core) (n : Nat) : Bool := c.hasUnit 9 n && !frozenChip c

/-- The minimum width in lanes, the width of a group map, the code of a width (R361, R390). -/
def Port.minWidth (p : Port) : Nat := 16 * (field p.cfg 1 0 + 1)
def groupCount (g : BitVec 4) : Nat := (bitsOf 4 g).length
def Port.widthCode (p : Port) : Nat := p.width / 16 - 1
def Port.mirrorRole (p : Port) : Bool := p.cfg.getLsbD 4
/-- Groups whose two laser fibres are above threshold (R359). -/
def litGroups (ok : BitVec 8) : BitVec 4 :=
  BitVec.ofNat 4 (((List.range 4).filter (fun g => ok.getLsbD (2 * g) && ok.getLsbD (2 * g + 1))).map (fun g => 2 ^ g)).sum
/-- NARROW (R363). -/
def Port.isNarrow (p : Port) : Bool := p.linked && decide (p.width < 64)

/-! ### Causes of the service request and the unit's desired state (R366, R528) -/

/-- The causes PORT_NARROW and PORT_DOWN as they stand (R528). -/
def linkService (c : Core) : Core :=
  let on (f : Port → Bool) : Bool := (presentPorts c).any (fun n => f (c.port n))
  let c := if on (fun p => p.en && p.isNarrow) then raiseService 2 c else clearService 2 c
  if on (fun p => p.en && !p.linked) || decide (c.glb.portsFailed ≠ 0) then raiseService 3 c else clearService 3 c

/-- The port manager keeps the desired state in step with the link: Held, forced at once, when the link is Down or Disabled; Serving,
commanded, when it is Up after readiness. A desired state more restrictive than Held stays (R366). -/
def portWant (n : Nat) (c : Core) : Core :=
  let u := c.unit 9 n
  let p := c.port n
  if !mgrUp c 4 ∨ stricter u.want .held then c
  else if p.link = .down ∨ p.link = .disabled then
    if stricter .held u.st then forceState 9 n .held c else c.setUnit 9 n { u with want := .held, cmd := none, ch := none }
  else if p.link = .up ∧ inService c then wantState 9 n .serving none c
  else c

/-! ### Entering Down and Disabled (R364, R365, R426) -/

/-- Sequence numbers, replay buffer, credit counters and partial packets go (R365). -/
def Port.noLink (p : Port) : Port :=
  { p with next := 0, oldest := 0, expected := 0, buf := [], replaying := [], replayCount := 0, replayedSince := false, askReplay := false,
           vcs := [], initGot := false, initBad := false, doneSent := false, doneGot := false, resuming := false, resumeSent := false,
           resumeGot := false, resumeBad := false, strays := [], retrainLeft := 0, width := 0, groups := 0, narrow := false }

/-- Queues, tags and virtual time cleared, shapers filled (R426). -/
def Port.noEgress (p : Port) : Port :=
  { p with queues := p.queues.map (fun q => (q.1, { q.2 with pkts := [], f := 0 })), answers := [], snoops := [], mgt := [], reqs := [],
           vtime := 0, shapers := p.shapers.map (fun s => (s.1, { s.2 with b := ⟨s.2.burst * 64 * 65536, 0⟩ })) }

def Port.egress (p : Port) : List EgPkt :=
  p.mgt ++ p.snoops ++ p.answers ++ p.reqs ++ p.queues.flatMap (fun q => q.2.pkts.map (fun k => k.1))

/-- The link leaves for `st`, and everything it held is lost. -/
def leaveLink (n : Nat) (st : LinkSt) (c : Core) : Core :=
  let p := c.port n
  let c := discardEgress n p.egress c
  let c := c.modPort n (fun x => { x.noLink.noEgress with link := st })
  let c := if p.linked && p.mirrorRole then mirrPortLost n c else c
  linkService (portWant n c)

/-- Down, with its cause (R364). -/
def portDown (n code : Nat) (c : Core) : Core :=
  let c := c.modPort n (fun p => { p with lastDown := BitVec.ofNat 4 code, cnt := { p.cnt with downs := p.cnt.downs + 1 } })
  leaveLink n .down (logE 0x0C04 9 n none [(3, n), (4, code)] c)

/-! ### Training, Init and Up -/

/-- LaserCheck: training of the groups with light, or Down (R359, R364). -/
def laserCheck (n : Nat) (ok : BitVec 8) (c : Core) : Core :=
  let c := c.modPort n (fun p => { p with laser := ok, link := .laserCheck })
  if litGroups ok = 0 then portDown n 1 c
  else linkService (c.modPort n (fun p => { p with link := .train, groups := litGroups ok }))

/-- LINK_ENABLE. A port that failed its known-answer run stays Disabled (R366). -/
def fxLinkEnable (n : Nat) (ok : BitVec 8) (c : Core) : Core :=
  let p := c.port n
  if !portRuns c n ∨ p.link ≠ .disabled then c
  else
    let c := c.setPort n { p with en := true }
    if c.ust 9 n = .failed then linkService c else laserCheck n ok c

/-- PORT_TRAINING_DONE: the agreed map is the AND of both ends' (R362, R363). -/
def fxTrainingDone (n : Nat) (mine peer : BitVec 4) (c : Core) : Core :=
  let p := c.port n
  if !portRuns c n ∨ p.link ≠ .train then c
  else
    let mine := mine &&& p.groups
    let g := mine &&& peer
    let c := c.setPort n { p with localPass := mine, peerPass := peer, groups := g, width := 16 * groupCount g }
    if 16 * groupCount g < p.minWidth then portDown n 3 c
    else linkService (c.modPort n (fun p => { p with link := .init, rxNo := 0, txNo := 0 }))

/-- NARROW when it is newly set (R363). -/
def narrowCheck (n : Nat) (c : Core) : Core :=
  let p := c.port n
  let now := p.isNarrow
  let c := if now && !p.narrow then logE 0x0C02 9 n none [(3, n), (2, p.widthCode), (4, p.groups.toNat)] c else c
  c.modPort n (fun p => { p with narrow := now })

/-- Credits that the port advertises on a channel (R381). -/
def Port.advertised (p : Port) (vc : Nat) : Nat :=
  if vc = 0 then field p.credInit0 15 0 else if vc = 1 then field p.credInit0 31 16
  else if vc = 2 then field p.credInit1 15 0 else field p.credInit1 31 16

/-- Up from Init: sequence numbers zero, credits as advertised (R379, R384). -/
def portUp (n : Nat) (c : Core) : Core :=
  let p := c.port n
  let vcs := [0, 1, 2, 3].foldl (fun t v =>
    let x := tget {} v p.vcs
    tput {} v { limit := x.limit, returned := BitVec.ofNat 16 (p.advertised v), sentCrd := BitVec.ofNat 16 (p.advertised v), room := p.advertised v : Vc } t) []
  let c := c.setPort n { p with link := .up, next := 0, oldest := 0, expected := 0, buf := [], replaying := [], replayCount := 0, replayedSince := false,
                                askReplay := false, vcs := vcs }
  let c := logE 0x0C01 9 n none [(3, n), (2, p.widthCode), (4, p.groups.toNat)] c
  linkService (portWant n (narrowCheck n c))

/-- The end of the handshake of Init (R384). -/
def initCheck (n : Nat) (c : Core) : Core :=
  let p := c.port n
  if p.link = .init ∧ p.initGot ∧ p.doneSent ∧ p.doneGot ∧ !p.initBad then portUp n c else c

/-- A replay from OLDEST (R376). -/
def replayNow (n : Nat) (counted : Bool) (c : Core) : Core :=
  let c := c.modPort n (fun p => { p with
    replaying := p.buf, replayedSince := true, replayCount := if counted then p.replayCount + 1 else p.replayCount,
    cnt := { p.cnt with replays := p.cnt.replays + 1 } })
  countEvent 9 n 4 1 none c

/-- Up again after a retrain: the replay from OLDEST, which R377 does not count. -/
def resumeCheck (n : Nat) (c : Core) : Core :=
  let p := c.port n
  if p.link = .retrain ∧ p.resuming ∧ p.resumeSent ∧ p.resumeGot ∧ !p.resumeBad then
    let c := c.setPort n { p with link := .up, resuming := false, resumeSent := false, resumeGot := false }
    let c := if p.buf = [] then c else replayNow n false c
    linkService (narrowCheck n (logE 0x0C03 9 n none [(3, n), (4, p.retrainWhy), (2, p.widthCode)] c))
  else c

/-- Retrain: flits stop, the link-layer state is kept, a replay in progress is abandoned (R364, R365, R377). `why`: 0 lock loss, 1 laser,
2 fifth replay, 3 RETRAIN flit, 4 software. RETRAIN goes out three times while the lanes still run (R384). -/
def startRetrain (n why : Nat) (lanes : Bool) (c : Core) : Core :=
  let c := c.modPort n (fun p => { p with
    link := .retrain, replaying := [], resuming := false, resumeSent := false, resumeGot := false, resumeBad := false, retrainLeft := if lanes then 3 else 0,
    retrainWhy := (Config.logEnum 0x0C03 why).toNat, cnt := { p.cnt with retrains := p.cnt.retrains + 1 } })
  linkService c

/-- A counted replay; the fifth of one OLDEST becomes a retrain (R377). -/
def startReplay (n : Nat) (c : Core) : Core :=
  let p := c.port n
  if p.buf = [] then c else if 4 ≤ p.replayCount then startRetrain n 2 true c else replayNow n true c

def portIn (c : Core) (n : Nat) (l : List LinkSt) : Bool := portRuns c n && l.contains (c.port n).link

def fxLinkDisable (n : Nat) (c : Core) : Core :=
  if !portRuns c n then c else leaveLink n .disabled (c.modPort n (fun p => { p with en := false }))
def fxLinkRetrain (n : Nat) (c : Core) : Core := if portIn c n [.up] then startRetrain n 4 true c else c
def fxLinkDown (n : Nat) (c : Core) : Core := if portRuns c n && !portIn c n [.disabled, .down] then portDown n 9 c else c
def fxTrainTimeout (n : Nat) (c : Core) : Core := if portIn c n [.train] then portDown n 2 c else c
def fxInitTimeout (n : Nat) (c : Core) : Core := if portIn c n [.init] then portDown n 4 c else c
def fxRetrainTimeout (n : Nat) (c : Core) : Core := if portIn c n [.retrain] then portDown n 5 c else c
def fxDownRetry (n : Nat) (ok : BitVec 8) (c : Core) : Core :=
  if portIn c n [.down] && (c.port n).en then laserCheck n ok c else c
def fxReplayTimeout (n : Nat) (c : Core) : Core := if portIn c n [.up] then startReplay n c else c

/-- Codewords and symbols that the decoder could not or could correct are not said by the flits: their counts are free (R360, R390, log 3). -/
def fecNoise (n : Nat) (uncorr : Bool) (c : Core) : Core :=
  let (v, c) := c.free
  let k := v.setWidth 32
  if uncorr then c.modPort n (fun p => { p with cnt := { p.cnt with fecUncorr := p.cnt.fecUncorr + k } })
  else countEvent 9 n 13 k.toNat none (c.modPort n (fun p => { p with cnt := { p.cnt with fecCorr := p.cnt.fecCorr + k } }))

def fxLockLoss (n : Nat) (c : Core) : Core := if portIn c n [.up] then startRetrain n 0 false (fecNoise n true c) else c

/-- LASER_LOW: a fibre falls below threshold (R359). -/
def fxLaserLow (n : Nat) (ok : BitVec 8) (c : Core) : Core :=
  if !portRuns c n then c
  else
    let p := c.port n
    let fell := decide (p.laser &&& ~~~ok ≠ 0)
    let c := c.setPort n { p with laser := ok }
    if fell && decide (p.link = .up) then startRetrain n 1 false c else c

/-- PORT_RETRAIN_DONE: failing groups are dropped, the width never grows (R365). -/
def fxRetrainDone (n : Nat) (passed : BitVec 4) (c : Core) : Core :=
  if !portIn c n [.retrain] then c
  else
    let p := c.port n
    let g := p.groups &&& passed &&& litGroups p.laser
    let c := c.setPort n { p with groups := g, width := 16 * groupCount g, resuming := true }
    if 16 * groupCount g < p.minWidth then portDown n 3 c else linkService c

/-! ### Packets on a channel (R371, R372, R441) -/

/-- Slots of a packet from its first slot; none for a start that cannot be framed. -/
def packetLen (mirror : Bool) (vc : Nat) (s : BitVec 128) : Option Nat :=
  if vc = 3 then
    let t := field (slotWord s 0) 3 0
    if 1 ≤ t ∧ t ≤ 7 then some (1 + field (slotWord s 0) 7 4) else none
  else
    let o := opOf s
    if o = 8 ∨ o = 10 ∨ o = 0x22 ∨ o = 0x30 then some 9
    else if o = 9 then some 10
    else if (1 ≤ o ∧ o ≤ 15) ∨ o = 0x10 ∨ o = 0x11 ∨ o = 0x20 ∨ o = 0x21 ∨ o = 0x28 ∨ o = 0x31 ∨ (0x38 ≤ o ∧ o ≤ 0x3B) then some 1
    else if mirror ∧ o = 0x3C then some (1 + field (slotWord s 0) 27 24)
    else if mirror ∧ o = 0x3D then some 1
    else if mirror ∧ o = 0x3E then some 9
    else none

/-- Data slots of a packet begin here (R371, R389); an MGT packet has none. -/
def dataFrom (vc : Nat) (s : BitVec 128) : Nat :=
  let o := opOf s
  if vc = 3 then 16
  else if o = 9 then 2
  else if o = 0x3C then (if field (slotWord s 0) 27 24 = 10 then 3 else 2)
  else 1

/-- The channel that R371 gives an opcode. -/
def nativeVc (o : Nat) : Nat :=
  if o = 0x10 ∨ o = 0x11 then 1 else if (1 ≤ o ∧ o ≤ 15) ∨ o = 0x3C ∨ o = 0x3E then 0 else 2

/-- A message the device never receives in this role (R386). -/
def badDirection (mirror : Bool) (vc : Nat) (s : BitVec 128) : Bool :=
  if vc = 3 then
    let t := field (slotWord s 0) 3 0
    if mirror then decide (t ≠ 7) else !(decide (t = 2) || decide (t = 5))
  else
    let o := opOf s
    if mirror then decide (o < 0x3C)
    else !((decide (1 ≤ o) && decide (o ≤ 15)) || decide (o = 0x20) || decide (o = 0x21) || decide (o = 0x22) || decide (o = 0x28))

/-- Reserved fields of the message's header slot (R63–R66, R372, R441). -/
def resvSet (vc : Nat) (s : BitVec 128) : Bool :=
  let w := slotWord s
  let o := opOf s
  if vc = 3 then decide (field (w 0) 31 26 ≠ 0) || decide (field (w 1) 31 18 ≠ 0) || decide (w 2 ≠ 0) || decide (w 3 ≠ 0)
  else if o ≤ 15 then decide (field (w 2) 6 0 ≠ 0) || decide (field (w 3) 31 8 ≠ 0)
  else if o ≤ 0x11 then
    decide (field (w 0) 31 25 ≠ 0) || decide (field (w 1) 31 18 ≠ 0) || decide (field (w 2) 6 0 ≠ 0) || decide (field (w 3) 31 24 ≠ 0)
  else if o ≤ 0x28 then decide (field (w 0) 31 26 ≠ 0) || decide (field (w 1) 31 18 ≠ 0) || decide (field (w 2) 31 16 ≠ 0)
  else if 0x3C ≤ o then decide (field (w 2) 31 24 ≠ 0)
  else false

/-- Violations of a packet start (R386). -/
def startViolations (mirror : Bool) (vc : Nat) (s : BitVec 128) : List Nat :=
  (if vc ≠ 3 ∧ nativeVc (opOf s) ≠ vc then [7] else []) ++ (if resvSet vc s then [8] else []) ++ (if badDirection mirror vc s then [9] else [])

/-- The packet is not used: always for DIRECTION, in strict mode for VC_MISMATCH and MSG_RESV (R386). -/
def dropsPacket (strict : Bool) (vs : List Nat) : Bool := vs.contains 9 || (strict && (vs.contains 7 || vs.contains 8))

/-- What a payload flit brings: the channel's new state, whole packets, violations, and the code of a fatal one. -/
structure Parsed where
  vc : Vc
  packets : List FabricPkt
  strays : List Req
  bad : List Nat
  fatal : Option Nat

/-- Credits of `s` slots (R378). -/
def slotCost (s : Nat) : Nat := ceilDiv s 2

/-- A packet that is whole: a request on a fabric port's REQ channel holds its buffer until the checks of R42 take it, every other packet's
buffer is free at once (R379). A request that came on another channel holds none (R386). -/
def takeWhole (mirror strict : Bool) (vcn : Nat) (x : Parsed) : Parsed :=
  let pk := x.vc.part
  let s := pk.headD 0
  let cost := slotCost pk.length
  let v := { x.vc with part := [], need := 0 }
  let freed := { v with room := v.room + cost, returned := v.returned + BitVec.ofNat 16 cost }
  if dropsPacket strict (startViolations mirror vcn s) then { x with vc := freed }
  else
    let k := packetOf vcn pk
    match (if mirror then none else k.request?) with
    | some q =>
      if vcn = 0 then { x with vc := { v with used := v.used + cost }, packets := x.packets ++ [k] }
      else { x with vc := freed, packets := x.packets ++ [k], strays := x.strays ++ [q] }
    | none => { x with vc := freed, packets := x.packets ++ [k] }

/-- Packets that begin in the slots `ss` (R371). -/
def parseStarts (mirror strict : Bool) (vcn : Nat) : Nat → List (BitVec 128) → Parsed → Parsed
  | 0, _, x => x
  | _, [], x => x
  | n + 1, s :: rest, x =>
    if slotWord s 0 = 0 then x
    else match packetLen mirror vcn s with
      | none => { x with bad := x.bad ++ [6], fatal := some 8 }
      | some len =>
        let cost := slotCost len
        if x.vc.room < cost then { x with bad := x.bad ++ [5], fatal := some 7 }
        else
          let here := (s :: rest).take len
          let x := { x with vc := { x.vc with room := x.vc.room - cost, part := here, need := len - here.length },
                            bad := x.bad ++ startViolations mirror vcn s }
          if here.length < len then x
          else parseStarts mirror strict vcn n ((s :: rest).drop len) (takeWhole mirror strict vcn x)

/-- The 15 slots of a payload. -/
def slots15 (f : Flit) : List (BitVec 128) := (f.slots ++ List.replicate 15 0).take 15

/-- An accepted payload flit: the pending packet goes on, then new packets begin at FIRST (R368, R371). -/
def parseFlit (mirror strict : Bool) (vcn : Nat) (v : Vc) (f : Flit) : Parsed :=
  let x : Parsed := ⟨v, [], [], [], none⟩
  let first := f.first.toNat
  if !(decide (first = 15) || (decide (v.need ≤ 14) && decide (first = v.need))) then { x with bad := [6], fatal := some 8 }
  else
    let k := min v.need 15
    let x := { x with vc := { v with part := v.part ++ (slots15 f).take k, need := v.need - k } }
    let x := if v.need ≠ 0 ∧ x.vc.need = 0 then takeWhole mirror strict vcn x else x
    if first = 15 then x else parseStarts mirror strict vcn 15 ((slots15 f).drop first) x

/-! ### Capture (R387–R389) -/

/-- The partition whose endpoint a header slot names. -/
def slotPtn (c : Core) (s : BitVec 128) : Option Nat :=
  (c.ptns.find? (fun p => p.2.en &&
    (decide (p.2.endpoint.toNat = field (slotWord s 0) 17 0) || decide (p.2.endpoint.toNat = field (slotWord s 1) 17 0)))).map (fun p => p.1)

/-- Data slots of partition `p` may be recorded. -/
def mayRecord (c : Core) (n : Nat) (p : Option Nat) : Bool :=
  (c.port n).cap.cfg.getLsbD 6 && (match p with
    | some p => c.sec.consent.getLsbD p
    | none => false)

/-- Slots from a packet start on, data slots zeroed where they may not be recorded; the flag says that one was. -/
def maskStarts (c : Core) (n : Nat) (mirror : Bool) (vcn : Nat) : Nat → List (BitVec 128) → List (BitVec 128) × Bool
  | 0, l => (l, false)
  | _, [] => ([], false)
  | k + 1, s :: rest =>
    match packetLen mirror vcn s with
    | none => (s :: rest, false)
    | some len =>
      let ok := mayRecord c n (slotPtn c s)
      let d := dataFrom vcn s
      let here := (s :: rest).take len
      let kept := here.zipIdx.map (fun x => if x.2 < d || ok then x.1 else 0)
      let (more, m) := maskStarts c n mirror vcn k ((s :: rest).drop len)
      (kept ++ more, m || (!ok && decide (d < here.length)))

/-- A flit as it is recorded: `cont` is the packet that the first slots continue, its slots so far and its partition, where known. -/
def maskFlit (c : Core) (n : Nat) (f : Flit) (cont : Option (List (BitVec 128) × Option Nat)) : Flit × Bool :=
  if f.kind ≠ 0 then (f, false)
  else
    let mirror := (c.port n).mirrorRole
    let vcn := f.vc.toNat
    let first := f.first.toNat
    let ss := slots15 f
    let (known, d, ok) := match cont with
      | some (part, p) => (part.length, (match part.head? with | some h => dataFrom vcn h | none => 0), mayRecord c n p)
      | none => (0, 0, false)
    let ok := ok || decide (vcn = 3)
    let pre := (ss.take first).zipIdx.map (fun x => if ok || known + x.2 < d then x.1 else 0)
    let m1 := !ok && decide (d < known + first) && decide (0 < first)
    let (post, m2) := maskStarts c n mirror vcn 15 (ss.drop first)
    ({ f with slots := pre ++ post }, m1 || m2)

/-- The trigger fires: POST further flits follow, then the store is frozen and may trigger a freeze of the chip or a partition (R387, R541). -/
def capDone (n : Nat) (c : Core) : Core :=
  let c := c.modPort n (fun p => { p with cap := { p.cap with st := 3 } })
  if c.evc.freezeCfg.getLsbD 1 && c.evc.freezeCfg.getLsbD 4 && decide (field c.evc.freezeCfg 10 8 = n) then
    freeze 4 (!(c.evc.freezeCfg.getLsbD 0)) c
  else c

def capTrigger (n : Nat) (c : Core) : Core :=
  let k := (c.port n).cap
  if k.st ≠ 1 then c
  else
    let post := field k.cfg 25 16
    let c := c.modPort n (fun p => { p with cap := { k with st := 2, post := post, trigIndex := k.ents.length - 1 } })
    if post = 0 then capDone n c else c

/-- A flit matches CAP_MATCH and CAP_EP (R387, R390). -/
def capMatches (k : Cap) (f : Flit) : Bool :=
  let head := if f.kind = 0 ∧ f.first ≠ 15 then (slots15 f)[f.first.toNat]? else none
  let m := k.mtch
  (!m.getLsbD 10 || decide (field m 1 0 = f.vc.toNat)) &&
  (!m.getLsbD 11 || decide (field m 3 2 = f.kind.toNat)) &&
  (!m.getLsbD 12 || (match head with
    | some s => decide (field m 9 4 = opOf s)
    | none => false)) &&
  (decide (field k.epMask 17 0 = 0) || (match head with
    | some s => decide ((field (slotWord s 1) 17 0 ^^^ field k.ep 17 0) &&& field k.epMask 17 0 = 0)
    | none => false))

/-- A flit recorded, when the store records its direction (R387, R388); `viol` is its first violation, `chk` asks for the checker's trigger. -/
def capture (n : Nat) (sent crcBad rep : Bool) (viol : Nat) (chk : Bool) (no : BitVec 32) (f : Flit)
    (cont : Option (List (BitVec 128) × Option Nat)) (c : Core) : Core :=
  let k := (c.port n).cap
  let dir := if field k.cfg 2 1 = 0 then 1 else field k.cfg 2 1
  if !(decide (k.st = 1) || decide (k.st = 2)) || !(if sent then decide (2 ≤ dir) else decide (dir ≠ 2)) then c
  else
    let (g, masked) := if crcBad then ({ f with slots := [] }, true) else maskFlit c n f cont
    let trig := field k.cfg 5 4
    let fires := decide (k.st = 1) && ((chk && (decide (trig = 1) || decide (trig = 3))) ||
      (!crcBad && (decide (trig = 2) || decide (trig = 3)) && capMatches k f))
    let ents := k.ents ++ [⟨sent, crcBad, masked, fires, rep, BitVec.ofNat 8 viol, no, g⟩]
    let excess := ents.length - 1024
    let k' := { k with ents := ents.drop excess, trigIndex := k.trigIndex - excess, post := if k.st = 2 then k.post - 1 else k.post }
    let c := c.modPort n (fun p => { p with cap := k' })
    if fires then capTrigger n c else if k.st = 2 ∧ k.post ≤ 1 then capDone n c else c

/-- CAP_ARM: EN = 1 clears the store and arms it. -/
def fxCapArm (n : Nat) (c : Core) : Core :=
  if !c.hasUnit 9 n then c
  else c.modPort n (fun p => { p with cap := { p.cap with cfg := p.cap.cfg ||| 1, st := 1, ents := [], trigIndex := 0, post := 0 } })
def fxCapGo (n : Nat) (c : Core) : Core := if c.hasUnit 9 n then capTrigger n c else c

/-! ### The CRC (R369) -/

/-- CRC-64 (R369): one bit, one byte, a list of bytes. -/
def crcBit (r : BitVec 64) : BitVec 64 := if r.getLsbD 63 then (r <<< 1) ^^^ 0x42F0E1EBA9EA3693 else r <<< 1
def crcByte (r : BitVec 64) (b : Nat) : BitVec 64 :=
  crcBit (crcBit (crcBit (crcBit (crcBit (crcBit (crcBit (crcBit (r ^^^ (BitVec.ofNat 64 b <<< 56)))))))))
def crc64 (bs : List Nat) : BitVec 64 := bs.foldl crcByte 0xFFFFFFFFFFFFFFFF ^^^ 0xFFFFFFFFFFFFFFFF

/-- `n` bytes of a number, least significant first. -/
def leBytes : Nat → Nat → List Nat
  | 0, _ => []
  | n + 1, v => v % 256 :: leBytes n (v / 256)

/-- Bytes 0–247 of a flit (R367, R368). -/
def flitBytes (f : Flit) : List Nat :=
  leBytes 4 (f.seq.toNat + f.ack.toNat * 65536) ++
  leBytes 4 (f.crd.toNat + f.crdVc.toNat * 2 ^ 16 + f.kind.toNat * 2 ^ 18 + f.vc.toNat * 2 ^ 20 + f.first.toNat * 2 ^ 22 +
    f.replayReq.toNat * 2 ^ 26 + f.retx.toNat * 2 ^ 27 + f.resv.toNat * 2 ^ 28) ++
  (slots15 f).flatMap (fun s => leBytes 16 s.toNat)

/-- The CRC of a received flit holds. -/
def crcGood (f : Flit) : Bool := decide (f.crc = crc64 (flitBytes f))

/-! ### Receiving flits (R367–R386) -/

/-- Violations counted, recorded and logged, in count and strict mode (R386). -/
def violate (n : Nat) (vs : List Nat) (vc : BitVec 2) (c : Core) : Core :=
  if field (c.port n).cfg 9 8 = 0 then c
  else vs.foldl (fun c v =>
    let c := c.modPort n (fun p => { p with
      chkCount := p.chkCount + 1, chkFirst := if p.chkValid then p.chkFirst else BitVec.ofNat 8 v, chkValid := true })
    logE 0x0C06 9 n none [(3, n), (8, v), (2, vc.toNat), (2, (c.port n).cap.st.toNat)] c) c

def Port.strict (p : Port) : Bool := decide (field p.cfg 9 8 = 2)

/-- ACK, CRD and REPLAY_REQ of a header (R373, R374, R376, R379); the violations it makes. -/
def useHeader (n : Nat) (f : Flit) (c : Core) : List Nat × Core :=
  let p := c.port n
  let k := (f.ack - p.oldest).toNat
  let okA := decide (k ≤ (p.next - p.oldest).toNat)
  let p := if okA && decide (0 < k) then
      { p with oldest := f.ack, buf := p.buf.drop k, replayCount := 0, replayedSince := false,
               replaying := p.replaying.filter (fun x => (p.buf.drop k).any (fun y => decide (y.1.seq = x.1.seq))) }
    else p
  let v := tget {} f.crdVc.toNat p.vcs
  let okC := decide ((f.crd - v.limit).toNat < 2 ^ 15)
  let p := if okC then { p with vcs := tput {} f.crdVc.toNat { v with limit := f.crd } p.vcs } else p
  let c := c.setPort n p
  let c := if f.replayReq && !p.replayedSince then startReplay n c else c
  ((if okA then [] else [2]) ++ (if okC then [] else [3]), c)

/-- Violations that the header and a control flit's reserved fields make (R386). -/
def flitViolations (f : Flit) : List Nat × List Nat :=
  (if f.resv ≠ 0 ∨ f.kind = 3 then [1] else [],
   if f.kind = 2 ∧ (field (slotWord (f.slots.headD 0) 0) 31 9 ≠ 0 ∨ field (slotWord (f.slots.headD 0) 3) 31 4 ≠ 0) then [8] else [])

/-- The unit forwards packet `k` of channel `vc`: every request, for the checks of R42, and the rest only while it is Serving; MGT packets
always (R366). -/
def forwards (c : Core) (n vc : Nat) (k : FabricPkt) : Bool :=
  decide (vc = 3) || decide (c.ust 9 n = .serving) || (!(c.port n).mirrorRole && k.request?.isSome)

/-- A flit that has passed its CRC while the link is Up. -/
def receiveUp (n : Nat) (f : Flit) (c : Core) : Core :=
  let p0 := c.port n
  let no := p0.rxNo
  let c := fecNoise n false (countEvent 9 n 1 1 none (c.setPort n { p0 with rxNo := p0.rxNo + 1 }))
  let ctl := field (slotWord (f.slots.headD 0) 0) 3 0
  let (hdr, resv) := flitViolations f
  if f.kind = 2 ∧ ctl ≠ 3 then
    let vs := hdr ++ [4]
    capture n false false false (vs.headD 0) p0.strict no f none (violate n vs f.vc c)
  else
    let (hv, c) := useHeader n f c
    let p := c.port n
    if f.kind ≠ 0 then
      let vs := hdr ++ hv ++ resv
      let c := capture n false false false (vs.headD 0) (p0.strict && decide (vs ≠ [])) no f none (violate n vs f.vc c)
      if f.kind = 2 ∧ p.link = .up then startRetrain n 3 true c else c
    else
      let d := (f.seq - p.expected).toNat
      if d = 0 then
        let vcn := f.vc.toNat
        let v := tget {} vcn p.vcs
        let x := parseFlit p.mirrorRole p.strict vcn v f
        let cont := if v.need = 0 then none else some (v.part, (v.part.head?.bind (slotPtn c)))
        let vs := hdr ++ hv ++ x.bad
        let c := c.setPort n { p with
          expected := p.expected + 1, askReplay := false, vcs := tput {} vcn x.vc p.vcs, strays := p.strays ++ x.strays }
        let c := capture n false false false (vs.headD 0) (p0.strict && decide (vs ≠ [])) no f cont (violate n vs f.vc c)
        let c := x.packets.foldl (fun c k => if forwards c n vcn k then c.send (.packet n f.vc k) else c) c
        match x.fatal with
        | some code => portDown n code c
        | none => c
      else
        let ahead := decide (d ≤ 32767)
        let vs := hdr ++ hv
        let c := c.setPort n { p with
          askReplay := p.askReplay || ahead,
          cnt := if ahead then { p.cnt with gapDiscard := p.cnt.gapDiscard + 1 } else { p.cnt with dupDiscard := p.cnt.dupDiscard + 1 } }
        capture n false false (!ahead) (vs.headD 0) (p0.strict && decide (vs ≠ [])) no f none (violate n vs f.vc c)

/-- The handshake of Init or of the end of a retrain runs (R384). -/
def handshaking (p : Port) : Bool := decide (p.link = .init) || (decide (p.link = .retrain) && p.resuming)

/-- A flit of a handshake, checked and recorded (R386, R387); `hv` are violations that the use of its header has made. -/
def controlIn (n : Nat) (hv : List Nat) (f : Flit) (c : Core) : Core :=
  let p := c.port n
  let (hdr, resv) := flitViolations f
  let vs := hdr ++ hv ++ resv
  let c := fecNoise n false (countEvent 9 n 1 1 none (c.setPort n { p with rxNo := p.rxNo + 1 }))
  capture n false false false (vs.headD 0) (p.strict && decide (vs ≠ [])) p.rxNo f none (violate n vs f.vc c)

/-- A flit that the handshake does not use is checked and recorded only. -/
def heard (n : Nat) (f : Flit) (c : Core) : Core := if handshaking (c.port n) then controlIn n [] f c else c

/-- A flit whose CRC fails: nothing of it is used, it is counted and may be recorded (R369, R387). -/
def badFlit (n : Nat) (f : Flit) (c : Core) : Core :=
  if !portIn c n [.init, .up, .retrain] then c
  else
    let p := c.port n
    let c := c.setPort n { p with rxNo := p.rxNo + 1, cnt := { p.cnt with crcErr := p.cnt.crcErr + 1 } }
    let c := fecNoise n true (countEvent 9 n 5 1 none (countEvent 9 n 1 1 none c))
    capture n false true false 0 false p.rxNo f none c

/-- A flit that arrives: used by `good` where its CRC holds. -/
def checked (n : Nat) (f : Flit) (good : Core → Core) (c : Core) : Core :=
  if !portRuns c n then c else if crcGood f then good c else badFlit n f c

/-- FLIT_CRC_ERROR: a flit whose CRC fails. -/
def fxCrcError (n : Nat) (f : Flit) (c : Core) : Core := if portRuns c n && !crcGood f then badFlit n f c else c

/-- An idle or payload flit: it ends a handshake (R384), then it is taken. -/
def receive (n : Nat) (f : Flit) (c : Core) : Core :=
  checked n f (fun c =>
    let c := if (c.port n).link = .init then initCheck n (c.modPort n (fun p => { p with doneGot := true }))
      else if (c.port n).link = .retrain ∧ (c.port n).resuming then resumeCheck n (c.modPort n (fun p => { p with resumeGot := true }))
      else c
    if (c.port n).link = .up then receiveUp n f c else heard n f c) c

def fxPayloadFlit (n : Nat) (f : Flit) (c : Core) : Core := if f.kind = 0 then receive n f c else c
def fxIdleFlit (n : Nat) (f : Flit) (c : Core) : Core := if f.kind = 1 ∨ f.kind = 3 then receive n f c else c

/-- Version, role and groups of a handshake are those of this end (R383, R384). -/
def sameLink (p : Port) (f : Flit) : Bool :=
  let s := f.slots.headD 0
  decide (field (slotWord s 0) 7 4 = 1) && decide ((slotWord s 0).getLsbD 8 = p.mirrorRole) && decide (field (slotWord s 3) 3 0 = p.groups.toNat)

def ctlOf (f : Flit) : Nat := if f.kind = 2 then field (slotWord (f.slots.headD 0) 0) 3 0 else 16

/-- INIT: the peer's credits are recorded, or the handshake fails (R384). While Up, and for every unlisted CTL, CTL_STATE (R386). -/
def fxInit (n : Nat) (f : Flit) (c : Core) : Core :=
  if f.kind ≠ 2 ∨ ctlOf f = 2 ∨ ctlOf f = 3 ∨ ctlOf f = 4 then c
  else checked n f (fun c =>
    if (c.port n).link = .up then receiveUp n f c
    else if (c.port n).link ≠ .init then heard n f c
    else
      let c := controlIn n [] f c
      if ctlOf f ≠ 1 then c
      else
        let p := c.port n
        if !sameLink p f then c.setPort n { p with initBad := true }
        else
          let s := f.slots.headD 0
          let lim (v : Nat) : BitVec 16 := BitVec.ofNat 16 (field (slotWord s (1 + v / 2)) (16 * (v % 2) + 15) (16 * (v % 2)))
          let vcs := [0, 1, 2, 3].foldl (fun t v => tput {} v { tget ({} : Vc) v t with limit := lim v } t) p.vcs
          initCheck n (c.setPort n { p with initGot := true, vcs := vcs })) c

def fxInitDone (n : Nat) (f : Flit) (c : Core) : Core :=
  if ctlOf f ≠ 2 then c
  else checked n f (fun c =>
    if (c.port n).link = .up then receiveUp n f c
    else if (c.port n).link ≠ .init then heard n f c
    else initCheck n ((controlIn n [] f c).modPort n (fun p => { p with doneGot := true }))) c

def fxRetrainFlit (n : Nat) (f : Flit) (c : Core) : Core :=
  if ctlOf f ≠ 3 then c else checked n f (fun c => if (c.port n).link = .up then receiveUp n f c else heard n f c) c

/-- RESUME: its ACK and CRD are used; one whose version, role or groups differ fails the handshake, and the retrain timer decides (R384). -/
def fxResume (n : Nat) (f : Flit) (c : Core) : Core :=
  if ctlOf f ≠ 4 then c
  else checked n f (fun c =>
    if (c.port n).link = .up then receiveUp n f c
    else if (c.port n).link ≠ .retrain ∨ !(c.port n).resuming then heard n f c
    else
      let (hv, c) := useHeader n { f with replayReq := false } c
      let c := controlIn n hv f c
      if sameLink (c.port n) f then resumeCheck n (c.modPort n (fun p => { p with resumeGot := true }))
      else c.modPort n (fun p => { p with resumeBad := true })) c

/-! ### Egress (R422–R428) -/

/-- Comparison of tags (R424). -/
def tagBefore (a b : BitVec 32) : Bool := decide (0x80000000 ≤ (a - b).toNat)

/-- Tokens after `n` mesh cycles at `rate` MB/s, up to `size` bytes (R419). -/
def Bucket.accrue (b : Bucket) (rate size n : Nat) : Bucket :=
  let x := b.rem + rate * 65536 * n
  let t := b.tok + x / 2000
  if size * 65536 ≤ t then ⟨size * 65536, x % 2000⟩ else ⟨t, x % 2000⟩

/-- Packets in the fair queues' shared buffer (R423). -/
def Port.buffered (p : Port) : Nat := (p.queues.map (fun y => y.2.pkts.length)).sum

/-- A response enters its fair queue with a tag (R423, R424). A queue or buffer that is full takes nothing: the mesh holds the packet. -/
def fairEnqueue (n : Nat) (k : EgPkt) (c : Core) : Core :=
  let p := c.port n
  let q := 4 * k.ptn + (egClass k.body).toNat
  let x := tget ({} : FairQ) q p.queues
  if 512 ≤ x.pkts.length ∨ 4096 ≤ p.buffered then c
  else
    let w := if field x.weight 11 0 = 0 then 1 else field x.weight 11 0
    let s := if tagBefore x.f p.vtime then p.vtime else x.f
    let f := s + BitVec.ofNat 32 (ceilDiv (egLen k.body * 65536) w)
    c.setPort n { p with
      queues := tput {} q { x with pkts := x.pkts ++ [(k, f)], f := f } p.queues,
      bufPeak := if p.bufPeak.toNat < p.buffered + 1 then BitVec.ofNat 13 (p.buffered + 1) else p.bufPeak }

/-- A packet that the mesh delivers, discarded where the link carries none (R366): a completion for the fair queues, a snoop, an MGT packet
(R422). The mirror engine's packets do not come this way (R443), nor do hosts' answers and snoops to a mirror port. -/
def fxEgressEnqueue (n : Nat) (k : EgPkt) (c : Core) : Core :=
  if !portRuns c n then c
  else
    let p := c.port n
    if !p.linked then discardEgress n [k] c
    else match k.body with
      | .mgt .. => c.setPort n { p with mgt := p.mgt ++ [k] }
      | .snoop .. => if p.mirrorRole then c else c.setPort n { p with snoops := p.snoops ++ [k] }
      | .cmp _ => if p.mirrorRole then c else fairEnqueue n k c
      | _ => c

/-- Free credit of a channel (R379). -/
def Port.avail (p : Port) (vc : Nat) : Nat := ((tget {} vc p.vcs).limit - (tget {} vc p.vcs).consumed).toNat

/-- Heads of the fair queues: queue, packet, tag. -/
def Port.heads (p : Port) : List (Nat × EgPkt × BitVec 32) := p.queues.filterMap (fun q => q.2.pkts.head?.map (fun k => (q.1, k.1, k.2)))

/-- The earliest tag; on equal tags the lower queue number. -/
def earliest : List (Nat × EgPkt × BitVec 32) → Option (Nat × EgPkt × BitVec 32)
  | [] => none
  | x :: r => match earliest r with
    | none => some x
    | some y => if tagBefore y.2.2 x.2.2 then some y else some x

def eligible (p : Port) (k : EgPkt) : Bool :=
  let s := tget ({} : Shaper) k.ptn p.shapers
  !s.en || decide (egLen k.body * 16 * 65536 ≤ s.b.tok)

/-- Credit consumed at a packet's start (R379, R380). -/
def Port.consume (p : Port) (vc len : Nat) : Port :=
  let v := tget ({} : Vc) vc p.vcs
  { p with vcs := tput {} vc { v with consumed := v.consumed + BitVec.ofNat 16 (slotCost len) } p.vcs }

/-- The next packet of a channel, taken from its queue with credit and tokens (R422, R424, R425, R443). -/
def nextPacket (p : Port) (vc : Nat) : Option (EgPkt × Port) :=
  let room (k : EgPkt) : Bool := decide (slotCost (egLen k.body) ≤ p.avail vc)
  if vc = 3 then
    match p.mgt with
    | k :: r => if room k then some (k, { p.consume 3 (egLen k.body) with mgt := r }) else none
    | [] => none
  else if vc = 1 then
    match p.snoops with
    | k :: r => if room k then some (k, { p.consume 1 (egLen k.body) with snoops := r }) else none
    | [] => none
  else if vc = 0 then
    match p.reqs with
    | k :: r => if room k then some (k, { p.consume 0 (egLen k.body) with reqs := r }) else none
    | [] => none
  else match p.answers with
    | k :: r => if room k then some (k, { p.consume 2 (egLen k.body) with answers := r }) else none
    | [] =>
      match earliest (p.heads.filter (fun h => eligible p h.2.1)) with
      | none => none
      | some (q, k, tag) =>
        if !room k then none
        else
          let p := match earliest p.heads with
            | some (_, k0, _) =>
              if eligible p k0 then p
              else
                let s := tget ({} : Shaper) k0.ptn p.shapers
                { p with shapers := tput {} k0.ptn { s with holds := s.holds + 1 } p.shapers }
            | none => p
          let x := tget ({} : FairQ) q p.queues
          let s := tget ({} : Shaper) k.ptn p.shapers
          let p := p.consume 2 (egLen k.body)
          some (k, { p with
            vtime := tag,
            queues := tput {} q { x with pkts := x.pkts.drop 1, sent := x.sent + BitVec.ofNat 32 (egLen k.body * 16) } p.queues,
            shapers := if s.en then tput {} k.ptn { s with b := { s.b with tok := s.b.tok - egLen k.body * 16 * 65536 } } p.shapers else p.shapers })

/-- New packets packed into the rest of a flit; a packet that does not fit goes on in a later flit (R371). -/
def packMore (vc : Nat) : Nat → List (BitVec 128) → List EgPkt → Port → List (BitVec 128) × List EgPkt × Port
  | 0, acc, ks, p => (acc, ks, p)
  | n + 1, acc, ks, p =>
    if 15 ≤ acc.length then (acc, ks, p)
    else match nextPacket p vc with
      | none => (acc, ks, p)
      | some (k, p) =>
        let ss := egWords k.body
        let room := 15 - acc.length
        let v := tget ({} : Vc) vc p.vcs
        let p := { p with vcs := tput {} vc { v with rest := ss.drop room, restPtn := k.ptn } p.vcs }
        packMore vc n (acc ++ ss.take room) (ks ++ [k]) p

/-- A channel that can fill a flit now. -/
def hasWork (p : Port) (vc : Nat) : Bool := decide ((tget ({} : Vc) vc p.vcs).rest ≠ []) || (nextPacket p vc).isSome

/-- Channels in order of priority (R422, R443). -/
def vcOrder (mirror : Bool) : List Nat := if mirror then [3, 2, 0] else [3, 1, 2]

/-- The credit count that the next header of a channel carries: RETURNED, at most 2^15 − 1 units beyond the last one (R381). -/
def Vc.nextCrd (v : Vc) : BitVec 16 := if (v.returned - v.sentCrd).toNat < 2 ^ 15 then v.returned else v.sentCrd + 0x7FFF

/-- A flit with this end's ACK, credit count and REPLAY_REQ, and its CRC; the stored CRC bytes are little-endian. -/
def sealFlit (p : Port) (f : Flit) : Flit :=
  let g := { f with ack := p.expected, crdVc := p.crdVc, crd := (tget ({} : Vc) p.crdVc.toNat p.vcs).nextCrd, replayReq := p.askReplay, crc := 0 }
  { g with crc := crc64 (flitBytes g) }

/-- A flit goes out: CRD_VC rotates, it is counted and may be recorded (R370). -/
def emit (n : Nat) (f : Flit) (cont : Option (List (BitVec 128) × Option Nat)) (c : Core) : Core :=
  let p := c.port n
  let g := sealFlit p f
  let v := tget ({} : Vc) p.crdVc.toNat p.vcs
  let c := c.setPort n { p with crdVc := p.crdVc + 1, txNo := p.txNo + 1, vcs := tput {} p.crdVc.toNat { v with sentCrd := v.nextCrd } p.vcs }
  let c := countEvent 9 n 2 1 none (if g.kind = 0 then countEvent 9 n 3 1 none c else c)
  (capture n true false g.retx 0 false p.txNo g cont c).send (.flit n g)

def blankFlit : Flit := ⟨0, 0, 0, 0, 1, 0, 0, false, false, 0, [], 0⟩

/-- A control flit (R383). -/
def controlFlit (p : Port) (ctl : Nat) : Flit :=
  let w0 := ctl + 16 + p.mirrorRole.toNat * 256
  let cred := ctl = 1
  let w1 := if cred then p.credInit0.toNat else 0
  let w2 := if cred then p.credInit1.toNat else 0
  let w3 := if ctl = 1 ∨ ctl = 4 then p.groups.toNat else 0
  { blankFlit with kind := 2, slots := [BitVec.ofNat 128 (w0 + w1 * 2 ^ 32 + w2 * 2 ^ 64 + w3 * 2 ^ 96)] }

/-- A new payload flit of a channel. -/
def emitPayload (n vc : Nat) (c : Core) : Core :=
  let p := c.port n
  let v := tget ({} : Vc) vc p.vcs
  let cont := v.rest.take 15
  let p := { p with vcs := tput {} vc { v with rest := v.rest.drop 15 } p.vcs }
  let (ss, ks, p) := if v.rest.drop 15 = [] then packMore vc 15 cont [] p else (cont, [], p)
  let first := if ks = [] then 15 else cont.length
  let f : Flit := { blankFlit with seq := p.next, kind := 0, vc := BitVec.ofNat 2 vc, first := BitVec.ofNat 4 first, slots := ss }
  let c := c.setPort n { p with next := p.next + 1, buf := p.buf ++ [(f, v.restPtn)] }
  let c := if vc = 2 then ks.foldl (fun c k => countEvent 9 n 11 (egLen k.body) (some k.ptn) c) c else c
  emit n f (some ([], some v.restPtn)) c

/-- FLIT_SEND: control, then replayed flits, then payload by priority and credit, else idle (R367, R375, R376, R384, R422). `elapsed` mesh
cycles have passed for the shapers. -/
def fxFlitSend (n elapsed : Nat) (c : Core) : Core :=
  if !portRuns c n then c
  else
    let c := c.modPort n (fun p => { p with
      shapers := p.shapers.map (fun s => (s.1, if s.2.en then { s.2 with b := s.2.b.accrue s.2.rate (s.2.burst * 64) elapsed } else s.2)) })
    let p := c.port n
    match p.link with
    | .init =>
      if p.initGot then initCheck n ((emit n (controlFlit p 2) none c).modPort n (fun p => { p with doneSent := true }))
      else emit n (controlFlit p 1) none c
    | .retrain =>
      if 0 < p.retrainLeft then (emit n (controlFlit p 3) none c).modPort n (fun p => { p with retrainLeft := p.retrainLeft - 1 })
      else if p.resuming then resumeCheck n ((emit n (controlFlit p 4) none c).modPort n (fun p => { p with resumeSent := true }))
      else c
    | .up =>
      match p.replaying with
      | f :: r => emit n { f.1 with retx := true } (some ([], some f.2)) (c.setPort n { p with replaying := r })
      | [] =>
        match (if (p.next - p.oldest).toNat < 16384 then (vcOrder p.mirrorRole).find? (hasWork p) else none) with
        | some vc => emitPayload n vc c
        | none => emit n blankFlit none c
    | _ => c

/-- The packet of a channel that is next to be sent, whatever its credit (R422, R424, R443). -/
def nextHead (p : Port) (vc : Nat) : Option EgPkt :=
  if vc = 3 then p.mgt.head? else if vc = 1 then p.snoops.head? else if vc = 0 then p.reqs.head?
  else match p.answers.head? with
    | some k => some k
    | none => (earliest (p.heads.filter (fun h => eligible p h.2.1))).map (fun h => h.2.1)

/-- CREDIT_STALL_TIMEOUT: a packet of the channel waits for credit (R382). -/
def fxCreditStall (n vc : Nat) (c : Core) : Core :=
  let p := c.port n
  if portIn c n [.up] && (nextHead p vc).any (fun k => decide (p.avail vc < slotCost (egLen k.body))) then
    let c := logE 0x0C05 9 n none [(3, n), (2, vc)] (c.setPort n { p with cnt := { p.cnt with creditStall := p.cnt.creditStall + 1 } })
    if p.cfg.getLsbD 5 then portDown n 10 c else c
  else c

/-! ### The commands -/

def execEgressEnqueue (n : Nat) (k : EgPkt) (s : State) : Host.Outcome State Fault Refusal := actCore s (fxEgressEnqueue n k)
def execFlitSend (n elapsed : Nat) (s : State) : Host.Outcome State Fault Refusal := actCore s (fxFlitSend n elapsed)
def execPayloadFlit (n : Nat) (f : Flit) (s : State) : Host.Outcome State Fault Refusal := actCore s (fxPayloadFlit n f)
def execIdleFlit (n : Nat) (f : Flit) (s : State) : Host.Outcome State Fault Refusal := actCore s (fxIdleFlit n f)
def execFlitCrcError (n : Nat) (f : Flit) (s : State) : Host.Outcome State Fault Refusal := actCore s (fxCrcError n f)
def execPortInit (n : Nat) (f : Flit) (s : State) : Host.Outcome State Fault Refusal := actCore s (fxInit n f)
def execInitDone (n : Nat) (f : Flit) (s : State) : Host.Outcome State Fault Refusal := actCore s (fxInitDone n f)
def execPortRetrain (n : Nat) (f : Flit) (s : State) : Host.Outcome State Fault Refusal := actCore s (fxRetrainFlit n f)
def execPortResume (n : Nat) (f : Flit) (s : State) : Host.Outcome State Fault Refusal := actCore s (fxResume n f)
def execReplayTimeout (n : Nat) (s : State) : Host.Outcome State Fault Refusal := actCore s (fxReplayTimeout n)
def execCreditStallTimeout (n vc : Nat) (s : State) : Host.Outcome State Fault Refusal := actCore s (fxCreditStall n vc)
def execLockLoss (n : Nat) (s : State) : Host.Outcome State Fault Refusal := actCore s (fxLockLoss n)
def execLaserLow (n : Nat) (ok : BitVec 8) (s : State) : Host.Outcome State Fault Refusal := actCore s (fxLaserLow n ok)
def execLinkEnable (n : Nat) (ok : BitVec 8) (s : State) : Host.Outcome State Fault Refusal := actCore s (fxLinkEnable n ok)
def execLinkDisable (n : Nat) (s : State) : Host.Outcome State Fault Refusal := actCore s (fxLinkDisable n)
def execLinkRetrain (n : Nat) (s : State) : Host.Outcome State Fault Refusal := actCore s (fxLinkRetrain n)
def execLinkDown (n : Nat) (s : State) : Host.Outcome State Fault Refusal := actCore s (fxLinkDown n)
def execPortTrainingDone (n : Nat) (mine peer : BitVec 4) (s : State) : Host.Outcome State Fault Refusal :=
  actCore s (fxTrainingDone n mine peer)
def execTrainTimeout (n : Nat) (s : State) : Host.Outcome State Fault Refusal := actCore s (fxTrainTimeout n)
def execInitTimeout (n : Nat) (s : State) : Host.Outcome State Fault Refusal := actCore s (fxInitTimeout n)
def execPortRetrainDone (n : Nat) (passed : BitVec 4) (s : State) : Host.Outcome State Fault Refusal := actCore s (fxRetrainDone n passed)
def execPortRetrainTimeout (n : Nat) (s : State) : Host.Outcome State Fault Refusal := actCore s (fxRetrainTimeout n)
def execDownRetry (n : Nat) (ok : BitVec 8) (s : State) : Host.Outcome State Fault Refusal := actCore s (fxDownRetry n ok)
def execCapArm (n : Nat) (s : State) : Host.Outcome State Fault Refusal := actCore s (fxCapArm n)
def execCapGo (n : Nat) (s : State) : Host.Outcome State Fault Refusal := actCore s (fxCapGo n)

end Sys2Proof.Machine
end

