-- ==== Sys2Proof/Machine/MeshNet.lean ====
section
/-! DEFINITION. The mesh: routing, detours, the escape channel, multicast, congestion marks and map, the DMA limiter's window, and the drain
of a route change (R393–R416). -/

namespace Sys2Proof.Machine
open Sys2Proof

/-! ### Geometry (R393, R397) -/

/-- Router number of column `x` and row `y`. -/
def routerAt (x y : Nat) : Nat := y * 40 + x

/-- The router next to a destination's link: kind 0 tile, 1 edge stop, 2 port. -/
def targetRouter (kind : BitVec 2) (dst sel : Nat) : Nat :=
  if kind = 0 then dst
  else if kind = 1 then (if dst < 8 then routerAt (5 * dst + sel) 0 else routerAt (5 * (dst - 8) + sel) 20)
  else
    let b := [0, 5, 11, 16].getD (dst % 4) 0
    if dst < 4 then routerAt 0 (b + sel) else routerAt 39 (b + sel)

/-- The router that an output leads to: 0 north, 1 east, 2 south, 3 west. -/
def nextRouter (t out : Nat) : Option Nat :=
  let x := t % 40
  let y := t / 40
  if out = 0 ∧ y < 20 then some (t + 40)
  else if out = 1 ∧ x < 39 then some (t + 1)
  else if out = 2 ∧ 0 < y then some (t - 40)
  else if out = 3 ∧ 0 < x then some (t - 1)
  else none

def Mesh.routes (m : Mesh) (epoch : Bool) : Routes := if epoch then m.r1 else m.r0

/-- Plane, channel (0 VN0, 1 VN1, 2 VE) and link select of a packet (R394, R395, R397). -/
def meshPlaneB (k : MeshPkt) : Bool := trPlaneB k.tr
def meshChan (k : MeshPkt) : Nat := if k.esc then 2 else trChan k.tr
def meshSel (k : MeshPkt) : Nat := k.key % 5

/-- The output of a unicast packet (R396): the VE table for an escaped one — local where its target has no entry for itself — else the first
matching detour, else dimension order. -/
def routeOf (m : Mesh) (t : Nat) (k : MeshPkt) : Option Nat :=
  let r := m.routes k.epoch
  let g := targetRouter k.kind k.dst (meshSel k)
  let b := meshPlaneB k
  if k.esc then
    match r.ve.find? (fun v => decide (v.1 = t ∧ v.2.1 = b ∧ v.2.2.1 = g)) with
    | some v => some v.2.2.2
    | none => if g = t then some 4 else none
  else match r.detours.find? (fun d => decide (d.router = t ∧ d.planeB = b ∧ d.xLo ≤ g % 40 ∧ g % 40 ≤ d.xHi ∧ d.yLo ≤ g / 40 ∧ g / 40 ≤ d.yHi) &&
      d.inMask.getLsbD k.inp) with
    | some d => some d.out
    | none =>
      if t % 40 ≠ g % 40 then some (if t % 40 < g % 40 then 1 else 3)
      else if t / 40 ≠ g / 40 then some (if t / 40 < g / 40 then 0 else 2)
      else some 4

/-- A router that forwards nothing: Failed in service, or marked defective by the fuse map (R398, R401). -/
def deadRouter (c : Core) (t : Nat) : Bool := decide (c.ust 5 t = .failed) || c.glb.fuse.routerBad.getLsbD t

/-- Packets that an input holds of a channel (R393); those that router `r` holds at input `inp` of the plane and channel of `k`, in order. -/
def bufCap (chan : Nat) : Nat := if chan = 2 then 4 else 8
def inputBuf (r : Router) (k : MeshPkt) (inp : Nat) : List MeshPkt :=
  r.bufs.filter (fun x => decide (meshPlaneB x = meshPlaneB k ∧ meshChan x = meshChan k ∧ x.inp = inp))
def inputUse (r : Router) (k : MeshPkt) (inp : Nat) : Nat := (inputBuf r k inp).length
/-- The packet is the first of its input and channel. -/
def atHead (r : Router) (k : MeshPkt) : Bool := decide ((inputBuf r k k.inp).head? = some k)

/-- A packet sunk in the count of its epoch (R405). -/
def sink (epoch : Bool) (n : Nat) (c : Core) : Core :=
  c.modMesh (fun m => { m with sunk := tput 0 epoch.toNat (tget 0 epoch.toNat m.sunk + n) m.sunk })

/-! ### Leaves of a multicast (R406–R408) -/

def leafRouter (l : Leaf) (sel : Nat) : Nat := targetRouter (if l.kind = 0 then 0 else if l.kind = 3 then 2 else 1) l.idx sel

/-- The unicast form of the copy for a leaf. -/
def leafCopy (k : MeshPkt) (l : Leaf) : MeshPkt :=
  { k with kind := if l.kind = 0 then 0 else if l.kind = 3 then 2 else 1, dst := l.idx, leaf := some l }

/-- Outputs of a tree at a router. -/
def treeOuts (r : Routes) (t : Nat) (planeB : Bool) (tree : Nat) : List Nat :=
  match r.trees.find? (fun x => decide (x.1 = t ∧ x.2.1 = planeB ∧ x.2.2.1 = tree)) with
  | some x => bitsOf 5 x.2.2.2
  | none => []

/-- The leaves of a packet's tree. -/
def treeLeaves (r : Routes) (k : MeshPkt) : List Leaf :=
  match r.leaves.find? (fun x => decide (x.1 = meshPlaneB k ∧ x.2.1 = k.tree)) with
  | some x => x.2.2
  | none => []

/-- The leaves of a tree whose link is at router `t`. -/
def leavesAt (r : Routes) (k : MeshPkt) (t : Nat) : List Leaf :=
  (treeLeaves r k).filter (fun l => decide (leafRouter l (meshSel k) = t))

/-- The leaves below the given outputs of router `t`. -/
def leavesBelow (r : Routes) (k : MeshPkt) : Nat → Nat → List Nat → List Leaf
  | 0, _, _ => []
  | n + 1, t, outs => outs.flatMap (fun o =>
      if o = 4 then leavesAt r k t
      else match nextRouter t o with
        | some u => leavesBelow r k n u (treeOuts r u (meshPlaneB k) k.tree)
        | none => [])

/-- The leaf's unit is fenced or Failed (R407). -/
def leafFenced (c : Core) (l : Leaf) : Bool :=
  let cls := if l.kind = 0 then 4 else if l.kind = 1 then 6 else 8
  decide (l.kind ≠ 3) && (decide (c.ust cls l.idx = .fenced) || decide (c.ust cls l.idx = .failed))

/-- A host that the fence table of a port holds fenced (R88). -/
def hostFencedAt (c : Core) (n h : Nat) : Bool := (c.port n).fence.contains h || decide ((c.host h).st = 1)

/-- The copy of a leaf leaves through the egress filter of its link: the router's local output, or the port for each host that it names. -/
def deliverLeaf (t : Nat) (k : MeshPkt) (l : Leaf) (c : Core) : Core :=
  let c := sink k.epoch 1 c
  let x := leafCopy k l
  if leafFenced c l then
    let c := countEvent 5 t 5 1 none (c.modRouter t (fun r => { r with mcFenced := r.mcFenced + 1 }))
    if k.ackReq then c.send (.deliveredFenced t x) else c
  else if l.kind = 3 then
    l.hosts.foldl (fun c h =>
      let y := { x with leaf := some { l with hosts := [h] } }
      if hostFencedAt c l.idx h then
        let c := countEvent 9 l.idx 12 1 (some (c.host h).p)
          (c.modPort l.idx (fun p => { p with cnt := { p.cnt with egressDiscard := p.cnt.egressDiscard + 1 } }))
        if k.ackReq then c.send (.deliveredFenced t y) else c
      else c.send (.delivered t y)) c
  else c.send (.delivered t x)

/-! ### Forwarding (R393, R396, R401, R406, R409) -/

def markThresh (m : Mesh) : Nat := max 1 (field m.cfg 19 16)

/-- Packets of the same channel and plane that wait at router `t` for output `out`. -/
def waitingFor (c : Core) (t out : Nat) (k : MeshPkt) : Nat :=
  ((c.router t).bufs.filter (fun x => decide (meshPlaneB x = meshPlaneB k ∧ meshChan x = meshChan k) &&
    (if x.kind = 3 then (treeOuts (c.mesh.routes x.epoch) t (meshPlaneB x) x.tree).contains out else decide (routeOf c.mesh t x = some out)))).length

/-- A packet sent on an output to the next router: `none` when the output has no credit. -/
def sendOn (t out : Nat) (k : MeshPkt) (c : Core) : Option Core :=
  match nextRouter t out with
  | none => none
  | some u =>
    let fwd (c : Core) : Core := countEvent 5 t (if meshPlaneB k then 2 else 1) 1 none c
    if deadRouter c u then
      let n := if k.kind = 3 then (leavesBelow (c.mesh.routes k.epoch) k 60 u (treeOuts (c.mesh.routes k.epoch) u (meshPlaneB k) k.tree)).length else 1
      some (sink k.epoch n (c.modRouter t (fun r => { r with deadDrop := r.deadDrop + 1 })))
    else
      let inp := (out + 2) % 4
      if !c.works 5 u ∨ bufCap (meshChan k) ≤ inputUse (c.router u) k inp then none
      else
        let mark := trCe k.tr && !k.ce && decide (markThresh c.mesh ≤ waitingFor c t out k)
        let c := if mark then countEvent 5 t 4 1 none (c.modRouter t (fun r => { r with marks := r.marks + 1 })) else c
        some (fwd (c.modRouter u (fun r => { r with bufs := r.bufs ++ [{ k with inp := inp, ce := k.ce || mark }] })))

/-- The packet no longer waits at the router; or waits on, first of its input as it was. -/
def unwait (t : Nat) (k : MeshPkt) (c : Core) : Core :=
  c.modRouter t (fun r => { r with bufs := r.bufs.erase k, mc := r.mc.filter (fun x => decide (x.1 ≠ k)) })
def await (t : Nat) (k : MeshPkt) (left : List Nat) (c : Core) : Core :=
  c.modRouter t (fun r => { r with bufs := k :: r.bufs, mc := if k.kind = 3 then r.mc ++ [(k, left)] else r.mc })

/-! ### New packets (R397, R403) -/

/-- The injection point of a packet, as class × 4096 + index: a tile, a port, or of an edge stop its home or its edge unit. -/
def injOf (k : MeshPkt) : Nat :=
  if k.srcKind = 0 then 4 * 4096 + k.src
  else if k.srcKind = 2 then 9 * 4096 + k.src
  else (match k.tr with
    | .snoop | .commitA | .commitB | .homeAnswer | .completion => 6
    | _ => 8) * 4096 + k.src

/-- The epoch that an injection point stamps: the new one once it has flipped and its drain marker is out. -/
def stampEpoch (m : Mesh) (inj : Nat) : Bool :=
  match m.change with
  | some k => if k.markers.contains inj then !m.cur else m.cur
  | none => m.cur

/-- Packets that a packet counts for (R405). -/
def pktCount (r : Routes) (k : MeshPkt) : Nat := if k.kind = 3 then (treeLeaves r k).length else 1

/-- A packet that its origin may inject at router `t` now: from its own link, stamped with the epoch in force there, where its input has
room. -/
def injectable (c : Core) (t : Nat) (k : MeshPkt) : Bool :=
  decide (k.inp = 4) && !k.esc && k.leaf.isNone && !k.ce && decide (targetRouter k.srcKind k.src (meshSel k) = t) &&
  decide (k.epoch = stampEpoch c.mesh (injOf k)) && decide (inputUse (c.router t) k 4 < bufCap (meshChan k))

def inject (t : Nat) (k : MeshPkt) (c : Core) : Core :=
  let key := injOf k * 2 + k.epoch.toNat
  (c.modMesh (fun m => { m with stamped := tput 0 key (tget 0 key m.stamped + pktCount (m.routes k.epoch) k) m.stamped })).modRouter t
    (fun r => { r with bufs := r.bufs ++ [k] })

/-! ### ROUTER_FORWARD -/

/-- The copies of a multicast that credit allows now; the outputs left. -/
def sendCopies (t : Nat) (k : MeshPkt) : List Nat → Core → List Nat × Core
  | [], c => ([], c)
  | o :: rest, c =>
    if o = 4 then sendCopies t k rest ((leavesAt (c.mesh.routes k.epoch) k t).foldl (fun c l => deliverLeaf t k l c) c)
    else match sendOn t o k c with
      | some c => sendCopies t k rest c
      | none =>
        let (left, c) := sendCopies t k rest c
        (o :: left, c)

/-- A packet at the head of its input moves on where its output has credit, else it waits. -/
def forwardHead (t : Nat) (k : MeshPkt) (c : Core) : Core :=
  if k.kind = 3 then
    let outs := match (c.router t).mc.find? (fun x => decide (x.1 = k)) with
      | some x => x.2
      | none => treeOuts (c.mesh.routes k.epoch) t (meshPlaneB k) k.tree
    let (left, c) := sendCopies t k outs (unwait t k c)
    if left = [] then c else await t k left c
  else
    let w := unwait t k c
    match routeOf c.mesh t k with
    | none => c
    | some out =>
      if out = 4 then
        let mark := trCe k.tr && !k.ce && decide (markThresh c.mesh ≤ waitingFor w t 4 k)
        let w := if mark then countEvent 5 t 4 1 none (w.modRouter t (fun r => { r with marks := r.marks + 1 })) else w
        let w := countEvent 5 t (if meshPlaneB k then 2 else 1) 1 none w
        let k := { k with ce := k.ce || mark }
        match k.leaf with
        | some l => deliverLeaf t k l w
        | none => (sink k.epoch 1 w).send (.delivered t k)
      else (sendOn t out k w).getD c

/-- ROUTER_FORWARD: packet `k` at router `t`: one that waits at the head of its input, or a new one from its origin's link. -/
def fxRouterForward (t : Nat) (k : MeshPkt) (c : Core) : Core :=
  if 840 ≤ t ∨ !c.works 5 t ∨ deadRouter c t then c
  else
    let c := if !(c.router t).bufs.contains k && injectable c t k then inject t k c else c
    if atHead (c.router t) k then forwardHead t k c else c

/-- ESCAPE_THRESHOLD: the packet at the head of its input moves to that input's VE buffer when a slot is free (R399). A multicast goes on as
unicasts to its remaining leaves, the blocked copy on VE (R406). -/
def fxEscape (t : Nat) (k : MeshPkt) (c : Core) : Core :=
  let r := c.router t
  let ve (x : MeshPkt) : MeshPkt := { x with esc := true }
  if !c.works 5 t ∨ !atHead r k ∨ k.esc ∨ bufCap 2 ≤ inputUse r (ve k) k.inp then c
  else
    let c := countEvent 5 t 3 1 none (c.modRouter t (fun r => { r with escapes := r.escapes + 1 }))
    if k.kind ≠ 3 then (unwait t k c).modRouter t (fun r => { r with bufs := r.bufs ++ [ve k] })
    else
      let outs := match r.mc.find? (fun x => decide (x.1 = k)) with
        | some x => x.2
        | none => treeOuts (c.mesh.routes k.epoch) t (meshPlaneB k) k.tree
      let copies := (leavesBelow (c.mesh.routes k.epoch) k 60 t outs).map (leafCopy k)
      (unwait t k c).modRouter t (fun r => { r with bufs := copies.drop 1 ++ r.bufs ++ (copies.take 1).map ve })

/-! ### The DMA limiter and the congestion map (R411–R413) -/

def fxAimd (t : Nat) (c : Core) : Core :=
  if !c.hasUnit 4 t ∨ frozenChip c then c
  else
    let a := c.mesh.aimd
    let alpha := max 1 (field a 7 0)
    let beta := min 2 (field a 9 8)
    let lo := max 1 (field a 23 16)
    c.modTile t (fun x => { x with
      rate := if 0 < x.marks then max (lo * 256) (x.rate - x.rate / 2 ^ (beta + 1)) else min 65536 (x.rate + alpha * 256), marks := 0 })

/-- The level of an output over an interval of 200,000 mesh cycles, of which `busy` reached MARK_THRESH (R412). -/
def congLevel (busy : Nat) : BitVec 2 := if busy < 25000 then 0 else if busy < 100000 then 1 else if busy < 175000 then 2 else 3

/-- CONGESTION_INTERVAL: the levels are copied into the map; a router without power reports 0. Outputs are keyed (t × 2 + plane) × 5 + output. -/
def fxCongestion (busy : List (Nat × Nat)) (c : Core) : Core :=
  if frozenChip c then c
  else
    let on := busy.filter (fun x => decide (x.1 < 8400) && decide (c.ust 5 (x.1 / 10) ≠ .off))
    c.modMesh (fun m => { m with levels := on.foldl (fun t x => tput 0 x.1 (congLevel x.2) t) [], cmapSeq := m.cmapSeq + 1 })

/-- A byte of the map. -/
def mapByte (m : Mesh) (b : Nat) : BitVec 8 :=
  BitVec.ofNat 8 (((List.range 4).map (fun j => (tget 0 (4 * b + j) m.levels).toNat * 4 ^ j)).sum)

/-- Bits [19:0] of MESH_Tt_CONG. -/
def congOf (m : Mesh) (t : Nat) : Nat := ((List.range 10).map (fun j => (tget 0 (10 * t + j) m.levels).toNat * 4 ^ j)).sum

/-- Bytes of a segment; those beyond the map are zero. -/
def cmapSegment (m : Mesh) (s : Nat) : List (BitVec 8) := (List.range 224).map (fun b => if 224 * s + b ≤ 2099 then mapByte m (224 * s + b) else 0)

/-- CMAP_READ (R413): each segment goes back as an MGT packet, whose source endpoint the spec leaves open. -/
def fxCmapRead (n : Nat) (src : BitVec 18) (seg : BitVec 4) (c : Core) : Core :=
  let m := c.mesh
  if !portIn c n [.up] then c
  else if m.fmEp.getLsbD 31 && decide (field m.fmEp 17 0 = src.toNat) && (decide (seg.toNat ≤ 9) || decide (seg = 15)) then
    let (v, c) := c.free
    (if seg = 15 then List.range 10 else [seg.toNat]).foldl (fun c s =>
      portQueue n ⟨0, .mgt 3 src (v.setWidth 18) (cmapPayload m.cmapSeq s (cmapSegment m s))⟩ (c.send (.cmapData n s m.cmapSeq (cmapSegment m s)))) c
  else c.modMesh (fun m => { m with cmapRefused := m.cmapRefused + 1 })

/-! ### Route sets and their change (R400, R402–R405) -/

/-- A set breaks R400: a VE route takes an up link, toward a lower level, after a down link; or a detour names a defective router. -/
def routesBad (f : Fuses) (r : Routes) : Bool :=
  let lvl (t : Nat) : Nat := r.levels.getD t 0
  let up (v : Nat × Bool × Nat × Nat) : Option Bool := (nextRouter v.1 v.2.2.2).map (fun u => decide (lvl u < lvl v.1))
  r.ve.any (fun v => match nextRouter v.1 v.2.2.2 with
    | none => decide (v.2.2.2 ≠ 4)
    | some u => decide (up v = some false) && r.ve.any (fun w => decide (w.1 = u ∧ w.2.1 = v.2.1 ∧ w.2.2.1 = v.2.2.1) && decide (up w = some true))) ||
  r.detours.any (fun d => f.routerBad.getLsbD d.router || (match nextRouter d.router d.out with
    | some u => f.routerBad.getLsbD u
    | none => false))

/-- Steps 1 to 3 of R403: the inactive copy is written in every unit and every injection point flips; their markers are to come. -/
def startRouteChange (ch : Option Nat) (r : Routes) (img : Option Image) (c : Core) : Core :=
  c.modMesh (fun m => { m with
    r0 := if m.cur then r else m.r0, r1 := if m.cur then m.r1 else r, change := some ⟨ch, [], img⟩ })

/-- Injection points: present ports, homes, edge units and tiles that are neither Off nor Failed, as class × 4096 + index. -/
def injPoints (c : Core) : List Nat :=
  ([(4, 840), (6, 16), (8, 16), (9, 8)].flatMap (fun k => (List.range k.2).map (fun i => (k.1, i)))).filterMap (fun k =>
    if c.hasUnit k.1 k.2 && decide (c.ust k.1 k.2 ≠ .off) && decide (c.ust k.1 k.2 ≠ .failed) then some (k.1 * 4096 + k.2) else none)

/-- DRAIN_MARKER: an injection point has flipped, and its marker brings its manager the count of packets that it stamped with the old epoch. -/
def fxDrainMarker (mgr inj : Nat) (c : Core) : Core :=
  match c.mesh.change with
  | some k =>
    if k.markers.contains inj ∨ !mgrUp c mgr ∨ managerOf (inj / 4096) (inj % 4096) ≠ mgr then c
    else c.modMesh (fun m => { m with change := some { k with markers := k.markers ++ [inj] } })
  | none => c

/-- Old-epoch packets that were stamped, by the points whose markers have come. -/
def drainTotal (m : Mesh) : Nat :=
  match m.change with
  | some k => (k.markers.map (fun i => tget 0 (i * 2 + m.cur.toNat) m.stamped)).sum
  | none => 0

/-- Every marker has come and as many packets of the old epoch have been sunk as were stamped; points without a marker now stamped none that
are not counted: those that are Off or Failed count as they stand. -/
def routeDrained (c : Core) : Bool :=
  match c.mesh.change with
  | some k =>
    let gone := (c.mesh.stamped.filter (fun x => decide (x.1 % 2 = c.mesh.cur.toNat) && !k.markers.contains (x.1 / 2))).map (fun x => x.2)
    (injPoints c).all (fun i => k.markers.contains i) && decide (tget 0 c.mesh.cur.toNat c.mesh.sunk = drainTotal c.mesh + gone.sum)
  | none => false

/-- Step 5: the old copy is released. -/
def releaseRoutes (c : Core) : Core :=
  let old := c.mesh.cur
  logE 0x0D01 0 0 none [(32, (!old).toNat)] (c.modMesh (fun m => { m with
    cur := !old, change := none, sunk := tput 0 old.toNat 0 m.sunk, stamped := m.stamped.filter (fun x => decide (x.1 % 2 ≠ old.toNat)) }))

/-- ROUTE_DRAIN_TIMEOUT (R405). -/
def fxRouteDrainTimeout (lag : List (BitVec 16)) (c : Core) : Core :=
  match c.mesh.change with
  | some _ =>
    if routeDrained c then c
    else logE 0x0D02 0 0 none (listFields (lag.map (fun u => u.toNat)) ++ [(16, drainTotal c.mesh - tget 0 c.mesh.cur.toNat c.mesh.sunk)]) c
  | none => c

/-! ### The commands -/

def execRouterForward (t : Nat) (k : MeshPkt) (s : State) : Host.Outcome State Fault Refusal := actCore s (fxRouterForward t k)
def execEscapeThreshold (t : Nat) (k : MeshPkt) (s : State) : Host.Outcome State Fault Refusal := actCore s (fxEscape t k)
def execAimdWindow (t : Nat) (s : State) : Host.Outcome State Fault Refusal := actCore s (fxAimd t)
def execCongestionInterval (busy : List (Nat × Nat)) (s : State) : Host.Outcome State Fault Refusal := actCore s (fxCongestion busy)
def execCmapRead (n : Nat) (src : BitVec 18) (seg : BitVec 4) (s : State) : Host.Outcome State Fault Refusal := actCore s (fxCmapRead n src seg)
def execDrainMarker (mgr inj : Nat) (s : State) : Host.Outcome State Fault Refusal := actCore s (fxDrainMarker mgr inj)
def execRouteDrainTimeout (lag : List (BitVec 16)) (s : State) : Host.Outcome State Fault Refusal := actCore s (fxRouteDrainTimeout lag)

end Sys2Proof.Machine
end

