-- ==== Sys2Proof/Machine/Traffic.lean ====
section
/-! DEFINITION. A request at a port's ingress and its meters (R40–R47, R306, R418–R421, R426–R428, R435, R447). -/

namespace Sys2Proof.Machine
open Sys2Proof

/-! ### Meters (R418–R420) -/

/-- Colour of a request: 0 green, 1 yellow, 2 red. -/
def meterBytes : Nat := 128 * 65536
def Meter.en (m : Meter) : Bool := m.cir.getLsbD 31
def Meter.cirRate (m : Meter) : Nat := field m.cir 21 0
/-- PIR, or CIR when that is larger. -/
def Meter.pirRate (m : Meter) : Nat := max (field m.pir 21 0) m.cirRate
def Meter.cSize (m : Meter) : Nat := field m.cbs 17 0 * 64
def Meter.pSize (m : Meter) : Nat := field m.pbs 17 0 * 64

/-- Tokens after `n` mesh cycles. -/
def Meter.accrue (m : Meter) (n : Nat) : Meter :=
  { m with c := m.c.accrue m.cirRate m.cSize n, p := m.p.accrue m.pirRate m.pSize n }

/-- The colour of a request after `n` cycles, the meter charged and its count; a red DirtyEvict counts as yellow with Tp unchanged (R420). -/
def Meter.colour (m : Meter) (n : Nat) (evict : Bool) : Nat × Meter :=
  if !m.en then (0, { m with green := m.green + 1 })
  else
    let m := m.accrue n
    if m.p.tok < meterBytes then
      if evict then (1, { m with yellow := m.yellow + 1 }) else (2, { m with red := m.red + 1 })
    else
      let p := { m.p with tok := m.p.tok - meterBytes }
      if m.c.tok < meterBytes then (1, { m with p := p, yellow := m.yellow + 1 })
      else (0, { m with p := p, c := { m.c with tok := m.c.tok - meterBytes }, green := m.green + 1 })

/-- BACKOFF of a red request (R420). -/
def meterBackoff (g : BitVec 32) (m : Meter) : BitVec 16 :=
  let lo := max 1 (field g 15 8)
  let hi := max lo (field g 31 16)
  BitVec.ofNat 16 (if m.pirRate = 0 then hi else clampNat lo hi (ceilDiv (10 * (meterBytes - m.p.tok)) (65536 * m.pirRate)))

/-- Requests without data use the even meter of their group (R418). -/
def meterOf (g : Nat) (op : BitVec 6) : Nat := 2 * g + (if op = 8 ∨ op = 9 ∨ op = 10 then 1 else 0)

/-! ### REQUEST_INGRESS (R42) -/

/-- Slots of a request (R371); its buffer at the port is free once it is taken (R379). -/
def reqSlots (op : BitVec 6) : Nat := if op = 8 ∨ op = 10 then 9 else if op = 9 then 10 else 1

def freeReqBuffer (n : Nat) (q : Req) (c : Core) : Core :=
  c.modPort n (fun p =>
    if p.strays.contains q then { p with strays := p.strays.erase q }
    else
      let v := tget ({} : Vc) 0 p.vcs
      let k := min v.used (slotCost (reqSlots q.op))
      { p with vcs := tput {} 0 { v with used := v.used - k, room := v.room + k, returned := v.returned + BitVec.ofNat 16 k } p.vcs })

/-- An answer that the port gives itself: its packet joins the port-answer queue (R422). -/
def portAnswer (o : Origin) (q : Req) (p : Nat) (a : Ans) (c : Core) : Core :=
  portQueue o.port ⟨p, .cmp (cmpFor o q.src q.dst p { a with ce := q.ce })⟩ (c.toEndpoint o q.src q.dst p { a with ce := q.ce })

/-- The partition of a destination endpoint (R40). -/
def ptnOfEp (c : Core) (ep : BitVec 18) : Option Nat := (c.ptns.find? (fun x => x.2.en && decide (x.2.endpoint = ep))).map (fun x => x.1)

def isWrite (op : BitVec 6) : Bool := decide (op = 8) || decide (op = 9)

/-- Window writes that a mirror pair replicates: to ring pages, object views and region views (R435). -/
def replicatedAt (off : Nat) : Bool :=
  decide (off < 0x10000) || (decide (0x100000 ≤ off) && decide (off < 0x140000)) || (decide (0x200000 ≤ off) && decide (off < 0x210000))

/-- Steps 4 to 7, after the meter. -/
def ingressRoute (n p h : Nat) (o : Origin) (q : Req) (c : Core) : Core :=
  let mir := c.mirrored p && isWrite q.op
  if inWindow q.pla then
    if !(decide (q.op = 3) || isWrite q.op) then portAnswer o q p { op := opNackRevoked, reason := 4 } c
    else match windowEdge p (windowOff q.pla) with
      | none => portAnswer o q p { op := if q.op = 3 then opCmpData else opCmp } c
      | some e => c.send (if mir && replicatedAt (windowOff q.pla) then .toMirror p o q else .toEdge e o q)
  else
    let i := plaExt q.pla
    let x := tget ({} : Ext) (p * 1024 + i) (c.port n).ext
    if 895 < i ∨ !x.valid then portAnswer o q p { op := opNackRevoked, reason := 3 } c
    else if x.typ = 3 then portAnswer o q p { op := opNackRevoked, reason := 4 } c
    else if !reservedOp q.op ∧ q.op ≠ 10 ∧ !grants x (c.host h).group (needsWrite q.op) then portAnswer o q p { op := opNackRevoked, reason := 2 } c
    else
      let e := (c.place (x.ppa * 2 ^ 30 + q.pla.toNat % 2 ^ 30)).1
      if (c.port n).stackFailed.getLsbD e && requestOp q.op then
        -- the home's stack is lost: writes are dropped, reads return poison (R306)
        if isWrite q.op || decide (q.op = 10) then portAnswer o q p { op := opCmp } c
        else portAnswer o q p { op := opCmpData, poison := true } c
      else c.send (if mir then .toMirror p o q else .toHome e o q)

/-- The checks of R42 in their order, before those of the address. A fenced host's DirtyEvict is discarded (R88). -/
def ingressChecks (n : Nat) (q : Req) (elapsed : Nat) (c : Core) : Core :=
  let stranger : Origin := ⟨1, 4096, q.tag, n, 0, none, q.cls⟩
  match ptnOfEp c q.dst with
  | none => portAnswer stranger q 0 { op := opNackFenced, reason := 7 } c
  | some p =>
    let h := hostOfEp c p q.src
    let o : Origin := { stranger with idx := h.getD 4096 }
    if c.mirrored p && !holderServes (c.mirr p) then
      portAnswer o q p { op := opNackFenced, reason := 7 } (c.modMirr p (fun m => { m with notHolder := m.notHolder + 1 }))
    else if (c.ptn p).hostsFenced && decide (q.op ≠ 10) then portAnswer o q p { op := opNackFenced, reason := 6 } c
    else match h with
      | none => portAnswer o q p { op := opNackFenced, reason := 6 } c
      | some h =>
        if (c.host h).st ≠ 0 ∨ (c.port n).fence.contains h then
          if q.op = 10 then c else portAnswer o q p { op := opNackFenced, reason := 6 } c
        else
          let k := meterOf (c.host h).group q.op
          let (col, m) := (tget ({} : Meter) k (c.port n).meters).colour elapsed (decide (q.op = 10))
          let c := countEvent 9 n (6 + col) 1 (some p) (c.modPort n (fun x => { x with meters := tput {} k m x.meters }))
          if col = 2 then portAnswer o q p { op := opNackRetry, reason := 1, backoff := meterBackoff c.tmgr m } c
          else ingressRoute n p h o { q with ce := q.ce || decide (col = 1) } c

/-- A request taken whole at port `n`. `elapsed` mesh cycles have passed since its meter was last evaluated. While the port-answer queue is
full nothing is taken (R422); a unit that is not Serving refuses everything (R366, R526). -/
def fxIngress (n : Nat) (q : Req) (elapsed : Nat) (c : Core) : Core :=
  let pt := c.port n
  if !portRuns c n ∨ !pt.linked ∨ pt.mirrorRole ∨ 64 ≤ pt.answers.length ∨ !(requestOp q.op || reservedOp q.op) then c
  else
    let c := freeReqBuffer n q c
    if c.ust 9 n ≠ .serving then portAnswer ⟨1, 4096, q.tag, n, 0, none, q.cls⟩ q 0 { op := opNackFenced, reason := 7 } c
    else ingressChecks n q elapsed c

def execRequestIngress (n : Nat) (q : Req) (elapsed : Nat) (s : State) : Host.Outcome State Fault Refusal := actCore s (fxIngress n q elapsed)

/-! ### METER_SETTING_WRITE (R427, R428, R430) -/

/-- Load condition of port `n`, for a queue of partition `p` where one is named (R427). -/
def loadCond (c : Core) (n : Nat) (p : Option Nat) : Bool :=
  !inService c || c.tmgr.getLsbD 0 || !(c.port n).linked ||
  (match p with
   | some p => (match actionOf c p with
      | some a => decide (a.kind = 1)
      | none => false)
   | none => false)

/-- A bucket under new settings: filled to its size in load condition when they changed, else kept and clamped. -/
def Bucket.reload (b : Bucket) (load changed : Bool) (size : Nat) : Bucket :=
  if !changed then b else if load then ⟨size * 65536, 0⟩ else if size * 65536 < b.tok then ⟨size * 65536, b.rem⟩ else b

/-- One register of a meter written, after the tokens of the old settings. -/
def writeMeter (m : Meter) (reg : Nat) (w : BitVec 32) (load : Bool) (elapsed : Nat) : Meter :=
  let m := if m.en then m.accrue elapsed else m
  if reg = 0 then
    let w := w &&& 0x803FFFFF
    let on := w.getLsbD 31 && !m.en
    let ch := decide (field w 21 0 ≠ m.cirRate)
    let m := { m with cir := w, c := m.c.reload load ch m.cSize }
    if on then { m with c := ⟨m.cSize * 65536, 0⟩, p := ⟨m.pSize * 65536, 0⟩ } else m
  else if reg = 4 then
    let w := w &&& 0x003FFFFF
    { m with pir := w, p := m.p.reload load (decide (w ≠ m.pir)) m.pSize }
  else if reg = 8 then
    let w := w &&& 0x0003FFFF
    { m with cbs := w, c := m.c.reload load (decide (w ≠ m.cbs)) (w.toNat * 64) }
  else if reg = 12 then
    let w := w &&& 0x0003FFFF
    { m with pbs := w, p := m.p.reload load (decide (w ≠ m.pbs)) (w.toNat * 64) }
  else m

/-- A write within the meters or the queue weights of the TMGR block; other offsets are no setting. -/
def tmgrWrite (off : Nat) (w : BitVec 32) (elapsed : Nat) (c : Core) : Core :=
  if 0x710000 ≤ off ∧ off < 0x730000 then
    let i := (off - 0x710000) / 32
    let n := i / 512
    if !c.hasUnit 9 n then c
    else c.modPort n (fun p => { p with
      meters := tput {} (i % 512) (writeMeter (tget {} (i % 512) p.meters) (off % 32) w (loadCond c n none) elapsed) p.meters })
  else if 0x740000 ≤ off ∧ off < 0x748000 then
    let n := (off - 0x740000) / 0x1000
    let q := (off - 0x740000) % 0x1000 / 16
    if !c.hasUnit 9 n ∨ 128 ≤ q ∨ off % 16 ≠ 0 then c
    else c.modPort n (fun p => { p with queues := tput {} q { tget ({} : FairQ) q p.queues with weight := w &&& 0xFFF } p.queues })
  else c

def execMeterSettingWrite (off : BitVec 26) (w : BitVec 32) (elapsed : Nat) (s : State) : Host.Outcome State Fault Refusal :=
  actCore s (tmgrWrite off.toNat w elapsed)

end Sys2Proof.Machine
end

