-- ==== Sys2Proof/Machine/Integrity.lean ====
section
/-! DEFINITION. Data integrity: lines read from HBM, the patrol, the rotation sweep, the SRAM scrubbers, page retirement, fault-event and log
windows (R297–R321, R345). -/

namespace Sys2Proof.Machine
open Sys2Proof

/-! ### A line read from HBM (R298–R300, R313) -/

/-- A correction entered in the page tracker, 256 pages, the least recently used one replaced; the threshold is logged once for a page. -/
def trackPage (e page : Nat) (hard : Bool) (c : Core) : Core :=
  let h := c.home e
  let s := h.stamp + 1
  let old := h.pages.find? (fun x => decide (x.page = page))
  let x := old.getD ⟨page, 0, 0, 0, false⟩
  let x := { x with corrections := x.corrections + 1, hard := x.hard + hard.toNat, stamp := s }
  let others := h.pages.filter (fun y => decide (y.page ≠ page))
  let oldest := (others.map (fun y => y.stamp)).foldl min s
  let others := if others.length < 256 then others else others.filter (fun y => decide (y.stamp ≠ oldest))
  let hit := decide (max 1 (field h.integCfg 11 8) ≤ x.hard) && !x.logged
  let c := c.setHome e { h with stamp := s, pages := others ++ [{ x with logged := x.logged || hit }] }
  if hit then logE 0x0A04 6 e none [(4, e), (32, page), (16, x.hard)] c else c

/-- Bits of a line's owner: its partition, and PLA[39:16]. -/
def dataLost (e line : Nat) (c : Core) : Core :=
  match c.lineOwner e line with
  | some (p, pla) => faultEvent p 2 (BitVec.ofNat 32 (field pla 39 16)) c
  | none => c

/-- An uncorrectable line is poisoned, logged and reported. -/
def poisonRead (e line ppa source : Nat) (mac : Bool) (c : Core) : Core :=
  let hard := (c.lmeta e line).scrubSeen
  let p := (c.lineOwner e line).map (fun x => x.1)
  let c := c.modHome e (fun h => { h with ue := h.ue + 1 })
  let c := poisonLine e line (p.getD 0) c
  let c := if mac then logE 0x0A03 6 e p [(40, ppa), (2, source)] c else logE 0x0A02 6 e p [(40, ppa), (2, source), (1, hard.toNat)] c
  dataLost e line c

/-- The check of a line read from the stack (R298), with the key slots of the line's partition (R337). -/
def Core.readLine (c : Core) (e line ppa : Nat) (w : Codeword) : LineRead :=
  checkLine (fun g => (c.keys (c.linePtn e line)).slot g) ppa (c.linePtn e line) w

/-- What the home does with a line it has read: the data are what the stack held, unless a newer version stands dirty in the line store;
corrections are counted, logged and entered in the tracker, and written back with scrub-seen set where they reach WB_MIN; a clean read
clears scrub-seen (R299); what cannot be corrected is poisoned (R300). -/
def applyRead (e line ppa source : Nat) (r : LineRead) (c : Core) : Core :=
  match r with
  | .uncorrectable => poisonRead e line ppa source false c
  | .macFail => poisonRead e line ppa source true c
  | .good d m n =>
    let c := if tget none line (c.home e).store = some true then c else { c with mem := wrLine c.mem (caKey e (line * 128)) d }
    let hard := m.scrubSeen
    if n = 0 then c.setLmeta e line { m with scrubSeen := false }
    else
      let p := (c.lineOwner e line).map (fun x => x.1)
      let wb := decide (max 1 (field (c.home e).integCfg 1 0) ≤ n)
      let c := c.setLmeta e line { m with scrubSeen := m.scrubSeen || wb }
      let c := c.modHome e (fun h => { h with
        ce := h.ce + 1, hardCe := if hard then h.hardCe + 1 else h.hardCe, lapHard := h.lapHard + hard.toNat })
      let c := countEvent 6 e 8 1 p c
      let c := logE 0x0A01 6 e p [(40, ppa), (16, n), (1, hard.toNat)] c
      let c := trackPage e (line / 512) hard c
      if hard ∧ 1024 ≤ (c.home e).lapHard then raiseErlService 4 c else c

/-- A line read, checked and applied. Of a line that no partition holds the home has no key, so nothing is checked (log 146). -/
def decodeLine (e line ppa : Nat) (w : Codeword) (source : Nat) (c : Core) : Core :=
  if (c.lineOwner e line).isNone then c else applyRead e line ppa source (c.readLine e line ppa w) c

/-- HBM_READ_DATA: a line of the data that the home has asked for. -/
def fxHbmReadData (e : Nat) (k : HbmData) (c : Core) : Core :=
  let a := c.place k.ppa.toNat
  if !c.works 6 e ∨ a.1 ≠ e ∨ saMeta ≤ a.2 then c else decodeLine e (a.2 / 128) k.ppa.toNat k.word k.source c

/-! ### The patrol (R310, R311) -/

/-- The first line of some ranges at or after `pos`. -/
def lineFrom (rs : List (Nat × Nat)) (pos : Nat) : Option Nat :=
  (rs.filterMap (fun r => if max r.1 pos < r.1 + r.2 then some (max r.1 pos) else none)).min?

/-- A lap ends: its length in seconds is reported and the next begins. -/
def endLap (e : Nat) (c : Core) : Core :=
  c.modHome e (fun h => { h with
    patrolPos := 0, patrolLap := BitVec.ofNat 32 ((c.evc.tick - h.patrolStart).toNat / 25000000), patrolStart := c.evc.tick, lapHard := 0 })

/-- PATROL_STEP: the next assigned line, as a transaction; with the walk past the highest one the lap ends, before the visit where lines
have gone, else after it. -/
def fxPatrol (e : Nat) (w : Codeword) (c : Core) : Core :=
  let rs := assigned c e
  let h := c.home e
  if !c.works 6 e ∨ !h.patrolCfg.getLsbD 0 then c
  else match (lineFrom rs h.patrolPos).or (lineFrom rs 0) with
    | none => c
    | some l =>
      if lineBlocked h l then c
      else
        let c := if (lineFrom rs h.patrolPos).isNone then endLap e c else c
        let c := if tget none l h.store = some true then c else decodeLine e l (c.linePpa e l) w 1 c
        if (lineFrom rs (l + 1)).isNone then endLap e c else c.modHome e (fun h => { h with patrolPos := l + 1 })

/-! ### The rotation sweep (R345, R346) -/

/-- SWEEP_LINE: a line that names the previous slot is read and written back under the current key. -/
def fxSweepLine (e p : Nat) (w : Codeword) (c : Core) : Core :=
  if !c.works 6 e then c
  else match (c.home e).passes.find? (fun k => decide (k.what = 1 ∧ k.p = p)) with
    | none => c
    | some k => match k.ranges with
      | [] => replacePass e k none c
      | r :: _ =>
        let l := r.1 + k.pos
        if lineBlocked (c.home e) l then c
        else
          let g := (c.keys p).gen.getLsbD 0
          let c := if (c.lmeta e l).gen = g then c
            else
              let c := decodeLine e l (c.linePpa e l) w 3 c
              c.setLmeta e l { c.lmeta e l with gen := g }
          let c := if (l + 1) % 512 = 0 then c.modKeys p (fun x => { x with pagesLeft := x.pagesLeft - 1 }) else c
          replacePass e k k.next c

/-- SWEEP_LAP_END: with every home done, the previous slot is zeroed. -/
def fxSweepLapEnd (e p : Nat) (c : Core) : Core :=
  let mine (h : Home) : Bool := h.passes.any (fun k => decide (k.what = 1 ∧ k.p = p))
  let c := if c.works 6 e then
      c.modHome e (fun h => { h with passes := h.passes.filter (fun k => !(decide (k.what = 1 ∧ k.p = p) && k.ranges.isEmpty)) })
    else c
  let x := c.keys p
  if !x.sweep ∨ (liveHomes c).any (fun e => mine (c.home e)) then c
  else
    logE 0x0B03 0 0 (some p) [(5, p), (32, x.gen.toNat)]
      (c.setKeys p { x.dropPrev with sweep := false, pagesLeft := 0 })

/-! ### SRAM scrubbers (R305, R306, R312, R364) -/

/-- A new uncorrectable error of a local-store word (R305). -/
def localUe (t addr : Nat) (c : Core) : Core :=
  let x := c.tile t
  let w := addr / 64
  let x := { x with lsPoison := if x.lsPoison.contains w then x.lsPoison else (x.lsPoison ++ [w]).mergeSort (fun a b => decide (a ≤ b)), fLsUe := true }
  let trap := (c.ptn x.ptn).ueTrap && x.work.isSome
  let x := if trap ∧ x.seq.pendLs.isNone then { x with seq := { x.seq with pendLs := some (BitVec.ofNat 64 addr) } } else x
  logE 0x0A09 4 t (if x.assigned then some x.ptn else none) [(10, t), (21, addr)] (c.setTile t x)

/-- The row of a line store holds one of the resident lines; the manual does not say which, so it is free (log 3). -/
def storeUe (e : Nat) (c : Core) : Core :=
  let (v, c) := c.free
  let h := c.home e
  match h.store[v.toNat % max 1 h.store.length]? with
  | some (l, some true) =>
    let c := poisonLine e l (((c.lineOwner e l).map (fun x => x.1)).getD 0) c
    c.modHome e (fun h => { h with store := tput none l none h.store })
  | some (l, _) => c.setHome e { h with store := tput none l none h.store }
  | none => c

def scrubClass (k : Nat) : Nat := if k = 0 ∨ 4 ≤ k then 4 else if k = 3 then 9 else 6

/-- An uncorrectable error that a read of a vector register (class 4) or of an accumulator row (class 5) meets poisons it (R312). These are not
scrubbed; they are checked on every read. -/
def vectorUe (t cls bank row : Nat) (c : Core) : Core :=
  c.modTile t (fun x => { x with vec :=
    if cls = 4 then { x.vec with vPoison := if row < 32 ∧ !x.vec.vPoison.contains row then x.vec.vPoison ++ [row] else x.vec.vPoison }
    else
      let k := bank * 256 + row
      { x.vec with accPoison := if row < 256 ∧ bank < 4 ∧ !x.vec.accPoison.contains k then x.vec.accPoison ++ [k] else x.vec.accPoison } })

/-- One row read by a scrubber. The local store of a tile without an enabled cluster is not scrubbed. -/
def scrub (k : ScrubRow) (c : Core) : Core :=
  let cls := scrubClass k.cls
  if 6 ≤ k.cls ∨ !c.hasUnit cls k.unit ∨ frozenChip c ∨ c.ust cls k.unit = .off ∨ (k.cls = 0 ∧ !(c.tile k.unit).en) then c
  else if 4 ≤ k.cls then (if k.found = 2 then vectorUe k.unit k.cls k.bank k.row c else c)
  else
    let c := match k.lap with
      | some n => c.modErl (fun x => { x with laps := tput 0 k.cls (if (tget 0 k.cls x.laps).toNat < n.toNat then n else tget 0 k.cls x.laps) x.laps })
      | none => c
    if k.found = 0 then c
    else if k.found = 1 then logE 0x0A0A cls k.unit none [(12, k.unit), (4, k.cls)] c
    else if k.cls = 0 then localUe k.unit (k.row * 2048 + k.bank * 64) c
    else
      let c := raiseErlService 3 (logE 0x0A0B cls k.unit none [(12, k.unit), (4, k.cls), (32, k.row)] c)
      if k.cls = 1 then enterState 6 k.unit .failed (c.modHome k.unit (fun h => { h with failHow := 0 }))
      else if k.cls = 2 then
        if k.tagHit then enterState 6 k.unit .failed (c.modHome k.unit (fun h => { h with failHow := 1 })) else storeUe k.unit c
      -- R364 takes the link Down from Up; in Retrain the replay buffer is kept, so the error counts there too (log 53)
      else if (c.port k.unit).link = .up ∨ (c.port k.unit).link = .retrain then portDown k.unit 6 c
      else c

/-! ### Page retirement (R314, R315, R319) -/

/-- Spares of a stack that are used by a retired page, taken by one on the move, or bad. -/
def sparesTaken (x : Hbmc) : List Nat := x.retired.filterMap (fun k => k.2) ++ x.badSpares ++ (x.moving.map (fun k => k.2.1)).toList

/-- A 16 B record of the retirement table: of a spare that holds a page, of a spare marked bad; all zero where there is none. Word 0 holds the
page's number plus 1, or all ones for a bad spare, word 3 the CRC-32 of the twelve bytes before it; the manual gives no layout (R315,
log 145). -/
def retireRecord (page : Option Nat) : BitVec 128 :=
  let w := match page with
    | some p => p + 1
    | none => 0xFFFFFFFF
  BitVec.ofNat 128 (w + (crc32 (bytesLE 12 w)).toNat * 2 ^ 96)

/-- What a record says: nothing where it is all zero or its CRC is wrong. -/
inductive RetireRec where
  | empty | bad | page (p : Nat) | crcBad
  deriving DecidableEq, Repr

def readRecord (r : BitVec 128) : RetireRec :=
  let w := r.toNat % 2 ^ 32
  if r = 0 then .empty
  else if (r >>> 96).setWidth 32 ≠ crc32 (bytesLE 12 (r.toNat % 2 ^ 96)) ∨ w = 0 then .crcBad
  else if w = 0xFFFFFFFF then .bad
  else .page (w - 1)

/-- Place of a spare's record in the retirement area of the flash (R325), and in the table of its stack (R315). -/
def areaAddr (e j : Nat) : Nat := 0x3100000 + (e * 8192 + j) * 16
def tableAddr (e j : Nat) : Nat := caKey e (saRetire + j * 16)

/-- The record of spare `j` of a controller's map. -/
def recordOf (x : Hbmc) (j : Nat) : BitVec 128 :=
  match x.retired.find? (fun k => decide (k.2 = some j)) with
  | some k => retireRecord (some k.1)
  | none => if x.badSpares.contains j then retireRecord none else 0

/-- The 1 KiB bitmap behind the records: a bit for each free spare (R315). -/
def bitmapAddr (e : Nat) : Nat := caKey e (saRetire + 8192 * 16)
def freeBitmap (x : Hbmc) : Nat :=
  let t := sparesTaken x
  ((List.range 8192).filter (fun j => !t.contains j)).foldl (fun a j => a + 2 ^ j) 0

/-- The table of a stack written from the controller's map (R315). -/
def writeTable (e : Nat) (c : Core) : Core :=
  let x := c.hbmc e
  let m := (List.range 8192).foldl (fun m j => wrLE m (tableAddr e j) 16 (recordOf x j).toNat) c.mem
  { c with mem := wrLE m (bitmapAddr e) 1024 (freeBitmap x) }

/-- PAGE_RETIRE: the request's checks, and the moving entry (steps 1 and 2). -/
def fxPageRetire (ch : Nat) (c : Core) : Core :=
  takeRequest ch 0x030 3 (fun c =>
    let d1 := reqData c ch 1
    let ppa := (reqData c ch 0).toNat + field d1 7 0 * 2 ^ 32
    let n := c.glb.fuse.stacks.length
    if !reservedClear d1 0xFF then mbDone ch stBadRequest c
    else if ppa % 65536 ≠ 0 ∨ n * 56 ≤ ppa / 2 ^ 30 then mbDone ch stNotDataPage c
    else
      let (e, off) := c.place ppa
      let x := c.hbmc e
      if c.ust 6 e = .failed ∨ c.ust 7 e = .failed then mbDone ch stStackFailed c
      else if x.moving.isSome then mbDone ch stRetireBusy c
      else match (List.range 8192).find? (fun j => !(sparesTaken x).contains j) with
        | none => mbDone ch stNoSpare (raiseErlService 1 c)
        | some j => c.setHbmc e { x with moving := some (off / 65536, j, 0), movingCh := ch }) c

/-- SPARE_CFG.WARN as a count of spares, 0 acting as 1 (log 143). -/
def spareWarn (x : Hbmc) : Nat := max 1 (field x.spareCfg 13 0)

/-- HBMCe_SPARE_USED follows the map; SPARE_LOW when it reaches the warning (R319, R321). -/
def countSpares (e : Nat) (c : Core) : Core :=
  let x := c.hbmc e
  let used := ((sparesTaken x).eraseDups).length
  let c := c.setHbmc e { x with spareUsed := BitVec.ofNat 14 used }
  if x.spareUsed.toNat < spareWarn x ∧ spareWarn x ≤ used then raiseErlService 0 (logE 0x0A06 7 e none [(4, e), (16, used)] c) else c

/-- Steps 4 and 5: the entry is retired, a spare that the page had before is bad; the records are written. -/
def retireDone (e page j ch : Nat) (c : Core) : Core :=
  let x := c.hbmc e
  let old := (tget none page x.retired).toList
  let c := c.setHbmc e { x with retired := tput none page (some j) x.retired, badSpares := x.badSpares ++ old, moving := none, movingCh := 0 }
  let c := writeTable e c
  let c := logE 0x0A05 7 e none [(4, e), (32, page), (32, j)] c
  mbDone ch stOk (countSpares e c)

/-- The flash after step 5: the record of the page, and that of the spare that held it before. -/
def retireFlash (e page j : Nat) (x : Hbmc) (m : Mem) : Mem :=
  let m := match tget none page x.retired with
    | some k => wrLE m (areaAddr e k) 16 (retireRecord none).toNat
    | none => m
  wrLE m (areaAddr e j) 16 (retireRecord (some page)).toNat

/-- RETIRE_LINE_COPY: the next line of the page on the move; a line that is dirty in the line store moves at its eviction; after the last the
record goes to the boot flash (R314). -/
def fxRetireCopy (e : Nat) (w : Codeword) (d : Dev) : Dev :=
  let c := d.core
  match (c.hbmc e).moving with
  | none => d
  | some (page, j, i) =>
    let l := page * 512 + i
    if !c.works 6 e ∨ lineBlocked (c.home e) l then d
    else
      let c := if tget none l (c.home e).store = some true then c.modHbmc e (fun x => { x with lateLines := x.lateLines ++ [l] })
        else
          let c := decodeLine e l (c.linePpa e l) w 2 c
          c.setLmeta e l { c.lmeta e l with scrubSeen := false }
      if i < 511 then { d with core := c.modHbmc e (fun x => { x with moving := some (page, j, i + 1) }) }
      else { perm := { d.perm with flash := retireFlash e page j (c.hbmc e) d.perm.flash },
             core := retireDone e page j (c.hbmc e).movingCh c }

/-! ### The log and fault-event windows (R308, R317, R320) -/

def fxErlTail (x : BitVec 32) (c : Core) : Core :=
  if (c.erl.head - x).toNat ≤ 1024 then c.modErl (fun l => { l with tail := x }) else c

def fxLogWindow (code cls unit : Nat) (c : Core) : Core :=
  c.modErl (fun l => { l with logWins := l.logWins.filter (fun w => !(decide (w.code = code ∧ w.cls = cls ∧ w.unit = unit))) })

/-- FAULT_EVENT: an occurrence of one of the causes of R309. -/
def fxFaultEvent (p cause : Nat) (detail : BitVec 32) (c : Core) : Core :=
  if (c.ptn p).en ∧ 1 ≤ cause ∧ cause ≤ 5 then faultEvent p cause detail c else c

/-- FAULT_EVENT_WINDOW: with occurrences it sends one message and opens anew, else it closes. -/
def fxFaultWindow (p cause : Nat) (c : Core) : Core :=
  match c.erl.faultWins.find? (fun w => decide (w.p = p ∧ w.cause = cause)) with
  | none => c
  | some w =>
    let rest := c.erl.faultWins.filter (fun w => !(decide (w.p = p ∧ w.cause = cause)))
    if w.count = 0 then c.modErl (fun l => { l with faultWins := rest })
    else (sendFaultEvent p cause w.count w.detail c).modErl (fun l => { l with faultWins := rest ++ [⟨p, cause, 0, 0⟩] })

/-! ### The commands -/

def execHbmReadData (e : Nat) (k : HbmData) (s : State) : Host.Outcome State Fault Refusal := actCore s (fxHbmReadData e k)
def execPatrolStep (e : Nat) (w : BitVec 1152) (s : State) : Host.Outcome State Fault Refusal := actCore s (fxPatrol e w)
def execSweepLine (e p : Nat) (w : BitVec 1152) (s : State) : Host.Outcome State Fault Refusal := actCore s (fxSweepLine e p w)
def execSweepLapEnd (e p : Nat) (s : State) : Host.Outcome State Fault Refusal := actCore s (fxSweepLapEnd e p)
def execSramScrubRow (k : ScrubRow) (s : State) : Host.Outcome State Fault Refusal := actCore s (scrub k)
def execSramForcedScrub (k : ScrubRow) (s : State) : Host.Outcome State Fault Refusal := actCore s (scrub k)
def execPageRetire (ch : Nat) (s : State) : Host.Outcome State Fault Refusal := actCore s (fxPageRetire ch)
def execRetireLineCopy (e : Nat) (w : BitVec 1152) (s : State) : Host.Outcome State Fault Refusal := act s (fxRetireCopy e w)
def execErlTailWrite (x : BitVec 32) (s : State) : Host.Outcome State Fault Refusal := actCore s (fxErlTail x)
def execLogCoalesceWindow (code cls unit : Nat) (s : State) : Host.Outcome State Fault Refusal := actCore s (fxLogWindow code cls unit)
def execFaultEvent (p cause : Nat) (detail : BitVec 32) (s : State) : Host.Outcome State Fault Refusal := actCore s (fxFaultEvent p cause detail)
def execFaultEventWindow (p cause : Nat) (s : State) : Host.Outcome State Fault Refusal := actCore s (fxFaultWindow p cause)

end Sys2Proof.Machine
end

