-- ==== Sys2Proof/Machine/Rot.lean ====
section
/-! DEFINITION. The management cores and their watchdogs, the power budget, thermal limits, freeze triggers and JTAG read-out (R461–R463,
R492–R501, R541–R545). -/

namespace Sys2Proof.Machine
open Sys2Proof

/-! ### The RoT's watchdog (R461, R462) -/

def fxRotKick (c : Core) : Core := if rotUp c then c.modGlb (fun g => { g with heartbeat := g.heartbeat + 1 }) else c

/-- 100 ms without a restart: the RoT is reset. -/
def fxRotExpiry (c : Core) : Core :=
  if !rotUp c then c
  else
    let n := if c.glb.restarts = 0xFF then c.glb.restarts else c.glb.restarts + 1
    ibi 2 (raiseInt 18 (raiseService 8 (c.modGlb (fun g => { g with restarting := true, restarts := n }))))

/-- Entries in events: an entry with its continuations. -/
def eventsOf : List LogEntry → List (List LogEntry)
  | [] => []
  | x :: r => match eventsOf r with
    | (y :: ys) :: gs => if y.cont then (x :: y :: ys) :: gs else [x] :: (y :: ys) :: gs
    | _ => [[x]]

/-- Actions go on as far as no report is awaited. -/
def resumeActions (c : Core) : Core := forEach (c.rot.actions.map (fun a => a.p)) advanceAction c

/-- ROT_RESUME: the boot's steps 2 to 5 have run again from the same slot, which passes its checks as before, so that the keys are derived anew
from the same measurements (R333); the held entries are written, ROT_RESTART is logged with the step resumed, and every action goes on. -/
def fxRotResume (c : Core) : Core :=
  if !c.glb.restarting ∨ !c.pins.powered ∨ !c.pins.resetN then c
  else
    let held := eventsOf c.erl.heldLog
    let c := bootKeys ((c.modGlb (fun g => { g with restarting := false })).modErl (fun l => { l with heldLog := [] }))
    let c := held.foldl (fun c es => logFreeze (es.headD {}).code (recordEvent es c)) c
    let step := ((c.rot.actions.head?).map (fun a => a.step)).getD 0
    resumeActions (logE 0x0F02 0 0 none [(16, c.glb.restarts.toNat), (32, step)] c)

def execRotWatchdogKick (s : State) : Host.Outcome State Fault Refusal := actCore s fxRotKick
def execRotWatchdogExpiry (s : State) : Host.Outcome State Fault Refusal := actCore s fxRotExpiry

/-! ### The managers' watchdogs (R463): 0–3 field, 4 port, 5 memory -/

/-- Log class and index of a manager (R316). -/
def mgrClass (m : Nat) : Nat × Nat := if m < 4 then (1, m) else if m = 4 then (2, 0) else (3, 0)

/-- Expiry: the core restarts; a manager that has restarted three times within the last second stays stopped. -/
def fxMgrExpiry (m : Nat) (c : Core) : Core :=
  let x := c.mgr m
  if 6 ≤ m ∨ x.stopped ∨ x.restarting ∨ !c.pins.powered ∨ !c.pins.resetN ∨ !c.sec.attestReady then c
  else
    let now := c.evc.tick
    let recent := x.restarts.filter (fun t => decide ((now - t).toNat ≤ 25000000))
    let k := mgrClass m
    if 3 ≤ recent.length then raiseService 9 (logE 0x0F04 k.1 k.2 none [(4, m)] (c.setMgr m { x with stopped := true, restarts := recent }))
    else logE 0x0F03 k.1 k.2 none [(4, m)] (c.setMgr m { x with restarting := true, restarts := recent ++ [now] })

/-- The core has restarted from its copy; its passes and steps resume where they stood. The port manager takes up the links it has missed. -/
def fxMgrRestart (m : Nat) (c : Core) : Core :=
  let x := c.mgr m
  if !x.restarting then c
  else
    let c := c.setMgr m { x with restarting := false }
    if m = 4 then forEach (presentPorts c) portWant c else c

def execManagerWatchdogExpiry (mgr : Nat) (s : State) : Host.Outcome State Fault Refusal := actCore s (fxMgrExpiry mgr)
def execManagerRestart (mgr : Nat) (s : State) : Host.Outcome State Fault Refusal := actCore s (fxMgrRestart mgr)

/-! ### Budgets (R493) -/

def deviceWatts (c : Core) : Nat := field c.pwr.deviceBudget 11 0
def sharedWatts (c : Core) : Nat := field c.pwr.shared 11 0

/-- The partition budgets scaled by one factor, in units of 2^−16, where their sum is too large. -/
def scaleBudgets (c : Core) : Core :=
  let sum := (c.pwr.ptns.map (fun e => e.2.image)).sum
  let room := deviceWatts c - sharedWatts c
  let high := decide (room < sum)
  let k := if high then room * 65536 / sum else 65536
  let c := c.modPwr (fun w => { w with ptns := (w.ptns.map (fun e => (e.1, { e.2 with budget := BitVec.ofNat 12 (e.2.image * k / 65536) }))) })
  if high then logE 0x1001 0 0 none [(12, sum), (16, k)] c else c

/-! ### Levels (R495, R497) -/

/-- An Active cluster. -/
def runsPower (c : Core) (t : Nat) : Bool := decide ((c.tile t).power = .active) && decide (c.ust 4 t ≠ .off)

/-- The floor of a tile's level (R498, R500). -/
def levelFloor (c : Core) (t : Nat) : Nat :=
  max (if c.pwr.iccClamp then 8 else 0) (max (tget 0 (tileField t) c.pwr.floors) (tget 0 4 c.pwr.floors))

/-- PWR_Pp_THROTTLE.LEVEL. -/
def showLevels (c : Core) : Core :=
  c.modPwr (fun w => { w with ptns := w.ptns.map (fun e =>
    (e.1, { e.2 with level := BitVec.ofNat 4 (((ptnTiles c e.1).map (fun t => (c.tile t).level)).foldl max 0) })) })

/-- Every Active cluster held at its floor or higher. -/
def applyFloors (c : Core) : Core :=
  showLevels (forEach ((c.tiles.map Prod.fst).filter (runsPower c)) (fun t c => c.modTile t (fun x => { x with level := max x.level (levelFloor c t) })) c)

/-- Estimated draw of a tile in mW/16 (R494, R495); `s` is the part of an Active cluster's draw that scales with its level, in mW at level 0. -/
def tileDraw (c : Core) (s t : Nat) : Nat :=
  let x := c.tile t
  if x.power = .off ∨ c.ust 4 t = .off then 0
  else if x.power = .gated then 1600
  else if x.power = .parked then 480
  else 290 * 16 + clampNat 60 1160 s * (16 - x.level)

/-- Draw of a partition in mW/16. -/
def ptnDraw (c : Core) (acts : List (Nat × Nat)) (p : Nat) : Nat := ((ptnTiles c p).map (fun t => tileDraw c (tget 60 t acts) t)).sum

/-- Whole watts of a number of mW/16. -/
def watts (u : Nat) : Nat := u / 16000

def throttled (c : Core) (p : Nat) : Bool := (ptnTiles c p).any (fun t => runsPower c t && decide (0 < (c.tile t).level))

/-- The end of a control interval: draws, lending among partitions, allowances and levels (R496, R497). -/
def fxPowerInterval (acts : List (Nat × Nat)) (c : Core) : Core :=
  if !c.pins.powered ∨ !c.pins.resetN ∨ frozenChip c then c
  else
    let ps := ((List.range 32).filter (fun p => (c.ptn p).en)).map (fun p =>
      (p, (tget {} p c.pwr.ptns).budget.toNat * 16000, ptnDraw c acts p, throttled c p))
    let pooled := c.pwr.ctrl.getLsbD 0 && c.pwr.ctrl.getLsbD 1 && ps.any (fun x => x.2.2.2)
    let surplus (x : Nat × Nat × Nat × Bool) : Nat := if pooled && !x.2.2.2 then x.2.1 - x.2.2.1 else 0
    let pool := (ps.map surplus).sum
    let base := ((ps.filter (fun x => x.2.2.2)).map (fun x => x.2.1)).sum
    let gain (x : Nat × Nat × Nat × Bool) : Nat := if pooled && x.2.2.2 && decide (base ≠ 0) then pool * x.2.1 / base else 0
    let c := ps.foldl (fun c x =>
      let allow := x.2.1 + gain x - surplus x
      let up := decide (allow < x.2.2.1)
      let down := decide (x.2.2.1 * 10 < allow * 9)
      let c := forEach ((ptnTiles c x.1).filter (runsPower c)) (fun t c => c.modTile t (fun y =>
        { y with level := max (levelFloor c t) (if up then min 15 (y.level + 1) else if down then y.level - 1 else y.level) })) c
      c.modPwr (fun w => { w with ptns := tput {} x.1 { tget {} x.1 w.ptns with
        draw := BitVec.ofNat 12 (watts x.2.2.1), lent := BitVec.ofNat 12 (watts (surplus x)), borrowed := BitVec.ofNat 12 (watts (gain x)) } w.ptns })) c
    let c := showLevels c
    let (v, c) := c.free
    let (d, c) := c.free
    let up := v.getLsbD 12 && decide (c.pins.vid.toNat < 36)
    let down := v.getLsbD 13 && decide (0 < c.pins.vid.toNat)
    let vid := if !c.sec.attestReady then c.pins.vid else if up then c.pins.vid + 1 else if down then c.pins.vid - 1 else c.pins.vid
    let c := { c with pins := { c.pins with vid := vid } }
    c.modPwr (fun w => { w with
      power := d.setWidth 12
      ptns := w.ptns.map (fun e => (e.1, if e.2.level ≠ 0 then { e.2 with intervals := e.2.intervals + 1 } else e.2)) })

def execPowerInterval (acts : List (Nat × Nat)) (s : State) : Host.Outcome State Fault Refusal := actCore s (fxPowerInterval acts)

/-! ### The current limit (R498) -/

def iccAmps (c : Core) : Nat := field c.pwr.iccLimit 11 0

def fxIccLimit (amps : BitVec 12) (c : Core) : Core :=
  if !c.pins.powered ∨ !c.pins.resetN then c
  else
    let was := c.pwr.iccClamp
    let c := c.modPwr (fun w => { w with icc := amps })
    if amps.toNat ≤ iccAmps c then c
    else
      let c := applyFloors (c.modPwr (fun w => { w with iccClamp := true }))
      if was then c else logE 0x1002 0 0 none [(12, amps.toNat)] c

/-- 100 µs below 95 %: the floor is released. A sample at or above 95 % keeps it. -/
def fxIccRelease (amps : BitVec 12) (c : Core) : Core :=
  if !c.pins.powered ∨ !c.pins.resetN then c
  else
    let c := c.modPwr (fun w => { w with icc := amps })
    if c.pwr.iccClamp ∧ amps.toNat * 100 < iccAmps c * 95 then c.modPwr (fun w => { w with iccClamp := false }) else c

def execIccLimitExceeded (amps : BitVec 12) (s : State) : Host.Outcome State Fault Refusal := actCore s (fxIccLimit amps)
def execIccClampRelease (amps : BitVec 12) (s : State) : Host.Outcome State Fault Refusal := actCore s (fxIccRelease amps)

/-! ### Thermal limits (R499–R501) -/

/-- Field of a die sensor; the control island's has none. -/
def sensorField (s : Nat) : Nat := if s < 840 then tileField s else if s < 856 then stopField (s - 840) else 4

/-- Readings of a list with their numbers. -/
def readings (l : List Nat) : List (Nat × Nat) := (List.range l.length).map (fun i => (i, l.getD i 0))

def hottest (l : List (Nat × Nat)) : Nat := (l.map Prod.snd).foldl max 0

/-- One group with its throttle limit: its floor is raised or lowered by 1, and THERMAL_THROTTLE is logged once per episode. An episode runs
from the first raise until the floor is back at zero. -/
def thermalGroup (k group limit : Nat) (l : List (Nat × Nat)) (c : Core) : Core :=
  let f := tget 0 k c.pwr.floors
  match l.find? (fun r => decide (limit ≤ r.2)) with
  | some r =>
    let c' := c.modPwr (fun w => { w with floors := tput 0 k (min 15 (f + 1)) w.floors, episode := w.episode ||| (1#5 <<< k) })
    if c.pwr.episode.getLsbD k then c'
    else logE 0x1003 0 0 none [(4, (Config.logEnum 0x1003 group).toNat), (32, r.1), (8, r.2)] c'
  | none =>
    if l.all (fun r => decide (r.2 + 3 ≤ limit)) then
      c.modPwr (fun w => { w with floors := tput 0 k (f - 1) w.floors, episode := if f ≤ 1 then w.episode &&& ~~~(1#5 <<< k) else w.episode })
    else c

/-- Optical engines at or above OPT_WARN: OPTICS_HOT for each that was not, and the service cause while any is (R500, R528). -/
def opticsGroup (limit : Nat) (l : List (Nat × Nat)) (c : Core) : Core :=
  let hot := (l.filter (fun r => decide (limit ≤ r.2)))
  let new := hot.filter (fun r => !c.pwr.optHot.getLsbD r.1)
  let c := new.foldl (fun c r => logE 0x1004 9 r.1 none [(3, r.1), (8, r.2)] c) c
  let c := c.modPwr (fun w => { w with optHot := BitVec.ofNat 8 ((hot.map (fun r => 2 ^ r.1)).sum) })
  if hot = [] then clearService 10 c else raiseService 10 c

/-- What a thermal trip does beside RST_CAUSE. -/
def tripCore (c : Core) : Core :=
  let c := { c with pins := { c.pins with thermTrip := true } }
  let c := forEach (presentPorts c) (fun n c => leaveLink n .disabled c) c
  allSelfRefresh c

/-- A sample: the readings, floors, warnings and refresh rates. -/
def thermalCore (die hbm opt : List (Nat × Nat)) (c : Core) : Core :=
  let th := c.pwr.therm
  let (dl, hl, ol) := (field th 7 0, field th 15 8, field th 23 16)
  let b (x y : Nat) (v : Nat) : Nat := if x ≤ y then v else 0
  let c := c.modPwr (fun w => { w with
    dieMax := BitVec.ofNat 8 (min 255 (hottest die)), hbmMax := BitVec.ofNat 8 (min 255 (hottest hbm)), optMax := BitVec.ofNat 8 (min 255 (hottest opt)),
    hot := BitVec.ofNat 3 (b dl (hottest die) 1 + b hl (hottest hbm) 2 + b ol (hottest opt) 4) })
  let c := forEach (hbm.map Prod.fst) (fun e c => c.modHbmc e (fun x => { x with tempHigh := decide (85 < tget 0 e hbm) })) c
  let c := forEach (List.range 4) (fun f c => thermalGroup f 0 dl (die.filter (fun r => decide (sensorField r.1 = f))) c) c
  applyFloors (opticsGroup ol opt (thermalGroup 4 1 hl hbm c))

def fxThermal (k : Temps) (d : Dev) : Dev :=
  let c := d.core
  if !c.pins.powered ∨ !c.pins.resetN then d
  else
    let die := readings (k.die.take 857)
    let hbm := (readings (k.hbm.take 16)).filter (fun r => c.glb.fuse.stackPresent.getLsbD r.1)
    let opt := (readings (k.optics.take 8)).filter (fun r => c.glb.fuse.portPresent.getLsbD r.1)
    let c := thermalCore die hbm opt c
    if !c.pins.thermTrip ∧ (110 ≤ hottest die ∨ 105 ≤ hottest hbm ∨ 95 ≤ hottest opt) then
      { d with core := tripCore c, perm := { d.perm with rstCause := 3 } }
    else { d with core := c }

def execThermalSample (k : Temps) (s : State) : Host.Outcome State Fault Refusal := act s (fxThermal k)

/-! ### Freeze triggers and read-out (R541, R545) -/

def fxFreezeGo (c : Core) : Core :=
  if c.pins.powered ∧ c.pins.resetN ∧ c.evc.freezeCfg.getLsbD 1 then freeze 1 (!(c.evc.freezeCfg.getLsbD 0)) c else c

def fxFreezePin (c : Core) : Core :=
  if c.pins.powered ∧ c.pins.resetN ∧ inService c ∧ c.evc.freezeCfg.getLsbD 2 then freeze 2 true c else c

/-- A unit whose freeze a segment can read. -/
def unitFrozen (c : Core) (cls i : Nat) : Bool :=
  c.hasUnit cls i && decide (c.evc.fzState = 3) &&
  (!c.evc.fzScope || (decide (cls = 4) && (c.tile i).assigned && decide ((c.tile i).ptn = c.evc.fzPtn)))

/-- Entries of a partition are not shown: the parts are locked and it has not consented (R545). -/
def hides (c : Core) (p : Nat) : Bool := c.sec.debugLock && !c.sec.consent.getLsbD p

/-- The dispatchers of an edge unit: partition, rings, commands (R202, R544). -/
def dispatchers (c : Core) (e : Nat) : List (Nat × Table Ring × List Cmd) :=
  ([2 * e, 2 * e + 1].filter (fun p => !hides c p)).map (fun p => (p, (c.ptn p).rings, (c.ptn p).cmds))

/-- The slots in a receive buffer and the flits of the replay buffer, as R389 masks them. -/
def portSeg (c : Core) (n : Nat) : Seg :=
  let p := c.port n
  let recv := p.vcs.map (fun v => (v.1, if c.sec.debugLock then (maskStarts c n p.mirrorRole v.1 15 v.2.part).1 else v.2.part))
  .port p.link (p.buf.map (fun k => if c.sec.debugLock then (maskFlit c n k.1 (some ([], some k.2))).1 else k.1)) recv

/-- What the segment of a unit shows (R544); entries of a shared unit that are tagged with a partition without consent are left out, so that
they read as zero (R545). -/
def segment (c : Core) (cls i : Nat) : Seg :=
  let shown (line : Nat) : Bool := match c.lineOwner i line with
    | some (p, _) => !hides c p
    | none => true
  if cls = 4 then .cluster (c.tile i).ls (c.tile i).lsPoison (c.tile i).seq (c.tile i).vec (c.tile i).chans
  else if cls = 5 then .router (c.router i).bufs
  else if cls = 6 then
    let h := c.home i
    .home (h.dir.filter (fun d => shown d.1)) (h.trks.filter (fun t => !hides c t.p))
      ((h.store.filter (fun x => shown x.1)).map (fun x => (x.1, decide (x.2 = some true), (c.rdPool i x.1).1)))
  else if cls = 7 then .hbmc (c.hbmc i).pcs (c.hbmc i).md
  else if cls = 8 then
    let own (o : Nat) : Bool := match c.objOwner o with
      | some p => !hides c p
      | none => true
    .edge (c.objs.filter (fun o => decide (o.1 / 256 = i) && own o.1)) ((c.edge i).waiters.filter (fun w => own w.obj)) (dispatchers c i)
      ((c.edge i).opens.filter (fun o => !hides c (c.host o.1).p))
  else if cls = 9 then portSeg c i
  else .closed

/-- A segment opens, or is refused; in a shared unit, entries of partitions without consent are masked. The header goes out first. -/
def fxJtag (cls i : Nat) (c : Core) : Core :=
  if !c.pins.powered ∨ 16 ≤ cls ∨ 4096 ≤ i then c
  else
    let locked := c.sec.debugLock
    let frozen := unitFrozen c cls i
    let x := c.tile i
    let closed := decide (cls = 4) && locked && x.assigned && !c.sec.consent.getLsbD x.ptn
    let refused := !frozen || closed
    let masked := !refused && decide (cls ≠ 4) && locked && c.ptns.any (fun e => e.2.en && !c.sec.consent.getLsbD e.1)
    let hdr := BitVec.ofNat 32 (cls + 16 * i + (if refused then 65536 else 0) + (if masked then 131072 else 0))
    let c := c.send (.jtag hdr (if refused then .closed else segment c cls i))
    if !frozen then c
    else c.modEvc (fun e => if refused then { e with refused := e.refused + 1 } else { e with opened := e.opened + 1 })

def execFreezeGo (s : State) : Host.Outcome State Fault Refusal := actCore s fxFreezeGo
def execFreezePin (s : State) : Host.Outcome State Fault Refusal := actCore s fxFreezePin
def execJtagSegmentOpen (cls idx : Nat) (s : State) : Host.Outcome State Fault Refusal := actCore s (fxJtag cls idx)

end Sys2Proof.Machine
end

