-- ==== Sys2Proof/Machine/Regs.lean ====
section
/-! DEFINITION. Registers as software writes and reads them: settings of BAR0, mailbox channels in BAR2, the tenant window, the sideband, event
counters and BAR0 timeouts (R6, R8, R256, R465, R481–R485, R511, R529, R538–R551). -/

namespace Sys2Proof.Machine
open Sys2Proof

/-- A field of a written word brought into its range, back in its place. -/
def clampBits (w : BitVec 32) (hi lo a b : Nat) : BitVec 32 := BitVec.ofNat 32 (clampNat a b (field w hi lo)) <<< lo

/-- The registers of the chip can be reached: powered, out of reset. -/
def chipUp (c : Core) : Bool := c.pins.powered && c.pins.resetN

/-! ### Event counters (R536–R540, R546) -/

/-- The counter register at a BAR0 offset: class, unit, counter, and the byte offset within its registers. -/
def counterPlace (off : Nat) : Option (Nat × Nat × Nat × Nat) :=
  let unit (cls i base n : Nat) : Option (Nat × Nat × Nat × Nat) :=
    if base ≤ off % 0x10000 ∧ off % 0x10000 < base + 16 * n then some (cls, i, (off % 0x10000 - base) / 16, off % 16) else none
  if 0x40100 ≤ off ∧ off < 0x40500 then some (0, 0, (off - 0x40100) / 32, (off - 0x40100) % 32)
  else if 0x100000 ≤ off ∧ off < 0x200000 then (if off / 0x10000 % 2 = 0 then unit 9 ((off - 0x100000) / 0x20000) 0x200 16 else none)
  else if 0x200000 ≤ off ∧ off < 0x300000 then unit 6 ((off - 0x200000) / 0x10000) 0x200 16
  else if 0x300000 ≤ off ∧ off < 0x400000 then unit 7 ((off - 0x300000) / 0x10000) 0x400 16
  else if 0x1000000 ≤ off ∧ off < 0x1D20000 then
    let r := off % 0x4000
    if 0x100 ≤ r ∧ r < 0x180 then some (4, (off - 0x1000000) / 0x4000, (r - 0x100) / 16, r % 16) else none
  else none

/-- Counter at a BAR0 offset of a unit that is present: key, and the byte offset within its registers. -/
def counterAt (c : Core) (off : Nat) : Option (Nat × Nat) :=
  match counterPlace off with
  | some (cls, i, k, sub) =>
    if cls = 0 ∨ (if cls = 4 then (c.tile i).en else c.hasUnit cls i) then some (ctrKey cls i k, sub) else none
  | none => none

def ctrClass (key : Nat) : Nat := key / 1048576
def ctrUnit (key : Nat) : Nat := key % 1048576 / 16
def Core.counter (c : Core) (key : Nat) : Counter := tget {} key c.evc.counters
def putCounter (key : Nat) (x : Counter) (c : Core) : Core := c.modEvc (fun e => { e with counters := tput {} key x e.counters })

/-- The cluster of tile `t` belongs to partition `p`. -/
def tileOfPtn (c : Core) (t p : Nat) : Bool := (c.tile t).assigned && decide ((c.tile t).ptn = p)

/-- A counter is attributable to partition `p` (R539). -/
def attributable (c : Core) (key p : Nat) : Bool :=
  let x := c.counter key
  let global := decide (ctrClass key = 0)
  let cls := if global then field x.src 3 0 else ctrClass key
  let filt := x.sel.getLsbD 13 && decide (field x.sel 12 8 = p) && filterable cls (field x.sel 7 0)
  let src := decide (cls = 4) &&
    (if global then (if x.src.getLsbD 16 then c.tiles.any (fun t => t.2.assigned && decide (t.2.ptn = p)) else tileOfPtn c (field x.src 15 4) p)
     else tileOfPtn c (ctrUnit key) p)
  filt || src

/-- BAR0 and I3C read it as zero: it is attributable to an enabled partition whose consent flag is clear (R539). -/
def counterMasked (c : Core) (key : Nat) : Bool :=
  (List.range 32).any (fun p => (c.ptn p).en && attributable c key p && !c.sec.consent.getLsbD p)

/-- EVC_LO_READ: LO is returned and HI latched; 8 B return both halves at once, with MASKED and OVF (R538, R550). -/
def fxEvcLoRead (off : Nat) (wide : Bool) (c : Core) : Core :=
  match counterAt c off with
  | some (key, 0) =>
    if !chipUp c ∨ (ctrClass key ≠ 0 ∧ frozenChip c) then c
    else
      let x := c.counter key
      let m := counterMasked c key
      let v := if m then 0 else x.value.toNat
      let c := putCounter key { x with hi := BitVec.ofNat 16 (v / 2 ^ 32), masked := m } c
      let top := if wide then v / 2 ^ 32 + (if m then 2 ^ 30 else if x.ovf then 2 ^ 31 else 0) else 0
      c.send (.readData (BitVec.ofNat 64 (v % 2 ^ 32 + top * 2 ^ 32)))
  | some _ => c
  | none =>
    -- a counter of a unit that fusing removed reads as zero (R4)
    if ((counterPlace off).map (fun k => k.2.2.2)) = some 0 ∧ chipUp c ∧ !frozenChip c then c.send (.readData 0) else c

/-- EVC_CLEAR: the value and OVF go to zero; `events` occurrences of the same cycle are counted after it. -/
def fxEvcClear (off events : Nat) (c : Core) : Core :=
  match counterAt c off with
  | some (key, 8) =>
    if !chipUp c ∨ (ctrClass key ≠ 0 ∧ frozenChip c) then c
    else
      let c := putCounter key { c.counter key with value := 0, ovf := false } c
      if c.evc.hold ∨ events = 0 then c else bumpKey key events c
  | _ => c

def fxEvcHold (on : Bool) (c : Core) : Core := if chipUp c then c.modEvc (fun e => { e with hold := on }) else c

/-- TICK_LO_READ (R531). -/
def fxTickLoRead (wide : Bool) (c : Core) : Core :=
  if !chipUp c then c
  else
    let t := c.evc.tick
    (c.modEvc (fun e => { e with tickHi := BitVec.ofNat 32 (t.toNat / 2 ^ 32) })).send (.readData (if wide then t else t &&& 0xFFFFFFFF))

def execEvcLoRead (off : BitVec 26) (wide : Bool) (s : State) : Host.Outcome State Fault Refusal := actCore s (fxEvcLoRead off.toNat wide)
def execEvcClear (off : BitVec 26) (events : Nat) (s : State) : Host.Outcome State Fault Refusal := actCore s (fxEvcClear off.toNat events)
def execEvcHold (on : Bool) (s : State) : Host.Outcome State Fault Refusal := actCore s (fxEvcHold on)
def execTickLoRead (wide : Bool) (s : State) : Host.Outcome State Fault Refusal := actCore s (fxTickLoRead wide)

/-! ### Settings of BAR0, block by block (R6, R8, R548) -/

/-- The MSI-X table: an entry that is unmasked with its event pending sends its message (R486, log 20). -/
def msixWrite (i : Nat) (w : BitVec 32) (c : Core) : Core :=
  let v := i / 4
  let c := c.modGlb (fun g => { g with msix := tput (if i % 4 = 3 then 1 else 0) i w g.msix })
  if i % 4 = 3 ∧ !w.getLsbD 0 ∧ c.glb.pba.getLsbD v then (c.modGlb (fun g => { g with pba := g.pba &&& ~~~(1#64 <<< v) })).send (.msix v) else c

def glbWrite (r : Nat) (w : BitVec 32) (c : Core) : Core :=
  let lo : BitVec 64 := w.setWidth 64
  let hi : BitVec 64 := lo <<< 32
  if r = 0x18 then c.modGlb (fun g => { g with l2pSel := w.setWidth 10 })
  else if r = 0x28 then c.modGlb (fun g => { g with readyTmo := clampBits w 13 0 100 10000 })
  else if r = 0x30 then (if w.getLsbD 8 then clearService 8 c else c)
  else if r = 0x104 then c.modGlb (fun g => { g with unitSel := w &&& 0xFFFF })
  else if r = 0x120 then c.modGlb (fun g => { g with intStatus := g.intStatus &&& ~~~lo })
  else if r = 0x124 then c.modGlb (fun g => { g with intStatus := g.intStatus &&& ~~~hi })
  else if r = 0x128 then c.modGlb (fun g => { g with intEn := (g.intEn &&& 0xFFFFFFFF00000000) ||| lo })
  else if r = 0x12C then c.modGlb (fun g => { g with intEn := (g.intEn &&& 0x00000000FFFFFFFF) ||| hi })
  else if 0x8000 ≤ r ∧ r < 0x8400 then msixWrite ((r - 0x8000) / 4) w c
  else c

/-- Writes to the PWR block (R511). PARK_TICKS keeps the value written; the rule says nothing of 1–249, which act as they stand (log 143). -/
def pwrWrite (r : Nat) (w : BitVec 32) (c : Core) : Core :=
  if r = 0 then scaleBudgets (c.modPwr (fun x => { x with deviceBudget := clampBits w 11 0 600 2600 }))
  else if r = 4 then scaleBudgets (c.modPwr (fun x => { x with shared := clampBits w 11 0 600 2600 }))
  else if r = 8 then c.modPwr (fun x => { x with ctrl := w &&& 0x00FFFF03 })
  else if r = 0xC then c.modPwr (fun x => { x with iccLimit := clampBits w 11 0 500 2200 })
  else if r = 0x10 then c.modPwr (fun x => { x with therm := clampBits w 7 0 70 105 ||| clampBits w 15 8 70 100 ||| clampBits w 23 16 60 90 })
  else c

/-- HI, SEL and SRC of a counter. -/
def counterWrite (key sub : Nat) (w : BitVec 32) (c : Core) : Core :=
  let x := c.counter key
  if sub = 4 then (if w.getLsbD 31 then putCounter key { x with ovf := false } c else c)
  else if sub = 8 then
    let x := { x with sel := w &&& 0x7FFF }
    putCounter key (if w.getLsbD 31 then { x with value := 0, ovf := false } else x) c
  else if sub = 12 ∧ ctrClass key = 0 then putCounter key { x with src := w &&& 0x1FFFF } c
  else c

def evcWrite (r : Nat) (w : BitVec 32) (c : Core) : Core :=
  if r = 0x10 then c.modEvc (fun e => { e with freezeCfg := w &&& 0x001F071F })
  else if r = 0x14 then c.modEvc (fun e => { e with freezeCode := w.setWidth 16 })
  else c

def portWrite (n r : Nat) (w : BitVec 32) (c : Core) : Core :=
  if !c.hasUnit 9 n then c
  else
    let fits (a b : BitVec 32) : Bool := decide (field a 15 0 + field a 31 16 + field b 15 0 + field b 31 16 ≤ 122368)
    c.modPort n (fun p =>
      if r = 0 then { p with cfg := w &&& 0x333 }
      else if r = 0x10 then { p with replayTmo := w &&& 0xFFFF }
      else if r = 0x14 then { p with retrainTmo := clampBits w 17 0 2500 250000 }
      else if r = 0x18 then { p with stallTmo := clampBits w 21 0 250 2500000 }
      else if r = 0x1C then { p with retry := clampBits w 11 0 10 4000 }
      else if r = 0x20 then (if fits w p.credInit1 then { p with credInit0 := w } else p)
      else if r = 0x24 then (if fits p.credInit0 w then { p with credInit1 := w } else p)
      else if r = 0x100 then (if w.getLsbD 31 then { p with chkValid := false } else p)
      else if r = 0x110 then
        { p with cap := { p.cap with cfg := (w &&& 0x03FF0076) ||| (p.cap.cfg &&& w &&& 1), st := if w.getLsbD 0 then p.cap.st else 0 } }
      else if r = 0x114 then { p with cap := { p.cap with mtch := w &&& 0x1FFF } }
      else if r = 0x118 then { p with cap := { p.cap with ep := w &&& 0x3FFFF } }
      else if r = 0x11C then { p with cap := { p.cap with epMask := w &&& 0x3FFFF } }
      else if r = 0x124 then { p with cap := { p.cap with sel := w.setWidth 10 } }
      else p)

def homeWrite (e r : Nat) (w : BitVec 32) (c : Core) : Core :=
  if !c.hasUnit 6 e then c
  else c.modHome e (fun h =>
    if r = 0 then { h with dirCfg := w &&& 0x7F03 }
    else if r = 4 then { h with snoopTmo := clampBits w 19 0 250 1000000 ||| (w &&& 0x07000000) }
    else if r = 0x100 then { h with integCfg := w &&& 0xF03 }
    else if r = 0x104 then { h with patrolCfg := (w &&& 1) ||| clampBits w 29 16 10 10080 }
    else h)

/-- Writes to an HBMC block (R273, R290, R294, R321). WR_HI, WR_LO and AGE_CAP of SCHED and SPARE_CFG.WARN keep any value that fits the field; the
rules say nothing of values outside their ranges (log 143). -/
def hbmcWrite (e r : Nat) (w : BitVec 32) (c : Core) : Core :=
  if !c.hasUnit 7 e then c
  else
    let held := decide (c.ust 7 e = .held)
    c.modHbmc e (fun x =>
      if r = 0 then { x with cfg := (w &&& 0x3FF) ||| ((if held then w else x.cfg) &&& 0x7000) }
      else if r = 0xC then { x with sched := w &&& 0x03FF3F3F }
      else if r = 0x10 then { x with pwr := (w &&& 1) ||| clampBits w 29 8 250 2500000 }
      else if 0x100 ≤ r ∧ r < 0x160 ∧ held then
        let h := (r - 0x100) / 8
        let m := x.masks.getD h 0
        { x with masks := x.masks.set h (if r % 8 = 0 then (m &&& 0xFF00000000) ||| w.setWidth 40 else (m &&& 0xFFFFFFFF) ||| ((w &&& 0xFF).setWidth 40 <<< 32)) }
      else if r = 0x200 then { x with trnCtrl := w &&& 0xFFFF3F7E }
      else if r = 0x208 then { x with trnLane := w &&& 0xFFF }
      else if 0x240 ≤ r ∧ r < 0x280 then { x with pat := tput 0 ((r - 0x240) / 4) w x.pat }
      else if r = 0x280 then { x with dlySel := w &&& 0x1FFF }
      else if r = 0x284 ∧ held ∧ hasDelay (field x.dlySel 12 12) (field x.dlySel 11 0) then
        { x with dly := tput 128 (dlyKey (field x.dlySel 12 12) (field x.dlySel 11 0)) (w.setWidth 8) x.dly, verified := false, verifyBad := [] }
      else if r = 0x304 then { x with spareCfg := w &&& 0x3FFF }
      else x)

def meshWrite (r : Nat) (w : BitVec 32) (c : Core) : Core :=
  c.modMesh (fun m =>
    if r = 0xF0000 then { m with cfg := clampBits w 12 0 16 4096 ||| (w &&& 0x000F0000) }
    else if r = 0xF0004 then { m with aimd := w &&& 0xFFFF03FF }
    else if r = 0xF000C then { m with drainTmo := clampBits w 9 0 1 1000 }
    else if r = 0xF0010 then { m with fmEp := w &&& 0x8003FFFF }
    else m)

def syncWrite (r : Nat) (w : BitVec 32) (c : Core) : Core :=
  if 0x40000 ≤ r ∧ r < 0x40400 ∧ r % 32 = 0 then
    c.modPtn ((r - 0x40000) / 32) (fun p => { p with dlkCfg := clampBits w 9 0 0 1000 ||| (w &&& 0x10000) })
  else if r = 0x41000 then { c with gateWait := clampBits w 14 0 25 25000 ||| (w &&& 0x10000) }
  else c

def mirrWrite (r : Nat) (w : BitVec 32) (c : Core) : Core :=
  let g := c.mirrG
  if r < 0x800 ∧ r % 64 = 4 then c.modMirr (r / 64) (fun m => { m with lease := clampBits w 9 0 5 1000 ||| (w &&& 0x001F0000) })
  else if r = 0x1000 then { c with mirrG := { g with arbEp := w &&& 0x3FFFF } }
  else if r = 0x1004 then { c with mirrG := { g with selfEp := w &&& 0x3FFFF } }
  else if r = 0x1008 then { c with mirrG := { g with replTmo := clampBits w 17 0 25 250000 } }
  else if r = 0x100C then { c with mirrG := { g with resyncRate := clampBits w 14 0 10 1590 } }
  else c

def clusWrite (t r : Nat) (w : BitVec 32) (c : Core) : Core :=
  if !(c.tile t).en then c
  else c.modTile t (fun x =>
    if r = 8 then { x with pwr := w &&& 0x1FFFF }
    else if r = 0xC then
      let x := { x with fTrap := x.fTrap && !w.getLsbD 1, fLsUe := x.fLsUe && !w.getLsbD 2, fDmaCh := x.fDmaCh &&& ~~~((w >>> 8).setWidth 8) }
      if w.getLsbD 0 then { x with fDma := false, fcCode := 0, fcChan := 0, fcMulti := false, fcValid := false } else x
    else if r = 0x14 then { x with dmaTmo := clampBits w 17 0 25 250000 }
    else x)

/-- A write to a BAR0 register under its access code (R6). What has a command of its own (keys, GO bits, link control, meters and weights,
ERL_TAIL, HOLD) is not written here. The registers of a unit whose clock is stopped do not answer (R542). -/
def setReg (off : Nat) (w : BitVec 32) (c : Core) : Core :=
  let unitsRun := !frozenChip c
  if off % 4 ≠ 0 then c
  else match counterAt c off with
  | some (key, sub) => if ctrClass key = 0 ∨ unitsRun then counterWrite key sub w c else c
  | none =>
    if off < 0x10000 then glbWrite off w c
    else if 0x20000 ≤ off ∧ off < 0x30000 then pwrWrite (off - 0x20000) w c
    else if off = 0x30010 then { c with rst := { c.rst with tileSel := w.setWidth 10 } }
    else if 0x40000 ≤ off ∧ off < 0x50000 then evcWrite (off - 0x40000) w c
    else if off = 0x5000C then c.modErl (fun l => { l with intCfg := w &&& 0x00010003 })
    else if off = 0x70010 then c.modSec (fun x => { x with liningRate := clampBits w 14 0 10 20000 })
    else if off = 0x70014 then c.modSec (fun x => { x with sweepRate := clampBits w 14 0 10 20000 })
    else if 0x80000 ≤ off ∧ off < 0x81000 then
      (if off % 0x80 = 0x24 then c.modPtn ((off - 0x80000) / 0x80) (fun p => { p with forced := w.getLsbD 1 }) else c)
    else if !unitsRun then c
    else if 0x100000 ≤ off ∧ off < 0x200000 then portWrite ((off - 0x100000) / 0x20000) (off % 0x20000) w c
    else if 0x200000 ≤ off ∧ off < 0x300000 then homeWrite ((off - 0x200000) / 0x10000) (off % 0x10000) w c
    else if 0x300000 ≤ off ∧ off < 0x400000 then hbmcWrite ((off - 0x300000) / 0x10000) (off % 0x10000) w c
    else if 0x400000 ≤ off ∧ off < 0x500000 then meshWrite (off - 0x400000) w c
    else if 0x500000 ≤ off ∧ off < 0x600000 then syncWrite (off - 0x500000) w c
    else if off = 0x700000 then { c with tmgr := w &&& 0xFFFFFF01 }
    else if 0x800000 ≤ off ∧ off < 0x810000 then mirrWrite (off - 0x800000) w c
    else if 0x1000000 ≤ off ∧ off < 0x1D20000 then clusWrite ((off - 0x1000000) / 0x4000) (off % 0x4000) w c
    else c

/-! ### Mailbox registers (R465, R467) -/

/-- A write to CMD, DATA or the buffer, which starts at `base`: ignored and counted while a request is accepted or running. -/
def mbxWrite (ch base off : Nat) (w : BitVec 32) (c : Core) : Core :=
  let m := c.mb ch
  let cmd := decide (off = 0)
  let data := decide (0x40 ≤ off ∧ off < 0x80)
  let buf := decide (base ≤ off)
  if off % 4 ≠ 0 ∨ !(cmd || data || buf) then c
  else if !mbFree m then c.setMb ch { m with ignored := m.ignored + 1 }
  else if cmd then c.setMb ch { m with cmd := w &&& 0xFF1F0FFF }
  else if data then c.setMb ch { m with data := tput 0 ((off - 0x40) / 4) w m.data }
  else c.setMb ch { m with buf := wrLE m.buf (off - base) 4 w.toNat }

/-- Bus of a device channel: 0 PCIe, 1 I3C, 2 both (R481). -/
def chanBus (c : Core) (ch : Nat) : BitVec 2 := c.cfg.bus.getD ch 0

/-- A mailbox register read. -/
def mbxWord (m : Mbx) (base size off : Nat) : Nat :=
  if off = 0 then m.cmd.toNat
  else if off = 4 then (if m.full then 1 else 0)
  else if off = 8 then
    (match m.st with
      | .idle => 0
      | .accepted => 1
      | .running => 2
      | .done => 3) + (if m.full then 16 else 0) + m.result.toNat * 256 + m.tag.toNat * 2 ^ 24
  else if off = 0xC then m.skipped.toNat + m.ignored.toNat * 65536
  else if 0x40 ≤ off ∧ off < 0x80 then (tget 0 ((off - 0x40) / 4) m.data).toNat
  else if base ≤ off ∧ off < base + size then rdLE m.buf (off - base) 4
  else 0

/-! ### Reads of the blocks that the sideband reaches (R485) -/

def Bool.bit (b : Bool) (i : Nat) : Nat := if b then 2 ^ i else 0

def maskOf (n : Nat) (f : Nat → Bool) : Nat := ((List.range n).map (fun i => Bool.bit (f i) i)).sum

def glbWord (c : Core) (r : Nat) : Nat :=
  let g := c.glb
  let f := g.fuse
  let l := tget none g.l2pSel.toNat g.l2p
  if r = 0 then (if g.idValid then f.part.toNat + f.stepping.toNat * 256 + 2 ^ 31 else 0)
  else if r = 4 then (if g.idValid then f.stackPresent.toNat + f.portPresent.toNat * 65536 else 0)
  else if r = 8 then g.trained.toNat + g.unused.toNat * 65536
  else if r = 0xC then
    g.required.toNat + 256 * maskOf 8 (fun n => (c.port n).linked) + 65536 * maskOf 8 (fun n => decide ((c.port n).width = 64)) + g.portsFailed.toNat * 2 ^ 24
  else if r = 0x10 then g.l2p.length + g.unmapped * 65536
  else if r = 0x14 then ((List.range 4).map (fun i => tget 0 i g.spares % 256 * 256 ^ i)).sum
  else if r = 0x18 then g.l2pSel.toNat
  else if r = 0x1C then (match l with
    | some (t, m) => t + Bool.bit m 16 + 2 ^ 31
    | none => 0)
  else if r = 0x20 then (match g.ready with
    | .boot => 0
    | .bringUp => 1
    | .waitPorts => 2
    | .ready => 3
    | .noImage => 4
    | .fuseError => 5)
  else if r = 0x24 then g.readyMs.toNat
  else if r = 0x28 then g.readyTmo.toNat
  else if r = 0x30 then g.service.toNat
  else if r = 0x100 then g.heartbeat.toNat + Bool.bit g.restarting 16 + g.restarts.toNat * 2 ^ 24
  else if r = 0x104 then g.unitSel.toNat
  else if r = 0x108 then
    let u := c.unit (field g.unitSel 3 0) (field g.unitSel 15 4)
    u.seen.code + u.want.code * 16 + Bool.bit u.cmd.isSome 8
  else if r = 0x10C then g.discrepancy.toNat
  else if r = 0x110 then g.busErr.toNat + Bool.bit g.busErrValid 31
  else if r = 0x114 then g.i3cRefused.toNat
  else if r = 0x120 then g.intStatus.toNat % 2 ^ 32
  else if r = 0x124 then g.intStatus.toNat / 2 ^ 32
  else if r = 0x128 then g.intEn.toNat % 2 ^ 32
  else if r = 0x12C then g.intEn.toNat / 2 ^ 32
  else if 0x8000 ≤ r ∧ r < 0x8400 then
    let i := (r - 0x8000) / 4
    (tget (if i % 4 = 3 then (1 : BitVec 32) else 0) i g.msix).toNat
  else if r = 0x9000 then g.pba.toNat % 2 ^ 32
  else if r = 0x9004 then g.pba.toNat / 2 ^ 32
  else 0

def cfgWord (c : Core) (r : Nat) : Nat :=
  let x := c.cfg
  if r = 0 then Bool.bit x.loaded 0 + Bool.bit x.slot 1 + x.failCheck.toNat * 16 + Bool.bit x.busy 8
  else if r = 4 then x.imageId.toNat
  else if r = 8 then x.tuneId.toNat
  else 0

def pwrWord (c : Core) (r : Nat) : Nat :=
  let w := c.pwr
  if r = 0 then w.deviceBudget.toNat
  else if r = 4 then w.shared.toNat
  else if r = 8 then w.ctrl.toNat
  else if r = 0xC then w.iccLimit.toNat
  else if r = 0x10 then w.therm.toNat
  else if r = 0x14 then w.power.toNat + w.icc.toNat * 65536 + Bool.bit w.iccClamp 31
  else if r = 0x18 then w.dieMax.toNat + w.hbmMax.toNat * 256 + w.optMax.toNat * 65536 + w.hot.toNat * 2 ^ 24
  else if 0x100 ≤ r ∧ r < 0x300 then
    let p := tget {} ((r - 0x100) / 16) w.ptns
    let s := r % 16
    if s = 0 then p.budget.toNat
    else if s = 4 then p.draw.toNat
    else if s = 8 then p.lent.toNat + p.borrowed.toNat * 65536
    else p.level.toNat + p.intervals.toNat * 65536
  else 0

/-- Word `i` of a log entry (R316). -/
def logWord (x : LogEntry) (i : Nat) : Nat :=
  if i = 0 then x.code + x.sev * 65536 + (x.ptn.getD 0) * 2 ^ 18 + Bool.bit x.ptn.isSome 23 + Bool.bit x.cont 24
  else if i = 1 then x.seq.toNat
  else if i = 2 then x.tick.toNat % 2 ^ 32
  else if i = 3 then x.tick.toNat / 2 ^ 32
  else if i = 4 then x.unit + x.cls * 4096 + x.count.toNat * 65536
  else x.payload.toNat / 2 ^ (32 * (i - 5)) % 2 ^ 32

def erlWord (c : Core) (r : Nat) : Nat :=
  let l := c.erl
  if r = 0 then l.head.toNat
  else if r = 4 then l.tail.toNat
  else if r = 8 then l.dropped.toNat
  else if r = 0xC then l.intCfg.toNat
  else if r = 0x10 then l.service.toNat
  else if 0x20 ≤ r ∧ r < 0x30 then (tget (0 : BitVec 24) ((r - 0x20) / 4) l.laps).toNat
  else if 0x100 ≤ r ∧ r < 0x200 then
    (if r % 8 = 0 then (tget (0 : BitVec 32) ((r - 0x100) / 8) l.evSeq).toNat else (tget (0 : BitVec 32) ((r - 0x100) / 8) l.evLast).toNat)
  else if 0x8000 ≤ r ∧ r < 0x10000 then
    let n := (r - 0x8000) / 32
    if l.ring.any (fun e => decide (e.1 = n)) then logWord (tget {} n l.ring) (r % 32 / 4) else 0
  else 0

def secWord (c : Core) (r : Nat) : Nat :=
  let x := c.sec
  if r = 0 then
    Bool.bit x.fwSlotB 0 + Bool.bit x.fallback 1 + Bool.bit x.ownerKey 2 + Bool.bit x.debugLock 3 + Bool.bit x.attestReady 4 + x.error.toNat * 256
  else if r = 4 then x.fused.toNat + x.running.toNat * 256
  else if r = 8 then x.consent.toNat
  else if r = 0xC then x.attQueue.length + Bool.bit x.signing.isSome 4
  else if r = 0x10 then x.liningRate.toNat
  else if r = 0x14 then x.sweepRate.toNat
  else if 0x100 ≤ r ∧ r < 0x180 then field (tget (0 : BitVec 256) ((r - 0x100) / 32) x.m) (32 * (r % 32 / 4) + 31) (32 * (r % 32 / 4))
  else if 0x200 ≤ r ∧ r < 0x400 then
    let k := c.keys ((r - 0x200) / 16)
    let s := r % 16
    if s = 0 then k.gen.toNat
    else if s = 4 then Bool.bit k.sweep 0 + Bool.bit k.prevValid 1 + Bool.bit k.lineWait 2
    else if s = 8 then k.extLined.toNat
    else k.ptnLined.toNat
  else if 0x400 ≤ r ∧ r < 0x480 then (c.keys ((r - 0x400) / 4)).pagesLeft.toNat
  else 0

/-- A word of an extent-table entry (R49). -/
def extWord (x : Ext) (s : Nat) : Nat :=
  let slot (j : Nat) : Nat := let k := x.slots.getD j (0, 0); k.1 + k.2.toNat * 256
  if s = 0 then
    Bool.bit x.valid 0 + x.typ.toNat * 2 + Bool.bit x.allGrp 3 + x.ppa * 16 + x.life.toNat * 2 ^ 14 + (if x.typ = 1 then x.region else 0) * 65536
  else if s = 4 then slot 0 + slot 1 * 65536
  else if s = 8 then slot 2 + slot 3 * 65536
  else x.ms + x.msSlots.toNat * 2 ^ 24 + Bool.bit x.msAll 28

/-- Free lined extents of a placement. -/
def freeCount (c : Core) (pl : Nat) : Nat :=
  let r := placementRange c pl
  ((List.range r.2).filter (fun i => freeExt c (r.1 + i))).length

/-- The PTN block (R49). The layout and the free counts read as zero until an image is loaded; STEP of PTNp_RESET is the step of R506 that runs. -/
def ptnWord (c : Core) (r : Nat) : Nat :=
  if r < 0x1000 then
    let p := r / 0x80
    let x := c.ptn p
    let s := r % 0x80
    if s = 0 then Bool.bit x.en 0 + Bool.bit x.mirrored 1 + Bool.bit x.ueTrap 2 + Bool.bit x.hostsFenced 3
    else if s = 4 then x.endpoint.toNat
    else if s = 8 then x.quota + mappedCount c p * 65536
    else if s = 0xC then x.groupBase + x.groupCount * 256
    else if s = 0x10 then x.syncBase + x.syncCount * 65536
    else if s = 0x14 then x.snapBase + x.snapCount * 65536
    else if s = 0x18 then x.clusters.length
    else if s = 0x1C then x.nackRevoked.toNat
    else if s = 0x20 then (match actionOf c p with
      | some a => a.kind + 16
      | none => 0)
    else if s = 0x24 then Bool.bit x.forced 1 + x.resetStep * 16 + x.resetResult.toNat * 256 + Bool.bit x.resetBusy 16
    else 0
  else if 0x1000 ≤ r ∧ r < 0x100C ∧ !c.cfg.loaded then 0
  else if r = 0x1000 then c.kSpread + c.glb.fuse.stacks.length * 256 + c.glb.fuse.stacks.length / 4 * 65536
  else if r = 0x1004 then freeCount c 0
  else if r = 0x1008 then ((List.range 4).map (fun f => freeCount c (f + 1) * 256 ^ f)).sum
  else if r = 0x100C then c.rot.revokeSeq.toNat
  else if r = 0x1010 then (c.hosts.filter (fun h => h.2.valid)).length
  else if 0x8000 ≤ r ∧ r < 0x10000 then
    let h := c.host ((r - 0x8000) / 8)
    if r % 8 = 0 then h.ep.toNat + h.p * 2 ^ 18 + h.group * 2 ^ 24 else Bool.bit h.valid 0 + h.st.toNat * 2 + h.port * 16
  else if 0x10000 ≤ r ∧ r < 0x80000 then
    let i := (r - 0x10000) % 0x3800 / 16
    extWord (c.masterExt ((r - 0x10000) / 0x3800) i) (r % 16)
  else 0

/-- The MIRR state registers of a partition (R451). -/
def mirrWord (c : Core) (r : Nat) : Nat :=
  let m := c.mirr (r / 64)
  let s := r % 64
  let left := match m.leaseEnd with
    | some e => e - c.evc.tick.toNat
    | none => 0
  if s = 8 then m.st.code.toNat + Bool.bit m.leaseEnd.isSome 3 + m.peer.toNat * 16
  else if s = 0xC then m.epoch.toNat
  else if s = 0x10 then m.order.toNat % 2 ^ 32
  else if s = 0x14 then m.order.toNat / 2 ^ 32
  else if s = 0x18 then left
  else if s = 0x1C then m.pagesLeft.toNat
  else if s = 0x20 then m.hits.toNat
  else if s = 0x24 then m.notHolder.toNat
  else 0

/-- A BAR0 read of the sideband: none where it has no right. -/
def i3cWord (c : Core) (off : Nat) : Option Nat :=
  if off % 4 ≠ 0 then none
  else if off < 0x10000 then some (glbWord c off)
  else if off < 0x20000 then some (cfgWord c (off - 0x10000))
  else if off < 0x30000 then some (pwrWord c (off - 0x20000))
  else if 0x50000 ≤ off ∧ off < 0x60000 then some (erlWord c (off - 0x50000))
  else if 0x70000 ≤ off ∧ off < 0x80000 then some (secWord c (off - 0x70000))
  else if 0x80000 ≤ off ∧ off < 0x100000 then some (ptnWord c (off - 0x80000))
  else if 0x800000 ≤ off ∧ off < 0x800800 ∧ 8 ≤ off % 64 ∧ off % 64 < 0x28 then some (mirrWord c (off - 0x800000))
  else none

/-! ### The sideband (R484, R485) -/

/-- Its target answers: powered, out of reset. -/
def i3cRefuse (c : Core) : Core := c.modGlb (fun g => { g with i3cRefused := g.i3cRefused + 1 })

/-- A channel of the sideband at a BAR2 offset. -/
def i3cChan (c : Core) (off : Nat) : Option Nat :=
  if off < 0x100000 ∧ off % 4 = 0 ∧ chanBus c (off / 0x10000) ≠ 0 ∧ off / 0x10000 < 16 then some (off / 0x10000) else none

/-- The 4 B access of a private read, at the offset set. -/
def fxI3cRead (c : Core) : Core :=
  if !chipUp c then c
  else
    let o := c.glb.i3cOff
    let off := field o 30 0
    let (v, c) := if o.getLsbD 31 then (match i3cChan c off with
        | some ch => (mbxWord (c.mb ch) 0x8000 0x8000 (off % 0x10000), c)
        | none => (0, i3cRefuse c))
      else (match i3cWord c off with
        | some v => (v, c)
        | none => (0, i3cRefuse c))
    (c.modGlb (fun g => { g with i3cOff := o + 4 })).send (.i3c (BitVec.ofNat 64 v))

/-- A write by the sideband: its own channels, and ERL_TAIL. -/
def i3cStore (bar2 : Bool) (off : Nat) (w : BitVec 32) (c : Core) : Core :=
  if bar2 then (match i3cChan c off with
    | some ch =>
      if off % 0x10000 = 4 then (if w.getLsbD 0 then fxMailboxGo ch ⟨3, 0, 0, 0, 0, none, 0⟩ c else c)
      else mbxWrite ch 0x8000 (off % 0x10000) w c
    | none => i3cRefuse c)
  else if off = 0x50004 then fxErlTail w c
  else i3cRefuse c

def fxI3cWrite (o w : BitVec 32) (c : Core) : Core := if chipUp c then i3cStore (o.getLsbD 31) (field o 30 0) w c else c

def fxI3cOffset (w : BitVec 32) (c : Core) : Core := if chipUp c then c.modGlb (fun g => { g with i3cOff := w }) else c

def execI3cSetOffset (w : BitVec 32) (s : State) : Host.Outcome State Fault Refusal := actCore s (fxI3cOffset w)
def execI3cPrivateRead (s : State) : Host.Outcome State Fault Refusal := actCore s fxI3cRead
def execI3cPrivateWrite (off w : BitVec 32) (s : State) : Host.Outcome State Fault Refusal := actCore s (fxI3cWrite off w)

/-- A CCC that sets something, and one that returns something (log 17). -/
def cccSet (f : Glb → Glb) (c : Core) : Core := if chipUp c then c.modGlb f else c
def cccGet (v : Glb → BitVec 64) (c : Core) : Core := if chipUp c then c.send (.i3c (v c.glb)) else c

def execEntdaa (addr : BitVec 7) (s : State) : Host.Outcome State Fault Refusal := actCore s (cccSet (fun g => { g with i3cAddr := some addr }))
def execRstdaa (s : State) : Host.Outcome State Fault Refusal := actCore s (cccSet (fun g => { g with i3cAddr := none }))
/-- The provisional ID carries the part identity of the fuses: the part in its low bits (log 17). -/
def execGetpid (s : State) : Host.Outcome State Fault Refusal :=
  actCore s (cccGet (fun g => (Config.i3cPid &&& 0xFFFFFFFFFFFC).setWidth 64 ||| g.fuse.part.setWidth 64))
def execGetbcr (s : State) : Host.Outcome State Fault Refusal := actCore s (cccGet (fun _ => Config.i3cBcr.setWidth 64))
def execGetdcr (s : State) : Host.Outcome State Fault Refusal := actCore s (cccGet (fun _ => Config.i3cDcr.setWidth 64))
def execGetstatus (s : State) : Host.Outcome State Fault Refusal := actCore s (cccGet (fun _ => Config.i3cStatus.setWidth 64))
def execEnec (ev : BitVec 8) (s : State) : Host.Outcome State Fault Refusal := actCore s (cccSet (fun g => { g with i3cEv := g.i3cEv &&& ~~~ev }))
def execDisec (ev : BitVec 8) (s : State) : Host.Outcome State Fault Refusal := actCore s (cccSet (fun g => { g with i3cEv := g.i3cEv ||| ev }))
def execSetmwl (len : BitVec 16) (s : State) : Host.Outcome State Fault Refusal := actCore s (cccSet (fun g => { g with i3cMwl := len }))
def execGetmwl (s : State) : Host.Outcome State Fault Refusal := actCore s (cccGet (fun g => g.i3cMwl.setWidth 64))
def execSetmrl (len : BitVec 16) (s : State) : Host.Outcome State Fault Refusal := actCore s (cccSet (fun g => { g with i3cMrl := len }))
def execGetmrl (s : State) : Host.Outcome State Fault Refusal := actCore s (cccGet (fun g => g.i3cMrl.setWidth 64))

/-! ### The tenant window (R46, R47, R551) -/

/-- A requester at the tenant window of partition `p`: an admitted host, or at the peer of a mirror pair the host that a replicated request names
(R46, R439). -/
def windowUser (c : Core) (p : Nat) (o : Origin) : Bool :=
  decide (o.kind = 1) && decide (c.originPtn o = p) && (decide (4096 ≤ o.idx) || (c.host o.idx).valid)

/-- Whether a host may write a ring page: while EN = 1 and ANYGRP = 0, its GROUP alone (R203). A replicated request has been admitted by the
holder. -/
def ringMayWrite (c : Core) (x : Ring) (o : Origin) : Bool :=
  !x.ctrl.getLsbD 0 || x.ctrl.getLsbD 24 || decide (4096 ≤ o.idx) || decide ((c.host o.idx).group = field x.ctrl 23 16)

def modRing (p r : Nat) (f : Ring → Ring) (c : Core) : Core := c.modPtn p (fun x => { x with rings := tput {} r (f (tget {} r x.rings)) x.rings })

def ringRefuse (p r : Nat) (o : Origin) (c : Core) : Core :=
  (modRing p r (fun x => { x with refused := x.refused + 1 }) c).answer o p 0 { op := opNackRevoked, reason := 4 }

/-- A word of a ring page (R202). -/
def ringWord (x : Ring) (s : Nat) : Nat :=
  if s = 0 then x.ctrl.toNat
  else if s = 4 then x.tmo.toNat
  else if s = 8 then x.cmdBase.toNat % 2 ^ 32
  else if s = 0xC then x.cmdBase.toNat / 2 ^ 32
  else if s = 0x10 then x.cplBase.toNat % 2 ^ 32
  else if s = 0x14 then x.cplBase.toNat / 2 ^ 32
  else if s = 0x20 then x.tail.toNat
  else if s = 0x24 then x.head.toNat
  else if s = 0x28 then x.done.toNat
  else if s = 0x2C then x.cplAck.toNat
  else if s = 0x30 then x.st.code + x.stop.toNat * 16 + x.inFlight % 256 * 256 + x.refused.toNat * 65536
  else if s = 0x34 then x.errIndex.toNat
  else 0

/-- Word `i` of an object's view (R256). -/
def objWord (c : Core) (obj i : Nat) : Nat :=
  let x := c.obj obj
  let b := decide (x.mode = .barrier)
  if i = 0 then (if b then x.round.toNat else x.produced.toNat % 2 ^ 32)
  else if i = 1 then (if b then 0 else x.produced.toNat / 2 ^ 32)
  else if i = 2 then (if b then x.arr0.toNat else x.consumed.toNat % 2 ^ 32)
  else if i = 3 then (if b then x.arr1.toNat else x.consumed.toNat / 2 ^ 32)
  else if i = 4 then x.mode.code + x.lastFault.toNat * 16 + Bool.bit (hasWaiter c obj) 8 + x.faults.toNat * 65536
  else if i = 5 then x.param.toNat
  else 0

/-- Word `i` of a region's view (R103). -/
def regionWord (c : Core) (r i : Nat) : Nat :=
  let g := c.region r
  let st (s : Nat) : SlotSt := (tget ({} : Slot) s g.slots).st
  if i = 0 then
    g.newest.getD 0 + Bool.bit g.newest.isSome 3 + g.working * 16 + 256 * maskOf 8 (fun s => decide (st s ≠ .free)) + Bool.bit g.created 16 +
      g.refusal.toNat * 2 ^ 20
  else if i = 1 then g.newestVer.toNat
  else if 2 ≤ i ∧ i < 10 then (if st (i - 2) = .published ∨ st (i - 2) = .retiring then (tget ({} : Slot) (i - 2) g.slots).ver.toNat else 0)
  else if i = 12 then ((c.homes.map (fun h => (h.2.freePages.filter (fun k => decide (k.1 = r))).length)).sum)
  else 0

/-- A word of the consented counters (R540). -/
def tenantCounter (c : Core) (p off : Nat) : Nat :=
  let i := off / 8
  let half (x : Counter) : Nat := if off % 8 = 0 then x.value.toNat % 2 ^ 32 else x.value.toNat / 2 ^ 32 + Bool.bit x.ovf 31
  if off < 0xC800 then (match ((c.ptn p).clusters.mergeSort (fun a b => decide (a ≤ b)))[i / 8]?.bind c.tileOf with
    | some t => half (c.counter (ctrKey 4 t (i % 8)))
    | none => 0)
  else
    let g := i - 0x1900
    if g < 32 ∧ attributable c (ctrKey 0 0 g) p then half (c.counter (ctrKey 0 0 g)) else 0

/-- A word of the tenant window of partition `p`. -/
def windowWord (c : Core) (p off : Nat) : Nat :=
  let x := c.ptn p
  if off < 0x10000 then ringWord (tget {} (off / 0x1000) x.rings) (off % 0x1000)
  else if 0x100000 ≤ off ∧ off < 0x140000 then
    let o := (off - 0x100000) / 64
    if x.syncBase ≤ o ∧ o < x.syncBase + x.syncCount then objWord c o (off % 64 / 4) else 0
  else if 0x200000 ≤ off ∧ off < 0x210000 then
    let r := (off - 0x200000) / 64
    if x.snapBase ≤ r ∧ r < x.snapBase + x.snapCount then regionWord c r (off % 64 / 4) else 0
  else if 0x300000 ≤ off ∧ off < 0x301000 then mbxWord (c.mb (16 + p)) 0x400 0xC00 (off % 0x1000)
  else if 0x310000 ≤ off ∧ off < 0x320000 then tenantCounter c p (off - 0x310000)
  else 0

/-- Words, the first lowest. -/
def packWords : List Nat → Nat
  | [] => 0
  | w :: r => w % 2 ^ 32 + 2 ^ 32 * packWords r

def windowLine (c : Core) (p off : Nat) : Line :=
  BitVec.ofNat 1024 (packWords ((List.range 32).map (fun i => windowWord c p (off / 128 * 128 + 4 * i))))

/-- RDONCE at a window unit returns the registers of the line as they stand (R47, R203, R256); anywhere else it is a home's request. -/
def fxRdOnce (e : Nat) (o : Origin) (q : Req) (c : Core) : Core :=
  if inWindow q.pla then
    let p := c.originPtn o
    if windowEdge p (windowOff q.pla) ≠ some e ∨ !c.works 8 e ∨ o.kind ≠ 1 then c
    else c.answer o p q.pla { op := opCmpData, ce := q.ce, data := windowLine c p (windowOff q.pla) }
  else homeRow 0x03 e o q c

def execRdOnce (e : Nat) (o : Origin) (q : Req) (s : State) : Host.Outcome State Fault Refusal := actCore s (fxRdOnce e o q)

/-! ### Bus timeouts and resets of the PCIe function (R482, R483, R564) -/

/-- A BAR0 access that no unit has answered: a read returns all ones, a write is dropped. -/
def fxBusTimeout (off : BitVec 26) (write : Bool) (c : Core) : Core :=
  if !chipUp c then c
  else
    let c := logE 0x0F07 0 0 none [(26, off.toNat)] (c.modGlb (fun g => { g with busErr := off, busErrValid := true }))
    if write then c else c.send (.readData 0xFFFFFFFF)

def execBar0AccessTimeout (off : BitVec 26) (write : Bool) (s : State) : Host.Outcome State Fault Refusal := actCore s (fxBusTimeout off write)

/-- MSI-X, AER and DOE state of the function cleared; no unit, channel or request is touched. -/
def fxFunctionReset (c : Core) : Core := c.modGlb (fun g => { g with msix := [], pba := 0, aer := 0, doeReady := false })

def execPerstN (s : State) : Host.Outcome State Fault Refusal := actCore s fxFunctionReset
def execFlr (s : State) : Host.Outcome State Fault Refusal := actCore s fxFunctionReset

end Sys2Proof.Machine
end

