-- ==== Sys2Proof/Machine/RegRead.lean ====
section
/-! DEFINITION. What a read of a register returns: every register of BAR0 (R6, R548), the identity words of the PCIe function (R3, R480), and
the pins that follow registers (R568). -/

namespace Sys2Proof.Machine
open Sys2Proof

/-! ### The PCIe function's identity (R3, R480) -/

def pciVendor : BitVec 16 := 0x1F6B
/-- The device ID of all three parts. -/
def pciDevice : BitVec 16 := 0x9600
def pciClass : BitVec 24 := 0x058000

/-- Words 0 and 2 of the function's configuration space; its revision, and its other words, are PCI Express's own. -/
def pciWord (rev : BitVec 8) (w : Nat) : Option (BitVec 32) :=
  if w = 0 then some (pciDevice ++ pciVendor) else if w = 2 then some (pciClass ++ rev) else none

/-! ### Pins that follow registers (R568) -/

/-- SERVICE_N is asserted while GLB_SERVICE is not zero; it is high-impedance while the chip is held in reset (R555). -/
def serviceAsserted (c : Core) : Bool := chipUp c && decide (c.glb.service ≠ 0)
/-- ALERT_N is asserted while an enabled cause bit is set, whatever the MSI-X masking. -/
def alertAsserted (c : Core) : Bool := chipUp c && decide (c.glb.intStatus &&& c.glb.intEn ≠ 0)

/-! ### Encodings of states -/

def LinkSt.code : LinkSt → Nat
  | .disabled => 0 | .laserCheck => 1 | .train => 2 | .init => 3 | .up => 4 | .retrain => 5 | .down => 6
def PowerSt.code : PowerSt → Nat
  | .off => 0 | .parked => 1 | .gated => 2 | .active => 3
def SeqSt.code : SeqSt → Nat
  | .halted => 0 | .running => 1 | .waiting => 2 | .trapped => 3

/-- The upper or the lower half of a pair. -/
def halfOf (v : Nat) (hi : Bool) : Nat := if hi then v / 2 ^ 32 else v % 2 ^ 32

/-! ### Event counters and freeze (R538, R546) -/

def counterWord (c : Core) (key sub : Nat) : Nat :=
  let x := c.counter key
  if sub = 0 then (if counterMasked c key then 0 else x.value.toNat % 2 ^ 32)
  else if sub = 4 then x.hi.toNat + Bool.bit x.masked 30 + Bool.bit (x.ovf && !x.masked) 31
  else if sub = 8 then x.sel.toNat
  else if sub = 12 ∧ ctrClass key = 0 then x.src.toNat
  else 0

def evcWord (c : Core) (r : Nat) : Nat :=
  let e := c.evc
  if r = 0 then e.tick.toNat % 2 ^ 32
  else if r = 4 then e.tickHi.toNat
  else if r = 8 then Bool.bit e.hold 0
  else if r = 0x10 then e.freezeCfg.toNat
  else if r = 0x14 then e.freezeCode.toNat
  else if r = 0x1C then
    (if e.fzState = 0 ∧ e.freezeCfg.getLsbD 1 then 1 else e.fzState.toNat) + Bool.bit e.fzScope 2 + e.fzPtn % 32 * 256 + e.fzCause.toNat * 65536
  else if r = 0x20 then e.opened.toNat + e.refused.toNat * 65536
  else 0

def rstWord (d : Dev) (r : Nat) : Nat :=
  let x := d.core.rst
  if r = 4 then d.perm.rstCause.toNat
  else if r = 0x10 then x.tileSel.toNat
  else if r = 0x18 then x.st.toNat + x.result.toNat * 256
  else 0

/-! ### Ports (R388, R390) -/

/-- A word of a capture entry: its tag, then the flit's 64 words. -/
def capWord (e : CapEnt) (w : Nat) : Nat :=
  if w = 0 then
    Bool.bit e.sent 0 + Bool.bit e.crcBad 1 + Bool.bit e.masked 2 + Bool.bit e.trigger 3 + Bool.bit e.rep 4 + e.violation.toNat * 256
  else if w = 1 then e.no.toNat
  else if w < 4 then 0
  else
    let bytes := (flitBytes e.f ++ leBytes 8 e.f.crc.toNat).drop (4 * (w - 4))
    bytes.getD 0 0 + bytes.getD 1 0 * 2 ^ 8 + bytes.getD 2 0 * 2 ^ 16 + bytes.getD 3 0 * 2 ^ 24

def PortCnt.word (k : PortCnt) (i : Nat) : BitVec 32 :=
  [k.fecCorr, k.fecUncorr, k.crcErr, k.dupDiscard, k.gapDiscard, k.replays, k.retrains, k.downs, k.egressDiscard, k.creditStall].getD i 0

def portWord (c : Core) (n r : Nat) : Nat :=
  let p := c.port n
  if !c.hasUnit 9 n then 0
  else if r = 0 then p.cfg.toNat
  else if r = 4 then Bool.bit p.en 0
  else if r = 8 then
    p.link.code + (if p.linked then p.widthCode * 16 else 0) + p.groups.toNat * 256 + Bool.bit p.isNarrow 12 + p.lastDown.toNat * 65536
  else if r = 0xC then p.laser.toNat + p.localPass.toNat * 256 + p.peerPass.toNat * 4096
  else if r = 0x10 then p.replayTmo.toNat
  else if r = 0x14 then p.retrainTmo.toNat
  else if r = 0x18 then p.stallTmo.toNat
  else if r = 0x1C then p.retry.toNat
  else if r = 0x20 then p.credInit0.toNat
  else if r = 0x24 then p.credInit1.toNat
  else if r = 0x28 then p.avail 0 + p.avail 1 * 65536
  else if r = 0x2C then p.avail 2 + p.avail 3 * 65536
  else if r = 0x30 then p.next.toNat + p.expected.toNat * 65536
  else if r = 0x34 then (p.next - p.oldest).toNat
  else if 0x40 ≤ r ∧ r < 0x68 then (p.cnt.word ((r - 0x40) / 4)).toNat
  else if r = 0x100 then p.chkFirst.toNat + Bool.bit p.chkValid 31
  else if r = 0x104 then p.chkCount.toNat
  else if r = 0x110 then p.cap.cfg.toNat
  else if r = 0x114 then p.cap.mtch.toNat
  else if r = 0x118 then p.cap.ep.toNat
  else if r = 0x11C then p.cap.epMask.toNat
  else if r = 0x120 then p.cap.st.toNat + p.cap.ents.length * 4 + p.cap.trigIndex % 1024 * 65536
  else if r = 0x124 then p.cap.sel.toNat
  else if 0x10000 ≤ r ∧ r < 0x10110 then (match p.cap.ents[p.cap.sel.toNat]? with
    | some e => capWord e ((r - 0x10000) / 4)
    | none => 0)
  else 0

/-! ### Homes and HBM controllers (R92, R294, R321) -/

def homeWord (c : Core) (e r : Nat) : Nat :=
  let h := c.home e
  if !c.hasUnit 6 e then 0
  else if r = 0 then h.dirCfg.toNat
  else if r = 4 then h.snoopTmo.toNat
  else if r = 8 then h.dir.length + Bool.bit (walkBusy h) 24
  else if r = 0xC then h.trks.length + h.peak.toNat * 65536
  else if r = 0x10 then h.backInv.toNat
  else if r = 0x14 then h.snoopRetry.toNat
  else if r = 0x18 then h.lostLines.toNat
  else if r = 0x1C then h.salvaged.toNat
  else if r = 0x20 then h.nackBusy.toNat
  else if r = 0x24 then h.cohProto.toNat
  else if r = 0x100 then h.integCfg.toNat
  else if r = 0x104 then h.patrolCfg.toNat
  else if r = 0x108 then h.patrolInterval.toNat
  else if r = 0x10C then h.patrolLap.toNat
  else if r = 0x110 then assignedLines c e
  else if r = 0x114 then h.ce.toNat
  else if r = 0x118 then h.hardCe.toNat
  else if r = 0x11C then h.ue.toNat
  else 0

def hbmcWord (c : Core) (e r : Nat) : Nat :=
  let x := c.hbmc e
  let dir := field x.dlySel 12 12
  let lane := field x.dlySel 11 0
  if !c.hasUnit 7 e then 0
  else if r = 0 then x.cfg.toNat
  else if r = 4 then Bool.bit x.trained 0 + Bool.bit x.selfRefresh 1 + Bool.bit x.tempHigh 2 + x.alertLat.toNat * 256
  else if r = 8 then maskOf 32 (fun k => decide ((tget ({} : Chan) k x.chans).step ≠ 0))
  else if r = 0xC then x.sched.toNat
  else if r = 0x10 then x.pwr.toNat
  else if r = 0x14 then x.parityAlert.toNat
  else if r = 0x18 then x.replay.toNat
  else if r = 0x1C then x.retrain.toNat
  else if r = 0x20 then x.rfm.toNat
  else if r = 0x24 then x.mdMiss.toNat
  else if 0x100 ≤ r ∧ r < 0x160 then halfOf (x.masks.getD ((r - 0x100) / 8) 0).toNat (decide (r % 8 = 4))
  else if r = 0x200 then x.trnCtrl.toNat
  else if r = 0x204 then Bool.bit x.trnBusy 0 + Bool.bit x.trnDone 1 + Bool.bit x.trnRefused 2 + Bool.bit x.trnAlert 3
  else if r = 0x208 then x.trnLane.toNat
  else if r = 0x20C then x.trnErr.toNat
  else if r = 0x210 then x.trnBits.toNat
  else if 0x240 ≤ r ∧ r < 0x280 then (tget (0 : BitVec 32) ((r - 0x240) / 4) x.pat).toNat
  else if r = 0x280 then x.dlySel.toNat
  else if r = 0x284 then (if hasDelay dir lane then (delayOf x dir lane).toNat else 0)
  else if r = 0x300 then x.spareUsed.toNat
  else if r = 0x304 then x.spareCfg.toNat
  else if r = 0x308 then (match x.moving with
    | some (_, _, i) => 1 + i % 512 * 65536
    | none => 0)
  else 0

/-! ### Mesh, synchronization, snapshots (R119, R264, R415) -/

def meshWord (c : Core) (r : Nat) : Nat :=
  let m := c.mesh
  if r < 840 * 0x400 then
    let t := r / 0x400
    let x := c.router t
    let s := r % 0x400
    if s = 0 then (c.ust 5 t).code + Bool.bit (c.glb.fuse.routerBad.getLsbD t) 3
    else if s = 4 then congOf m t
    else if s = 8 then x.escapes.toNat
    else if s = 0xC then x.marks.toNat
    else if s = 0x10 then x.mcFenced.toNat
    else if s = 0x14 then x.deadDrop.toNat
    else 0
  else if r = 0xF0000 then m.cfg.toNat
  else if r = 0xF0004 then m.aimd.toNat
  else if r = 0xF0008 then Bool.bit m.cur 0 + Bool.bit m.change.isSome 1
  else if r = 0xF000C then m.drainTmo.toNat
  else if r = 0xF0010 then m.fmEp.toNat
  else if r = 0xF0014 then m.cmapSeq.toNat
  else if r = 0xF0018 then m.cmapRefused.toNat
  else if 0xF1000 ≤ r ∧ r < 0xF1834 then
    let b := r - 0xF1000
    (mapByte m b).toNat + (mapByte m (b + 1)).toNat * 2 ^ 8 + (mapByte m (b + 2)).toNat * 2 ^ 16 + (mapByte m (b + 3)).toNat * 2 ^ 24
  else 0

/-- Waiter records held for an object. -/
def waitersOf (c : Core) (obj : Nat) : Nat := ((c.edge (objEdge obj)).waiters.filter (fun w => decide (w.obj = obj))).length

def syncWord (c : Core) (r : Nat) : Nat :=
  if r < 0x40000 then
    let o := r / 64
    let x := c.obj o
    let s := r % 64
    if s = 0 ∨ s = 4 then halfOf x.produced.toNat (decide (s = 4))
    else if s = 8 ∨ s = 0xC then halfOf x.consumed.toNat (decide (s = 0xC))
    else if s = 0x10 then x.mode.code + x.lastFault.toNat * 16 + x.faults.toNat * 65536
    else if s = 0x14 then x.param.toNat
    else if s = 0x18 then x.arr0.toNat + x.arr1.toNat * 65536
    else if s = 0x1C then x.round.toNat
    else if s = 0x20 ∨ s = 0x24 then halfOf x.bm0.toNat (decide (s = 0x24))
    else if s = 0x28 ∨ s = 0x2C then halfOf x.bm1.toNat (decide (s = 0x2C))
    else if s = 0x30 then waitersOf c o
    else 0
  else if r < 0x40400 then
    let x := c.ptn ((r - 0x40000) / 32)
    let s := r % 32
    if s = 0 then x.dlkCfg.toNat
    else if s = 4 then Bool.bit x.blocked 0 + x.dlkObject % 4096 * 256 + x.dlkWaiters % 1024 * 2 ^ 20
    else if s = 8 then x.dlkCount.toNat
    else 0
  else if r = 0x41000 then c.gateWait.toNat
  else 0

/-- A slot in use, and one whose version is shown (R103). -/
def slotSt (g : Region) (s : Nat) : SlotSt := (tget ({} : Slot) s g.slots).st
def slotVersion (g : Region) (s : Nat) : Nat :=
  if slotSt g s = .published ∨ slotSt g s = .retiring then (tget ({} : Slot) s g.slots).ver.toNat else 0

/-- Free pool pages of a region at its homes. -/
def poolFree (c : Core) (r : Nat) : Nat := (c.homes.map (fun h => (h.2.freePages.filter (fun k => decide (k.1 = r))).length)).sum

def snapWord (c : Core) (r : Nat) : Nat :=
  let i := r / 0x100
  let s := r % 0x100
  let g := c.region i
  if 1024 ≤ i then 0
  else if s = 0 then Bool.bit g.created 0 + g.p * 256
  else if s = 4 then g.base + g.v * 2 ^ 10 + g.q * 2 ^ 20
  else if s = 8 then
    g.newest.getD 0 + Bool.bit g.newest.isSome 3 + g.working * 16 + 2 ^ 8 * maskOf 8 (fun j => decide (slotSt g j ≠ .free)) +
    2 ^ 16 * maskOf 8 (fun j => decide (slotSt g j = .retiring)) + Bool.bit g.commit.isSome 24 +
    2 ^ 28 * ((tget ({} : Slot) g.working g.slots).parent.getD 0)
  else if s = 0xC then poolFree c i
  else if 0x10 ≤ s ∧ s < 0x30 then slotVersion g ((s - 0x10) / 4)
  else if 0x30 ≤ s ∧ s < 0x50 then holders c i ((s - 0x30) / 4)
  else if s = 0x50 then g.commits.toNat
  else if s = 0x54 then g.copies.toNat
  else if s = 0x58 then g.poolEmpty.toNat
  else 0

/-! ### Traffic, mirror, clusters (R156, R430, R451) -/

/-- Tokens in units of `u` bytes, rounded down. -/
def Bucket.units (b : Bucket) (u : Nat) : Nat := b.tok / (65536 * u)

def tmgrWord (c : Core) (r : Nat) : Nat :=
  if r = 0 then c.tmgr.toNat
  else if 0x10000 ≤ r ∧ r < 0x30000 then
    let i := (r - 0x10000) / 32
    let m := tget ({} : Meter) (i % 512) (c.port (i / 512)).meters
    let s := r % 32
    if !c.hasUnit 9 (i / 512) then 0
    else if s = 0x1C then m.c.units 256 % 65536 + m.p.units 256 % 65536 * 65536
    else ([m.cir, m.pir, m.cbs, m.pbs, m.green, m.yellow, m.red].getD (s / 4) 0).toNat
  else if 0x40000 ≤ r ∧ r < 0x48000 then
    let n := (r - 0x40000) / 0x1000
    let q := (r - 0x40000) % 0x1000 / 16
    let x := tget ({} : FairQ) q (c.port n).queues
    let s := r % 16
    if !c.hasUnit 9 n ∨ 128 ≤ q then 0
    else if s = 0 then x.weight.toNat
    else if s = 4 then x.sent.toNat
    else if s = 8 then x.pkts.length
    else 0
  else if 0x60000 ≤ r ∧ r < 0x62000 then
    let n := (r - 0x60000) / 0x400
    let x := tget ({} : Shaper) ((r - 0x60000) % 0x400 / 32) (c.port n).shapers
    let s := r % 32
    if !c.hasUnit 9 n then 0
    else if s = 0 then x.rate + Bool.bit x.en 31
    else if s = 4 then x.burst
    else if s = 8 then x.b.units 64
    else if s = 0xC then x.holds.toNat
    else 0
  else if 0x70000 ≤ r ∧ r < 0x70080 then
    let n := (r - 0x70000) / 16
    let p := c.port n
    if !c.hasUnit 9 n then 0
    else if r % 16 = 0 then p.vtime.toNat
    else if r % 16 = 4 then p.buffered + p.bufPeak.toNat * 65536
    else 0
  else 0

def mirrRegWord (c : Core) (r : Nat) : Nat :=
  let g := c.mirrG
  if r < 0x800 then
    (if r % 64 = 0 then (c.mirr (r / 64)).port.toNat else if r % 64 = 4 then (c.mirr (r / 64)).lease.toNat else mirrWord c r)
  else if r = 0x1000 then g.arbEp.toNat
  else if r = 0x1004 then g.selfEp.toNat
  else if r = 0x1008 then g.replTmo.toNat
  else if r = 0x100C then g.resyncRate.toNat
  else 0

def clusWord (c : Core) (t r : Nat) : Nat :=
  let x := c.tile t
  if !x.en then 0
  else if r = 0 then (c.ust 4 t).code + x.power.code * 16 + x.seq.st.code * 256
  else if r = 4 then x.logical + x.ptn % 32 * 65536 + Bool.bit x.assigned 24 + Bool.bit x.en 31
  else if r = 8 then x.pwr.toNat
  else if r = 0xC then Bool.bit x.fDma 0 + Bool.bit x.fTrap 1 + Bool.bit x.fLsUe 2 + x.fDmaCh.toNat * 256
  else if r = 0x10 then x.fcCode.toNat + x.fcChan.toNat * 65536 + Bool.bit x.fcMulti 30 + Bool.bit x.fcValid 31
  else if r = 0x14 then x.dmaTmo.toNat
  else if r = 0x18 then x.winGen.toNat
  else if r = 0x1C then x.dmaRetry.toNat
  else if 0x20 ≤ r ∧ r < 0x60 then
    (if r % 8 = 0 then chanStatus x ((r - 0x20) / 8) else (chanOf x ((r - 0x20) / 8)).done).toNat
  else 0

/-! ### BAR0 -/

/-- What a 4 B read of BAR0 returns (R6, R548): a fused-off unit's registers, write-only fields and reserved offsets read as zero. -/
def bar0Word (d : Dev) (off : Nat) : Nat :=
  let c := d.core
  if off % 4 ≠ 0 then 0
  else match counterAt c off with
  | some (key, sub) => counterWord c key sub
  | none =>
    if off < 0x10000 then glbWord c off
    else if off < 0x20000 then cfgWord c (off - 0x10000)
    else if off < 0x30000 then pwrWord c (off - 0x20000)
    else if off < 0x40000 then rstWord d (off - 0x30000)
    else if off < 0x50000 then evcWord c (off - 0x40000)
    else if off < 0x60000 then erlWord c (off - 0x50000)
    else if off < 0x70000 then
      (if off < 0x60040 then (chanBus c ((off - 0x60000) / 4)).toNat + mbxWord (c.mb ((off - 0x60000) / 4)) 0x8000 0x8000 8 % 4 * 256 else 0)
    else if off < 0x80000 then secWord c (off - 0x70000)
    else if off < 0x100000 then ptnWord c (off - 0x80000)
    else if off < 0x200000 then portWord c ((off - 0x100000) / 0x20000) (off % 0x20000)
    else if off < 0x300000 then homeWord c ((off - 0x200000) / 0x10000) (off % 0x10000)
    else if off < 0x400000 then hbmcWord c ((off - 0x300000) / 0x10000) (off % 0x10000)
    else if off < 0x500000 then meshWord c (off - 0x400000)
    else if off < 0x600000 then syncWord c (off - 0x500000)
    else if off < 0x700000 then snapWord c (off - 0x600000)
    else if off < 0x800000 then tmgrWord c (off - 0x700000)
    else if off < 0x810000 then mirrRegWord c (off - 0x800000)
    else if 0x1000000 ≤ off ∧ off < 0x1D20000 then clusWord c ((off - 0x1000000) / 0x4000) (off % 0x4000)
    else 0

/-- A read clears the RC fields: HOMEe_TRACKERS.PEAK and TMGR_Pn_BUF.PEAK. -/
def readClears (off : Nat) (c : Core) : Core :=
  if 0x200000 ≤ off ∧ off < 0x300000 ∧ off % 0x10000 = 0xC then
    let e := (off - 0x200000) / 0x10000
    if c.hasUnit 6 e then c.modHome e (fun h => { h with peak := 0 }) else c
  else if 0x770000 ≤ off ∧ off < 0x770080 ∧ off % 16 = 4 then
    let n := (off - 0x770000) / 16
    if c.hasUnit 9 n then c.modPort n (fun p => { p with bufPeak := 0 }) else c
  else c

/-- The block whose registers do not answer while the chip is frozen (R542): everything that the RoT does not serve. -/
def unitBlock (off : Nat) : Bool := decide (0x100000 ≤ off)

/-- A word of BAR2: a channel's register or buffer, zero for a channel whose bus is I3C alone (R465, R481). -/
def bar2Word (c : Core) (off : Nat) : Nat :=
  if off < 0x100000 ∧ chanBus c (off / 0x10000) ≠ 1 then mbxWord (c.mb (off / 0x10000)) 0x8000 0x8000 (off % 0x10000) else 0

/-- The halves of a read of 4 B, or of 8 B. -/
def halves (wide : Bool) (lo hi : Nat) : BitVec 64 := BitVec.ofNat 64 (lo % 2 ^ 32 + (if wide then hi % 2 ^ 32 * 2 ^ 32 else 0))

/-- RC_READ: a read of BAR0 or BAR2 by PCIe, of 4 B or of 8 B, which returns both halves (R481, R550). A LO half latches its HI (R531,
R538), an RC field is cleared; no other read has an effect. One that is not aligned is an Unsupported Request, shown in the AER status
(R481, log 52). -/
def fxRcRead (bar2 : Bool) (off : Nat) (wide : Bool) (d : Dev) : Dev :=
  let c := d.core
  if !chipUp c then d
  else if off % (if wide then 8 else 4) ≠ 0 then { d with core := c.modGlb (fun g => { g with aer := g.aer ||| 0x100000 }) }
  else if bar2 then { d with core := c.send (.readData (halves wide (bar2Word c off) (bar2Word c (off + 4)))) }
  else if unitBlock off ∧ frozenChip c then d
  else if off = 0x40000 then { d with core := fxTickLoRead wide c }
  else if ((counterPlace off).map (fun k => k.2.2.2)) = some 0 then { d with core := fxEvcLoRead off wide c }
  else
    let c' := if wide then readClears (off + 4) (readClears off c) else readClears off c
    { d with core := c'.send (.readData (halves wide (bar0Word d off) (bar0Word d (off + 4)))) }

def execRcRead (bar2 : Bool) (off : BitVec 26) (wide : Bool) (s : State) : Host.Outcome State Fault Refusal := act s (fxRcRead bar2 off.toNat wide)

end Sys2Proof.Machine
end

