-- ==== Sys2Proof/Machine/Image.lean ====
section
/-! DEFINITION. Attestation, the security version, the boot flash, and the Kotik image with its live updates (R39, R329, R334–R336, R403,
R468, R472–R479). -/

namespace Sys2Proof.Machine
open Sys2Proof

/-! ### Attestation (R334–R336, R468) -/

/-- The first `n` words of some bits, the lowest first. -/
def splitWords (n : Nat) (v : BitVec w) : List (BitVec 32) := (List.range n).map (fun i => BitVec.ofNat 32 (v.toNat >>> (32 * i)))
def words8 (v : BitVec 256) : List (BitVec 32) := splitWords 8 v

/-- The bytes of some words, each least significant first (R5). -/
def wordBytes (l : List (BitVec 32)) : List Byte := l.flatMap (fun w => bytesLE 4 w.toNat)

/-- Words of a report before SIGNATURE, captured when its signing starts (R334, R336). -/
def reportBody (c : Core) (a : AttReq) : List (BitVec 32) :=
  let one := decide (16 ≤ a.ch ∧ a.ch < 48)
  let p := if one then a.ch - 16 else 0
  let ps := if one then [p] else List.range 32
  let x := c.sec
  let f := c.glb.fuse
  [0x52504154, BitVec.ofNat 32 (1 + ps.length * 65536 + p * 2 ^ 24), BitVec.ofNat 32 (f.part.toNat + f.stepping.toNat * 256),
    BitVec.ofNat 32 (x.fused.toNat + Bool.bit x.fallback 8 + Bool.bit x.debugLock 9 + Bool.bit x.ownerKey 10)] ++
  words8 a.nonce ++ (List.range 4).flatMap (fun m => words8 (tget 0 m x.m)) ++
  [if one then x.consent &&& (1#32 <<< p) else x.consent] ++
  ps.flatMap (fun i => let k := c.keys i; [k.gen, k.extLined, k.ptnLined, BitVec.ofNat 32 (i + Bool.bit k.sweep 8)]) ++
  words8 x.attPub ++ splitWords 1964 x.attCert

/-- The signing of the next request starts. -/
def startSigning (c : Core) : Core :=
  match c.sec.signing, c.sec.attQueue with
  | none, a :: r => c.modSec (fun x => { x with signing := some (a, reportBody c a), attQueue := r })
  | _, _ => c

/-- A request for a report: signed at once, queued, or refused as the ninth. -/
def attRequest (a : AttReq) (refuse : Core → Core) (c : Core) : Core :=
  if c.sec.signing.isNone then startSigning (c.modSec (fun x => { x with attQueue := [a] }))
  else if 8 ≤ c.sec.attQueue.length then refuse c
  else c.modSec (fun x => { x with attQueue := x.attQueue ++ [a] })

def fxAttest (ch : Nat) (c : Core) : Core :=
  takeRequest ch 0x043 7 (fun c =>
    let nonce := BitVec.ofNat 256 (packWords ((List.range 8).map (fun i => (reqData c ch i).toNat)))
    attRequest ⟨ch, nonce⟩ (mbDone ch stAttestBusy) c) c

/-- Vendor ID of the exchange, and its object types: request and report (R335). -/
def doeVendor : BitVec 16 := 0x1F6B
def doeAsk : BitVec 8 := 1
def doeReport : BitVec 8 := 2

/-- A DOE response becomes ready (R486): an object of the exchange's vendor and the report's type (R335). -/
def doeReady (ws : List (BitVec 32)) (c : Core) : Core :=
  raiseInt 22 ((c.modGlb (fun g => { g with doeReady := true })).send (.doe doeVendor doeReport ws))

/-- DOE_REQUEST: an object of another vendor or type is none of this exchange. -/
def fxDoeRequest (vendor : BitVec 16) (typ : BitVec 8) (nonce : BitVec 256) (c : Core) : Core :=
  if !rotUp c ∨ vendor ≠ doeVendor ∨ typ ≠ doeAsk then c else attRequest ⟨48, nonce⟩ (doeReady [BitVec.ofNat 32 stAttestBusy]) c

/-- The signature over the words of a report under the attestation key, with 16 bytes of randomness (R332, R334). -/
def reportSig (x : Sec) (rand : BitVec 1024) (ws : List (BitVec 32)) : List (BitVec 32) :=
  splitWords 1964 (bitsOfBytes 62848 (signUnder (bytesLE 48 x.attSk.toNat) (bytesLE 16 rand.toNat) (wordBytes ws)))

/-- The signature is complete: the report is kept for its channel and the request answered; the next one starts. -/
def fxSignDone (c : Core) : Core :=
  match c.sec.signing with
  | none => c
  | some (a, ws) =>
    if !rotUp c then c
    else
      let (v, c) := c.free
      let all := ws ++ reportSig c.sec v ws
      let c := startSigning (c.modSec (fun x => { x with signing := none, reports := if a.ch < 48 then tput [] a.ch all x.reports else x.reports }))
      if a.ch < 48 then mbDoneWith a.ch stOk [] [(0, BitVec.ofNat 32 (4 * all.length))] c else doeReady all c

/-- Chunk `n` of `size` bytes of a report; bytes past its end are zero. -/
def chunkMem (ws : List (BitVec 32)) (n size : Nat) : Mem :=
  ((List.range (size / 4)).foldl (fun m i => wrLE m (4 * i) 4 (ws.getD (n * (size / 4) + i) 0).toNat) [])

def fxReportChunk (ch : Nat) (c : Core) : Core :=
  takeRequest ch 0x044 7 (fun c =>
    let n := (reqData c ch 0).toNat
    let size := if ch < 16 then 0x8000 else 0xC00
    let ws := tget [] ch c.sec.reports
    if 4 * ws.length ≤ n * size then mbDone ch stChunkRange c
    else mbDone ch stOk (c.modMb ch (fun m => { m with buf := chunkMem ws n size }))) c

def execAttest (ch : Nat) (s : State) : Host.Outcome State Fault Refusal := actCore s (fxAttest ch)
def execDoeRequest (vendor : BitVec 16) (typ : BitVec 8) (nonce : BitVec 256) (s : State) : Host.Outcome State Fault Refusal :=
  actCore s (fxDoeRequest vendor typ nonce)
def execAttestSignDone (s : State) : Host.Outcome State Fault Refusal := actCore s fxSignDone
def execReportChunk (ch : Nat) (s : State) : Host.Outcome State Fault Refusal := actCore s (fxReportChunk ch)

/-! ### The security version (R329) -/

def fxSvnCommit (ch : Nat) (c : Core) : Core :=
  takeRequest ch 0x045 1 (fun c =>
    let x := c.sec
    if x.running.toNat < x.fused.toNat then mbDone ch stSvnLower c
    else
      let c := if x.fused.toNat < x.running.toNat then
          logE 0x0B06 0 0 none [(7, x.fused.toNat), (7, x.running.toNat)] (c.modSec (fun y => { y with fused := x.running }))
        else c
      mbDone ch stOk c) c

/-- The fuse is programmed to the running firmware's version; it never goes back. -/
def fxSvnCommitDev (ch : Nat) (d : Dev) : Dev :=
  let c := fxSvnCommit ch d.core
  { core := c, perm := { d.perm with fuses := { d.perm.fuses with svn := max d.perm.fuses.svn c.sec.fused.toNat } } }

def execSvnCommit (ch : Nat) (s : State) : Host.Outcome State Fault Refusal := act s (fxSvnCommitDev ch)

/-! ### The boot flash (R325, R472) -/

/-- The RoT will run the request's own rule. -/
def bodyRuns (c : Core) (ch code chans : Nat) : Bool :=
  rotUp c && decide (ch < 48) && decide ((c.mb ch).st = .accepted) && decide (reqCode c ch = code) && chanOk ch chans &&
  (decide (c.glb.ready = .ready) || decide (code ∈ [0x070, 0x062, 0x043, 0x044]))

/-- Bytes a to a + n − 1 lie in the slots, or in owner-data words of the header, of which the slot pointer's is none. -/
def flashReach (a n : Nat) : Bool :=
  (decide (0x100000 ≤ a) && decide (a + n ≤ 0x3100000)) ||
  (decide (a + n ≤ 0x1000) && (List.range n).all (fun i => Config.ownerWord ((a + i) / 4) && decide ((a + i) / 4 ≠ slotPointer / 4)))

/-- The slot that the device is running from is touched. -/
def flashRunning (c : Core) (a n : Nat) : Bool :=
  let fw := fwSlotAddr c.sec.fwSlotB
  let img := imgSlotAddr c.cfg.slot
  (decide (a < fw + 0x800000) && decide (fw < a + n)) || (c.cfg.loaded && decide (a < img + 0x1000000) && decide (img < a + n))

/-- The status of a flash request; `whole` names an erase, `write` a change. -/
def flashStatus (c : Core) (ch : Nat) (erase write err : Bool) : Nat :=
  let a := (reqData c ch 0).toNat
  let n := (reqData c ch 1).toNat
  if erase ∧ (a % 65536 ≠ 0 ∨ n % 65536 ≠ 0) then stBadRequest
  else if !erase ∧ (n = 0 ∨ 32768 < n) then stBadRequest
  else if !flashReach a n then stFlashRange
  else if write ∧ flashRunning c a n then stNotPermitted
  else if err then stFlashError
  else stOk

/-- Bytes a to a + n − 1 take the value of a function. -/
def fillMem (m : Mem) (a n : Nat) (f : Nat → BitVec 8) : Mem := (List.range n).foldl (fun m i => wrByte m (a + i) (f (a + i))) m

/-- What an erase or a write does to the flash; after a device error the range holds free values (log 16). -/
def flashAfter (d : Dev) (ch code : Nat) (erase err : Bool) : Mem :=
  let c := d.core
  let a := (reqData c ch 0).toNat
  let n := (reqData c ch 1).toNat
  if !bodyRuns c ch code 1 then d.perm.flash
  else
    let st := flashStatus c ch erase true err
    if st = stFlashError then fillMem d.perm.flash a n (Config.flashAfterError c.fresh)
    else if st ≠ stOk then d.perm.flash
    else if erase then fillMem d.perm.flash a n (fun _ => Config.erasedByte)
    else fillMem d.perm.flash a n (fun k => rdByte (c.mb ch).buf (k - a))

/-- Erase and write: the answer, and the flash. A device error draws a free value. -/
def fxFlashChange (ch code : Nat) (erase err : Bool) (d : Dev) : Dev :=
  let c := takeRequest ch code 1 (fun c =>
    let st := flashStatus c ch erase true err
    mbDone ch st (if st = stFlashError then { c with fresh := c.fresh + 1 } else c)) d.core
  { core := c, perm := { d.perm with flash := flashAfter d ch code erase err } }

/-- FLASH_READ: the bytes in the buffer. -/
def fxFlashRead (ch : Nat) (err : Bool) (flash : Mem) (c : Core) : Core :=
  takeRequest ch 0x062 3 (fun c =>
    let st := flashStatus c ch false false err
    let a := (reqData c ch 0).toNat
    if st ≠ stOk then mbDone ch st c
    else mbDone ch st (c.modMb ch (fun m => { m with buf := fillMem m.buf 0 (reqData c ch 1).toNat (fun i => rdByte flash (a + i)) }))) c

def execFlashErase (ch : Nat) (err : Bool) (s : State) : Host.Outcome State Fault Refusal := act s (fxFlashChange ch 0x060 true err)
def execFlashWrite (ch : Nat) (err : Bool) (s : State) : Host.Outcome State Fault Refusal := act s (fxFlashChange ch 0x061 false err)
def execFlashRead (ch : Nat) (err : Bool) (s : State) : Host.Outcome State Fault Refusal :=
  act s (fun d => { d with core := fxFlashRead ch err d.perm.flash d.core })

/-- IMAGE_SELECT: the slot of the next boot in the flash header (R477). -/
def fxImageSelect (ch : Nat) (d : Dev) : Dev :=
  let d0 := reqData d.core ch 0
  let c := takeRequest ch 0x065 1 (fun c => mbDone ch (if reservedClear (reqData c ch 0) 1 then stOk else stBadRequest) c) d.core
  if bodyRuns d.core ch 0x065 1 && reservedClear d0 1 then { core := c, perm := { d.perm with flash := setNextSlot d.perm.flash (d0.getLsbD 0) } } else { d with core := c }

def execImageSelect (ch : Nat) (s : State) : Host.Outcome State Fault Refusal := act s (fxImageSelect ch)

/-! ### The checks of an image (R39, R475) -/

/-- Two ranges share a number. -/
def overlap (a n b m : Nat) : Bool := decide (0 < n) && decide (0 < m) && decide (a < b + m) && decide (b < a + n)

/-- An image that the loader refuses under R39. -/
def sharesBad (n : Nat) (i : Image) : Bool :=
  let bad (x y : ImgPtn) : Bool :=
    decide (x.endpoint = y.endpoint) || overlap x.groupBase x.groupCount y.groupBase y.groupCount ||
    overlap x.syncBase x.syncCount y.syncBase y.syncCount || overlap x.snapBase x.snapCount y.snapBase y.snapCount
  decide (56 * n < (i.ptns.map (fun x => x.quota)).sum) || decide (56 < i.k) ||
  i.ptns.any (fun x => i.ptns.any (fun y => decide (x.p ≠ y.p) && bad x y))

/-- The image object in a slot of the flash, and the image of its body. -/
def imgObj (m : Mem) (b : Bool) : SignedObj := objAt m (imgSlotAddr b)
def slotImage (m : Mem) (b : Bool) : Image := imageOf (imgObj m b).body

/-- Checks 3 to 5 of R475 on an image: the first that fails, with its status. `tuning` is the kind that is asked for. -/
def imageFits (c : Core) (tuning : Bool) (i : Image) : Option (Nat × Nat) :=
  let f := c.glb.fuse
  if !i.parts.getLsbD f.part.toNat ∨ (tuning ∧ i.baseId ≠ c.cfg.imageId) then some (3, stImageMismatch)
  else if !tuning ∧ sharesBad f.stacks.length i then some (4, stImageInvalid)
  else match i.routes with
    | some r => if routesBad f r then some (5, stRouteBad) else none
    | none => none

/-- The first failing check of R475 on the image of a slot, with its status. -/
def imageCheck (c : Core) (m : Mem) (tuning b : Bool) : Option (Nat × Nat) :=
  let o := imgObj m b
  if (objFail c.glb.fuse 3 imgSlotSize o).isSome then some (1, stImageInvalid)
  else if !imageFormed o.body ∨ imageTuning o.body ≠ tuning then some (2, stImageInvalid)
  else imageFits c tuning (imageOf o.body)

/-- The refusal is logged, with what of R327 and R328 failed where that is it; the detail is a free value (log 3). -/
def imageRefused (m : Mem) (b : Bool) (check : Nat) (c : Core) : Core :=
  let slot := b.toNat
  let (v, c) := c.free
  let k := (objFail c.glb.fuse 3 imgSlotSize (imgObj m b)).getD 0
  let c := if check = 1 then logE 0x0B02 0 0 none [(3, slot), (4, (Config.logEnum 0x0B02 k).toNat)] c else c
  logE 0x0F05 0 0 none [(3, slot), (4, check), (32, v.toNat % 2 ^ 32)] c

/-! ### What the sections set (R474, R549) -/

/-- Tuning sections but ROUTES. -/
def applyTuning (i : Image) (c : Core) : Core :=
  let c := i.traffic.foldl (fun c e => tmgrWrite e.1.toNat e.2 0 c) c
  i.settings.foldl (fun c e => setReg e.1.toNat e.2 c) c

/-- M3 follows the body in force (R333). -/
def setM3 (i : Image) (c : Core) : Core := c.modSec (fun x => { x with m := tput 0 3 i.digest x.m })

/-- Steps 3 and 4 of R478, or step 4 of R479 when no partition changes: the rest of the image is applied and the request answered. -/
def updateEnd (i : Image) (ch : Option Nat) (c : Core) : Core :=
  let c := setM3 i (applyTuning i c)
  let c := { c with cfg := { c.cfg with busy := false, tuneId := if i.tuning then i.imageId else c.cfg.tuneId,
                                        imageId := if i.tuning then c.cfg.imageId else i.imageId,
                                        image := if i.tuning then c.cfg.image else some i } }
  let c := logE 0x0F06 0 0 none [(32, i.imageId.toNat), (1, i.tuning.toNat)] c
  mbReply ch stOk [] (raiseInt 21 c)

/-- Routes first, if the image carries any; the rest once the old copy is released. -/
def updateStart (i : Image) (ch : Nat) (c : Core) : Core :=
  let c := { c with cfg := { c.cfg with busy := true } }
  match i.routes with
  | some r => startRouteChange (some ch) r (some i) c
  | none => updateEnd i (some ch) c

/-- The update would change routes while a change is not released. -/
def routeBusy (i : Image) (c : Core) : Bool := i.routes.isSome && c.mesh.change.isSome

/-- IMAGE_TUNE, of the slot that DATA0 names. -/
def fxImageTune (ch : Nat) (m : Mem) (c : Core) : Core :=
  takeRequest ch 0x063 1 (fun c =>
    let d0 := reqData c ch 0
    let b := d0.getLsbD 0
    if !reservedClear d0 1 then mbDone ch stBadRequest c
    else match imageCheck c m true b with
      | some (n, st) => mbDone ch st (imageRefused m b n c)
      | none => if routeBusy (slotImage m b) c then mbDone ch stRouteBusy c else updateStart (slotImage m b) ch c) c

def execImageTune (ch : Nat) (s : State) : Host.Outcome State Fault Refusal :=
  act s (fun d => { d with core := fxImageTune ch d.perm.flash d.core })

/-! ### Live reconfiguration (R479) -/

/-- Partitions whose entries differ. -/
def changedPtns (a b : Image) : List Nat := (List.range 32).filter (fun p => decide (imgPtn (some a) p ≠ imgPtn (some b) p))

/-- A partition with nothing mapped, admitted or created. -/
def ptnIdle (c : Core) (p : Nat) : Bool :=
  (validExts c p).isEmpty && (hostsOf c p).isEmpty && !c.regions.any (fun g => g.2.created && decide (g.2.p = p))

/-- Sections other than PARTITIONS, CLUSTERS and POWER agree. -/
def sameRest (a b : Image) : Bool :=
  decide (a.k = b.k) && decide (a.minWidth = b.minWidth) && decide (a.mirrorRole = b.mirrorRole) && decide (a.required = b.required) &&
  decide (a.masks = b.masks) && decide (a.dbi = b.dbi) && decide (a.rfm = b.rfm) && decide (a.par = b.par) && decide (a.bus = b.bus)

/-- The running image with the entry of one partition of the new one. -/
def mergePtn (a b : Image) (p : Nat) : Image :=
  { a with ptns := a.ptns.filter (fun x => decide (x.p ≠ p)) ++ (imgPtn (some b) p).toList }

/-- The action of the lowest partition still to be changed; with none left, the answer. -/
def reconfigNext (i : Image) (ch : Option Nat) (skipped : List (BitVec 16)) (c : Core) : Core :=
  match c.cfg.image with
  | none => c
  | some run =>
    match (changedPtns run i).head? with
    | none =>
      let c := { c with cfg := { c.cfg with busy := false, image := some i } }
      mbReply ch stOk skipped (raiseInt 21 (logE 0x0F06 0 0 none [(32, i.imageId.toNat), (1, 0)] c))
    | some p =>
      if ptnBusy c p then mbReply ch stPartitionBusy skipped { c with cfg := { c.cfg with busy := false } }
      else startAction { noAction with kind := 8, p := p, ch := ch, skipped := skipped, img := some i } c

/-- Step 4 of R479 for the action of one partition: routes, then the other tuning sections, M3 and CFG_IMAGE_ID; then the next partition.
`i = 1` in the action marks that its route change has begun. -/
def reconfigTail (a : Action) (c : Core) : Core :=
  match a.img, c.cfg.image with
  | some i, some run =>
    if i.routes.isSome ∧ a.i = 0 then
      (match i.routes with
       | some r => if c.mesh.change.isSome then c else putAction { a with i := 1 } (startRouteChange none r none c)
       | none => c)
    else if i.routes.isSome ∧ c.mesh.change.isSome then c
    else
      let c := scaleBudgets (setM3 i (applyTuning i c))
      let c := { c with cfg := { c.cfg with imageId := i.imageId, image := some (mergePtn run i a.p) } }
      reconfigNext i a.ch a.skipped (c.modRot (fun r => { r with actions := r.actions.filter (fun b => decide (b.p ≠ a.p)) }))
  | _, _ => c

/-- Reconfigurations that have come to their last step. -/
def reconfigTails (c : Core) : Core :=
  if c.glb.restarting then c else (c.rot.actions.filter (fun a => decide (a.step = 22))).foldl (fun c a => reconfigTail a c) c

/-- IMAGE_RECONFIG, once the image has passed its checks. -/
def reconfigWith (ch : Nat) (i : Image) (c : Core) : Core :=
  match c.cfg.image with
  | none => mbDone ch stImageLiveRefused c
  | some run =>
    if !sameRest run i ∨ !(changedPtns run i).all (ptnIdle c) then mbDone ch stImageLiveRefused c
    else if routeBusy i c then mbDone ch stRouteBusy c
    else if (changedPtns run i).isEmpty then updateStart i ch c
    else reconfigNext i (some ch) [] { c with cfg := { c.cfg with busy := true } }

def fxImageReconfig (ch : Nat) (m : Mem) (c : Core) : Core :=
  takeRequest ch 0x064 1 (fun c =>
    let d0 := reqData c ch 0
    let b := d0.getLsbD 0
    if !reservedClear d0 1 then mbDone ch stBadRequest c
    else match imageCheck c m false b with
      | some (n, st) => mbDone ch st (imageRefused m b n c)
      | none => reconfigWith ch (slotImage m b) c) c

def execImageReconfig (ch : Nat) (s : State) : Host.Outcome State Fault Refusal :=
  act s (fun d => { d with core := fxImageReconfig ch d.perm.flash d.core })

/-- STEP_COMPLETE_REPORT, with the last step of a reconfiguration (R25, R27, R479). -/
def execStepCompleteReport (p mgr : Nat) (s : State) : Host.Outcome State Fault Refusal :=
  actCore s (fun c => reconfigTails (fxStepReport p mgr c))

def execRotResume (s : State) : Host.Outcome State Fault Refusal := actCore s (fun c => reconfigTails (fxRotResume c))

/-- DRAIN_POLL: once drained, the old copy is released, vector 21 is raised, and the update that changed the routes goes on (R403, R478). -/
def fxDrainPoll (c : Core) : Core :=
  if !routeDrained c ∨ !rotUp c then c
  else
    let k := c.mesh.change
    let c := raiseInt 21 (releaseRoutes c)
    let c := match k.bind (fun x => x.img), k.bind (fun x => x.ch) with
      | some i, ch => updateEnd i ch c
      | none, _ => c
    reconfigTails c

def execDrainPoll (s : State) : Host.Outcome State Fault Refusal := actCore s fxDrainPoll

end Sys2Proof.Machine
end

