-- ==== Sys2Proof/Machine/Boot.lean ====
section
/-! DEFINITION. Power, chip reset, boot, known-answer runs, the cluster map and readiness (R330, R331, R509, R510, R514–R527, R560–R562). -/

namespace Sys2Proof.Machine
open Sys2Proof

/-! ### Chip reset (R509, R510) -/

/-- What a chip reset leaves: stacks that were in use hold their contents in self-refresh, of which the tables of the system area and the
persistent log can still be read (R317, R341, R342). -/
def resetCore (resetN : Bool) (c : Core) : Core :=
  { pins := { powered := c.pins.powered, resetN := resetN }, fresh := c.fresh, out := c.out, plog := c.plog,
    mem := c.mem.filter (fun x => decide (saMap ≤ x.1 % 2 ^ 36)),
    hbmcs := c.hbmcs.filterMap (fun e => if e.2.trained || e.2.selfRefresh then some (e.1, { selfRefresh := true : Hbmc }) else none) }

/-- The first condition of R516 that fails: 0 PART, 1 STACK_PRESENT, 2 PORT_PRESENT, 3 candidates of a field. -/
def fuseFail (f : Fuses) : Option Nat :=
  let k := f.part.toNat
  if k = 3 then some 0
  else if (List.range 4).any (fun fld => decide ((f.fieldStacks fld).length ≠ partStacks k / 4)) then some 1
  else if (bitsOf 8 f.portPresent).length ≠ partPorts k then some 2
  else if (List.range 4).any (fun fld => decide ((f.candidates fld).length < partClusters k / 4)) then some 3
  else none

/-- Step 1 of R330 and R514: the fuses are read and checked; an invalid map is a fuse error and FUSE_BAD. -/
def bootFuses (d : Dev) : Dev :=
  let f := d.perm.fuses
  let c := d.core
  let c := { c with pins := { c.pins with resetN := true } }
  let c := c.modGlb (fun g => { g with fuse := f, idValid := true })
  let c := c.modSec (fun x => { x with
    debugLock := f.debugLock, ownerKey := decide (f.ownerHash ≠ 0), fused := BitVec.ofNat 7 f.svn,
    m := tput 0 0 (digestBits Config.maskRom) x.m })
  let c := match fuseFail f with
    | some k => logE 0x1107 0 0 none [(4, (Config.logEnum 0x1107 k).toNat)] (c.modGlb (fun g => { g with ready := .fuseError }))
    | none => c
  { d with core := c }

/-- POWER_ON: the rails are up with RESET_N low; RST_CAUSE is cleared and VCORE_VID drives code 16 (R558, R560). -/
def fxPowerOn (d : Dev) : Dev :=
  if d.core.pins.powered then d
  else { perm := { d.perm with rstCause := 0 },
         core := { pins := { powered := true, resetN := false }, fresh := d.core.fresh, out := d.core.out } }

/-- POWER_DOWN: with RESET_N low the board removes the rails; a rail that leaves its tolerance while RESET_N is high, or is removed then,
leaves the device without defined behaviour until RESET_N is asserted (R561). After a thermal trip the board removes every rail but VDD_AON and
VDD_IO: the stacks lose their contents, and the device waits for RESET_N (R501, R562). -/
def fxPowerDown (inService : Bool) (d : Dev) : Dev :=
  let c := d.core
  if !c.pins.powered then d
  else if c.pins.thermTrip then { d with core := { c with mem := [], lineFlags := [], hbmcs := [], plog := [] } }
  else if c.pins.resetN then { d with core := { c with pins := { c.pins with railFault := true } } }
  else if inService then d
  else { perm := { d.perm with rstCause := 0 }, core := { pins := { powered := false, resetN := false }, fresh := c.fresh, out := c.out } }

/-- RESET_N_ASSERT: a chip reset that lasts while the pin is low; RST_CAUSE keeps a thermal trip (R501, R509, R562). -/
def fxResetAssert (d : Dev) : Dev :=
  let c := d.core
  if !c.pins.powered ∨ !c.pins.resetN then d
  else { perm := { d.perm with rstCause := if c.pins.thermTrip then 3 else 1 }, core := resetCore false c }

def execPowerOn (s : State) : Host.Outcome State Fault Refusal := .next { s with dev := fxPowerOn s.dev }
def execPowerDown (inService : Bool) (s : State) : Host.Outcome State Fault Refusal := .next { s with dev := fxPowerDown inService s.dev }
def execResetNAssert (s : State) : Host.Outcome State Fault Refusal := .next { s with dev := fxResetAssert s.dev }

/-- RESET_N_RELEASE: boot starts at step 1 of R330. -/
def fxResetRelease (d : Dev) : Dev := if d.core.pins.powered ∧ d.core.pins.resetN = false then bootFuses d else d

def execResetNRelease (s : State) : Host.Outcome State Fault Refusal := act s fxResetRelease

/-- The key that starts a chip reset (R509). -/
def rstKey : BitVec 32 := 0x52535443

def fxRstChip (key : BitVec 32) (d : Dev) : Dev :=
  if chipUp d.core ∧ key = rstKey then { perm := { d.perm with rstCause := 2 }, core := resetCore true d.core } else d

def execRstChip (key : BitVec 32) (s : State) : Host.Outcome State Fault Refusal := act s (fxRstChip key)

/-- The quiesce of a chip reset by RST_CHIP ends: boot starts at step 1 of R330. -/
def fxQuiesceDone (d : Dev) : Dev := if chipUp d.core ∧ d.core.glb.idValid = false then bootFuses d else d

def execChipResetQuiesceDone (s : State) : Host.Outcome State Fault Refusal := act s fxQuiesceDone

/-! ### Firmware (R330 steps 2 to 6, R331, R474, R475) -/

def holdUnit (cls : Nat) (i : Nat) (c : Core) : Core := c.setUnit cls i { st := .held, want := .held }

/-- Candidate tiles leave Off for Held with undefined contents (R154, R514 step 4), and so do the other units that are present. -/
def unitsHeld (c : Core) : Core :=
  let f := c.glb.fuse
  let c := forEach ((List.range 4).flatMap f.candidates) (fun t c =>
    holdUnit 4 t (c.modTile t (fun x => { tileFromOff t x with power := .active }))) c
  let c := forEach ((List.range 840).filter (fun t => !f.routerBad.getLsbD t)) (holdUnit 5) c
  let c := forEach f.stacks (fun e c => holdUnit 7 e (holdUnit 6 e (c.modHbmc e (fun x => { x with selfRefresh := false })))) c
  let c := forEach (List.range 16) (holdUnit 8) c
  forEach (bitsOf 8 f.portPresent) (holdUnit 9) c

/-- The structural sections of an image (R474) and its tuning sections. -/
def loadImage (i : Image) (c : Core) : Core :=
  let c := { c with cfg := { c.cfg with loaded := true, imageId := i.imageId, image := some i, bus := i.bus } }
  let c := c.modGlb (fun g => { g with required := i.required })
  let c := forEach (bitsOf 8 c.glb.fuse.portPresent) (fun n c => c.modPort n (fun p =>
    { p with cfg := (p.cfg &&& ~~~0x13#32) ||| BitVec.ofNat 32 ((i.minWidth.getD n 0).toNat + Bool.bit (i.mirrorRole.getLsbD n) 4) })) c
  let c := forEach c.glb.fuse.stacks (fun e c => c.modHbmc e (fun x =>
    { x with masks := i.masks,
             cfg := (x.cfg &&& ~~~0x7000#32) ||| BitVec.ofNat 32 (Bool.bit i.dbi 12 + Bool.bit i.rfm 13 + Bool.bit i.par 14) })) c
  let c := match i.routes with
    | some r => c.modMesh (fun m => { m with r0 := r })
    | none => c
  applyTuning i (setM3 i c)

/-- The check of the image in the slot of the flash header (R475, R477); a bad one leaves the device without a structure (R331, R527). -/
def bootImage (m : Mem) (c : Core) : Core :=
  let b := nextSlot m
  let c := { c with cfg := { c.cfg with slot := b } }
  match imageCheck c m false b with
  | some (n, _) =>
    let c := { c with cfg := { c.cfg with failCheck := BitVec.ofNat 4 n } }
    imageRefused m b n ((c.modSec (fun x => { x with error := 2 })).modGlb (fun g => { g with ready := .noImage }))
  | none => loadImage (slotImage m b) c

/-- Steps 2 to 6 of R330 from a good firmware slot: the measurements, the random generator, the keys. -/
def bootFirmware (m : Mem) (b : Bool) (c : Core) : Core :=
  let o := rotFirmware m b
  let (v, c) := c.free
  bootKeys (c.modSec (fun x => { x with
    fwSlotB := b, fallback := b, running := BitVec.ofNat 7 o.svn, drbg := Drbg.seed (v.setWidth 384),
    m := tput 0 2 (digestBits (mgrFirmware m b).body) (tput 0 1 (digestBits o.body) x.m) }))

/-- FIRMWARE_START: the slots are checked, A first; with neither good the mask ROM halts; else the firmware starts the managers and loads the
image. CHIP_RESET is logged for a boot that followed a reset (R330, R331, R333). -/
def fxFirmwareStart (d : Dev) : Dev :=
  let c := d.core
  let m := d.perm.flash
  if !chipUp c ∨ !c.glb.idValid ∨ c.sec.attestReady ∨ c.sec.error ≠ 0 then d
  else
    let a := slotFail c.glb.fuse m false
    if a.isSome ∧ (slotFail c.glb.fuse m true).isSome then { d with core := c.modSec (fun x => { x with error := 1, fallback := true }) }
    else
      let c := bootFirmware m a.isSome c
      let c := match a with
        | some k => logE 0x0B01 0 0 none [(3, 0), (4, (Config.logEnum 0x0B01 k).toNat)] c
        | none => c
      let cause := d.perm.rstCause
      let c := if cause = 0 then c else logE 0x1007 0 0 none [(2, cause.toNat)] c
      if c.glb.ready = .fuseError then { d with core := c }
      else { d with core := bootImage m (unitsHeld (c.modGlb (fun g => { g with ready := .bringUp }))) }

def execFirmwareStart (s : State) : Host.Outcome State Fault Refusal := act s fxFirmwareStart

/-! ### Known-answer runs and the cluster map (R517–R520) -/

/-- The units that undergo a run, by key. -/
def katUnits (f : Fuses) : List Nat :=
  (List.range 4).flatMap (fun k => (f.candidates k).map (fun t => 4 * 4096 + t)) ++
  ((List.range 840).filter (fun t => !f.routerBad.getLsbD t)).map (fun t => 5 * 4096 + t) ++
  f.stacks.map (fun e => 6 * 4096 + e) ++ (List.range 16).map (fun e => 8 * 4096 + e) ++
  (bitsOf 8 f.portPresent).map (fun n => 9 * 4096 + n)

/-- A unit that failed its run. -/
def katFail (cls i : Nat) (c : Core) : Core :=
  if cls = 4 then forceState 4 i .off c
  else if cls = 5 then raiseService 5 (c.setUnit 5 i { c.unit 5 i with st := .failed, want := .failed })
  else if cls = 6 then stackUnused i 1 (forceState 6 i .failed c)
  else if cls = 8 then forceState 8 i .failed c
  else
    let c := c.setUnit 9 i { c.unit 9 i with st := .failed, want := .failed }
    linkService (c.modGlb (fun g => { g with portsFailed := g.portsFailed ||| (1#8 <<< i) }))

/-- The map of one field: logical clusters in ascending order to the candidates that passed (R518). -/
def mapField (fld : Nat) (c : Core) : Core :=
  let n := partClusters c.glb.fuse.part.toNat / 4
  let all := c.glb.fuse.candidates fld
  let ok := all.filter (fun t => !c.glb.katFailed.contains (4 * 4096 + t))
  let m := min n ok.length
  let spare := ok.drop n
  let c := forEach (List.range m) (fun j c =>
    let t := ok.getD j 0
    let l := fld * n + j
    (c.modTile t (fun x => { x with logical := l, en := true })).modGlb
      (fun g => { g with l2p := tput none l (some (t, decide (t ≠ all.getD j 0))) g.l2p })) c
  let c := forEach spare (fun t c => forceState 4 t .off c) c
  let c := c.modGlb (fun g => { g with spares := tput 0 fld spare.length g.spares, unmapped := g.unmapped + (n - m) })
  if m < n then raiseService 4 (logE 0x1104 1 fld none [(32, fld), (10, fld * n + m), (16, n - m)] c) else c

/-- CLUSTER_REMAPPED, once for the boot: how many clusters lie elsewhere than with every candidate good, the lowest field with one, and the
spares left there (R519, R530, log 120). -/
def logRemapped (c : Core) : Core :=
  match (c.glb.l2p.filter (fun x => x.2.any (fun k => k.2))).map Prod.fst with
  | [] => c
  | l :: r =>
    let fld := l / (partClusters c.glb.fuse.part.toNat / 4)
    logE 0x1103 1 fld none [(32, fld), (16, r.length + 1), (16, tget 0 fld c.glb.spares)] c

/-- The map is fixed when every run has ended. -/
def fixMap (c : Core) : Core :=
  if c.glb.mapFixed ∨ !(katUnits c.glb.fuse).all (fun k => c.glb.katDone.contains k) then c
  else logRemapped (forEach (List.range 4) mapField (c.modGlb (fun g => { g with mapFixed := true })))

/-- KAT_DONE: stage 0 is a pass. -/
def fxKatDone (cls i stage : Nat) (c : Core) : Core :=
  let k := cls * 4096 + i
  if !rotUp c ∨ c.glb.mapFixed ∨ c.glb.ready = .fuseError ∨ 4096 ≤ i ∨ !(katUnits c.glb.fuse).contains k ∨ c.glb.katDone.contains k then c
  else
    let c := c.modGlb (fun g => { g with katDone := g.katDone ++ [k] })
    let c := if stage = 0 then c
      else katFail cls i (logE 0x1102 cls i none [(4, cls), (12, i), (4, stage)] (c.modGlb (fun g => { g with katFailed := g.katFailed ++ [k] })))
    fixMap c

def execKatDone (cls idx stage : Nat) (s : State) : Host.Outcome State Fault Refusal := actCore s (fxKatDone cls idx stage)

/-! ### The system-area test, the retirement map and the persistent log (R314, R315, R318, R522, R523) -/

/-- The records of a stack in the retirement area of the flash, by spare. -/
def areaRecords (e : Nat) (flash : Mem) : List (Nat × RetireRec) :=
  (List.range 8192).map (fun j => (j, readRecord (BitVec.ofNat 128 (rdLE flash (areaAddr e j) 16))))

/-- The retirement map of stack `e` from the boot flash, with the spares that the test found bad. -/
def loadRetired (recs : List (Nat × RetireRec)) (bad : List Nat) (x : Hbmc) : Hbmc :=
  { x with
    retired := recs.foldl (fun t r => match r.2 with
      | .page p => tput none p (some r.1) t
      | _ => t) x.retired
    badSpares := (x.badSpares ++ (recs.filter (fun r => decide (r.2 = .bad))).map Prod.fst ++ bad.filter (fun j => decide (j < 8192))).eraseDups }

/-- Each record that fails its CRC is discarded and logged TABLE_CRC (R315). -/
def logBadRecords (e : Nat) (recs : List (Nat × RetireRec)) (c : Core) : Core :=
  forEach ((recs.filter (fun r => decide (r.2 = .crcBad))).map Prod.fst)
    (fun j c => logE 0x0A0C 7 e none [(4, e), (4, (Config.logEnum 0x0A0C 0).toNat), (32, j)] c) c

/-- The table area of a stack, zeroed but for the retirement table (R522). -/
def zeroTables (e : Nat) (m : Mem) : Mem :=
  m.filter (fun x => !decide (caKey e saMap ≤ x.1 ∧ x.1 < caKey e saRetire) && !decide (bitmapAddr e + 1024 ≤ x.1 ∧ x.1 < caKey e (2 ^ 36)))

/-- SYSTEM_AREA_TEST_DONE, with what step 9 of R514 does for the stack: the retirement map is loaded from the flash and rewrites the table, and
the persistent log is read back, records with a wrong CRC discarded. -/
def fxSystemTest (e : Nat) (bad : List Nat) (other : Bool) (d : Dev) : Dev :=
  let c := d.core
  if !rotUp c ∨ c.glb.ready = .ready ∨ c.glb.ready = .fuseError ∨ !c.hasUnit 7 e ∨ !(c.hbmc e).trained ∨ c.glb.unused.getLsbD e ∨
      c.glb.sysTested.getLsbD e then d
  else
    let recs := areaRecords e d.perm.flash
    let c := c.modGlb (fun g => { g with sysTested := g.sysTested ||| (1#16 <<< e) })
    let c := { c with mem := zeroTables e c.mem, plog := tput [] e ((tget [] e c.plog).filter recordOk) c.plog }
    let c := writeTable e (logBadRecords e recs (c.modHbmc e (loadRetired recs bad)))
    let c := countSpares e c
    { d with core := if other then stackUnused e 2 c else c }

def execSystemAreaTestDone (e : Nat) (badSpares : List Nat) (otherBad : Bool) (s : State) : Host.Outcome State Fault Refusal :=
  act s (fxSystemTest e badSpares otherBad)

/-! ### Readiness (R525–R527) -/

/-- Every present stack has been trained and tested, or is unused. -/
def stacksReady (c : Core) : Bool :=
  c.glb.fuse.stacks.all (fun e => c.glb.unused.getLsbD e || ((c.hbmc e).trained && c.glb.sysTested.getLsbD e))

/-- Required ports that are not Up at their minimum width. -/
def portsMissing (c : Core) : List Nat :=
  (bitsOf 8 c.glb.required).filter (fun n => !(c.glb.fuse.portPresent.getLsbD n && decide ((c.port n).link = .up) &&
    decide ((c.port n).minWidth ≤ (c.port n).width)))

def readyNow (c : Core) : Bool :=
  rotUp c && c.cfg.loaded && c.glb.mapFixed && (decide (c.glb.ready = .bringUp) || decide (c.glb.ready = .waitPorts)) &&
  stacksReady c && (portsMissing c).isEmpty

/-- The partitions of the image: PTN values and clusters (R49, R122). -/
def loadPartitions (i : Image) (c : Core) : Core :=
  scaleBudgets (i.ptns.foldl (fun c x => moveClusters x.p x.clusters (writeShares x.p x c)) c)

/-- Each unit commanded to its desired state, with what a router that failed its run brings with it (R401). -/
def commandUnits (c : Core) : Core :=
  let f := c.glb.fuse
  let c := forEach ((c.tiles.filter (fun x => x.2.en && !x.2.assigned)).map Prod.fst) (fun t c => forceState 4 t .off c) c
  let c := forEach ((List.range 840).filter (fun t => decide (c.ust 5 t = .failed))) (fun t c =>
    let c := logE 0x0D03 5 t none [(10, t)] c
    if c.ust 4 t = .off ∨ c.ust 4 t = .failed then c else clusterFailed t (c.modUst 4 t .failed)) c
  let want (cls i : Nat) (c : Core) : Core := if c.ust cls i = .failed then c else wantState cls i .serving none c
  let c := forEach ((List.range 840).filter (fun t => !f.routerBad.getLsbD t)) (want 5) c
  let c := forEach f.stacks (want 6) c
  let c := forEach (f.stacks.filter (fun e => (c.hbmc e).trained && !c.glb.unused.getLsbD e)) (want 7) c
  forEach (List.range 16) (want 8) c

/-- READINESS. -/
def fxReadiness (c : Core) : Core :=
  if !readyNow c then c
  else match c.cfg.image with
    | none => c
    | some i =>
      let c := commandUnits (loadPartitions i c)
      let c := forEach (i.ptns.map (fun x => x.p)) (fun p c => if ptnHeld c p then c.modPtn p (fun x => { x with hostsFenced := true }) else c) c
      let ms := c.evc.tick.toNat / 25000
      let c := clearService 11 (c.modGlb (fun g => { g with ready := .ready, readyMs := BitVec.ofNat 32 ms }))
      let c := forEach (presentPorts c) portWant c
      let up := ((presentPorts c).filter (fun n => (c.port n).linked)).foldl (fun a n => a + 2 ^ n) 0
      logE 0x1101 0 0 none [(32, ms), (16, c.glb.unused.toNat), (10, c.glb.unmapped), (8, up)] c

def execReadiness (s : State) : Host.Outcome State Fault Refusal := actCore s fxReadiness

/-- READINESS_TIMEOUT. -/
def fxReadinessTimeout (c : Core) : Core :=
  if !rotUp c ∨ c.glb.ready ≠ .bringUp ∨ !c.cfg.loaded ∨ (portsMissing c).isEmpty then c
  else
    let c := raiseService 11 (c.modGlb (fun g => { g with ready := .waitPorts }))
    logE 0x1106 0 0 none (listFields ((portsMissing c).map (fun n => 9 * 4096 + n))) c

def execReadinessTimeout (s : State) : Host.Outcome State Fault Refusal := actCore s fxReadinessTimeout

end Sys2Proof.Machine
end

