-- ==== Sys2Proof/Machine/PoolCheck.lean ====
section
/-! DEFINITION. The checks of a fetched descriptor, one command for each type (R210–R220), with the binary of a KERNEL (R191, R194), and how a
command ends (R227, R228). -/

namespace Sys2Proof.Machine
open Sys2Proof

/-! ### Commands of a dispatcher -/

/-- The dispatcher of partition `p` works: its edge unit does, and no reset of the partition runs (R14, R201, R506). -/
def dispatches (c : Core) (p : Nat) : Bool := c.works 8 (p / 2) && (c.ptn p).en && decide ((c.ptn p).resetStep = 0)

def Core.ringOf (c : Core) (p r : Nat) : Ring := tget {} r (c.ptn p).rings

/-- A draining or stopped ring with no command in flight is disabled (R205). -/
def Ring.settled (x : Ring) : Ring :=
  if (x.st = .draining ∨ x.st = .stopped) ∧ x.inFlight = 0 then { x with st := .disabled, ctrl := x.ctrl &&& ~~~1#32 } else x

/-- The commands of a ring that are `q` leave the dispatcher. -/
def dropCmds (p r : Nat) (q : Cmd → Bool) (c : Core) : Core :=
  c.modPtn p (fun x =>
    let keep := x.cmds.filter (fun k => !(decide (k.r = r) && q k))
    { x with cmds := keep, ended := x.ended.filter (fun j => keep.any (fun k => decide (k.r = j.1) && decide (k.idx = j.2))) })

/-- A command completes: it is in flight no more, and its record is to be written in completion order (R205, R208, R227); a stopped ring's
records are discarded (R209). -/
def endCmd (p : Nat) (k : Cmd) (c : Core) : Core :=
  let stopped := decide ((c.ringOf p k.r).st = .stopped)
  let c := modRing p k.r (fun x => { x with inFlight := x.inFlight - 1 }.settled) c
  if stopped then dropCmds p k.r (fun x => decide (x.idx = k.idx)) c
  else
    let c := modCmd p k.r k.idx (fun _ => { k with phase := 3 }) c
    c.modPtn p (fun x => { x with ended := x.ended ++ [(k.r, k.idx)] })

/-- A command that fails before it starts. -/
def failCmd (p : Nat) (k : Cmd) (st : BitVec 8) (detail d64 : Nat) (c : Core) : Core :=
  endCmd p { k with status := st, failed := true, detail := BitVec.ofNat 32 detail, detail64 := BitVec.ofNat 64 d64 } c

/-! ### The checks of R220 -/

/-- What the checks of a type look at. `masks`: used bits of words 4 to 31. `refs`: the PRESENT bit that each operand reference must have,
by the word of its PLA; `none` = either. `fmtBad`, `countBad`, `alignBad`: the word of the first field that fails. `spans`: the operands'
words with the first byte and the number of bytes. -/
structure DescSpec where
  masks : List (Nat × BitVec 32)
  refs : List (Nat × Option Bool)
  fmtBad : Option Nat
  countBad : Option Nat
  alignBad : Option Nat
  spans : List (Nat × Nat × Nat)

/-- The word of the first condition that holds. -/
def firstBad : List (Bool × Nat) → Option Nat
  | [] => none
  | (b, w) :: r => if b then some w else firstBad r

/-- Used bits of word `i`. -/
def DescSpec.mask (s : DescSpec) (i : Nat) : BitVec 32 :=
  if i = 0 then 0x00FFFFFF else if i = 1 then 0xFFF else if i = 2 ∨ i = 3 then 0xFFFFFFFF
  else if s.refs.any (fun r => decide (r.1 = i)) then 0xFFFFFFFF
  else if s.refs.any (fun r => decide (r.1 + 1 = i)) then (match s.masks.find? (fun m => decide (m.1 = i)) with
    | some m => m.2
    | none => 0x800007FF)
  else ((s.masks.find? (fun m => decide (m.1 = i))).map Prod.snd).getD 0

/-- The word of the first reserved field that is not zero, or PRESENT bit that is not as the type requires (R220 order 2). -/
def DescSpec.formBad (s : DescSpec) (d : Line) : Option Nat :=
  (List.range 32).find? (fun i => decide (dword d i &&& ~~~(s.mask i) ≠ 0) ||
    s.refs.any (fun r => decide (r.1 + 1 = i) && (match r.2 with
      | some b => (dword d i).getLsbD 31 != b
      | none => false)))

/-- The status and DETAIL of the first check that fails: orders 2 to 7 of R220. -/
def DescSpec.check (s : DescSpec) (x : Ptn) (d : Line) : Option (BitVec 8 × Nat) :=
  match s.formBad d with
  | some w => some (0x10, w)
  | none => match s.fmtBad with
    | some w => some (0x11, w)
    | none => match s.countBad with
      | some w => some (0x10, w)
      | none => match firstBad ((s.refs.filter (fun r => (refAt d r.1).present)).map (fun r => (decide ((refAt d r.1).pla % 16 ≠ 0), r.1))), s.alignBad with
        | some w, some v => some (0x12, min w v)
        | some w, none => some (0x12, w)
        | none, some w => some (0x12, w)
        | none, none =>
          if cSigEn d && !(decide (x.syncBase ≤ cObj d) && decide (cObj d < x.syncBase + x.syncCount)) then some (0x13, cObj d)
          else (firstBad (s.spans.map (fun k => (decide (896 * 2 ^ 30 < k.2.1 + k.2.2), k.1)))).map (fun w => (0x14, w))

/-- The first fetched command of a type that awaits its checks. -/
def awaiting (c : Core) (p typ : Nat) : Option Cmd := (c.ptn p).cmds.find? (fun k => decide (k.phase = 0 ∧ cType k.desc = typ))

/-- A descriptor of a type is checked: it fails with a status, or enters the start queue (R220, R221). -/
def checkRow (typ : Nat) (spec : Line → DescSpec) (p : Nat) (c : Core) : Core :=
  if !dispatches c p then c
  else match awaiting c p typ with
    | none => c
    | some k => match (spec k.desc).check (c.ptn p) k.desc with
      | some (st, w) => failCmd p k st w 0 c
      | none => modCmd p k.r k.idx (fun k => { k with phase := 1 }) c

/-- Any valid code of R212. -/
def fmtOk (f : Nat) : Bool := decide (f < 7) || decide (f = 8)

/-- The bytes of an operand in a span. -/
def spanOf (d : Line) (w n : Nat) : Nat × Nat × Nat := (w, (refAt d w).pla, n)

def specReduce (d : Line) : DescSpec :=
  let w4 := dword d 4
  let n := field w4 6 0
  let el := (dword d 5).toNat
  let stride := (dword d 10).toNat + field (dword d 11) 7 0 * 2 ^ 32
  { masks := [(4, 0x007FF37F), (5, 0xFFFFFFFF), (10, 0xFFFFFFFF), (11, 0xFF)]
    refs := [(6, some true), (8, some true)]
    fmtBad := firstBad [(!fmtOk (field w4 15 12) || !fmtOk (field w4 19 16), 4)]
    countBad := firstBad [(decide (n = 0) || decide (64 < n), 4),
      (decide (field w4 9 8 = 1) && decide (n + Bool.bit (w4.getLsbD 22) 0 < 2), 4), (decide (el % 32 ≠ 0), 5)]
    alignBad := firstBad [(decide (stride % 16 ≠ 0), 10)]
    spans := [spanOf d 6 (vecBytes (field w4 19 16) el),
      spanOf d 8 (if w4.getLsbD 20 then 8 * n else (n - 1) * stride + vecBytes (field w4 15 12) el)] }

def specGather (d : Line) : DescSpec :=
  let w4 := dword d 4
  let op := field w4 9 8
  let wt := w4.getLsbD 20
  let dim := field (dword d 5) 15 0
  let bags := field (dword d 7) 23 0
  let stride := (dword d 10).toNat
  let row := vecBytes (field w4 15 12) dim
  let out := vecBytes (field w4 19 16) dim
  { masks := [(4, 0x003FF300), (5, 0xFFFF), (6, 0xFFFFFFFF), (7, 0xFFFFFF), (10, 0xFFFFFFFF)]
    refs := [(8, some true), (12, some true), (14, some true), (16, some wt), (18, some true)]
    fmtBad := firstBad [(!fmtOk (field w4 15 12) || !fmtOk (field w4 19 16), 4)]
    countBad := firstBad [(decide (op = 3) || (wt && decide (op = 2)), 4),
      (decide (dim % 32 ≠ 0) || decide (dim < 32) || decide (16384 < dim), 5), (decide ((dword d 6).toNat = 0), 6),
      (decide (bags = 0), 7), (decide (stride < row), 10)]
    alignBad := firstBad [(decide (stride % 16 ≠ 0), 10)]
    spans := [spanOf d 8 (((dword d 6).toNat - 1) * stride + row), spanOf d 12 0, spanOf d 14 (4 * (bags + 1)),
      spanOf d 16 0, spanOf d 18 ((bags - 1) * roundUp out 16 + out)] }

def specAttend (d : Line) : DescSpec :=
  let a := attShape d
  let log := field (dword d 5) 3 0
  let f3 (f : Nat) : Bool := decide (f = 5) || decide (f = 6) || decide (f = 8)
  { masks := [(4, 0xFFF3FFFF), (5, 0xFFFF000F), (6, 0xFFFFFFFF)]
    refs := [(8, some true), (10, some true), (12, some true)]
    fmtBad := firstBad [(decide (6 < a.kf) || !f3 a.qf || !f3 a.outF, 4)]
    countBad := firstBad [(decide (a.qh = 0) || decide (128 < a.qh) || decide (a.kvh = 0) || decide (128 < a.kvh) || decide (a.qh % a.kvh ≠ 0) ||
        decide (field (dword d 4) 17 16 = 3) || decide (tileN (fmtClass a.kf) < a.g), 4),
      (decide (log < 6) || decide (12 < log) || decide (a.seqs = 0), 5)]
    alignBad := none
    spans := [spanOf d 8 (a.seqs * a.qh * a.dim * pfBits a.qf / 8), spanOf d 10 (a.seqs * a.qh * a.dim * pfBits a.outF / 8),
      spanOf d 12 (16 * a.seqs)] }

def specOptstep (d : Line) : DescSpec :=
  let w4 := dword d 4
  let el := (dword d 5).toNat
  let st (f : Nat) : Bool := decide (f = 5) || decide (f = 8)
  let adam := decide (field w4 1 0 = 1)
  let (wf, gf, mf, of) := (field w4 7 4, field w4 11 8, field w4 15 12, field w4 19 16)
  { masks := (4, 0x003FFFF3) :: (5, 0xFFFFFFFF) :: (List.range 8).map (fun i => (16 + i, 0xFFFFFFFF))
    refs := [(6, some true), (8, some true), (10, some true), (12, some adam), (14, none)]
    fmtBad := firstBad [(!st wf || !fmtOk gf || !st mf || !fmtOk of, 4)]
    countBad := firstBad [(decide (1 < field w4 1 0), 4), (decide (el % 32 ≠ 0), 5)]
    alignBad := none
    spans := [spanOf d 6 (vecBytes wf el), spanOf d 8 (vecBytes gf el), spanOf d 10 (vecBytes mf el)] ++
      (if adam then [spanOf d 12 (vecBytes mf el)] else []) ++ (if (refAt d 14).present then [spanOf d 14 (vecBytes of el)] else []) }

def specRequant (d : Line) : DescSpec :=
  let w4 := dword d 4
  let el := (dword d 5).toNat
  { masks := [(4, 0x002FF000), (5, 0xFFFFFFFF), (10, 0xFFFFFFFF)]
    refs := [(6, some true), (8, some true)]
    fmtBad := firstBad [(!fmtOk (field w4 15 12) || !fmtOk (field w4 19 16), 4)]
    countBad := firstBad [(decide (el % 32 ≠ 0), 5)]
    alignBad := none
    spans := [spanOf d 6 (vecBytes (field w4 19 16) el), spanOf d 8 (vecBytes (field w4 15 12) el)] }

/-- ROW_BYTES and ROWS out of range. -/
def rowsBad (d : Line) : Option Nat :=
  let rb := (dword d 4).toNat
  firstBad [(decide (rb % 16 ≠ 0) || decide (rb < 16), 4), (decide (field (dword d 5) 23 0 = 0), 5)]

/-- Rows at an operand with a stride. -/
def rowsSpan (d : Line) (w stride : Nat) : Nat × Nat × Nat := spanOf d w ((field (dword d 5) 23 0 - 1) * stride + (dword d 4).toNat)

def specCopy (d : Line) : DescSpec :=
  let (ds, ss) := ((dword d 10).toNat, (dword d 11).toNat)
  { masks := [(4, 0xFFFFFFFF), (5, 0xFFFFFF), (10, 0xFFFFFFFF), (11, 0xFFFFFFFF)]
    refs := [(6, some true), (8, some true)]
    fmtBad := none
    countBad := rowsBad d
    alignBad := firstBad [(decide (ds % 16 ≠ 0), 10), (decide (ss % 16 ≠ 0), 11)]
    spans := [rowsSpan d 6 ds, rowsSpan d 8 ss] }

def specFill (d : Line) : DescSpec :=
  let ds := (dword d 8).toNat
  { masks := (4, 0xFFFFFFFF) :: (5, 0xFFFFFF) :: (8, 0xFFFFFFFF) :: (List.range 4).map (fun i => (10 + i, 0xFFFFFFFF))
    refs := [(6, some true)]
    fmtBad := none
    countBad := rowsBad d
    alignBad := firstBad [(decide (ds % 16 ≠ 0), 8)]
    spans := [rowsSpan d 6 ds] }

def specKernel (d : Line) : DescSpec :=
  { masks := (5, 0x800000FF) :: (List.range 16).map (fun i => (8 + i, 0xFFFFFFFF))
    refs := [(4, some true)]
    fmtBad := none
    countBad := none
    alignBad := firstBad [(decide ((refAt d 4).pla % 128 ≠ 0), 4)]
    spans := [spanOf d 4 64] }

def execReduce (p : Nat) (s : State) : Host.Outcome State Fault Refusal := actCore s (checkRow 1 specReduce p)
def execGatherpool (p : Nat) (s : State) : Host.Outcome State Fault Refusal := actCore s (checkRow 2 specGather p)
def execAttend (p : Nat) (s : State) : Host.Outcome State Fault Refusal := actCore s (checkRow 3 specAttend p)
def execOptstep (p : Nat) (s : State) : Host.Outcome State Fault Refusal := actCore s (checkRow 4 specOptstep p)
def execRequant (p : Nat) (s : State) : Host.Outcome State Fault Refusal := actCore s (checkRow 5 specRequant p)
def execCopyOp (p : Nat) (s : State) : Host.Outcome State Fault Refusal := actCore s (checkRow 6 specCopy p)
def execFillOp (p : Nat) (s : State) : Host.Outcome State Fault Refusal := actCore s (checkRow 7 specFill p)

/-! ### The dispatcher's reads of pool memory -/

/-- The home stack and the line of a PLA of partition `p`, by its extent table. -/
def Core.poolPlace (c : Core) (p pla : Nat) : Option (Nat × Nat) :=
  let x := c.masterExt p (pla / 2 ^ 30)
  if x.valid then
    let (e, off) := c.place (x.ppa * 2 ^ 30 + pla % 2 ^ 30)
    some (e, off / 128)
  else none

/-- The dispatcher as an issuer, a line read and a masked write of it. -/
def dispOrigin (p : Nat) : Origin := ⟨2, p, 0, 0, 0, none, 0⟩
def readReq (pla : Nat) (cls hint pleat : Nat) : Req :=
  { op := 0x03, dst := 0, src := 0, tag := 0, pleat := BitVec.ofNat 3 pleat, hint := BitVec.ofNat 2 hint, cls := BitVec.ofNat 2 cls, ce := false,
    pla := BitVec.ofNat 40 (pla / 128 * 128), mask := 0, data := 0, poison := false }

/-- The answer of the home to an access of the dispatcher: `none` while the home does not work, else what refuses it, or the place. -/
def dispAccess (c : Core) (p : Nat) (q : Req) : Option (Except Ans (Nat × Nat)) :=
  match c.poolPlace p q.pla.toNat with
  | none => some (.error { op := opNackRevoked, reason := 3, fault := 0x0505 })
  | some (e, l) =>
    if !c.works 6 e then none
    else match homeRefusal c e p (dispOrigin p) q with
      | some a => some (.error a)
      | none => some (.ok (e, l))

/-! ### The binary of a KERNEL (R191, R194) -/

/-- A line of the binary, if its home gives it. -/
def binLine (c : Core) (p pla : Nat) (d : Line) : Option (Line × Bool) :=
  match dispAccess c p (readReq pla (cClass d) (cHint d) 0) with
  | some (.ok (e, l)) => some (c.rdPool e l)
  | _ => none

/-- The length of the file: the header and the sections. -/
def binSize (h : Line) : Nat := max 64 (max (hdr h 4 + hdr h 5) (if hdr h 8 = 0 then 0 else hdr h 7 + hdr h 8))

/-- Byte `i` of the file with word 15 taken as zero. -/
def binByte (ls : List Line) (i : Nat) : BitVec 8 := if 60 ≤ i ∧ i < 64 then 0 else lineByte (ls.getD (i / 128) 0) (i % 128)

/-- The areas of the local store that a binary takes: text, data, BSS, stack, each from its first byte to the one after its last. -/
def binAreas (h : Line) : List (Nat × Nat) :=
  [(hdrA h 6, hdrA h 6 + hdr h 5), (hdrA h 9, hdrA h 9 + hdr h 8), (hdrA h 10, hdrA h 10 + hdr h 11), (hdrA h 12 - hdr h 13, hdrA h 12)]

/-- Some pair of areas shares a byte. -/
def areasMeet : List (Nat × Nat) → Bool
  | [] => false
  | a :: r => r.any (fun b => decide (a.1 < b.2) && decide (b.1 < a.2) && decide (a.1 < a.2) && decide (b.1 < b.2)) || areasMeet r

/-- The layout rules of R191 and R194 hold; an empty area takes no byte of the local store. -/
def binLayoutOk (h : Line) : Bool :=
  let inText (a : Nat) : Bool := decide (a % 8 = 0) && decide (hdrA h 6 ≤ a) && decide (a < hdrA h 6 + hdr h 5)
  decide (hdr h 4 % 64 = 0) && decide (hdr h 5 % 8 = 0) && decide (8 ≤ hdr h 5) && decide (hdrA h 6 % 64 = 0) &&
  decide (hdr h 7 % 16 = 0) && decide (hdr h 8 % 16 = 0) && decide (hdrA h 9 % 16 = 0) && decide (hdrA h 10 % 16 = 0) &&
  decide (hdr h 11 % 16 = 0) && decide (hdrA h 12 % 16 = 0) && decide (hdr h 13 % 16 = 0) && decide (hdr h 13 ≤ hdrA h 12) &&
  (binAreas h).all (fun a => decide (a.2 ≤ a.1) || decide (a.2 ≤ 0x1FF000)) && !areasMeet (binAreas h) &&
  inText (hdrA h 2) && (decide (hdrA h 3 = 0) || inText (hdrA h 3))

/-- The status of the first check of R194 that fails, but the last: that one is made when the command's clusters are known. -/
def kernelCheck (c : Core) (p : Nat) (d : Line) : Option (BitVec 8) :=
  let pla := (refAt d 4).pla
  let x := c.masterExt p (pla / 2 ^ 30)
  if !x.valid ∨ !(decide (x.typ = 2) || decide (x.typ = 3)) then some 0x20
  else match binLine c p pla d with
    | none => some 0x21
    | some (_, true) => some 0x21
    | some (h, false) =>
      if 2 ^ 30 < pla % 2 ^ 30 + binSize h then some 0x20
      else
        let ls := (List.range (ceilDiv (binSize h) 128)).map (fun i => binLine c p (pla + 128 * i) d)
        if ls.any (fun l => match l with
          | some (_, false) => false
          | _ => true) then some 0x21
        else
          let data := ls.map (fun l => (l.map Prod.fst).getD 0)
          if hdr h 0 ≠ 0x4B594C59 ∨ field (dword h 1) 15 0 ≠ 1 then some 0x22
          else if crc32 ((List.range (binSize h)).map (binByte data)) ≠ dword h 15 then some 0x23
          else if !binLayoutOk h then some 0x24
          else none

/-- A KERNEL that is refused (R194, R200). -/
def kernelRefused (p : Nat) (k : Cmd) (st : BitVec 8) (c : Core) : Core :=
  failCmd p k st 0 0 (logE 0x0602 8 (p / 2) (some p) [(5, p), (32, k.idx.toNat), (8, st.toNat)] c)

def fxKernel (p : Nat) (c : Core) : Core :=
  if !dispatches c p then c
  else match awaiting c p 8 with
    | none => c
    | some k => match (specKernel k.desc).check (c.ptn p) k.desc with
      | some (st, w) => failCmd p k st w 0 c
      | none => match kernelCheck c p k.desc with
        | some st => kernelRefused p k st c
        | none =>
          let h := ((binLine c p (refAt k.desc 4).pla k.desc).map Prod.fst).getD 0
          modCmd p k.r k.idx (fun k => { k with phase := 1, hdr := h, minC := max 1 (field (dword h 14) 9 0), maxC := field (dword h 14) 25 16 }) c

def execKernel (p : Nat) (s : State) : Host.Outcome State Fault Refusal := actCore s (fxKernel p)

end Sys2Proof.Machine
end

