-- ==== Sys2Proof/Machine/YkScalar.lean ====
section
/-! DEFINITION. Scalar arithmetic, scalar memory, control flow and system registers of the kernel instruction set
(classes 0 to 3, R164–R168, R182, R188, R193). -/

namespace Sys2Proof.Machine
open Sys2Proof

/-! ### Class 0 (R164) -/

/-- x[D] = a function of x[A] and the second operand. -/
def aluInstr (r : YkRow) (g : BitVec 64 → BitVec 64 → BitVec 64) (t : Nat) (f : YkF) (s : State) :
    Host.Outcome State Fault Refusal :=
  actCore s (ykStep r t f (fun c => .go (c.modSeq t (fun q => wrX q f.d (g (rdX q f.a) (opB q f))))))

/-- Bits [5:0] of the shift operand. -/
def shAmt (b : BitVec 64) : Nat := b.toNat % 64

/-- 1 when the condition holds, else 0. -/
def bool64 (b : Bool) : BitVec 64 := if b then 1 else 0

/-- High 64 bits of a signed and of an unsigned product. -/
def mulhS (a b : BitVec 64) : BitVec 64 := BitVec.ofInt 64 (a.toInt * b.toInt / 2 ^ 64)
def mulhU (a b : BitVec 64) : BitVec 64 := BitVec.ofNat 64 (a.toNat * b.toNat / 2 ^ 64)

/-- Quotient rounded toward zero; division by zero gives all ones, and the most negative value divided by −1 the dividend. -/
def divS (a b : BitVec 64) : BitVec 64 := if b = 0 then BitVec.allOnes 64 else BitVec.ofInt 64 (a.toInt.tdiv b.toInt)
def divU (a b : BitVec 64) : BitVec 64 := if b = 0 then BitVec.allOnes 64 else BitVec.ofNat 64 (a.toNat / b.toNat)
/-- Remainder with the dividend's sign; division by zero gives the dividend, the overflow case 0. -/
def remS (a b : BitVec 64) : BitVec 64 := if b = 0 then a else BitVec.ofInt 64 (a.toInt.tmod b.toInt)
def remU (a b : BitVec 64) : BitVec 64 := if b = 0 then a else BitVec.ofNat 64 (a.toNat % b.toNat)

def execAdd (t : Nat) (f : YkF) (s : State) : Host.Outcome State Fault Refusal := aluInstr rowAdd (fun a b => a + b) t f s
def execSub (t : Nat) (f : YkF) (s : State) : Host.Outcome State Fault Refusal := aluInstr rowSub (fun a b => a - b) t f s
def execAnd (t : Nat) (f : YkF) (s : State) : Host.Outcome State Fault Refusal := aluInstr rowAnd (fun a b => a &&& b) t f s
def execOr (t : Nat) (f : YkF) (s : State) : Host.Outcome State Fault Refusal := aluInstr rowOr (fun a b => a ||| b) t f s
def execXor (t : Nat) (f : YkF) (s : State) : Host.Outcome State Fault Refusal := aluInstr rowXor (fun a b => a ^^^ b) t f s
def execSll (t : Nat) (f : YkF) (s : State) : Host.Outcome State Fault Refusal := aluInstr rowSll (fun a b => a <<< shAmt b) t f s
def execSrl (t : Nat) (f : YkF) (s : State) : Host.Outcome State Fault Refusal := aluInstr rowSrl (fun a b => a >>> shAmt b) t f s
def execSra (t : Nat) (f : YkF) (s : State) : Host.Outcome State Fault Refusal := aluInstr rowSra (fun a b => a.sshiftRight (shAmt b)) t f s
def execSlt (t : Nat) (f : YkF) (s : State) : Host.Outcome State Fault Refusal := aluInstr rowSlt (fun a b => bool64 (a.slt b)) t f s
def execSltu (t : Nat) (f : YkF) (s : State) : Host.Outcome State Fault Refusal := aluInstr rowSltu (fun a b => bool64 (a.ult b)) t f s
def execMin (t : Nat) (f : YkF) (s : State) : Host.Outcome State Fault Refusal := aluInstr rowMin (fun a b => if a.slt b then a else b) t f s
def execMax (t : Nat) (f : YkF) (s : State) : Host.Outcome State Fault Refusal := aluInstr rowMax (fun a b => if a.slt b then b else a) t f s
def execMinu (t : Nat) (f : YkF) (s : State) : Host.Outcome State Fault Refusal := aluInstr rowMinu (fun a b => if a.ult b then a else b) t f s
def execMaxu (t : Nat) (f : YkF) (s : State) : Host.Outcome State Fault Refusal := aluInstr rowMaxu (fun a b => if a.ult b then b else a) t f s
def execMul (t : Nat) (f : YkF) (s : State) : Host.Outcome State Fault Refusal := aluInstr rowMul (fun a b => a * b) t f s
def execMulh (t : Nat) (f : YkF) (s : State) : Host.Outcome State Fault Refusal := aluInstr rowMulh mulhS t f s
def execMulhu (t : Nat) (f : YkF) (s : State) : Host.Outcome State Fault Refusal := aluInstr rowMulhu mulhU t f s
def execDiv (t : Nat) (f : YkF) (s : State) : Host.Outcome State Fault Refusal := aluInstr rowDiv divS t f s
def execDivu (t : Nat) (f : YkF) (s : State) : Host.Outcome State Fault Refusal := aluInstr rowDivu divU t f s
def execRem (t : Nat) (f : YkF) (s : State) : Host.Outcome State Fault Refusal := aluInstr rowRem remS t f s
def execRemu (t : Nat) (f : YkF) (s : State) : Host.Outcome State Fault Refusal := aluInstr rowRemu remU t f s

/-- x[D] = IMM sign-extended. -/
def execLi (t : Nat) (f : YkF) (s : State) : Host.Outcome State Fault Refusal :=
  actCore s (ykStep rowLi t f (fun c => .go (c.modSeq t (fun q => wrX q f.d (f.imm.signExtend 64)))))

/-- IMM in [63:32]; bits [31:0] of x[D] are kept. -/
def execLih (t : Nat) (f : YkF) (s : State) : Host.Outcome State Fault Refusal :=
  actCore s (ykStep rowLih t f (fun c => .go (c.modSeq t (fun q => wrX q f.d (f.imm ++ (rdX q f.d).setWidth 32)))))

/-! ### Class 1 (R165, R305) -/

/-- The alignment and range checks of an access of `n` bytes at address `a`: LS_ALIGN, then LS_RANGE. -/
def scalarCheck (a n : Nat) (ok : YkRes) : YkRes :=
  if a % n ≠ 0 then .trap 4 (BitVec.ofNat 64 a) false
  else if lsSize ≤ a then .trap 5 (BitVec.ofNat 64 a) false
  else ok

/-- A load of `n` bytes, extended by `g`; from a poisoned word x[D] = 0 and LS_UE is pending (R305). -/
def loadInstr (r : YkRow) (n : Nat) (g : Nat → BitVec 64) (t : Nat) (f : YkF) (s : State) : Host.Outcome State Fault Refusal :=
  actCore s (ykStep r t f (fun c =>
    let x := c.tile t
    let a := addrA x.seq f
    scalarCheck a n (.go (
      if (poisonIn x a n).isEmpty then c.modSeq t (fun q => wrX q f.d (g (rdLE x.ls a n)))
      else countEvent 4 t 14 1 (some x.ptn) (c.setTile t (pendLsUe { x with seq := wrX x.seq f.d 0 } 1 a))))))

/-- A store of the low `n` bytes of x[D], performed before the next instruction issues. -/
def storeInstr (r : YkRow) (n : Nat) (t : Nat) (f : YkF) (s : State) : Host.Outcome State Fault Refusal :=
  actCore s (ykStep r t f (fun c =>
    let x := c.tile t
    let a := addrA x.seq f
    scalarCheck a n (.go (c.setTile t (poisonWrite { x with ls := wrLE x.ls a n (rdX x.seq f.d).toNat } a n false)))))

/-- Sign extension of the low `w` bits. -/
def sext (w v : Nat) : BitVec 64 := (BitVec.ofNat w v).signExtend 64

def execLb (t : Nat) (f : YkF) (s : State) : Host.Outcome State Fault Refusal := loadInstr rowLb 1 (sext 8) t f s
def execLh (t : Nat) (f : YkF) (s : State) : Host.Outcome State Fault Refusal := loadInstr rowLh 2 (sext 16) t f s
def execLw (t : Nat) (f : YkF) (s : State) : Host.Outcome State Fault Refusal := loadInstr rowLw 4 (sext 32) t f s
def execLd (t : Nat) (f : YkF) (s : State) : Host.Outcome State Fault Refusal := loadInstr rowLd 8 (BitVec.ofNat 64) t f s
def execLbu (t : Nat) (f : YkF) (s : State) : Host.Outcome State Fault Refusal := loadInstr rowLbu 1 (BitVec.ofNat 64) t f s
def execLhu (t : Nat) (f : YkF) (s : State) : Host.Outcome State Fault Refusal := loadInstr rowLhu 2 (BitVec.ofNat 64) t f s
def execLwu (t : Nat) (f : YkF) (s : State) : Host.Outcome State Fault Refusal := loadInstr rowLwu 4 (BitVec.ofNat 64) t f s
def execSb (t : Nat) (f : YkF) (s : State) : Host.Outcome State Fault Refusal := storeInstr rowSb 1 t f s
def execSh (t : Nat) (f : YkF) (s : State) : Host.Outcome State Fault Refusal := storeInstr rowSh 2 t f s
def execSw (t : Nat) (f : YkF) (s : State) : Host.Outcome State Fault Refusal := storeInstr rowSw 4 t f s
def execSd (t : Nat) (f : YkF) (s : State) : Host.Outcome State Fault Refusal := storeInstr rowSd 8 t f s

/-! ### Class 2 (R166, R167) -/

/-- Compare x[A] with x[B]; if true, go to PC + IMM. -/
def branchInstr (r : YkRow) (g : BitVec 64 → BitVec 64 → Bool) (t : Nat) (f : YkF) (s : State) :
    Host.Outcome State Fault Refusal :=
  actCore s (ykStep r t f (fun c =>
    let q := (c.tile t).seq
    if g (rdX q f.a) (rdX q f.b) then .jump c (q.pc + f.imm.signExtend 64) else .go c))

def execBeq (t : Nat) (f : YkF) (s : State) : Host.Outcome State Fault Refusal := branchInstr rowBeq (fun a b => a == b) t f s
def execBne (t : Nat) (f : YkF) (s : State) : Host.Outcome State Fault Refusal := branchInstr rowBne (fun a b => a != b) t f s
def execBlt (t : Nat) (f : YkF) (s : State) : Host.Outcome State Fault Refusal := branchInstr rowBlt (fun a b => a.slt b) t f s
def execBge (t : Nat) (f : YkF) (s : State) : Host.Outcome State Fault Refusal := branchInstr rowBge (fun a b => !(a.slt b)) t f s
def execBltu (t : Nat) (f : YkF) (s : State) : Host.Outcome State Fault Refusal := branchInstr rowBltu (fun a b => a.ult b) t f s
def execBgeu (t : Nat) (f : YkF) (s : State) : Host.Outcome State Fault Refusal := branchInstr rowBgeu (fun a b => !(a.ult b)) t f s

/-- x[D] = PC + 8; go to PC + IMM. -/
def execJal (t : Nat) (f : YkF) (s : State) : Host.Outcome State Fault Refusal :=
  actCore s (ykStep rowJal t f (fun c =>
    let q := (c.tile t).seq
    .jump (c.modSeq t (fun q => wrX q f.d (q.pc + 8))) (q.pc + f.imm.signExtend 64)))

/-- x[D] = PC + 8; go to x[A] + IMM with bit 0 cleared. -/
def execJalr (t : Nat) (f : YkF) (s : State) : Host.Outcome State Fault Refusal :=
  actCore s (ykStep rowJalr t f (fun c =>
    let q := (c.tile t).seq
    .jump (c.modSeq t (fun q => wrX q f.d (q.pc + 8))) ((rdX q f.a + f.imm.signExtend 64) &&& ~~~1#64)))

/-- Every channel is idle or halted: none that is not halted holds a descriptor or an outstanding line. -/
def dmaQuiet (x : Tile) : Bool := x.chans.all (fun e => e.2.halted || e.2.quiet)

/-- HALT waits until the array and vector queues are empty, every DMA channel idle or halted and every sync operation acknowledged; then it
halts the sequencer and the work item is complete, with x10 for the record of cluster index 0 (R193, R237). -/
def execHalt (t : Nat) (f : YkF) (s : State) : Host.Outcome State Fault Refusal :=
  actCore s (ykStep rowHalt t f (fun c =>
    let x := c.tile t
    if !x.vec.vecQ.isEmpty then .stay (vecWait t c)
    else if x.vec.arrayQ.isEmpty && dmaQuiet x && x.seq.unacked.isEmpty && x.seq.sread.isNone then
      .go (c.setTile t { x with
        seq := { x.seq with st := .halted },
        work := x.work.map (fun w => if w.status.isSome then w
          else { w with status := some (0, 0, if w.ci = 0 then rdX x.seq 10 else 0) }) })
    else .stay c))

def execNop (t : Nat) (f : YkF) (s : State) : Host.Outcome State Fault Refusal :=
  actCore s (ykStep rowNop t f (fun c => .go c))

/-- Raise SOFTWARE with TINFO = IMM, zero-extended, and TPC = the next instruction (R187). -/
def execTrapi (t : Nat) (f : YkF) (s : State) : Host.Outcome State Fault Refusal :=
  actCore s (ykStep rowTrapi t f (fun _ => .trap 11 (f.imm.setWidth 64) true))

/-- Clear IN_TRAP and continue at TPC (R188). -/
def execTret (t : Nat) (f : YkF) (s : State) : Host.Outcome State Fault Refusal :=
  actCore s (ykStep rowTret t f (fun c =>
    .jump (c.modSeq t (fun q => { q with inTrap := false })) (c.tile t).seq.tpc))

/-- A FENCE that names the vector unit waits for it: more than LEFT of its operations are in the queue (R182). -/
def fenceVec (x : Tile) (f : YkF) : Bool := f.imm.getLsbD 0 && decide (field f.imm 12 8 < x.vec.vecQ.length)

/-- The operations of the other units that IMM[4:0] names which are incomplete are at most LEFT, per queue and per channel (R182). The model
prefetches nothing. -/
def fenceMet (x : Tile) (f : YkF) : Bool :=
  let left := field f.imm 12 8
  (!(f.imm.getLsbD 1) || decide (x.vec.arrayQ.length ≤ left)) &&
  (!(f.imm.getLsbD 2) || x.chans.all (fun e => decide (e.2.queue.length + e.2.run.length ≤ left))) &&
  (!(f.imm.getLsbD 3) || decide (x.seq.unacked.length ≤ left))

def execFence (t : Nat) (f : YkF) (s : State) : Host.Outcome State Fault Refusal :=
  actCore s (ykStep rowFence t f (fun c =>
    if fenceVec (c.tile t) f then .stay (vecWait t c) else if fenceMet (c.tile t) f then .go c else .stay c))

/-! ### Class 3 (R161, R168) -/

/-- A system register's value, if the number is listed. CYCLE advances by a free amount whenever it is read (log 7). -/
def sysRead (x : Tile) (cycle : BitVec 64) (n : Nat) : Option (BitVec 64) :=
  let q := x.seq
  if n = 0x000 then some cycle
  else if n = 0x001 then some (BitVec.ofNat 64 x.logical)
  else if n = 0x002 then some (BitVec.ofNat 64 x.ptn)
  else if n = 0x010 then some (q.fflags.setWidth 64)
  else if n = 0x011 then some q.satcnt
  else if n = 0x020 then some q.tvec
  else if n = 0x021 then some (q.tcause.setWidth 64)
  else if n = 0x022 then some q.tpc
  else if n = 0x023 then some q.tinfo
  else if n = 0x024 then some (tstatus q)
  else if n = 0x030 then some (BitVec.ofNat 64 ((x.chans.filter (fun e => e.2.halted)).foldl (fun a e => a + 2 ^ e.1) 0))
  else none

/-- x[D] = a system register; an unlisted number raises ILLEGAL. -/
def execSrr (t : Nat) (f : YkF) (s : State) : Host.Outcome State Fault Refusal :=
  actCore s (ykStep rowSrr t f (fun c =>
    let n := field f.imm 11 0
    let (v, c') := if n = 0 then c.free else (0, c)
    let cyc := (c.tile t).seq.cycle + v.setWidth 64
    match sysRead (c.tile t) cyc n with
    | some r => .go (c'.modSeq t (fun q => wrX { q with cycle := cyc } f.d r))
    | none => .trap 1 (rowSrr.word f) false))

/-- A write of a RW system register; another number raises ILLEGAL. -/
def sysWrite (q : Seq) (n : Nat) (v : BitVec 64) : Option Seq :=
  if n = 0x010 then some { q with fflags := v.setWidth 5 }
  else if n = 0x011 then some { q with satcnt := v }
  else if n = 0x020 then some { q with tvec := v }
  else if n = 0x022 then some { q with tpc := v }
  else none

def execSrw (t : Nat) (f : YkF) (s : State) : Host.Outcome State Fault Refusal :=
  actCore s (ykStep rowSrw t f (fun c =>
    let q := (c.tile t).seq
    match sysWrite q (field f.imm 11 0) (rdX q f.a) with
    | some q' => .go (c.modSeq t (fun _ => q'))
    | none => .trap 1 (rowSrw.word f) false))

/-! ### ILLEGAL (R163) and ASYNC_TRAP (R189) -/

/-- The tile fetches a word that no row lists: ILLEGAL with TINFO = the word. The word of a listed instruction is that
instruction's own command, and has no effect here. -/
def fxIllegal (t : Nat) (w : BitVec 64) (c : Core) : Core :=
  let x := c.tile t
  let pc := x.seq.pc
  if !tileIssues c t then c
  else if asyncPending x.seq && !x.seq.inTrap then takeAsync t c
  else if pc.toNat % 8 ≠ 0 then takeTrap t 2 false pc pc c
  else if lsSize ≤ pc.toNat then takeTrap t 3 false pc pc c
  else if x.lsPoison.contains (pc.toNat / 64) then takeTrap t 12 false pc pc c
  else if (ykDecode w).isNone then takeTrap t 1 false w pc c
  else c

def execIllegal (t : Nat) (w : BitVec 64) (s : State) : Host.Outcome State Fault Refusal := actCore s (fxIllegal t w)

/-- The boundary at which a pending asynchronous cause is taken: the sequencer is not in a handler, and runs or waits. -/
def fxAsyncTrap (t : Nat) (c : Core) : Core :=
  let x := c.tile t
  let waiting := decide (x.seq.st = .waiting) && decide (x.power = .active) && !x.resetting && !c.stopped t && !frozenChip c &&
    (decide (c.ust 4 t = .serving) || decide (c.ust 4 t = .draining))
  if (tileIssues c t || waiting) && asyncPending x.seq && !x.seq.inTrap then takeAsync t c else c

def execAsyncTrap (t : Nat) (s : State) : Host.Outcome State Fault Refusal := actCore s (fxAsyncTrap t)

end Sys2Proof.Machine
end

