-- ==== Sys2Proof/Machine/Pool.lean ====
section
/-! DEFINITION. Command rings, the fetch of descriptors, the start of commands, work items, reports, completion records and the command timer
(R192, R195–R197, R201–R209, R221–R230). -/

namespace Sys2Proof.Machine
open Sys2Proof

/-! ### Ring pages (R203–R208) -/

/-- Slots of a ring. -/
def Ring.size (x : Ring) : Nat := 2 ^ field x.ctrl 8 4

/-- A region lies in one VALID extent of TYPE uncached (R204). -/
def inUncached (c : Core) (p base n : Nat) : Bool :=
  let x := c.masterExt p (base / 2 ^ 30)
  decide (base / 2 ^ 30 < 896) && x.valid && decide (x.typ = 2) && decide (base % 2 ^ 30 + n ≤ 2 ^ 30)

/-- A write to CTRL (R204, R205). -/
def ringCtrl (c : Core) (p : Nat) (w : BitVec 32) (x : Ring) : Option Ring :=
  if x.st = .disabled then
    let x := { x with ctrl := w &&& 0x01FF01F0 }
    if !w.getLsbD 0 then some x
    else
      let lg := field w 8 4
      if 4 ≤ lg ∧ lg ≤ 16 ∧ inUncached c p x.cmdBase.toNat (2 ^ lg * 128) ∧ inUncached c p x.cplBase.toNat (2 ^ lg * 32) then
        some { x with ctrl := w &&& 0x01FF01F1, tail := 0, head := 0, done := 0, cplAck := 0, stop := 0, st := .running }
      else none
  else if !w.getLsbD 0 then
    some { x with ctrl := x.ctrl &&& ~~~1#32, st := if x.st = .running then .draining else x.st }
  else some x

/-- A write to a base register, by its offset in the page. -/
def ringBase (off : Nat) (w : BitVec 32) (x : Ring) : Option Ring :=
  if x.st ≠ .disabled then none
  else
    let lo (b : BitVec 40) : BitVec 40 := BitVec.ofNat 40 (b.toNat / 2 ^ 32 * 2 ^ 32 + w.toNat / 128 * 128)
    let hi (b : BitVec 40) : BitVec 40 := BitVec.ofNat 40 (b.toNat % 2 ^ 32 + w.toNat % 256 * 2 ^ 32)
    if off = 0x08 then some { x with cmdBase := lo x.cmdBase }
    else if off = 0x0C then some { x with cmdBase := hi x.cmdBase }
    else if off = 0x10 then some { x with cplBase := lo x.cplBase }
    else if off = 0x14 then some { x with cplBase := hi x.cplBase }
    else some x

/-- accept_tail of R206. -/
def acceptTail (x : Ring) (t : BitVec 32) : Bool := decide ((t - x.head).toNat ≤ x.size) && decide ((t - x.tail).toNat < 0x80000000)

def ringTail (t : BitVec 32) (x : Ring) : Option Ring :=
  if x.st ≠ .disabled ∧ (t = x.tail ∨ acceptTail x t) then some { x with tail := t } else none

/-- CPL_ACK moves up to DONE (R208). -/
def ringAck (t : BitVec 32) (x : Ring) : Option Ring :=
  if x.st ≠ .disabled ∧ (t - x.cplAck).toNat ≤ (x.done - x.cplAck).toNat then some { x with cplAck := t } else none

/-- A register of a ring page, by its offset, takes a word; none when it refuses it. -/
def ringReg (c : Core) (p s : Nat) (w : BitVec 32) (x : Ring) : Option Ring :=
  if s = 0x00 then ringCtrl c p w x
  else if s = 0x04 then some { x with tmo := w &&& 0xFFFF }
  else if s = 0x08 ∨ s = 0x0C ∨ s = 0x10 ∨ s = 0x14 then ringBase s w x
  else if s = 0x20 then ringTail w x
  else if s = 0x2C then ringAck w x
  else some x

/-- The offsets of a ring page that hold a register (R202). -/
def isRingReg (s : Nat) : Bool := decide (s % 4 = 0) && decide (s < 0x38) && decide (s ≠ 0x18) && decide (s ≠ 0x1C)

/-- One register of a write, and whether any has refused: a refused CTRL sets STOP = RING_REGION (R204). -/
def ringTake (p r : Nat) (x : Core × Bool) (k : Nat × BitVec 32 × Bool) : Core × Bool :=
  match ringReg x.1 p k.1 k.2.1 (x.1.ringOf p r) with
  | some y => (modRing p r (fun _ => y.settled) x.1, x.2)
  | none => (if k.1 = 0 then modRing p r (fun y => { y with stop := 1 }) x.1 else x.1, true)

/-- A write to a ring page: the words that it touches, by offset, with whether all four bytes are enabled. One that enables part of a register
or comes from a group that may not write is refused whole; the registers are taken in ascending order, and there is one answer (R203). -/
def ringRegs (p r : Nat) (o : Origin) (ws : List (Nat × BitVec 32 × Bool)) (c : Core) : Core :=
  let rs := ws.filter (fun k => isRingReg k.1)
  if rs.any (fun k => !k.2.2) || (!rs.isEmpty && !ringMayWrite c (c.ringOf p r) o) then ringRefuse p r o c
  else
    let (c, bad) := rs.foldl (ringTake p r) (c, false)
    if bad then ringRefuse p r o c else c.answer o p 0 { op := opCmp }

/-- A host's write to one register of a ring page, at its dispatcher's edge unit. -/
def ringWrite (a : RingAddr) (s : Nat) (w : BitVec 32) (c : Core) : Core :=
  if !c.works 8 (a.p / 2) ∨ !windowUser c a.p a.o ∨ 16 ≤ a.r then c else ringRegs a.p a.r a.o [(s, w, a.whole)] c

def execRingCtrlWrite (a : RingAddr) (w : BitVec 32) (s : State) : Host.Outcome State Fault Refusal := actCore s (ringWrite a 0x00 w)
def execRingBaseWrite (a : RingAddr) (off : BitVec 8) (w : BitVec 32) (s : State) : Host.Outcome State Fault Refusal :=
  actCore s (ringWrite a (if off = 0x0C ∨ off = 0x10 ∨ off = 0x14 then off.toNat else 0x08) w)
def execRingTailWrite (a : RingAddr) (x : BitVec 32) (s : State) : Host.Outcome State Fault Refusal := actCore s (ringWrite a 0x20 x)
def execRingCplAckWrite (a : RingAddr) (x : BitVec 32) (s : State) : Host.Outcome State Fault Refusal := actCore s (ringWrite a 0x2C x)

/-! ### Fetching (R207, R209, R221) -/

/-- The ring has a descriptor to fetch and a free record slot for it. -/
def Ring.fetches (x : Ring) : Bool :=
  decide (x.st = .running) && decide (x.tail ≠ x.head) && decide ((x.head - x.cplAck).toNat < x.size)

/-- The ring whose turn it is. -/
def nextRing (c : Core) (p : Nat) : Option Nat :=
  if !dispatches c p ∨ (c.ptn p).hostsFenced ∨ 64 ≤ ((c.ptn p).cmds.filter (fun k => decide (k.phase < 3))).length then none
  else ((List.range 16).map (fun i => ((c.ptn p).turn + 1 + i) % 16)).find? (fun r => (c.ringOf p r).fetches)

/-- The slot of a ring's descriptor HEAD, the record slot of index DONE. -/
def Ring.slotPla (x : Ring) : Nat := x.cmdBase.toNat + x.head.toNat % x.size * 128
def Ring.recordPla (x : Ring) : Nat := x.cplBase.toNat + x.done.toNat % x.size * 32

/-- RING_STOPPED; the records of its commands that are still to be written are discarded (R209). -/
def stopRing (p r : Nat) (stop : BitVec 4) (idx : BitVec 32) (c : Core) : Core :=
  let c := modRing p r (fun x => { x with stop := stop, errIndex := idx, st := .stopped }.settled) (dropCmds p r (fun k => decide (k.phase = 3)) c)
  logE 0x0701 8 (p / 2) (some p) [(5, p), (4, r), (4, stop.toNat), (32, idx.toNat)] c

/-- DESCRIPTOR_FETCH: the slot is read and HEAD incremented. A poisoned descriptor and one of an unlisted TYPE fail at once (R220 orders 1, 2). -/
def fxFetch (p : Nat) (c : Core) : Core :=
  match nextRing c p with
  | none => c
  | some r =>
    let x := c.ringOf p r
    match dispAccess c p (readReq x.slotPla 0 0 0) with
    | some (.ok (e, l)) =>
      let (d, bad) := c.rdPool e l
      let c := touchLine e l p false c
      let k : Cmd := { r := r, idx := x.head, desc := d }
      let c := modRing p r (fun x => { x with head := x.head + 1, inFlight := x.inFlight + 1 }) c
      let c := progress p (c.modPtn p (fun q => { q with cmds := q.cmds ++ [k], turn := r }))
      if bad then failCmd p k 0x15 0 x.slotPla c
      else if cType d = 0 ∨ 8 < cType d then failCmd p k 0x10 0 0 c
      else c
    | _ => c

/-- DESCRIPTOR_READ_REFUSED. -/
def fxFetchRefused (p : Nat) (c : Core) : Core :=
  match nextRing c p with
  | none => c
  | some r =>
    let x := c.ringOf p r
    match dispAccess c p (readReq x.slotPla 0 0 0) with
    | some (.error _) => stopRing p r 2 x.head (c.modPtn p (fun q => { q with turn := r }))
    | _ => c

def execDescriptorFetch (p : Nat) (s : State) : Host.Outcome State Fault Refusal := actCore s (fxFetch p)
def execDescriptorReadRefused (p : Nat) (s : State) : Host.Outcome State Fault Refusal := actCore s (fxFetchRefused p)

/-! ### Starting (R221–R223, R225) -/

/-- Serving clusters of the partition in the command's fields, by logical number. -/
def availTiles (c : Core) (p : Nat) (d : Line) : List Nat :=
  (ptnTiles c p).filter (fun t => decide (c.ust 4 t = .serving) && (decide (cFields d = 0) || decide (cFields d / 2 ^ tileField t % 2 = 1)))

/-- The cluster has no work item and no reset runs on it. -/
def idleTile (c : Core) (t : Nat) : Bool := (c.tile t).work.isNone && !(c.tile t).resetting

/-- Units of a built-in operation (R225). -/
def unitsOf (d : Line) (lens : List Nat) : Nat :=
  let k := cType d
  if k = 1 ∨ k = 4 ∨ k = 5 then ceilDiv (dword d 5).toNat 65536
  else if k = 2 then ceilDiv (field (dword d 7) 23 0) 64
  else if k = 3 then ((lens.map (fun l => ceilDiv l 4096)).sum) * (attShape d).kvh
  else ceilDiv ((dword d 4).toNat * field (dword d 5) 23 0) 0x100000

/-- The cluster count of R223. An ATTEND whose sequences are all empty still has rows to write, by one cluster. -/
def clusterCount (d : Line) (lens : List Nat) (maxC avail : Nat) : Nat :=
  let n := if cNclus d = 0 then avail else cNclus d
  let n := if cType d = 8 ∧ maxC ≠ 0 then min n maxC else n
  let n := min n avail
  if cType d = 8 then n else if cType d = 3 then min n (max 1 (unitsOf d lens)) else min n (unitsOf d lens)

/-- The lines of an ATTEND's sequence table that the dispatcher has not read yet. -/
def tableMissing (k : Cmd) : Option Nat :=
  let t := refAt k.desc 12
  let n := (attShape k.desc).seqs
  ((List.range ((t.pla + 16 * n - 1) / 128 - t.pla / 128 + 1)).map (· + t.pla / 128)).find? (fun l => (tget none (lineNo t.pleat l) k.buf).isNone)

/-- The LENs of a sequence table read whole; an entry in a poisoned line counts as empty here, and cluster 0, which reads it again for its
rows, reports the poison (R236). -/
def tableLens (k : Cmd) : List Nat :=
  let t := refAt k.desc 12
  (List.range (attShape k.desc).seqs).map (fun s => match bufCtl k.buf t.pleat (t.pla + 16 * s) 4 with
    | .ok v => v
    | .error _ => 0)

/-- The dispatcher asks for a line of the table. -/
def askTable (p : Nat) (k : Cmd) (line : Nat) (c : Core) : Core :=
  let t := refAt k.desc 12
  match c.poolPlace p (line * 128) with
  | none => failCmd p k 0x30 0 (line * 128) c
  | some (e, _) =>
    (modCmd p k.r k.idx (fun k => { k with asked := true }) c).send
      (.toHome e { dispOrigin p with chan := t.pleat } (readReq (line * 128) (cClass k.desc) (cHint k.desc) t.pleat))

/-- The tile takes a work item; a gated or parked cluster wakes. -/
def giveWork (p : Nat) (k : Cmd) (n : Nat) (t ci : Nat) (c : Core) : Core :=
  let c := c.modTile t (fun x => { x with
    work := some { p := p, r := k.r, idx := k.idx, ci := ci, count := n, kernel := decide (cType k.desc = 8), desc := k.desc, lens := k.lens.getD [],
                   hdr := k.hdr, peers := k.clusters }
    waking := x.waking || decide (x.power = .gated) || decide (x.power = .parked) })
  c.send (.workItem t p k.r k.idx)

/-- The command starts once its ORDER condition holds and its clusters are idle. -/
def tryStart (p : Nat) (k : Cmd) (n : Nat) (c : Core) : Core :=
  let before := (c.ptn p).cmds.takeWhile (fun x => !(decide (x.r = k.r) && decide (x.idx = k.idx)))
  let idle := (availTiles c p k.desc).filter (idleTile c)
  let c := modCmd p k.r k.idx (fun _ => k) c
  if (cOrder k.desc && before.any (fun x => decide (x.r = k.r) && decide (x.phase < 3))) ∨ idle.length < n then c
  else
    let ts := idle.take n
    let k := { k with phase := 2, clusters := ts, tmo := field (c.ringOf p k.r).tmo 15 0 }
    let c := modCmd p k.r k.idx (fun _ => k) c
    if n = 0 then endCmd p k c
    else (List.range n).foldl (fun c i => giveWork p k n (ts.getD i 0) i c) c

/-- COMMAND_START at the head of the start queue. -/
def fxStart (p : Nat) (c : Core) : Core :=
  if !dispatches c p then c
  else match (c.ptn p).cmds.find? (fun k => decide (k.phase ≤ 1)) with
    | none => c
    | some k =>
      if k.phase = 0 then c
      else match k.n with
        | some n => tryStart p k n c
        | none =>
          let avail := availTiles c p k.desc
          if avail.isEmpty then failCmd p k 0x18 0 0 c
          else match k.refused with
            | some (f, pla) => failCmd p k (statusOfFault f.toNat) 0 pla.toNat c
            | none =>
              match (if cType k.desc = 3 then tableMissing k else none) with
              | some l => if k.asked then c else askTable p k l c
              | none =>
                let lens := if cType k.desc = 3 then tableLens k else []
                let n := clusterCount k.desc lens k.maxC avail.length
                if cType k.desc = 8 ∧ n < k.minC then kernelRefused p k 0x25 c
                else tryStart p { k with n := some n, lens := some lens, buf := [] } n c

def execCommandStart (p : Nat) (s : State) : Host.Outcome State Fault Refusal := actCore s (fxStart p)

/-! ### Work items (R192, R195, R196, R226) -/

/-- The load of a KERNEL's binary begins: its text and data are read line by line by the cluster's own DMA (R195); every channel is idle with
DONE = 0. -/
def beginLoad (t : Nat) (w : Work) (c : Core) : Core :=
  let bin := (refAt w.desc 4).pla
  let h := w.hdr
  c.modTile t (fun x => { x with
    chans := []
    seq := { x.seq with st := .halted }
    work := some { w with
      started := true, loading := true
      toLoad := loadChunks (bin + hdr h 4) (hdr h 5) (hdrA h 6) ++ loadChunks (bin + hdr h 7) (hdr h 8) (hdrA h 9) } })

/-- WORK_ITEM: a kernel's load begins; for a built-in operation the channels are idle, and what it leaves in the local store and the registers is
free (log 6). -/
def fxWorkItem (t : Nat) (c : Core) : Core :=
  let x := c.tile t
  match x.work with
  | none => c
  | some w =>
    if w.started ∨ w.status.isSome ∨ x.power ≠ .active ∨ x.resetting ∨ c.ust 4 t ≠ .serving ∨ frozenChip c ∨ c.stopped t then c
    else if w.kernel then beginLoad t w c
    else
      let y := tileFromOff t x
      { c with fresh := c.fresh + 1 }.setTile t { y with work := some { w with started := true, seed := c.fresh } }

def execWorkItem (t : Nat) (s : State) : Host.Outcome State Fault Refusal := actCore s (fxWorkItem t)

/-! ### Aborting (R228): what a share has issued is written, the rest is not -/

/-- The command's clusters that have not ended stop: a share issues no more, a kernel drains as in the trapped state without KERNEL_TRAP. -/
def abortCmd (p : Nat) (k : Cmd) (c : Core) : Core :=
  forEach k.clusters (fun t c =>
    match (c.tile t).work with
    | some w =>
      if w.p = p ∧ w.r = k.r ∧ w.idx = k.idx ∧ w.status.isNone then
        let x := c.tile t
        let c := match x.seq.wait with
          | some (o, _, _) => if w.kernel then c.send (.sync ⟨7, o, x.logical, 0, false, false, 0, 0⟩) else c
          | none => c
        (c.modTile t (fun x => { x with
          work := some { w with status := some (0, 0, 0), told := true }
          seq := if w.kernel then { x.seq with st := .trapped, wait := none } else x.seq })).send (.abortWork t)
      else c
    | none => c) c

/-! ### Reports (R227, R228, R230) -/

/-- The outcome of a command whose clusters have all reported. -/
def settleCmd (p : Nat) (k : Cmd) (c : Core) : Core :=
  if k.reported.length < k.clusters.length then c
  else
    let d64 : BitVec 64 := if cType k.desc = 8 then k.detail64 else BitVec.ofNat 64 (k.saturated % 2 ^ 32 + k.nonfinite % 2 ^ 32 * 2 ^ 32)
    let k := if k.failed then k
      else if 0 < k.poisonedOut ∨ k.kpoison then { k with status := 1, detail := BitVec.ofNat 32 k.poisonedOut, detail64 := d64 }
      else { k with status := 0, detail := 0, detail64 := d64 }
    endCmd p k c

/-- The cluster has nothing outstanding. -/
def workIdle (x : Tile) : Bool := decide (linesOut x = 0) && (!x.work.any (fun w => w.kernel) || (x.vec.arrayQ.isEmpty && x.vec.vecQ.isEmpty && dmaQuiet x))

/-- The failure that a work item reports, taken once: the first one of a command fixes its status. -/
def takeFailure (t : Nat) (w : Work) (k : Cmd) (c : Core) : Core :=
  match w.status with
  | none => c
  | some (st, detail, d64) =>
    let c := modWork t (fun w => { w with told := true }) c
    if w.told ∨ st = 0 ∨ k.failed then c
    else abortCmd w.p k (modCmd w.p k.r k.idx (fun k => { k with status := st, failed := true, detail := detail, detail64 := d64 }) c)

/-- CLUSTER_REPORT: a failure is taken at once, and the cluster is done with the command once it is idle. A cluster that a partition freeze
fenced reports CLUSTER_FAILED (R230, R543); a Fenced or Failed cluster is done with the command at once. -/
def fxReport (t : Nat) (c : Core) : Core :=
  match (c.tile t).work with
  | none => c
  | some w =>
    let gone := decide (c.ust 4 t = .fenced) || decide (c.ust 4 t = .failed)
    let c := if gone && c.works 8 (w.p / 2) then clusterLost t c else c
    let w := (c.tile t).work.getD w
    if w.status.isNone ∨ !c.works 8 (w.p / 2) then c
    else match c.cmdOf w with
      | none => if gone || workIdle (c.tile t) then c.modTile t (fun x => { x with work := none }) else c
      | some k =>
        let c := takeFailure t w k c
        if !(gone || workIdle (c.tile t)) then c
        else
          let c := c.modTile t (fun x => { x with work := none })
          match c.cmdOf w with
          | none => c
          | some k =>
            let k := { k with
              reported := k.reported ++ [w.ci], poisonedOut := k.poisonedOut + w.poisonedOut, saturated := k.saturated + w.sat,
              nonfinite := k.nonfinite + w.nonf, kpoison := k.kpoison || (w.kernel && w.gotPoison)
              detail64 := match w.status with
                | some (0, _, x10) => if w.kernel && decide (w.ci = 0) && !k.failed then x10 else k.detail64
                | _ => k.detail64 }
            settleCmd w.p k (modCmd w.p k.r k.idx (fun _ => k) c)

def execClusterReport (t : Nat) (s : State) : Host.Outcome State Fault Refusal := actCore s (fxReport t)

/-- COMMAND_TIMEOUT (R229). -/
def fxCommandTimeout (p r : Nat) (idx : BitVec 32) (c : Core) : Core :=
  match (c.ptn p).cmds.find? (fun k => decide (k.r = r ∧ k.idx = idx)) with
  | none => c
  | some k =>
    if !dispatches c p ∨ k.phase ≠ 2 ∨ k.tmo = 0 then c
    else
      let c := logE 0x0703 8 (p / 2) (some p) [(5, p), (4, r), (32, idx.toNat)] c
      let c := modCmd p r idx (fun k => { k with tmo := 0 }) c
      let c := if k.failed then c else modCmd p r idx (fun k => { k with status := 0x41, failed := true, detail := 0, detail64 := 0 }) c
      abortCmd p k c

def execCommandTimeout (p r : Nat) (idx : BitVec 32) (s : State) : Host.Outcome State Fault Refusal := actCore s (fxCommandTimeout p r idx)

/-! ### Completion records (R208, R209, R227) -/

/-- The eight words of a record, least first. -/
def recordWords (x : Ring) (k : Cmd) : List (BitVec 32) :=
  let phase := 1 - x.done.toNat / x.size % 2
  [BitVec.ofNat 32 (k.status.toNat + cType k.desc * 2 ^ 8 + k.r * 2 ^ 12 + phase * 2 ^ 16 + (if 0 < k.poisonedOut then 2 ^ 17 else 0)),
   k.idx, dword k.desc 2, dword k.desc 3, BitVec.ofNat 32 k.clusters.length, k.detail, k.detail64.setWidth 32, BitVec.ofNat 32 (k.detail64.toNat / 2 ^ 32)]

/-- The write of a record: WrPart of its 32 bytes in the command's CLASS. -/
def recordReq (x : Ring) (k : Cmd) : Req :=
  let a := x.recordPla
  { readReq a (cClass k.desc) (cHint k.desc) 0 with
    op := 0x09, mask := chunkMask (a % 128) 32, data := BitVec.ofNat 1024 (packWords ((recordWords x k).map (fun w => w.toNat)) * 2 ^ (8 * (a % 128))) }

/-- The ended command whose record comes next. -/
def nextRecord (c : Core) (p : Nat) : Option Cmd :=
  (c.ptn p).ended.findSome? (fun j => (c.ptn p).cmds.find? (fun k => decide (k.r = j.1 ∧ k.idx = j.2)))

/-- RECORD_WRITE_ANSWER: the record is in the pool, DONE advances and the signal is sent; a refused write stops the ring. -/
def fxRecord (p : Nat) (refused : Bool) (c : Core) : Core :=
  if !dispatches c p then c
  else match nextRecord c p with
    | none => c
    | some k =>
      let x := c.ringOf p k.r
      match dispAccess c p (recordReq x k) with
      | none => c
      | some (.error _) => if refused then stopRing p k.r 3 x.done c else c
      | some (.ok (e, l)) =>
        if refused then c
        else
          let q := recordReq x k
          let c := stMasked e l p q.data q.mask false c
          let c := dropCmds p k.r (fun j => decide (j.idx = k.idx)) (modRing p k.r (fun x => { x with done := x.done + 1 }) c)
          let obj := cObj k.desc
          let y := c.ptn p
          let c := if cSigEn k.desc && decide (y.syncBase ≤ obj) && decide (obj < y.syncBase + y.syncCount) then
              c.send (.sync ⟨12, obj, p, 0, false, false, 0, 0⟩) else c
          progress p c

def execRecordWriteAnswer (p : Nat) (refused : Bool) (s : State) : Host.Outcome State Fault Refusal := actCore s (fxRecord p refused)

end Sys2Proof.Machine
end

