-- ==== Sys2Proof/Machine/Tick.lean ====
section
/-! DEFINITION. The always-on tick: EVC_TICK and the grant-expiry counts (R50, R54, R531). -/

namespace Sys2Proof.Machine
open Sys2Proof

/-- One millisecond off a running expiry count; it stays at 1 until GRANT_EXPIRY takes it (R54). -/
def countDown (x : Ext) : Ext := if 1 < x.ms then { x with ms := x.ms - 1 } else x

/-- What the mesh and the clusters have had time for since the last tick, in as far as the model lets time pass: the nack queues empty
(R73), and the vector queues run dry (R139). A chip whose clocks stand still stays as it is (log 151). -/
def timePasses (c : Core) : Core :=
  if frozenChip c then c
  else
    let c := forEach (c.homes.map Prod.fst) (fun e c => c.modHome e (fun h => { h with nackQ := 0 })) c
    forEach (c.tiles.map Prod.fst) (fun t c => c.modTile t (fun x => { x with vec := { x.vec with vecQ := [] } })) c

/-- One always-on tick: EVC_TICK counts; each 25,000 ticks are one millisecond of every grant's expiry. A chip without power or in
reset, one whose RST_CHIP reset is not yet released among them, counts nothing. -/
def fxTick (c : Core) : Core :=
  if !c.pins.powered ∨ !c.pins.resetN ∨ !c.glb.idValid then c
  else
    let t := c.evc.tick + 1
    let c := timePasses { c with evc := { c.evc with tick := t } }
    if t.toNat % 25000 = 0 then
      { c with ptns := c.ptns.map (fun e => (e.1, { e.2 with ext := e.2.ext.map (fun x => (x.1, countDown x.2)) })) }
    else c

def alwaysOnTick (s : State) : Host.Outcome State Fault Refusal := actCore s fxTick

end Sys2Proof.Machine
end

