-- ==== Sys2Proof/Machine/Window.lean ====
section
/-! DEFINITION. Writes to the tenant window at their edge unit (R46, R47, R103, R104, R203, R256, R257, R469), and REGISTER_WRITE (R6, R481). -/

namespace Sys2Proof.Machine
open Sys2Proof

/-! ### The words and bytes that a write enables -/

/-- The mask bits of `n` bytes from byte `lo` on. -/
def maskBits (mask : BitVec 128) (lo n : Nat) : Nat := mask.toNat / 2 ^ lo % 2 ^ n

/-- The words of the line at `off` that a write touches, in ascending order: offset, value, and whether all four bytes are enabled. -/
def writtenWords (off : Nat) (q : Req) : List (Nat × BitVec 32 × Bool) :=
  (List.range 32).filterMap (fun i =>
    let m := maskBits q.mask (4 * i) 4
    if m = 0 then none else some (off + 4 * i, dword q.data i, decide (m = 15)))

/-! ### Views of objects and regions -/

/-- A host operation on an object (R256): OP, INIT_MODE, PHASE, and ARG. -/
def objectOp (obj : Nat) (o : Origin) (w arg : BitVec 32) (c : Core) : Core :=
  let op := field w 3 0
  if op = 1 then fxProduce obj o arg c
  else if op = 2 then fxConsume obj o arg c
  else if op = 3 then fxArrive obj o (arg.setWidth 16) (BitVec.ofNat 2 (field w 17 16)) c
  else if op = 4 then fxInitObject obj o (BitVec.ofNat 2 (field w 5 4)) arg c
  else if op = 5 then fxClearFault obj o c
  else fxSyncViewBadWrite obj o false c

/-- An operation on a region (R103): OP, SLOT, OP_VERSION. -/
def regionOp (r : Nat) (o : Origin) (w ver : BitVec 32) (c : Core) : Core :=
  let op := field w 3 0
  if op = 1 then fxOpen r o (field w 6 4) ver c
  else if op = 2 then fxClose r o (field w 6 4) c
  else if op = 3 then fxCommit r o ver c
  else fxSnapViewBadWrite r o false c

/-- A write to the two views of a line, whose operation words are `n` bytes from byte `lo` of each view: exactly those of one view are an
operation, other masks that touch them are bad, and a write that touches none of them is answered (R104, R257). -/
def viewWrite (lo n i : Nat) (o : Origin) (q : Req) (op : Nat → Core → Core) (bad : Nat → Bool → Core → Core) (c : Core) : Core :=
  let t0 := decide (maskBits q.mask lo n ≠ 0)
  let t1 := decide (maskBits q.mask (64 + lo) n ≠ 0)
  if t0 && t1 then bad i true c
  else if t0 then (if q.mask = chunkMask lo n then op i c else bad i false c)
  else if t1 then (if q.mask = chunkMask (64 + lo) n then op (i + 1) c else bad (i + 1) false c)
  else c.answer o (c.originPtn o) 0 { op := opCmp }

/-- Word `w` of view `i`, the second of its line when odd. -/
def viewWord (q : Req) (i w : Nat) : BitVec 32 := dword q.data (16 * (i % 2) + w)

/-! ### The tenant mailbox (R465, R467, R469) -/

/-- The offsets of the mailbox window that hold a register or buffer word. -/
def isMbxReg (s : Nat) : Bool := decide (s < 0x10) || (decide (0x40 ≤ s) && decide (s < 0x80)) || decide (0x400 ≤ s)

/-- One word of a write to the mailbox, and whether any has been refused: a GO while a request is accepted or running is. -/
def mbxTake (p : Nat) (o : Origin) (x : Core × Bool) (k : Nat × BitVec 32 × Bool) : Core × Bool :=
  let ch := 16 + p
  if k.1 = 4 then
    (if !k.2.1.getLsbD 0 then x else if mbFree (x.1.mb ch) then (mbSubmit ch o.idx x.1, x.2) else (x.1, true))
  else (mbxWrite ch 0x400 k.1 k.2.1 x.1, x.2)

def mbxRegs (p : Nat) (o : Origin) (ws : List (Nat × BitVec 32 × Bool)) (c : Core) : Core :=
  let refuse (c : Core) : Core := c.answer o p 0 { op := opNackRevoked, reason := 4 }
  if ws.any (fun k => isMbxReg k.1 && !k.2.2) then refuse c
  else
    let (c, bad) := ws.foldl (mbxTake p o) (c, false)
    if bad then refuse c else c.answer o p 0 { op := opCmp }

/-! ### A write to the window -/

/-- A write of the line at window offset `off` of partition `p`, answered once. Read words, read-only registers and reserved offsets keep their
value and are answered with Cmp (R47). -/
def windowStore (p off : Nat) (o : Origin) (q : Req) (c : Core) : Core :=
  let inPage (n : Nat) : List (Nat × BitVec 32 × Bool) := (writtenWords (off % n) q)
  if off < 0x10000 then ringRegs p (off / 0x1000) o (inPage 0x1000) c
  else if 0x100000 ≤ off ∧ off < 0x140000 then
    viewWrite 32 16 ((off - 0x100000) / 64) o q (fun i c => objectOp i o (viewWord q i 8) (viewWord q i 9) c)
      (fun i both c => fxSyncViewBadWrite i o both c) c
  else if 0x200000 ≤ off ∧ off < 0x210000 then
    viewWrite 40 8 ((off - 0x200000) / 64) o q (fun i c => regionOp i o (viewWord q i 10) (viewWord q i 11) c)
      (fun i both c => fxSnapViewBadWrite i o both c) c
  else if 0x300000 ≤ off ∧ off < 0x301000 then mbxRegs p o (inPage 0x1000) c
  else c.answer o p 0 { op := opCmp }

/-- A WrPart or WrFull at edge unit `e` for its place in the window of the requester's partition; anywhere else it is a home's request. -/
def fxWrite (op : BitVec 6) (e : Nat) (o : Origin) (q : Req) (c : Core) : Core :=
  if inWindow q.pla then
    let p := c.originPtn o
    let off := windowOff q.pla / 128 * 128
    if windowEdge p off ≠ some e ∨ !c.works 8 e ∨ !windowUser c p o then c
    else windowStore p off o (if op = 0x08 then { q with mask := fullMask } else q) c
  else homeRow op e o q c

def execWrFull (e : Nat) (o : Origin) (q : Req) (s : State) : Host.Outcome State Fault Refusal := actCore s (fxWrite 0x08 e o q)
def execWrPart (e : Nat) (o : Origin) (q : Req) (s : State) : Host.Outcome State Fault Refusal := actCore s (fxWrite 0x09 e o q)

/-! ### REGISTER_WRITE (R6, R481) -/

/-- The WrPart of one word, or of a part of one, of the window. -/
def wordWrite (off : Nat) (whole : Bool) (w : BitVec 32) : Req :=
  { op := 0x09, dst := 0, src := 0, tag := 0, pleat := 0, hint := 0, cls := 0, ce := false, pla := 0,
    mask := chunkMask (off % 128) (if whole then 4 else 1), data := w.setWidth 1024 <<< (8 * (off % 128)), poison := false }

/-- A host's write of a word of the window, at the edge unit of its offset. -/
def windowWrite (p off : Nat) (o : Origin) (whole : Bool) (w : BitVec 32) (c : Core) : Core :=
  match windowEdge p off with
  | none => c
  | some e => if !c.works 8 e ∨ !windowUser c p o then c else windowStore p (off / 128 * 128) o (wordWrite off whole w) c

/-- A write by PCIe to BAR0 or BAR2, by I3C, or by a host to its tenant window. A PCIe access that is not of an aligned word is an Unsupported
Request, shown in the AER status (R481; its bit is PCI Express's own, log 52). -/
def fxRegisterWrite (a : RegAddr) (w : BitVec 32) (c : Core) : Core :=
  let off := a.off.toNat
  if !chipUp c then c
  else if a.space.toNat < 2 ∧ (off % 4 ≠ 0 ∨ !a.whole) then c.modGlb (fun g => { g with aer := g.aer ||| 0x100000 })
  else if a.space = 0 then setReg off w c
  else if a.space = 1 then
    (if off < 0x100000 ∧ chanBus c (off / 0x10000) ≠ 1 then mbxWrite (off / 0x10000) 0x8000 (off % 0x10000) w c else c)
  else if a.space = 2 then i3cStore false off w c
  else windowWrite a.p off a.o a.whole w c

def execRegisterWrite (a : RegAddr) (w : BitVec 32) (s : State) : Host.Outcome State Fault Refusal := actCore s (fxRegisterWrite a w)

end Sys2Proof.Machine
end

