-- ==== Sys2Proof/Machine/Dispatch.lean ====
section
/-! DEFINITION. The one dispatch from a command to its meaning: one arm per row of spec/opcode_table.json. -/

namespace Sys2Proof.Machine
open Sys2Proof

def exec (i : Instr) (s : State) : Host.Outcome State Fault Refusal :=
  match i with
  | .powerOn => Sys2Proof.Machine.execPowerOn s
  | .resetNAssert => Sys2Proof.Machine.execResetNAssert s
  | .resetNRelease => Sys2Proof.Machine.execResetNRelease s
  | .rstChip key => Sys2Proof.Machine.execRstChip key s
  | .chipResetQuiesceDone => Sys2Proof.Machine.execChipResetQuiesceDone s
  | .firmwareStart => Sys2Proof.Machine.execFirmwareStart s
  | .katDone cls idx stage => Sys2Proof.Machine.execKatDone cls idx stage s
  | .systemAreaTestDone e badSpares otherBad => Sys2Proof.Machine.execSystemAreaTestDone e badSpares otherBad s
  | .readiness => Sys2Proof.Machine.execReadiness s
  | .readinessTimeout => Sys2Proof.Machine.execReadinessTimeout s
  | .stepCompleteReport p mgr => Sys2Proof.Machine.execStepCompleteReport p mgr s
  | .liningLine e p => Sys2Proof.Machine.execLiningLine e p s
  | .registerWrite a w => Sys2Proof.Machine.execRegisterWrite a w s
  | .rcRead bar2 off wide => Sys2Proof.Machine.execRcRead bar2 off wide s
  | .tickLoRead wide => Sys2Proof.Machine.execTickLoRead wide s
  | .evcLoRead off wide => Sys2Proof.Machine.execEvcLoRead off wide s
  | .evcClear off events => Sys2Proof.Machine.execEvcClear off events s
  | .evcHold on => Sys2Proof.Machine.execEvcHold on s
  | .bar0AccessTimeout off write => Sys2Proof.Machine.execBar0AccessTimeout off write s
  | .perstN => Sys2Proof.Machine.execPerstN s
  | .flr => Sys2Proof.Machine.execFlr s
  | .doeRequest vendor typ nonce => Sys2Proof.Machine.execDoeRequest vendor typ nonce s
  | .i3cSetOffset w => Sys2Proof.Machine.execI3cSetOffset w s
  | .i3cPrivateRead => Sys2Proof.Machine.execI3cPrivateRead s
  | .i3cPrivateWrite off w => Sys2Proof.Machine.execI3cPrivateWrite off w s
  | .entdaa addr => Sys2Proof.Machine.execEntdaa addr s
  | .rstdaa => Sys2Proof.Machine.execRstdaa s
  | .getpid => Sys2Proof.Machine.execGetpid s
  | .getbcr => Sys2Proof.Machine.execGetbcr s
  | .getdcr => Sys2Proof.Machine.execGetdcr s
  | .getstatus => Sys2Proof.Machine.execGetstatus s
  | .enec ev => Sys2Proof.Machine.execEnec ev s
  | .disec ev => Sys2Proof.Machine.execDisec ev s
  | .setmwl len => Sys2Proof.Machine.execSetmwl len s
  | .getmwl => Sys2Proof.Machine.execGetmwl s
  | .setmrl len => Sys2Proof.Machine.execSetmrl len s
  | .getmrl => Sys2Proof.Machine.execGetmrl s
  | .mailboxGo ch o => Sys2Proof.Machine.execMailboxGo ch o s
  | .unlistedRequest ch => Sys2Proof.Machine.execUnlistedRequest ch s
  | .extMap ch => Sys2Proof.Machine.execExtMap ch s
  | .extGrant ch => Sys2Proof.Machine.execExtGrant ch s
  | .extRevoke ch => Sys2Proof.Machine.execExtRevoke ch s
  | .extUnmap ch => Sys2Proof.Machine.execExtUnmap ch s
  | .hostAdmit ch => Sys2Proof.Machine.execHostAdmit ch s
  | .hostRemove ch => Sys2Proof.Machine.execHostRemove ch s
  | .hostFence ch => Sys2Proof.Machine.execHostFence ch s
  | .snapCreate ch => Sys2Proof.Machine.execSnapCreate ch s
  | .snapDestroy ch => Sys2Proof.Machine.execSnapDestroy ch s
  | .syncSet ch => Sys2Proof.Machine.execSyncSet ch s
  | .pageRetire ch => Sys2Proof.Machine.execPageRetire ch s
  | .retireLineCopy e w => Sys2Proof.Machine.execRetireLineCopy e w s
  | .rotate ch => Sys2Proof.Machine.execRotate ch s
  | .ptnLine ch => Sys2Proof.Machine.execPtnLine ch s
  | .consent ch => Sys2Proof.Machine.execConsent ch s
  | .attest ch => Sys2Proof.Machine.execAttest ch s
  | .attestSignDone => Sys2Proof.Machine.execAttestSignDone s
  | .reportChunk ch => Sys2Proof.Machine.execReportChunk ch s
  | .svnCommit ch => Sys2Proof.Machine.execSvnCommit ch s
  | .unitState ch => Sys2Proof.Machine.execUnitState ch s
  | .flashErase ch err => Sys2Proof.Machine.execFlashErase ch err s
  | .flashWrite ch err => Sys2Proof.Machine.execFlashWrite ch err s
  | .flashRead ch err => Sys2Proof.Machine.execFlashRead ch err s
  | .imageTune ch => Sys2Proof.Machine.execImageTune ch s
  | .imageReconfig ch => Sys2Proof.Machine.execImageReconfig ch s
  | .imageSelect ch => Sys2Proof.Machine.execImageSelect ch s
  | .echo ch => Sys2Proof.Machine.execEcho ch s
  | .grantExpiry p ix => Sys2Proof.Machine.execGrantExpiry p ix s
  | .queuedRevocationStart p => Sys2Proof.Machine.execQueuedRevocationStart p s
  | .extentEntryInstall e p ix => Sys2Proof.Machine.execExtentEntryInstall e p ix s
  | .commitMarker n e seq planeB => Sys2Proof.Machine.execCommitMarker n e seq planeB s
  | .requestIngress n q elapsed => Sys2Proof.Machine.execRequestIngress n q elapsed s
  | .rdShared e o q => Sys2Proof.Machine.execRdShared e o q s
  | .rdOwn e o q => Sys2Proof.Machine.execRdOwn e o q s
  | .rdOnce e o q => Sys2Proof.Machine.execRdOnce e o q s
  | .upgrade e o q => Sys2Proof.Machine.execUpgrade e o q s
  | .wrFull e o q => Sys2Proof.Machine.execWrFull e o q s
  | .wrPart e o q => Sys2Proof.Machine.execWrPart e o q s
  | .dirtyEvict e o q => Sys2Proof.Machine.execDirtyEvict e o q s
  | .reservedRequest e o q => Sys2Proof.Machine.execReservedRequest e o q s
  | .snpAckI e r => Sys2Proof.Machine.execSnpAckI e r s
  | .snpAckS e r => Sys2Proof.Machine.execSnpAckS e r s
  | .snpAckData e r => Sys2Proof.Machine.execSnpAckData e r s
  | .cmpAck e h tag => Sys2Proof.Machine.execCmpAck e h tag s
  | .snoopTimeout e snpTag => Sys2Proof.Machine.execSnoopTimeout e snpTag s
  | .salvageTimeout e snpTag => Sys2Proof.Machine.execSalvageTimeout e snpTag s
  | .fenceApply cls idx h => Sys2Proof.Machine.execFenceApply cls idx h s
  | .fenceWalkDone h => Sys2Proof.Machine.execFenceWalkDone h s
  | .recallWalkDone e p => Sys2Proof.Machine.execRecallWalkDone e p s
  | .faultEvent p cause detail => Sys2Proof.Machine.execFaultEvent p cause detail s
  | .faultEventWindow p cause => Sys2Proof.Machine.execFaultEventWindow p cause s
  | .openPleat r o slot ver => Sys2Proof.Machine.execOpenPleat r o slot ver s
  | .closePleat r o slot => Sys2Proof.Machine.execClosePleat r o slot s
  | .commitPleat r o ver => Sys2Proof.Machine.execCommitPleat r o ver s
  | .queuedCommitStart r => Sys2Proof.Machine.execQueuedCommitStart r s
  | .snapViewBadWrite r o both => Sys2Proof.Machine.execSnapViewBadWrite r o both s
  | .sealMarker e r => Sys2Proof.Machine.execSealMarker e r s
  | .sealAnswer e r => Sys2Proof.Machine.execSealAnswer e r s
  | .retireMarker e r => Sys2Proof.Machine.execRetireMarker e r s
  | .retireWalkDone e r => Sys2Proof.Machine.execRetireWalkDone e r s
  | .retireReport e r => Sys2Proof.Machine.execRetireReport e r s
  | .pageCopyDone e page => Sys2Proof.Machine.execPageCopyDone e page s
  | .egressEnqueue n k => Sys2Proof.Machine.execEgressEnqueue n k s
  | .flitSend n elapsed => Sys2Proof.Machine.execFlitSend n elapsed s
  | .payloadFlit n f => Sys2Proof.Machine.execPayloadFlit n f s
  | .idleFlit n f => Sys2Proof.Machine.execIdleFlit n f s
  | .flitCrcError n f => Sys2Proof.Machine.execFlitCrcError n f s
  | .portInit n f => Sys2Proof.Machine.execPortInit n f s
  | .initDone n f => Sys2Proof.Machine.execInitDone n f s
  | .portRetrain n f => Sys2Proof.Machine.execPortRetrain n f s
  | .portResume n f => Sys2Proof.Machine.execPortResume n f s
  | .replayTimeout n => Sys2Proof.Machine.execReplayTimeout n s
  | .creditStallTimeout n vc => Sys2Proof.Machine.execCreditStallTimeout n vc s
  | .lockLoss n => Sys2Proof.Machine.execLockLoss n s
  | .laserLow n ok => Sys2Proof.Machine.execLaserLow n ok s
  | .linkEnable n ok => Sys2Proof.Machine.execLinkEnable n ok s
  | .linkDisable n => Sys2Proof.Machine.execLinkDisable n s
  | .linkRetrain n => Sys2Proof.Machine.execLinkRetrain n s
  | .linkDown n => Sys2Proof.Machine.execLinkDown n s
  | .portTrainingDone n mine peer => Sys2Proof.Machine.execPortTrainingDone n mine peer s
  | .trainTimeout n => Sys2Proof.Machine.execTrainTimeout n s
  | .initTimeout n => Sys2Proof.Machine.execInitTimeout n s
  | .portRetrainDone n passed => Sys2Proof.Machine.execPortRetrainDone n passed s
  | .portRetrainTimeout n => Sys2Proof.Machine.execPortRetrainTimeout n s
  | .downRetry n ok => Sys2Proof.Machine.execDownRetry n ok s
  | .capArm n => Sys2Proof.Machine.execCapArm n s
  | .capGo n => Sys2Proof.Machine.execCapGo n s
  | .cmapRead n src seg => Sys2Proof.Machine.execCmapRead n src seg s
  | .routerForward t k => Sys2Proof.Machine.execRouterForward t k s
  | .escapeThreshold t k => Sys2Proof.Machine.execEscapeThreshold t k s
  | .aimdWindow t => Sys2Proof.Machine.execAimdWindow t s
  | .congestionInterval busy => Sys2Proof.Machine.execCongestionInterval busy s
  | .drainMarker mgr inj => Sys2Proof.Machine.execDrainMarker mgr inj s
  | .drainPoll => Sys2Proof.Machine.execDrainPoll s
  | .routeDrainTimeout lag => Sys2Proof.Machine.execRouteDrainTimeout lag s
  | .meterSettingWrite off w elapsed => Sys2Proof.Machine.execMeterSettingWrite off w elapsed s
  | .replicatedRequest p o q => Sys2Proof.Machine.execReplicatedRequest p o q s
  | .repl p k => Sys2Proof.Machine.execRepl p k s
  | .replAck p order answer => Sys2Proof.Machine.execReplAck p order answer s
  | .rsync p k => Sys2Proof.Machine.execRsync p k s
  | .resyncLine p => Sys2Proof.Machine.execResyncLine p s
  | .cuffRenew p => Sys2Proof.Machine.execCuffRenew p s
  | .cuffGrant p reqNo epoch durMs => Sys2Proof.Machine.execCuffGrant p reqNo epoch durMs s
  | .leaseExpiry p => Sys2Proof.Machine.execLeaseExpiry p s
  | .replTimeout p order => Sys2Proof.Machine.execReplTimeout p order s
  | .peerTimeout p => Sys2Proof.Machine.execPeerTimeout p s
  | .peerStateSend p => Sys2Proof.Machine.execPeerStateSend p s
  | .peerState p ep st order epoch => Sys2Proof.Machine.execPeerState p ep st order epoch s
  | .release p => Sys2Proof.Machine.execRelease p s
  | .takeCuff p => Sys2Proof.Machine.execTakeCuff p s
  | .lineRead e k => Sys2Proof.Machine.execLineRead e k s
  | .lineWrite e k => Sys2Proof.Machine.execLineWrite e k s
  | .hbmCommandIssue e pc => Sys2Proof.Machine.execHbmCommandIssue e pc s
  | .hbmReadData e k => Sys2Proof.Machine.execHbmReadData e k s
  | .refreshDeadline e pc => Sys2Proof.Machine.execRefreshDeadline e pc s
  | .openPageTimeout e pc bank => Sys2Proof.Machine.execOpenPageTimeout e pc bank s
  | .selfRefreshIdle e => Sys2Proof.Machine.execSelfRefreshIdle e s
  | .selfRefreshExit e => Sys2Proof.Machine.execSelfRefreshExit e s
  | .parityAlert e c => Sys2Proof.Machine.execParityAlert e c s
  | .parityAlertClear e c => Sys2Proof.Machine.execParityAlertClear e c s
  | .alertRecoveryTimeout e c => Sys2Proof.Machine.execAlertRecoveryTimeout e c s
  | .commandBufferRetire e pc => Sys2Proof.Machine.execCommandBufferRetire e pc s
  | .hbmRetrainSlice e c => Sys2Proof.Machine.execHbmRetrainSlice e c s
  | .hbmRetrain e c => Sys2Proof.Machine.execHbmRetrain e c s
  | .hbmRetrainLimit e c => Sys2Proof.Machine.execHbmRetrainLimit e c s
  | .trainingGo e w => Sys2Proof.Machine.execTrainingGo e w s
  | .trainingRunDone e k => Sys2Proof.Machine.execTrainingRunDone e k s
  | .patrolStep e w => Sys2Proof.Machine.execPatrolStep e w s
  | .sramScrubRow k => Sys2Proof.Machine.execSramScrubRow k s
  | .sramForcedScrub k => Sys2Proof.Machine.execSramForcedScrub k s
  | .stackFailed e => Sys2Proof.Machine.execStackFailed e s
  | .sweepLine e p w => Sys2Proof.Machine.execSweepLine e p w s
  | .sweepLapEnd e p => Sys2Proof.Machine.execSweepLapEnd e p s
  | .erlTailWrite x => Sys2Proof.Machine.execErlTailWrite x s
  | .logCoalesceWindow code cls unit => Sys2Proof.Machine.execLogCoalesceWindow code cls unit s
  | .unitFault cls idx => Sys2Proof.Machine.execUnitFault cls idx s
  | .unitCommand cls idx st => Sys2Proof.Machine.execUnitCommand cls idx st s
  | .unitForce cls idx st => Sys2Proof.Machine.execUnitForce cls idx st s
  | .drainComplete cls idx => Sys2Proof.Machine.execDrainComplete cls idx s
  | .unitCommandTimeout cls idx => Sys2Proof.Machine.execUnitCommandTimeout cls idx s
  | .reconcilerPass mgr => Sys2Proof.Machine.execReconcilerPass mgr s
  | .rotWatchdogKick => Sys2Proof.Machine.execRotWatchdogKick s
  | .rotWatchdogExpiry => Sys2Proof.Machine.execRotWatchdogExpiry s
  | .rotResume => Sys2Proof.Machine.execRotResume s
  | .managerWatchdogExpiry mgr => Sys2Proof.Machine.execManagerWatchdogExpiry mgr s
  | .managerRestart mgr => Sys2Proof.Machine.execManagerRestart mgr s
  | .powerInterval acts => Sys2Proof.Machine.execPowerInterval acts s
  | .iccLimitExceeded amps => Sys2Proof.Machine.execIccLimitExceeded amps s
  | .iccClampRelease amps => Sys2Proof.Machine.execIccClampRelease amps s
  | .thermalSample k => Sys2Proof.Machine.execThermalSample k s
  | .parkDelay t => Sys2Proof.Machine.execParkDelay t s
  | .sequencerReset t => Sys2Proof.Machine.execSequencerReset t s
  | .sequencerResetDone t => Sys2Proof.Machine.execSequencerResetDone t s
  | .clusterReset t => Sys2Proof.Machine.execClusterReset t s
  | .partitionReset p forced => Sys2Proof.Machine.execPartitionReset p forced s
  | .seamTimeout p => Sys2Proof.Machine.execSeamTimeout p s
  | .freezeGo => Sys2Proof.Machine.execFreezeGo s
  | .freezePin => Sys2Proof.Machine.execFreezePin s
  | .jtagSegmentOpen cls idx => Sys2Proof.Machine.execJtagSegmentOpen cls idx s
  | .ringCtrlWrite a w => Sys2Proof.Machine.execRingCtrlWrite a w s
  | .ringBaseWrite a off w => Sys2Proof.Machine.execRingBaseWrite a off w s
  | .ringTailWrite a x => Sys2Proof.Machine.execRingTailWrite a x s
  | .ringCplAckWrite a x => Sys2Proof.Machine.execRingCplAckWrite a x s
  | .descriptorFetch p => Sys2Proof.Machine.execDescriptorFetch p s
  | .descriptorReadRefused p => Sys2Proof.Machine.execDescriptorReadRefused p s
  | .reduce p => Sys2Proof.Machine.execReduce p s
  | .gatherpool p => Sys2Proof.Machine.execGatherpool p s
  | .attend p => Sys2Proof.Machine.execAttend p s
  | .optstep p => Sys2Proof.Machine.execOptstep p s
  | .requant p => Sys2Proof.Machine.execRequant p s
  | .copyOp p => Sys2Proof.Machine.execCopyOp p s
  | .fillOp p => Sys2Proof.Machine.execFillOp p s
  | .kernel p => Sys2Proof.Machine.execKernel p s
  | .commandStart p => Sys2Proof.Machine.execCommandStart p s
  | .workItem t => Sys2Proof.Machine.execWorkItem t s
  | .clusterReport t => Sys2Proof.Machine.execClusterReport t s
  | .recordWriteAnswer p refused => Sys2Proof.Machine.execRecordWriteAnswer p refused s
  | .commandTimeout p r idx => Sys2Proof.Machine.execCommandTimeout p r idx s
  | .produce obj o cnt => Sys2Proof.Machine.execProduce obj o cnt s
  | .consume obj o cnt => Sys2Proof.Machine.execConsume obj o cnt s
  | .arrive obj o part phase => Sys2Proof.Machine.execArrive obj o part phase s
  | .signal obj o notify => Sys2Proof.Machine.execSignal obj o notify s
  | .waitAvail obj c cnt => Sys2Proof.Machine.execWaitAvail obj c cnt s
  | .waitSpace obj c cnt => Sys2Proof.Machine.execWaitSpace obj c cnt s
  | .waitBarrier obj c phase => Sys2Proof.Machine.execWaitBarrier obj c phase s
  | .cancel obj c => Sys2Proof.Machine.execCancel obj c s
  | .syncRead obj c sel => Sys2Proof.Machine.execSyncRead obj c sel s
  | .initObject obj o mode arg => Sys2Proof.Machine.execInitObject obj o mode arg s
  | .clearFault obj o => Sys2Proof.Machine.execClearFault obj o s
  | .syncViewBadWrite obj o both => Sys2Proof.Machine.execSyncViewBadWrite obj o both s
  | .ack t obj code signal => Sys2Proof.Machine.execAck t obj code signal s
  | .wake t obj => Sys2Proof.Machine.execWake t obj s
  | .value t v => Sys2Proof.Machine.execValue t v s
  | .longWaitGate t => Sys2Proof.Machine.execLongWaitGate t s
  | .deadlockWindow p => Sys2Proof.Machine.execDeadlockWindow p s
  | .descriptorStart t c => Sys2Proof.Machine.execDescriptorStart t c s
  | .dmaLineIssue t c => Sys2Proof.Machine.execDmaLineIssue t c s
  | .dmaResponse t c r => Sys2Proof.Machine.execDmaResponse t c r s
  | .dmaReissue t c tag => Sys2Proof.Machine.execDmaReissue t c tag s
  | .dmaTimeout t c => Sys2Proof.Machine.execDmaTimeout t c s
  | .pushData t k => Sys2Proof.Machine.execPushData t k s
  | .autoGate t => Sys2Proof.Machine.execAutoGate t s
  | .clusterWakeDone t => Sys2Proof.Machine.execClusterWakeDone t s
  | .asyncTrap t => Sys2Proof.Machine.execAsyncTrap t s
  | .illegal t w => Sys2Proof.Machine.execIllegal t w s
  | .add t f => Sys2Proof.Machine.execAdd t f s
  | .sub t f => Sys2Proof.Machine.execSub t f s
  | .and t f => Sys2Proof.Machine.execAnd t f s
  | .or t f => Sys2Proof.Machine.execOr t f s
  | .xor t f => Sys2Proof.Machine.execXor t f s
  | .sll t f => Sys2Proof.Machine.execSll t f s
  | .srl t f => Sys2Proof.Machine.execSrl t f s
  | .sra t f => Sys2Proof.Machine.execSra t f s
  | .slt t f => Sys2Proof.Machine.execSlt t f s
  | .sltu t f => Sys2Proof.Machine.execSltu t f s
  | .min t f => Sys2Proof.Machine.execMin t f s
  | .max t f => Sys2Proof.Machine.execMax t f s
  | .minu t f => Sys2Proof.Machine.execMinu t f s
  | .maxu t f => Sys2Proof.Machine.execMaxu t f s
  | .mul t f => Sys2Proof.Machine.execMul t f s
  | .mulh t f => Sys2Proof.Machine.execMulh t f s
  | .mulhu t f => Sys2Proof.Machine.execMulhu t f s
  | .div t f => Sys2Proof.Machine.execDiv t f s
  | .divu t f => Sys2Proof.Machine.execDivu t f s
  | .rem t f => Sys2Proof.Machine.execRem t f s
  | .remu t f => Sys2Proof.Machine.execRemu t f s
  | .li t f => Sys2Proof.Machine.execLi t f s
  | .lih t f => Sys2Proof.Machine.execLih t f s
  | .lb t f => Sys2Proof.Machine.execLb t f s
  | .lh t f => Sys2Proof.Machine.execLh t f s
  | .lw t f => Sys2Proof.Machine.execLw t f s
  | .ld t f => Sys2Proof.Machine.execLd t f s
  | .lbu t f => Sys2Proof.Machine.execLbu t f s
  | .lhu t f => Sys2Proof.Machine.execLhu t f s
  | .lwu t f => Sys2Proof.Machine.execLwu t f s
  | .sb t f => Sys2Proof.Machine.execSb t f s
  | .sh t f => Sys2Proof.Machine.execSh t f s
  | .sw t f => Sys2Proof.Machine.execSw t f s
  | .sd t f => Sys2Proof.Machine.execSd t f s
  | .beq t f => Sys2Proof.Machine.execBeq t f s
  | .bne t f => Sys2Proof.Machine.execBne t f s
  | .blt t f => Sys2Proof.Machine.execBlt t f s
  | .bge t f => Sys2Proof.Machine.execBge t f s
  | .bltu t f => Sys2Proof.Machine.execBltu t f s
  | .bgeu t f => Sys2Proof.Machine.execBgeu t f s
  | .jal t f => Sys2Proof.Machine.execJal t f s
  | .jalr t f => Sys2Proof.Machine.execJalr t f s
  | .halt t f => Sys2Proof.Machine.execHalt t f s
  | .nop t f => Sys2Proof.Machine.execNop t f s
  | .trapi t f => Sys2Proof.Machine.execTrapi t f s
  | .tret t f => Sys2Proof.Machine.execTret t f s
  | .fence t f => Sys2Proof.Machine.execFence t f s
  | .srr t f => Sys2Proof.Machine.execSrr t f s
  | .srw t f => Sys2Proof.Machine.execSrw t f s
  | .vadd t f => Sys2Proof.Machine.execVadd t f s
  | .vsub t f => Sys2Proof.Machine.execVsub t f s
  | .vmul t f => Sys2Proof.Machine.execVmul t f s
  | .vfma t f => Sys2Proof.Machine.execVfma t f s
  | .vmax t f => Sys2Proof.Machine.execVmax t f s
  | .vmin t f => Sys2Proof.Machine.execVmin t f s
  | .vabs t f => Sys2Proof.Machine.execVabs t f s
  | .vneg t f => Sys2Proof.Machine.execVneg t f s
  | .vexp2 t f => Sys2Proof.Machine.execVexp2 t f s
  | .vrcp t f => Sys2Proof.Machine.execVrcp t f s
  | .vrsqrt t f => Sys2Proof.Machine.execVrsqrt t f s
  | .vclt t f => Sys2Proof.Machine.execVclt t f s
  | .vcle t f => Sys2Proof.Machine.execVcle t f s
  | .vceq t f => Sys2Proof.Machine.execVceq t f s
  | .viadd t f => Sys2Proof.Machine.execViadd t f s
  | .visub t f => Sys2Proof.Machine.execVisub t f s
  | .vimul t f => Sys2Proof.Machine.execVimul t f s
  | .vand t f => Sys2Proof.Machine.execVand t f s
  | .vor t f => Sys2Proof.Machine.execVor t f s
  | .vxor t f => Sys2Proof.Machine.execVxor t f s
  | .vshl t f => Sys2Proof.Machine.execVshl t f s
  | .vshr t f => Sys2Proof.Machine.execVshr t f s
  | .vsra t f => Sys2Proof.Machine.execVsra t f s
  | .viclt t f => Sys2Proof.Machine.execViclt t f s
  | .vsel t f => Sys2Proof.Machine.execVsel t f s
  | .vbcast t f => Sys2Proof.Machine.execVbcast t f s
  | .viota t f => Sys2Proof.Machine.execViota t f s
  | .vext t f => Sys2Proof.Machine.execVext t f s
  | .vins t f => Sys2Proof.Machine.execVins t f s
  | .vrsum t f => Sys2Proof.Machine.execVrsum t f s
  | .vrmax t f => Sys2Proof.Machine.execVrmax t f s
  | .vrmin t f => Sys2Proof.Machine.execVrmin t f s
  | .vld t f => Sys2Proof.Machine.execVld t f s
  | .vlds t f => Sys2Proof.Machine.execVlds t f s
  | .vldg t f => Sys2Proof.Machine.execVldg t f s
  | .vst t f => Sys2Proof.Machine.execVst t f s
  | .vsts t f => Sys2Proof.Machine.execVsts t f s
  | .vstg t f => Sys2Proof.Machine.execVstg t f s
  | .vrda t f => Sys2Proof.Machine.execVrda t f s
  | .vwra t f => Sys2Proof.Machine.execVwra t f s
  | .vq t f => Sys2Proof.Machine.execVq t f s
  | .vdq t f => Sys2Proof.Machine.execVdq t f s
  | .vcvti t f => Sys2Proof.Machine.execVcvti t f s
  | .vcvtf t f => Sys2Proof.Machine.execVcvtf t f s
  | .tldd t f => Sys2Proof.Machine.execTldd t f s
  | .tadd t f => Sys2Proof.Machine.execTadd t f s
  | .tload t f => Sys2Proof.Machine.execTload t f s
  | .tmul t f => Sys2Proof.Machine.execTmul t f s
  | .azero t f => Sys2Proof.Machine.execAzero t f s
  | .dmaq t f => Sys2Proof.Machine.execDmaq t f s
  | .dmawait t f => Sys2Proof.Machine.execDmawait t f s
  | .dmares t f => Sys2Proof.Machine.execDmares t f s
  | .dmastat t f => Sys2Proof.Machine.execDmastat t f s
  | .sprod t f => Sys2Proof.Machine.execSprod t f s
  | .scons t f => Sys2Proof.Machine.execScons t f s
  | .swaita t f => Sys2Proof.Machine.execSwaita t f s
  | .swaits t f => Sys2Proof.Machine.execSwaits t f s
  | .sarr t f => Sys2Proof.Machine.execSarr t f s
  | .swaitb t f => Sys2Proof.Machine.execSwaitb t f s
  | .sread t f => Sys2Proof.Machine.execSread t f s
  | .powerDown inService => Sys2Proof.Machine.execPowerDown inService s

end Sys2Proof.Machine
end

