-- ==== Sys2Proof/Machine/Step.lean ====
section
/-! DEFINITION. One step of the block: the command at the front of the queue, or, with none waiting, one always-on tick. -/

namespace Sys2Proof.Machine
open Sys2Proof

/-- The command at the front of the queue is taken and run with the rest of the queue; with none waiting, one always-on tick
passes (log 1). -/
def step (s : State) : Host.Outcome State Fault Refusal :=
  match s.pending with
  | [] => alwaysOnTick s
  | c :: r => exec c { s with pending := r }

/-- The command that a word of the table spells put in front of the queue; the table gives no row any bits, so no word spells
one and the state is unchanged (log 2). -/
def State.withFetchWord (s : State) (nbits w : Nat) : State :=
  match decodeTableWord nbits w with
  | some c => { s with pending := c :: s.pending }
  | none => s

end Sys2Proof.Machine
end

