-- ==== Sys2Proof/Safety.lean ====
section
/-! DEFINITION. What counts as a safe state and a safe step of the block, and the notions in which the statements are written: when a
command meets no obstacle, and the state that its own effect gives. -/

namespace Sys2Proof.Machine
open Sys2Proof

/-- The device behaves as the manual says: no rail has left its tolerance since RESET_N was last asserted (R561). -/
def State.ok (s : State) : Bool := !s.dev.core.pins.railFault

/-- A step ends in a next state. -/
def completes (r : Host.Outcome State Fault Refusal) : Bool :=
  match r with
  | .next _ => true
  | _ => false

/-- The state with another core: the queue and what survives a chip reset as they were. -/
def State.withCore (s : State) (c : Core) : State := { s with dev := { s.dev with core := c } }

/-- Fuses, flash, retirement records and RST_CAUSE, and the queue, are the same. -/
def State.keeps (s t : State) : Prop := t.pending = s.pending ∧ t.dev.perm = s.dev.perm

/-- The device without what a log entry, an interrupt, a counter or a freeze that they trigger can change (a freeze also drops waiter
records of the clusters it fences). -/
def Core.rest (c : Core) : Core :=
  { c with
    erl := {}, plog := [], out := [], hbmcs := []
    edges := (c.edges.map (fun e => (e.1, { e.2 with waiters := [] }))).filter (fun e => decide (e.2 ≠ {}))
    evc := { c.evc with fzState := 0, fzScope := false, fzPtn := 0, fzCause := 0, saved := [], counters := [] }
    rot := { c.rot with units := [] }
    glb := { c.glb with intStatus := 0, pba := 0, service := 0 } }

/-! ### Kernel instructions -/

/-- The sequencer of tile `t` meets an instruction of row `r` with fields `f`, and nothing goes before the instruction's own rules: it
issues, takes no asynchronous trap (R189), its PC is a multiple of 8 below 2 MB (R167), the word there is not poisoned (R305), the
fields that must be zero are zero (R163), no SREAD that it depends on is outstanding (R159), and the vector queue has room for it if it is an
instruction of the vector unit (R139). -/
def ykReady (c : Core) (r : YkRow) (t : Nat) (f : YkF) : Bool :=
  let x := c.tile t
  tileIssues c t && !(asyncPending x.seq && !x.seq.inTrap) && decide (x.seq.pc.toNat % 8 = 0) && decide (x.seq.pc.toNat < lsSize) &&
  !(x.lsPoison.contains (x.seq.pc.toNat / 64)) && r.legal f && !(awaitsValue x.seq r f) &&
  !(vecFull x.vec r)

/-- The state after an instruction that changes its own tile by `g` and falls through to PC + 8. -/
def ykDone (s : State) (t : Nat) (g : Tile → Tile) : State :=
  s.withCore (s.dev.core.modTile t (fun x =>
    let y := g x
    { y with seq := { y.seq with pc := x.seq.pc + 8 } }))

/-- The state after x[D] = `v` (x0 discards it) and PC + 8. -/
def xDone (s : State) (t : Nat) (d : BitVec 5) (v : BitVec 64) : State := ykDone s t (fun x => { x with seq := wrX x.seq d v })

/-- The state after an instruction of the vector unit that leaves its tile as `x` and the core else as it was: the queue of the unit holds it
(R139), the PC is at the next instruction, and one vector instruction is counted (R536). -/
def vunitDone (s : State) (r : YkRow) (t : Nat) (x : Tile) : State :=
  s.withCore ((vecIssue r t (countEvent 4 t 4 1 (some (s.dev.core.tile t).ptn) (s.dev.core.setTile t x))).modTile t
    (fun y => { y with seq := { y.seq with pc := (s.dev.core.tile t).seq.pc + 8 } }))

/-- The state after v[D] = `v` with poison bit `p`, FFLAGS raised by `fl`, PC + 8, and one vector instruction counted (R536). -/
def vDone (s : State) (r : YkRow) (t : Nat) (d : BitVec 5) (v : VReg) (p : Bool) (fl : FFlags) : State :=
  let x := s.dev.core.tile t
  vunitDone s r t { x with
    vec := wrVP x.vec d v p
    seq := { x.seq with fflags := x.seq.fflags ||| fl } }

/-- The state after a precise trap of a cause (R187, R188, R190). -/
def trapState (s : State) (t cause : Nat) (info tpc : BitVec 64) : State := s.withCore (takeTrap t cause false info tpc s.dev.core)

/-- A taken jump: the state changed by `g` with the PC at the target (R166, R167). -/
def jumpDone (s : State) (t : Nat) (g : Tile → Tile) (target : BitVec 64) : State :=
  s.withCore (s.dev.core.modTile t (fun x =>
    let y := g x
    { y with seq := { y.seq with pc := target } }))

/-- A jump by instruction `i` to `target`, which also changes its tile by `g`: to an aligned target below 2 MB it goes there; any other
target raises FETCH_ALIGN or FETCH_RANGE at the jump, which then has no effect of its own (R166, R187). -/
def jumpRule (s : State) (t : Nat) (i : Instr) (g : Tile → Tile) (target : BitVec 64) : Prop :=
  let pc := (s.dev.core.tile t).seq.pc
  (target.toNat % 8 = 0 → target.toNat < lsSize → exec i s = .next (jumpDone s t g target)) ∧
  (target.toNat % 8 ≠ 0 → exec i s = .next (trapState s t 2 target pc)) ∧
  (target.toNat % 8 = 0 → lsSize ≤ target.toNat → exec i s = .next (trapState s t 3 target pc))

/-- A conditional branch: to PC + IMM when the condition holds, else on to PC + 8. -/
def branchRule (s : State) (t : Nat) (f : YkF) (r : YkRow) (i : Instr) (taken : Prop) : Prop :=
  ykReady s.dev.core r t f = true →
    (taken → jumpRule s t i id ((s.dev.core.tile t).seq.pc + f.imm.signExtend 64)) ∧
    (¬taken → exec i s = .next (ykDone s t id))

/-- A scalar load of `n` bytes (R165, R305): aligned, in the local store and from a clean word, x[D] is a value that `ok` relates to the
little-endian number there; from a poisoned word x[D] = 0 and LS_UE with source 1 is pending; otherwise LS_ALIGN or LS_RANGE. -/
def loadRule (s : State) (t : Nat) (f : YkF) (r : YkRow) (i : Instr) (n : Nat) (ok : Nat → BitVec 64 → Prop) : Prop :=
  let c := s.dev.core
  let x := c.tile t
  let a := (rdX x.seq f.a + f.imm.signExtend 64).toNat
  ykReady c r t f = true →
    (a % n = 0 → a < lsSize → a / 64 ∉ x.lsPoison → ∃ v, exec i s = .next (xDone s t f.d v) ∧ ok (rdLE x.ls a n) v) ∧
    (a % n = 0 → a < lsSize → a / 64 ∈ x.lsPoison → exec i s = .next (s.withCore
      ((countEvent 4 t 14 1 (some x.ptn) (c.setTile t (pendLsUe { x with seq := wrX x.seq f.d 0 } 1 a))).modTile t
        (fun y => { y with seq := { y.seq with pc := x.seq.pc + 8 } })))) ∧
    (a % n ≠ 0 → exec i s = .next (trapState s t 4 (BitVec.ofNat 64 a) x.seq.pc)) ∧
    (a % n = 0 → lsSize ≤ a → exec i s = .next (trapState s t 5 (BitVec.ofNat 64 a) x.seq.pc))

/-- A scalar store of `n` bytes (R165, R304): the bytes of the store's range hold x[D], least significant first, every other byte of the
local store is as it was, and no poison is set or cleared; otherwise LS_ALIGN or LS_RANGE. -/
def storeRule (s : State) (t : Nat) (f : YkF) (r : YkRow) (i : Instr) (n : Nat) : Prop :=
  let x := s.dev.core.tile t
  let a := (rdX x.seq f.a + f.imm.signExtend 64).toNat
  ykReady s.dev.core r t f = true →
    (a % n = 0 → a < lsSize → ∃ m, exec i s = .next (ykDone s t (fun y => { y with ls := m })) ∧
      ∀ k, rdByte m k = if a ≤ k ∧ k < a + n then BitVec.ofNat 8 ((rdX x.seq f.d).toNat / 256 ^ (k - a)) else rdByte x.ls k) ∧
    (a % n ≠ 0 → exec i s = .next (trapState s t 4 (BitVec.ofNat 64 a) x.seq.pc)) ∧
    (a % n = 0 → lsSize ≤ a → exec i s = .next (trapState s t 5 (BitVec.ofNat 64 a) x.seq.pc))

/-- A vector instruction whose lane `k` gives `g k`: v[D] holds the lanes, poisoned as `p` says, and FFLAGS collects every lane's flags. -/
def vecRule (s : State) (t : Nat) (f : YkF) (r : YkRow) (i : Instr) (p : Bool) (g : Nat → LaneRes) : Prop :=
  ykReady s.dev.core r t f = true →
    ∃ v, exec i s = .next (vDone s r t f.d v p (orFlags g)) ∧ ∀ k, k < 64 → lane v k = (g k).1

/-- Entry `i` after `k` levels of the reduction tree of R171: at each level, entry 2i combined with entry 2i + 1. -/
def treeVal (g : BitVec 32 → BitVec 32 → LaneRes) (l : Nat → BitVec 32) : Nat → Nat → BitVec 32
  | 0, i => l i
  | k + 1, i => (g (treeVal g l k (2 * i)) (treeVal g l k (2 * i + 1))).1

/-- A vector load whose lane `k` lies at address `addr k` (R172, R304, R305): aligned and in range, v[D] holds the 32-bit words of lanes 0
to LANES − 1 and zero in the others, and is poisoned when `pb` is or a touched word is; under the trap policy a touched poisoned
word also makes LS_UE pending. A misaligned lane traps with LS_ALIGN, else a lane at or above 2 MB with LS_RANGE. -/
def vloadRule (s : State) (t : Nat) (f : YkF) (r : YkRow) (i : Instr) (addr : Nat → Nat) (pb : Bool) : Prop :=
  let x := s.dev.core.tile t
  let n := f.imm.toNat / 2 ^ 21 % 64 + 1
  ykReady s.dev.core r t f = true →
    ((∀ k, k < n → addr k % 4 = 0) → (∀ k, k < n → addr k < lsSize) → (∀ k, k < n → addr k / 64 ∉ x.lsPoison) →
      ∃ v, exec i s = .next (vDone s r t f.d v pb 0) ∧
        ∀ k, k < 64 → (lane v k).toNat = if k < n then rdLE x.ls (addr k) 4 else 0) ∧
    ((∀ k, k < n → addr k % 4 = 0) → (∀ k, k < n → addr k < lsSize) → (∃ k, k < n ∧ addr k / 64 ∈ x.lsPoison) →
      ∃ u, exec i s = .next u ∧ s.keeps u ∧ vPoisoned (u.dev.core.tile t).vec f.d = true ∧
        ((s.dev.core.ptn x.ptn).ueTrap = true → (u.dev.core.tile t).seq.pendLs.isSome = true) ∧
        ((s.dev.core.ptn x.ptn).ueTrap = false → (u.dev.core.tile t).seq.pendLs = x.seq.pendLs)) ∧
    (∀ k, k < n → addr k % 4 ≠ 0 → (∀ j, j < k → addr j % 4 = 0) →
      exec i s = .next (trapState s t 4 (BitVec.ofNat 64 (addr k)) x.seq.pc)) ∧
    (∀ k, k < n → (∀ j, j < n → addr j % 4 = 0) → lsSize ≤ addr k → (∀ j, j < k → addr j < lsSize) →
      exec i s = .next (trapState s t 5 (BitVec.ofNat 64 (addr k)) x.seq.pc))

/-- A vector store whose lane `k` lies at address `addr k` (R172, R173): aligned and in range, byte `b` of lane `k` lies at `addr k + b` unless
a higher lane stores there too, and every byte that no lane stores is as it was. -/
def vstoreRule (s : State) (t : Nat) (f : YkF) (r : YkRow) (i : Instr) (addr : Nat → Nat) : Prop :=
  let x := s.dev.core.tile t
  let n := f.imm.toNat / 2 ^ 21 % 64 + 1
  ykReady s.dev.core r t f = true →
    ((∀ k, k < n → addr k % 4 = 0) → (∀ k, k < n → addr k < lsSize) →
      ∃ m z, exec i s = .next (vunitDone s r t { x with ls := m, lsPoison := z }) ∧
        (∀ k b, k < n → b < 4 → (∀ j, k < j → j < n → addr j ≠ addr k) →
          rdByte m (addr k + b) = BitVec.ofNat 8 ((lane (rdV x.vec f.d) k).toNat / 256 ^ b)) ∧
        (∀ a, (∀ k, k < n → a < addr k ∨ addr k + 4 ≤ a) → rdByte m a = rdByte x.ls a)) ∧
    (∀ k, k < n → addr k % 4 ≠ 0 → (∀ j, j < k → addr j % 4 = 0) →
      exec i s = .next (trapState s t 4 (BitVec.ofNat 64 (addr k)) x.seq.pc)) ∧
    (∀ k, k < n → (∀ j, j < n → addr j % 4 = 0) → lsSize ≤ addr k → (∀ j, j < k → addr j < lsSize) →
      exec i s = .next (trapState s t 5 (BitVec.ofNat 64 (addr k)) x.seq.pc))

/-- A descriptor that TLOAD and TMUL accept (R178). -/
def tdGood (d : BitVec 128) : Prop :=
  tdFmt d ≤ 6 ∧ 1 ≤ tdRows d ∧ tdRows d ≤ 256 ∧ tdBase d % 16 = 0 ∧ tdRowStride d % 16 = 0 ∧ tdScale d % 2 = 0 ∧
  tdScaleStride d % 2 = 0 ∧ tdBase d + (tdRows d - 1) * tdRowStride d + rowBytes (tdFmt d) ≤ lsSize ∧
  (tdFmt d < 5 → tdScale d + (tdRows d - 1) * tdScaleStride d + 2 ≤ lsSize)

/-- An operation of the sync port whose object lies in the partition's range is sent, at most 16 being unacknowledged; outside the range
the instruction raises SYNC_RANGE and nothing is sent (R183, R253). -/
def syncRule (s : State) (t : Nat) (f : YkF) (r : YkRow) (i : Instr) (m : SyncMsg) (g : Seq → Seq) : Prop :=
  let c := s.dev.core
  let x := c.tile t
  let p := c.ptn x.ptn
  let obj := (rdX x.seq f.a).toNat % 4096
  ykReady c r t f = true →
    (p.syncBase ≤ obj → obj < p.syncBase + p.syncCount → x.seq.unacked.length < 16 →
      exec i s = .next (s.withCore ((c.modSeq t (fun q => { g q with unacked := q.unacked ++ [obj] })).send (.sync m)
        |>.modTile t (fun y => { y with seq := { y.seq with pc := x.seq.pc + 8 } })))) ∧
    (p.syncBase ≤ obj → obj < p.syncBase + p.syncCount → 16 ≤ x.seq.unacked.length → exec i s = .next s) ∧
    (¬(p.syncBase ≤ obj ∧ obj < p.syncBase + p.syncCount) → exec i s = .next (trapState s t 10 (BitVec.ofNat 64 obj) x.seq.pc))

/-- A wait whose object lies in the partition's range is sent and the sequencer waits at the instruction (R183, R254). -/
def waitRule (s : State) (t : Nat) (f : YkF) (r : YkRow) (i : Instr) (m : SyncMsg) (kind n : Nat) : Prop :=
  let c := s.dev.core
  let x := c.tile t
  let p := c.ptn x.ptn
  let obj := (rdX x.seq f.a).toNat % 4096
  ykReady c r t f = true →
    (p.syncBase ≤ obj → obj < p.syncBase + p.syncCount →
      exec i s = .next (s.withCore ((c.modSeq t (fun q => { q with st := .waiting, wait := some (obj, kind, n) })).send (.sync m)))) ∧
    (¬(p.syncBase ≤ obj ∧ obj < p.syncBase + p.syncCount) → exec i s = .next (trapState s t 10 (BitVec.ofNat 64 obj) x.seq.pc))

/-! ### Mailbox requests -/

/-- The RoT takes the request of code `code` that channel `ch` holds, and the checks on channel, readiness and partition pass (R464, R467,
R526): `chans` says where the code is accepted (bit 0 secure device channels, bit 1 the others, bit 2 tenant mailboxes). -/
def taken (c : Core) (ch code chans : Nat) : Bool :=
  rotUp c && decide (ch < 48) && c.rot.detached.all (fun d => decide (d.1 + 16 ≠ ch)) && decide ((c.mb ch).st = .accepted) &&
  decide (reqCode c ch = code) && chanOk ch chans &&
  (decide (c.glb.ready = .ready) || decide (code ∈ [0x070, 0x062, 0x043, 0x044])) && (!needsPtn code || (c.ptn (reqPtn c ch)).en)

/-- A mailbox as an answer with status `st` leaves it (R467). -/
def mbAnswer (m : Mbx) (st : Nat) : Mbx :=
  { m with st := .done, full := false, result := BitVec.ofNat 8 st, tag := (m.cmd >>> 24).setWidth 8, skipped := 0 }

/-- The request in channel `ch` is answered with status `st`, and else the core is `d` but for log, interrupts, counters and freezes. -/
def answered (s : State) (ch st : Nat) (d : Core) (r : Host.Outcome State Fault Refusal) : Prop :=
  ∃ u, r = .next u ∧ s.keeps u ∧ u.dev.core.rest = (d.setMb ch (mbAnswer (s.dev.core.mb ch) st)).rest ∧
    (ch < 16 → u.dev.core.glb.intStatus.getLsbD ch = true)

/-- An action of a kind runs on partition `p` for mailbox `ch`, at a step, with what else `ok` says of it (R25, R26). -/
def acting (u : State) (p kind : Nat) (ch : Option Nat) (step : Nat) (ok : Action → Prop) : Prop :=
  ∃ a, actionOf u.dev.core p = some a ∧ a.kind = kind ∧ a.ch = ch ∧ a.step = step ∧ ok a

/-! ### Requests at a home -/

/-- The line of stack `e` that a request names, by the home's copy of the extent table (R45). -/
def reqLine (c : Core) (e : Nat) (o : Origin) (q : Req) : Nat :=
  (c.place ((c.homeExt e (c.originPtn o) (plaExt q.pla)).ppa * 2 ^ 30 + q.pla.toNat % 2 ^ 30)).2 / 128

/-- Home `e` has no transaction and no recall that waits. -/
def homeQuiet (c : Core) (e : Nat) : Bool := (c.home e).trks.isEmpty && (c.home e).recallQ.isEmpty

/-- A working, quiet home accepts the request: its nack queue has room (R73), its requester is not fenced, no check refuses it (R43), its extent
has type `typ`, its line lies in the stack, and no replicated request waits for its answer. -/
def homeAccepts (c : Core) (e : Nat) (o : Origin) (q : Req) (typ : BitVec 2) : Bool :=
  c.works 6 e && decide (e < 16) && decide ((c.home e).nackQ < 256) && !(decide (o.kind = 1) && (c.home e).fence.contains o.idx) && (homeRefusal c e (c.originPtn o) o q).isNone &&
  decide ((c.homeExt e (c.originPtn o) (plaExt q.pla)).typ = typ) && homeQuiet c e && decide (reqLine c e o q < 2 ^ 29) &&
  ((c.mirr (c.originPtn o)).pendOf o).isNone

/-- The completion of a host's request: opcode, grant, poison and data (R66). -/
def hostDone (c : Core) (o : Origin) (q : Req) (op : BitVec 6) (grant : BitVec 2) (poison : Bool) (data : Line) : Msg :=
  .completion ⟨c.originPtn o, o.idx, (c.host o.idx).ep, (c.ptn (c.originPtn o)).endpoint, o.port, op, grant, poison, q.ce, 0, o.tag, 0, 0, o.cls, data⟩

/-- The lines of the pool but one are as they were. -/
def otherLines (c d : Core) (e l : Nat) : Prop :=
  ∀ e' l', l' < 2 ^ 29 → (e', l') ≠ (e, l) → d.rdPool e' l' = c.rdPool e' l'

/-! ### Ports -/

/-- A port whose link leaves for `st`: queues, sequence numbers and credits are gone, and its egress packets are counted as discarded (R365,
R426). -/
def Port.fallen (p : Port) (st : LinkSt) : Port :=
  { p.noLink.noEgress with
    link := st
    cnt := { p.cnt with egressDiscard := p.cnt.egressDiscard + BitVec.ofNat 32 p.egress.length } }

/-- A port that goes Down with a cause (R364). -/
def Port.down (p : Port) (code : Nat) : Port :=
  Port.fallen { p with
    lastDown := BitVec.ofNat 4 code
    cnt := { p.cnt with downs := p.cnt.downs + 1 } } .down

/-- A port that starts a retrain, with `left` RETRAIN flits to send (R364, R377, R384). -/
def Port.retraining (p : Port) (why left : Nat) : Port :=
  { p with
    link := .retrain, replaying := [], resuming := false, resumeSent := false, resumeGot := false, resumeBad := false, retrainLeft := left
    retrainWhy := (Config.logEnum 0x0C03 why).toNat
    cnt := { p.cnt with retrains := p.cnt.retrains + 1 } }

/-- Port `n` becomes `x`; every other port, and pool memory, homes, partitions, hosts and clusters, are as they were. -/
def portOnly (s : State) (n : Nat) (x : Port) (r : Host.Outcome State Fault Refusal) : Prop :=
  ∃ u, r = .next u ∧ s.keeps u ∧ u.dev.core.port n = x ∧ (∀ m, m ≠ n → u.dev.core.port m = s.dev.core.port m) ∧
    u.dev.core.mem = s.dev.core.mem ∧ u.dev.core.homes = s.dev.core.homes ∧ u.dev.core.ptns = s.dev.core.ptns ∧
    u.dev.core.hosts = s.dev.core.hosts ∧ u.dev.core.tiles = s.dev.core.tiles

/-! ### HBM controllers -/

/-- No log entry and no capture freezes the chip: freezes are not armed, or their scope is a partition (R541). -/
def Core.steady (c : Core) : Bool := !(c.evc.freezeCfg.getLsbD 1) || c.evc.freezeCfg.getLsbD 0

/-! ### Frames and invariants -/

/-- Rows that store into the local store (R165, R172). -/
def rowStores (r : YkRow) : Bool := (decide (r.cls = 1) && decide (8 ≤ r.op)) || (decide (r.cls = 5) && decide (4 ≤ r.op) && decide (r.op < 8))

/-- Rows whose D names a scalar register that they write (R164–R169). -/
def rowWritesX (r : YkRow) : Bool :=
  decide (r.cls = 0) || (decide (r.cls = 1) && decide (r.op < 8)) || (decide (r.cls = 2) && (decide (r.op = 8) || decide (r.op = 9))) ||
  (decide (r.cls = 3) && decide (r.op = 0)) || (decide (r.cls = 4) && decide (r.op = 0x22))

/-- Rows whose D names a vector register that they write (R169, R172, R174). -/
def rowWritesV (r : YkRow) : Bool :=
  (decide (r.cls = 4) && decide (r.op ≠ 0x22)) || decide (r.cls = 6) || (decide (r.cls = 5) && (decide (r.op < 4) || decide (r.op = 8)))

/-- Rows that change accumulator rows: TMUL, AZERO and VWRA (R172, R177). -/
def rowWritesA (r : YkRow) : Bool := (decide (r.cls = 7) && decide (3 ≤ r.op)) || (decide (r.cls = 5) && decide (r.op = 9))

/-- The core without its tiles and the count of free values. -/
def Core.besideTiles (c : Core) : Core := { c.rest with tiles := [], fresh := 0 }

/-- A tile without what kernel instructions can change. -/
def Tile.besideKernel (x : Tile) : Tile :=
  { x with seq := {}, vec := {}, ls := [], lsPoison := [], chans := [], work := none, fTrap := false }

/-- What survives a chip reset is in its canonical form: the bytes of the flash, slots and retirement area among them, by strictly rising
address, none listed that reads as zero (R315, R325). -/
def State.Inv (s : State) : Prop := memWf s.dev.perm.flash = true

end Sys2Proof.Machine
end

