-- ==== Sys2Proof/Certificates/Slice0/Obligations.lean ====
section
/-! DEFINITION. The statements for the provers: what each command does, what it leaves alone, and what every step keeps. -/

open Sys2Proof Sys2Proof.Machine

/-- Class 0 sums, logic, shifts, comparisons and selections write x[D] with the stated value. For every state and field values under which the
instruction meets no obstacle (ykReady), exec answers the next state in which only x[D] of the tile (x0 discards) and its PC (PC + 8)
differ; the value is given in numbers: B is x[B], or IMM sign-extended when OP[7] = 1; ADD and SUB wrap modulo 2^64; SLL, SRL and SRA use
bits [5:0] of B; SLT/SLTU give 1 or 0; MIN, MAX, MINU, MAXU select. (R158, R162, R164.) -/
def Obligations.ScalarAddLogicCompare : Prop :=
  ∀ (s : State) (t : Nat) (f : YkF), s.ok = true →
    let q := (s.dev.core.tile t).seq
    let a := rdX q f.a
    let b := if f.rep then f.imm.signExtend 64 else rdX q f.b
    let gives (i : Instr) (r : YkRow) (ok : BitVec 64 → Prop) : Prop :=
      ykReady s.dev.core r t f = true → ∃ v, exec i s = .next (xDone s t f.d v) ∧ ok v
    gives (.add t f) rowAdd (fun v => v.toNat = (a.toNat + b.toNat) % 2 ^ 64) ∧
    gives (.sub t f) rowSub (fun v => v.toNat = (a.toNat + (2 ^ 64 - b.toNat)) % 2 ^ 64) ∧
    gives (.and t f) rowAnd (fun v => ∀ k, v.getLsbD k = (a.getLsbD k && b.getLsbD k)) ∧
    gives (.or t f) rowOr (fun v => ∀ k, v.getLsbD k = (a.getLsbD k || b.getLsbD k)) ∧
    gives (.xor t f) rowXor (fun v => ∀ k, v.getLsbD k = (a.getLsbD k != b.getLsbD k)) ∧
    gives (.sll t f) rowSll (fun v => v.toNat = a.toNat * 2 ^ (b.toNat % 64) % 2 ^ 64) ∧
    gives (.srl t f) rowSrl (fun v => v.toNat = a.toNat / 2 ^ (b.toNat % 64)) ∧
    gives (.sra t f) rowSra (fun v => v.toInt = a.toInt / 2 ^ (b.toNat % 64)) ∧
    gives (.slt t f) rowSlt (fun v => v.toNat = if a.toInt < b.toInt then 1 else 0) ∧
    gives (.sltu t f) rowSltu (fun v => v.toNat = if a.toNat < b.toNat then 1 else 0) ∧
    gives (.min t f) rowMin (fun v => v.toInt = Min.min a.toInt b.toInt) ∧
    gives (.max t f) rowMax (fun v => v.toInt = Max.max a.toInt b.toInt) ∧
    gives (.minu t f) rowMinu (fun v => v.toNat = Min.min a.toNat b.toNat) ∧
    gives (.maxu t f) rowMaxu (fun v => v.toNat = Max.max a.toNat b.toNat)

/-- Class 0 products, quotients, remainders and immediates write x[D] with the stated value. As for the sums, for MUL, MULH, MULHU, DIV, DIVU,
REM, REMU, LI and LIH: exec answers the next state in which only x[D] and the PC differ. MUL gives the low and MULH, MULHU the high 64
bits of the signed and unsigned product; DIV and DIVU round toward zero, division by zero gives all ones and the most negative value
divided by −1 the dividend; REM and REMU have the dividend's sign, division by zero gives the dividend and the overflow case 0; LI is IMM
sign-extended; LIH puts IMM in [63:32] and keeps [31:0] of x[D]. (R158, R164.) -/
def Obligations.ScalarMultiplyDivide : Prop :=
  ∀ (s : State) (t : Nat) (f : YkF), s.ok = true →
    let q := (s.dev.core.tile t).seq
    let a := rdX q f.a
    let b := if f.rep then f.imm.signExtend 64 else rdX q f.b
    let gives (i : Instr) (r : YkRow) (ok : BitVec 64 → Prop) : Prop :=
      ykReady s.dev.core r t f = true → ∃ v, exec i s = .next (xDone s t f.d v) ∧ ok v
    gives (.mul t f) rowMul (fun v => v.toNat = a.toNat * b.toNat % 2 ^ 64) ∧
    gives (.mulh t f) rowMulh (fun v => v.toInt = a.toInt * b.toInt / 2 ^ 64) ∧
    gives (.mulhu t f) rowMulhu (fun v => v.toNat = a.toNat * b.toNat / 2 ^ 64) ∧
    gives (.div t f) rowDiv (fun v =>
      (b.toNat = 0 → v.toNat = 2 ^ 64 - 1) ∧ (a.toInt = -2 ^ 63 ∧ b.toInt = -1 → v = a) ∧
      (b.toNat ≠ 0 → ¬(a.toInt = -2 ^ 63 ∧ b.toInt = -1) → v.toInt = a.toInt.tdiv b.toInt)) ∧
    gives (.divu t f) rowDivu (fun v =>
      (b.toNat = 0 → v.toNat = 2 ^ 64 - 1) ∧ (b.toNat ≠ 0 → v.toNat = a.toNat / b.toNat)) ∧
    gives (.rem t f) rowRem (fun v =>
      (b.toNat = 0 → v = a) ∧ (a.toInt = -2 ^ 63 ∧ b.toInt = -1 → v.toNat = 0) ∧
      (b.toNat ≠ 0 → ¬(a.toInt = -2 ^ 63 ∧ b.toInt = -1) → v.toInt = a.toInt.tmod b.toInt)) ∧
    gives (.remu t f) rowRemu (fun v =>
      (b.toNat = 0 → v = a) ∧ (b.toNat ≠ 0 → v.toNat = a.toNat % b.toNat)) ∧
    gives (.li t f) rowLi (fun v => v.toInt = f.imm.toInt) ∧
    gives (.lih t f) rowLih (fun v => v.toNat = f.imm.toNat * 2 ^ 32 + (rdX q f.d).toNat % 2 ^ 32)

/-- Scalar loads read little-endian bytes, extend them, and trap on misaligned, out-of-range and poisoned places. For LB, LH, LW, LD, LBU, LHU
and LWU that meet no obstacle, at address x[A] + IMM modulo 2^64: aligned, below 2 MB and from a clean 64 B word, exec answers the next
state with x[D] = the sign- or zero-extended number there and PC + 8; from a poisoned word x[D] = 0, LS_UE with source 1 becomes pending
and the read is counted; a misaligned address traps with LS_ALIGN and one at or above 2 MB with LS_RANGE, TINFO the address and TPC the
instruction. (R165, R187, R305.) -/
def Obligations.ScalarLoads : Prop :=
  ∀ (s : State) (t : Nat) (f : YkF), s.ok = true →
    loadRule s t f rowLb (.lb t f) 1 (fun n v => v.toInt = (n : Int).bmod (2 ^ 8)) ∧
    loadRule s t f rowLh (.lh t f) 2 (fun n v => v.toInt = (n : Int).bmod (2 ^ 16)) ∧
    loadRule s t f rowLw (.lw t f) 4 (fun n v => v.toInt = (n : Int).bmod (2 ^ 32)) ∧
    loadRule s t f rowLd (.ld t f) 8 (fun n v => v.toNat = n) ∧
    loadRule s t f rowLbu (.lbu t f) 1 (fun n v => v.toNat = n) ∧
    loadRule s t f rowLhu (.lhu t f) 2 (fun n v => v.toNat = n) ∧
    loadRule s t f rowLwu (.lwu t f) 4 (fun n v => v.toNat = n)

/-- Scalar stores write the low bytes of x[D] and no other byte of the local store. For SB, SH, SW and SD that meet no obstacle: at an aligned
address below 2 MB exec answers the next state in which the local store holds byte k of x[D] at address + k for each byte of the store,
every other byte and every poison bit is as before, and the PC is PC + 8; otherwise LS_ALIGN or LS_RANGE is raised with TINFO the address
and nothing stored. (R165, R187, R304.) -/
def Obligations.ScalarStores : Prop :=
  ∀ (s : State) (t : Nat) (f : YkF), s.ok = true →
    storeRule s t f rowSb (.sb t f) 1 ∧ storeRule s t f rowSh (.sh t f) 2 ∧
    storeRule s t f rowSw (.sw t f) 4 ∧ storeRule s t f rowSd (.sd t f) 8

/-- Branches compare and jump, JAL and JALR link, TRET returns to TPC, and bad targets trap at the jump. For BEQ to BGEU that meet no
obstacle: the comparison true, exec goes to PC + IMM; false, to PC + 8. JAL and JALR write PC + 8 to x[D] and go to PC + IMM, and to x[A]
+ IMM with bit 0 cleared; TRET clears IN_TRAP and goes to TPC. A target that is not a multiple of 8 raises FETCH_ALIGN, one at or above 2
MB FETCH_RANGE, with TINFO the target and TPC the jump, which then has no effect. An instruction that falls through from 0x1F_FFF8 leaves
the PC at 2 MB (NOP shows it), and every instruction met with an aligned PC at or above 2 MB raises FETCH_RANGE there. NOP else only moves
on. (The operations themselves are those of R166, TRET's of R188.) (R167.) -/
def Obligations.BranchesAndJumps : Prop :=
  ∀ (s : State) (t : Nat) (f : YkF), s.ok = true →
    let q := (s.dev.core.tile t).seq
    let a := rdX q f.a
    let b := rdX q f.b
    branchRule s t f rowBeq (.beq t f) (a = b) ∧ branchRule s t f rowBne (.bne t f) (a ≠ b) ∧
    branchRule s t f rowBlt (.blt t f) (a.toInt < b.toInt) ∧ branchRule s t f rowBge (.bge t f) (b.toInt ≤ a.toInt) ∧
    branchRule s t f rowBltu (.bltu t f) (a.toNat < b.toNat) ∧ branchRule s t f rowBgeu (.bgeu t f) (b.toNat ≤ a.toNat) ∧
    (ykReady s.dev.core rowJal t f = true →
      jumpRule s t (.jal t f) (fun x => { x with seq := wrX x.seq f.d (q.pc + 8) }) (q.pc + f.imm.signExtend 64)) ∧
    (ykReady s.dev.core rowJalr t f = true →
      jumpRule s t (.jalr t f) (fun x => { x with seq := wrX x.seq f.d (q.pc + 8) }) ((a + f.imm.signExtend 64) &&& ~~~1#64)) ∧
    (ykReady s.dev.core rowTret t f = true →
      jumpRule s t (.tret t f) (fun x => { x with seq := { x.seq with inTrap := false } }) q.tpc) ∧
    (ykReady s.dev.core rowNop t f = true → exec (.nop t f) s = .next (ykDone s t id)) ∧
    (∀ (i : Instr) (r : YkRow), ykRow i = some (t, f, r) → tileIssues s.dev.core t = true → (asyncPending q && !q.inTrap) = false →
      q.pc.toNat % 8 = 0 → lsSize ≤ q.pc.toNat → exec i s = .next (trapState s t 3 q.pc q.pc))

/-- A trap writes TCAUSE, TPC, TINFO and FAULT.TRAP, enters the handler or the trapped state, and changes nothing else. TRAPI that meets no
obstacle raises SOFTWARE (cause 11, TINFO = IMM zero-extended, TPC = the next instruction), and a word that no row lists raises ILLEGAL
(cause 1, TINFO = the word, TPC = its address) where no other cause goes before. In both: the three registers and FAULT.TRAP are written;
with TVEC not 0 and IN_TRAP clear, IN_TRAP is set and the PC is TVEC, the sequencer running on; otherwise the sequencer is trapped, DOUBLE
is set when IN_TRAP was, and the work item fails with status 0x28 unless its status was fixed. Scalar and vector registers, accumulators,
local store, DMA channels and every other part of the device are unchanged but for the counters and what a log entry changes. (R163, R187,
R188, R190.) -/
def Obligations.TrapEntry : Prop :=
  ∀ (s : State) (t : Nat) (i : Instr) (cause : Nat) (info tpc : BitVec 64), s.ok = true →
    let x := s.dev.core.tile t
    ((∃ f, i = .trapi t f ∧ ykReady s.dev.core rowTrapi t f = true ∧ cause = 11 ∧ info = f.imm.setWidth 64 ∧ tpc = x.seq.pc + 8) ∨
     (∃ w, i = .illegal t w ∧ ykDecode w = none ∧ ykReady s.dev.core rowNop t ⟨false, 0, 0, 0, 0, 0⟩ = true ∧ cause = 1 ∧ info = w ∧
        tpc = x.seq.pc)) →
    ∃ u, exec i s = .next u ∧ s.keeps u ∧
      let y := u.dev.core.tile t
      y.seq.tcause.toNat = cause ∧ y.seq.tpc = tpc ∧ y.seq.tinfo = info ∧ y.fTrap = true ∧
      (x.seq.tvec ≠ 0 ∧ x.seq.inTrap = false → y.seq.inTrap = true ∧ y.seq.pc = x.seq.tvec ∧ y.seq.st = .running ∧ y.work = x.work) ∧
      (¬(x.seq.tvec ≠ 0 ∧ x.seq.inTrap = false) →
        y.seq.st = .trapped ∧ y.seq.dbl = (x.seq.inTrap || x.seq.dbl) ∧
        y.work = x.work.map (fun w => if w.status.isSome then w else
          { w with status := some (0x28, BitVec.ofNat 32 w.ci,
              BitVec.ofNat 64 (tpc.toNat % 2 ^ 21 + cause * 2 ^ 32 + if x.seq.inTrap || x.seq.dbl then 2 ^ 40 else 0)) })) ∧
      y.seq.x = x.seq.x ∧ y.vec = x.vec ∧ y.ls = x.ls ∧ y.lsPoison = x.lsPoison ∧ y.chans = x.chans ∧
      ∃ q w, u.dev.core.rest = (s.dev.core.setTile t { x with fTrap := true, seq := q, work := w }).rest

/-- HALT ends the work item once the cluster is quiet, FENCE lets the next instruction go once its units are done. HALT that meets no
obstacle, with the array and vector queues empty, every DMA channel idle or halted, every sync operation acknowledged and no SREAD
outstanding: exec answers the next state with the sequencer halted, the PC moved on and the work item complete with status 0 (unless one
was fixed) and x10 as detail for cluster index 0; before that nothing changes but the vector queue, whose oldest operation takes a cycle.
FENCE moves on when, of each unit that IMM[4:0] names, at most LEFT operations are incomplete (vector queue; array queue; descriptors per
channel; unacknowledged sync operations), and waits otherwise. That a waiting instruction gives the vector unit one cycle is the model's
choice (log 151). (R182, R193, R237.) -/
def Obligations.WaitsHaltAndFence : Prop :=
  ∀ (s : State) (t : Nat) (f : YkF), s.ok = true →
    let x := s.dev.core.tile t
    let quiet := x.vec.arrayQ = [] ∧ (∀ e ∈ x.chans, e.2.halted = true ∨ (e.2.queue = [] ∧ e.2.run = [] ∧ ∀ l ∈ e.2.lines, l.dropped = true)) ∧
      x.seq.unacked = [] ∧ x.seq.sread = none
    let left := f.imm.toNat / 256 % 32
    let vecLate := f.imm.getLsbD 0 = true ∧ left < x.vec.vecQ.length
    let met := (f.imm.getLsbD 1 = true → x.vec.arrayQ.length ≤ left) ∧
      (f.imm.getLsbD 2 = true → ∀ e ∈ x.chans, e.2.queue.length + e.2.run.length ≤ left) ∧
      (f.imm.getLsbD 3 = true → x.seq.unacked.length ≤ left)
    (ykReady s.dev.core rowHalt t f = true →
      (x.vec.vecQ ≠ [] → exec (.halt t f) s = .next (s.withCore (vecWait t s.dev.core))) ∧
      (x.vec.vecQ = [] → quiet → exec (.halt t f) s = .next (ykDone s t (fun x => { x with
        seq := { x.seq with st := .halted }
        work := x.work.map (fun w => if w.status.isSome then w else
          { w with status := some (0, 0, if w.ci = 0 then rdX x.seq 10 else 0) }) }))) ∧
      (x.vec.vecQ = [] → ¬quiet → exec (.halt t f) s = .next s)) ∧
    (ykReady s.dev.core rowFence t f = true →
      (vecLate → exec (.fence t f) s = .next (s.withCore (vecWait t s.dev.core))) ∧
      (¬vecLate → met → exec (.fence t f) s = .next (ykDone s t id)) ∧ (¬vecLate → ¬met → exec (.fence t f) s = .next s))

/-- SRR reads and SRW writes exactly the listed system registers; any other number raises ILLEGAL. SRR that meets no obstacle writes x[D] with
the register that IMM[11:0] names, for each of the eleven numbers, and moves on; CYCLE's advance is a free value (log 7), so for it only
that x[D] is the new CYCLE is said. SRW writes FFLAGS (five bits), SATCNT, TVEC and TPC from x[A]. SRR of an unlisted number and SRW of a
read-only or unlisted one raise ILLEGAL with the instruction's word as TINFO and change no register. (R161, R168, R187.) -/
def Obligations.SystemRegisters : Prop :=
  ∀ (s : State) (t : Nat) (f : YkF), s.ok = true →
    let x := s.dev.core.tile t
    let q := x.seq
    let n := f.imm.toNat % 2 ^ 12
    let rd (v : BitVec 64) : Prop := exec (.srr t f) s = .next (xDone s t f.d v)
    let wr (g : Seq → Seq) : Prop := exec (.srw t f) s = .next (ykDone s t (fun x => { x with seq := g x.seq }))
    (ykReady s.dev.core rowSrr t f = true →
      (n = 0x000 → ∃ v, exec (.srr t f) s = .next
        ((ykDone s t (fun x => { x with seq := wrX { x.seq with cycle := v } f.d v })).withCore
          { (ykDone s t (fun x => { x with seq := wrX { x.seq with cycle := v } f.d v })).dev.core with fresh := s.dev.core.fresh + 1 })) ∧
      (n = 0x001 → rd (BitVec.ofNat 64 x.logical)) ∧ (n = 0x002 → rd (BitVec.ofNat 64 x.ptn)) ∧
      (n = 0x010 → rd (q.fflags.setWidth 64)) ∧ (n = 0x011 → rd q.satcnt) ∧ (n = 0x020 → rd q.tvec) ∧
      (n = 0x021 → rd (q.tcause.setWidth 64)) ∧ (n = 0x022 → rd q.tpc) ∧ (n = 0x023 → rd q.tinfo) ∧
      (n = 0x024 → ∃ v, rd v ∧ v.getLsbD 0 = q.inTrap ∧ v.getLsbD 1 = q.dbl ∧ v.getLsbD 2 = q.pendLs.isSome ∧
        v.getLsbD 3 = !q.pendDma.isEmpty ∧ v.getLsbD 4 = q.pendSync.isSome ∧ v.toNat < 32) ∧
      (n = 0x030 → rd (BitVec.ofNat 64 ((x.chans.filter (fun e => e.2.halted)).foldl (fun a e => a + 2 ^ e.1) 0))) ∧
      (n ∉ [0x000, 0x001, 0x002, 0x010, 0x011, 0x020, 0x021, 0x022, 0x023, 0x024, 0x030] →
        exec (.srr t f) s = .next (trapState s t 1 (rowSrr.word f) q.pc))) ∧
    (ykReady s.dev.core rowSrw t f = true →
      (n = 0x010 → wr (fun q => { q with fflags := (rdX q f.a).setWidth 5 })) ∧
      (n = 0x011 → wr (fun q => { q with satcnt := rdX q f.a })) ∧
      (n = 0x020 → wr (fun q => { q with tvec := rdX q f.a })) ∧
      (n = 0x022 → wr (fun q => { q with tpc := rdX q f.a })) ∧
      (n ∉ [0x010, 0x011, 0x020, 0x022] → exec (.srw t f) s = .next (trapState s t 1 (rowSrw.word f) q.pc)))

/-- Class 4 computes every lane of v[D], carries poison, and collects the flags of all lanes. For the lane operations VADD to VSEL that meet
no obstacle, with B the lane of v[B], or x[B][31:0] in every lane when OP[7] = 1: exec answers the next state in which v[D] lane k is the
operation on lane k of the operands, v[D] is poisoned exactly when a source register is, FFLAGS is raised by the flags of all lanes, the
PC is PC + 8 and one vector instruction is counted; nothing else changes. Integer and bitwise operations are given in numbers and bits;
FP32 ones by the model's rounded operations of R170, whose free points are logged (logs 12, 13, 22). (R158, R161, R169, R170, R304.) -/
def Obligations.VectorArithmetic : Prop :=
  ∀ (s : State) (t : Nat) (f : YkF), s.ok = true →
    let x := s.dev.core.tile t
    let a := lane (rdV x.vec f.a)
    let b (k : Nat) : BitVec 32 := if f.rep then (rdX x.seq f.b).setWidth 32 else lane (rdV x.vec f.b) k
    let c := lane (rdV x.vec f.c)
    let pa := decide (f.a.toNat ∈ x.vec.vPoison)
    let pab := pa || (!f.rep && decide (f.b.toNat ∈ x.vec.vPoison))
    let pabc := pab || decide (f.c.toNat ∈ x.vec.vPoison)
    let int (w : Nat → BitVec 32) : Nat → LaneRes := fun k => (w k, 0)
    vecRule s t f rowVadd (.vadd t f) pab (fun k => fpAdd (a k) (b k)) ∧
    vecRule s t f rowVsub (.vsub t f) pab (fun k => fpSub (a k) (b k)) ∧
    vecRule s t f rowVmul (.vmul t f) pab (fun k => fpMul (a k) (b k)) ∧
    vecRule s t f rowVfma (.vfma t f) pabc (fun k => fpFma (a k) (b k) (c k)) ∧
    vecRule s t f rowVmax (.vmax t f) pab (fun k => fpMax (a k) (b k)) ∧
    vecRule s t f rowVmin (.vmin t f) pab (fun k => fpMin (a k) (b k)) ∧
    vecRule s t f rowVabs (.vabs t f) pa (int fun k => BitVec.ofNat 32 ((a k).toNat % 2 ^ 31)) ∧
    vecRule s t f rowVneg (.vneg t f) pa (int fun k => BitVec.ofNat 32 ((a k).toNat + 2 ^ 31)) ∧
    vecRule s t f rowVexp2 (.vexp2 t f) pa (fun k => fpExp2 (a k)) ∧
    vecRule s t f rowVrcp (.vrcp t f) pa (fun k => fpRcp (a k)) ∧
    vecRule s t f rowVrsqrt (.vrsqrt t f) pa (fun k => fpRsqrt (a k)) ∧
    vecRule s t f rowVclt (.vclt t f) pab (fun k => fpLt (a k) (b k)) ∧
    vecRule s t f rowVcle (.vcle t f) pab (fun k => fpLe (a k) (b k)) ∧
    vecRule s t f rowVceq (.vceq t f) pab (fun k => fpEq (a k) (b k)) ∧
    vecRule s t f rowViadd (.viadd t f) pab (int fun k => BitVec.ofNat 32 ((a k).toNat + (b k).toNat)) ∧
    vecRule s t f rowVisub (.visub t f) pab (int fun k => BitVec.ofInt 32 ((a k).toNat - (b k).toNat)) ∧
    vecRule s t f rowVimul (.vimul t f) pab (int fun k => BitVec.ofNat 32 ((a k).toNat * (b k).toNat)) ∧
    vecRule s t f rowVand (.vand t f) pab (int fun k => a k &&& b k) ∧
    vecRule s t f rowVor (.vor t f) pab (int fun k => a k ||| b k) ∧
    vecRule s t f rowVxor (.vxor t f) pab (int fun k => a k ^^^ b k) ∧
    vecRule s t f rowVshl (.vshl t f) pab (int fun k => BitVec.ofNat 32 ((a k).toNat * 2 ^ ((b k).toNat % 32))) ∧
    vecRule s t f rowVshr (.vshr t f) pab (int fun k => BitVec.ofNat 32 ((a k).toNat / 2 ^ ((b k).toNat % 32))) ∧
    vecRule s t f rowVsra (.vsra t f) pab (int fun k => BitVec.ofInt 32 ((a k).toInt / 2 ^ ((b k).toNat % 32))) ∧
    vecRule s t f rowViclt (.viclt t f) pab (int fun k => if (a k).toInt < (b k).toInt then 0xFFFFFFFF else 0) ∧
    vecRule s t f rowVsel (.vsel t f) pabc (int fun k => (a k &&& c k) ||| (b k &&& ~~~(c k)))

/-- VBCAST, VIOTA, VEXT and VINS move lanes; VRSUM, VRMAX and VRMIN reduce by the fixed tree. For instructions that meet no obstacle: VBCAST
puts x[A][31:0] and VIOTA the lane number in every lane, clean; VINS replaces lane IMM[5:0] of v[D] and keeps the others and the poison;
VEXT puts lane IMM[5:0] of a clean v[A], zero-extended, into x[D], and of a poisoned v[A] writes 0 and makes LS_UE with source 2 pending,
in both cases joining the vector queue for one cycle; the reductions put in every lane the value that six levels of entry 2i with entry 2i
+ 1 give, poisoned as v[A] is; VRMAX and VRMIN give the canonical NaN in every lane when any lane of v[A] is NaN, and with +0 and −0 VRMAX
takes +0 and VRMIN −0, whichever comes first. (The moves are those of R169.) (R171.) -/
def Obligations.VectorMovesReductions : Prop :=
  ∀ (s : State) (t : Nat) (f : YkF), s.ok = true →
    let x := s.dev.core.tile t
    let a := lane (rdV x.vec f.a)
    let pa := decide (f.a.toNat ∈ x.vec.vPoison)
    let n := f.imm.toNat % 64
    let queued : Vec := { x.vec with vecQ := vecCycle x.vec.vecQ ++ [1] }
    let reduces (r : YkRow) (i : Instr) (g : BitVec 32 → BitVec 32 → LaneRes) : Prop :=
      ykReady s.dev.core r t f = true →
        ∃ v fl, exec i s = .next (vDone s r t f.d v pa fl) ∧ ∀ k, k < 64 → lane v k = treeVal g a 6 0
    vecRule s t f rowVbcast (.vbcast t f) false (fun _ => ((rdX x.seq f.a).setWidth 32, 0)) ∧
    vecRule s t f rowViota (.viota t f) false (fun k => (BitVec.ofNat 32 k, 0)) ∧
    vecRule s t f rowVins (.vins t f) (decide (f.d.toNat ∈ x.vec.vPoison))
      (fun k => (if k = n then (rdX x.seq f.a).setWidth 32 else lane (rdV x.vec f.d) k, 0)) ∧
    (ykReady s.dev.core rowVext t f = true →
      (pa = false → ∃ v, v.toNat = (a n).toNat ∧ exec (.vext t f) s = .next (s.withCore
        ((countEvent 4 t 4 1 (some x.ptn) s.dev.core).setTile t
          { x with
            seq := { wrX x.seq f.d v with pc := x.seq.pc + 8 }
            vec := queued }))) ∧
      (pa = true → ∃ u, exec (.vext t f) s = .next u ∧ s.keeps u ∧ rdX (u.dev.core.tile t).seq f.d = 0 ∧
        (u.dev.core.tile t).seq.pc = x.seq.pc + 8 ∧ (u.dev.core.tile t).vec = queued ∧
        (x.seq.pendLs = none → (u.dev.core.tile t).seq.pendLs = some (BitVec.ofNat 64 (2 * 2 ^ 62))) ∧
        (x.seq.pendLs.isSome = true → (u.dev.core.tile t).seq.pendLs = x.seq.pendLs))) ∧
    let nanWins (r : YkRow) (i : Instr) : Prop :=
      ykReady s.dev.core r t f = true → (∃ j, j < 64 ∧ (decode32 (a j)).isNaN = true) →
        ∃ v fl, exec i s = .next (vDone s r t f.d v pa fl) ∧ ∀ k, k < 64 → lane v k = canonNaN
    reduces rowVrsum (.vrsum t f) fpAdd ∧ reduces rowVrmax (.vrmax t f) fpMax ∧ reduces rowVrmin (.vrmin t f) fpMin ∧
    nanWins rowVrmax (.vrmax t f) ∧ nanWins rowVrmin (.vrmin t f) ∧
    (fpMax 0x00000000 0x80000000).1 = 0x00000000 ∧ (fpMax 0x80000000 0x00000000).1 = 0x00000000 ∧
    (fpMin 0x00000000 0x80000000).1 = 0x80000000 ∧ (fpMin 0x80000000 0x00000000).1 = 0x80000000

/-- VLD, VLDS and VLDG read their lanes from x[A] + OFFSET by unit, stride and index, with poison and traps. For the vector loads that meet no
obstacle, with lane k at x[A] + OFFSET + 4k, + k × x[B], or + lane k of v[B] unsigned, modulo 2^64 and OFFSET = IMM[20:0] signed: with
every lane below LANES aligned, below 2 MB and in a clean word, v[D] lane k is the word there for k < LANES and 0 above, and v[D] is
poisoned only when the index register is; a poisoned word touched makes v[D] poisoned, and LS_UE pending exactly under the trap policy;
the first misaligned lane raises LS_ALIGN and, with none, the first lane out of range LS_RANGE. (R172, R187, R304, R305.) -/
def Obligations.VectorLoads : Prop :=
  ∀ (s : State) (t : Nat) (f : YkF), s.ok = true →
    let x := s.dev.core.tile t
    let base := rdX x.seq f.a + (f.imm.setWidth 21).signExtend 64
    vloadRule s t f rowVld (.vld t f) (fun k => (base + BitVec.ofNat 64 (4 * k)).toNat) false ∧
    vloadRule s t f rowVlds (.vlds t f) (fun k => (base + BitVec.ofNat 64 k * rdX x.seq f.b).toNat) false ∧
    vloadRule s t f rowVldg (.vldg t f) (fun k => (base + (lane (rdV x.vec f.b) k).setWidth 64).toNat)
      (decide (f.b.toNat ∈ x.vec.vPoison))

/-- VST, VSTS and VSTG store the lanes below LANES, the highest lane of one address last, and no other byte. For the vector stores that meet
no obstacle, with lane addresses as for the loads: aligned and in range, exec answers the next state in which byte b of lane k lies at its
address + b for every lane below LANES that no higher lane shares its address with, every byte that no lane covers is as before, one
vector instruction is counted and the PC moves on; the first misaligned lane raises LS_ALIGN and, with none, the first out of range
LS_RANGE, with nothing stored. (Forms, poison and traps are those of R172, R187 and R304.) (R173.) -/
def Obligations.VectorStores : Prop :=
  ∀ (s : State) (t : Nat) (f : YkF), s.ok = true →
    let x := s.dev.core.tile t
    let base := rdX x.seq f.a + (f.imm.setWidth 21).signExtend 64
    vstoreRule s t f rowVst (.vst t f) (fun k => (base + BitVec.ofNat 64 (4 * k)).toNat) ∧
    vstoreRule s t f rowVsts (.vsts t f) (fun k => (base + BitVec.ofNat 64 k * rdX x.seq f.b).toNat) ∧
    vstoreRule s t f rowVstg (.vstg t f) (fun k => (base + (lane (rdV x.vec f.b) k).setWidth 64).toNat)

/-- VRDA and VWRA move accumulator rows with their poison; VQ, VDQ, VCVTI and VCVTF convert lane by lane. For instructions that meet no
obstacle: VRDA copies row x[A] + IMM[15:8] of bank IMM[1:0] into v[D], VWRA copies v[D] into it, each with its poison; a row above 255
raises ACC_RANGE, and while a queued array operation writes the bank the instruction waits (R159). VQ converts the 64 lanes by R175 (the
model's quantize), adds the elements saturated to SATCNT and raises FFLAGS; VDQ gives element k of the packed vector times its scale, a
scale of 0xFF giving the canonical NaN; VCVTI and VCVTF convert each lane. An FMT above 6 raises ILLEGAL (the model's reading, log 23).
(R159, R172, R174, R175, R176, R304.) -/
def Obligations.AccumulatorAndConversion : Prop :=
  ∀ (s : State) (t : Nat) (f : YkF), s.ok = true →
    let c := s.dev.core
    let x := c.tile t
    let row := (rdX x.seq f.a + BitVec.ofNat 64 (f.imm.toNat / 256 % 256)).toNat
    let bank := f.imm.toNat % 4
    let fmt := f.imm.toNat % 16
    let a := lane (rdV x.vec f.a)
    let pa := decide (f.a.toNat ∈ x.vec.vPoison)
    let accRange (i : Instr) : Prop := 255 < row → exec i s = .next (trapState s t 9 (BitVec.ofNat 64 (row % 512)) x.seq.pc)
    let illegal (r : YkRow) (i : Instr) : Prop := 6 < fmt → exec i s = .next (trapState s t 1 (r.word f) x.seq.pc)
    (ykReady c rowVrda t f = true → accRange (.vrda t f) ∧ (row ≤ 255 → bankBusy x.vec bank = true → exec (.vrda t f) s = .next s) ∧
      (row ≤ 255 → bankBusy x.vec bank = false → exec (.vrda t f) s =
      .next (vunitDone s rowVrda t { x with vec := wrVP x.vec f.d (rdAcc x.vec bank row) (x.vec.accPoison.contains (bank * 256 + row)) }))) ∧
    (ykReady c rowVwra t f = true → accRange (.vwra t f) ∧ (row ≤ 255 → bankBusy x.vec bank = true → exec (.vwra t f) s = .next s) ∧
      (row ≤ 255 → bankBusy x.vec bank = false → ∃ y, exec (.vwra t f) s = .next (vunitDone s rowVwra t y) ∧
      (∀ b r, r < 256 → rdAcc y.vec b r = if b = bank ∧ r = row then rdV x.vec f.d else rdAcc x.vec b r) ∧
      (∀ k, k ∈ y.vec.accPoison ↔ if k = bank * 256 + row then f.d.toNat ∈ x.vec.vPoison else k ∈ x.vec.accPoison) ∧
      y = { x with vec := { x.vec with acc := y.vec.acc, accPoison := y.vec.accPoison } })) ∧
    (ykReady c rowVq t f = true → illegal rowVq (.vq t f) ∧ (fmt ≤ 6 → exec (.vq t f) s =
      .next (vunitDone s rowVq t { x with
        vec := wrVP x.vec f.d (quantize fmt (f.imm.getLsbD 4) ((List.range 64).map a)).1 pa
        seq := { x.seq with
          fflags := x.seq.fflags ||| (quantize fmt (f.imm.getLsbD 4) ((List.range 64).map a)).2.2
          satcnt := x.seq.satcnt + BitVec.ofNat 64 (quantize fmt (f.imm.getLsbD 4) ((List.range 64).map a)).2.1 } }))) ∧
    (ykReady c rowVdq t f = true → illegal rowVdq (.vdq t f) ∧
      (fmt ≤ 6 → vecRule s t f rowVdq (.vdq t f) pa (dequant1 fmt (rdV x.vec f.a).toNat) ∧
        (fmt < 5 → ∀ k, k < 64 → (rdV x.vec f.a).toNat / 2 ^ (64 * fmtBits fmt + 8 * (k / 32)) % 256 = 255 →
          (dequant1 fmt (rdV x.vec f.a).toNat k).1 = 0x7FC00000))) ∧
    vecRule s t f rowVcvti (.vcvti t f) pa (fun k => fpToInt (a k)) ∧
    vecRule s t f rowVcvtf (.vcvtf t f) pa (fun k => intToFp (a k))

/-- TLDD loads a descriptor, TADD advances BASE and SCALE modulo 2^21 and keeps every other bit. For instructions that meet no obstacle: TLDD
loads t[D] from the 16 bytes at x[A] + OFFSET, 16 B aligned, below 2 MB and clean; a misaligned address raises LS_ALIGN, one at or above 2
MB LS_RANGE; of a poisoned word t[D] is zero and LS_UE becomes pending (the model's reading, log 24). TADD adds x[A] to BASE and x[B] to
SCALE of t[D], each modulo 2^21; all other bits of t[D] are kept. Nothing but t[D] and the PC changes. (R160, R177, R187, R305.) -/
def Obligations.TileDescriptors : Prop :=
  ∀ (s : State) (t : Nat) (f : YkF), s.ok = true →
    let x := s.dev.core.tile t
    let a := (rdX x.seq f.a + (f.imm.setWidth 21).signExtend 64).toNat
    let d := tget 0 f.d.toNat x.vec.td
    let puts (i : Instr) (v : BitVec 128) : Prop :=
      exec i s = .next (ykDone s t (fun x => { x with vec := { x.vec with td := tput 0 f.d.toNat v x.vec.td } }))
    (ykReady s.dev.core rowTldd t f = true →
      (a % 16 = 0 → a < lsSize → a / 64 ∉ x.lsPoison → puts (.tldd t f) (BitVec.ofNat 128 (rdLE x.ls a 16))) ∧
      (a % 16 = 0 → a < lsSize → a / 64 ∈ x.lsPoison → ∃ u, exec (.tldd t f) s = .next u ∧ s.keeps u ∧
        tget 0 f.d.toNat (u.dev.core.tile t).vec.td = 0 ∧ (u.dev.core.tile t).seq.pendLs.isSome = true ∧
        (u.dev.core.tile t).seq.pc = x.seq.pc + 8) ∧
      (a % 16 ≠ 0 → exec (.tldd t f) s = .next (trapState s t 4 (BitVec.ofNat 64 a) x.seq.pc)) ∧
      (a % 16 = 0 → lsSize ≤ a → exec (.tldd t f) s = .next (trapState s t 5 (BitVec.ofNat 64 a) x.seq.pc))) ∧
    (ykReady s.dev.core rowTadd t f = true → ∃ v, puts (.tadd t f) v ∧
      tdBase v = (tdBase d + (rdX x.seq f.a).toNat) % 2 ^ 21 ∧ tdScale v = (tdScale d + (rdX x.seq f.b).toNat) % 2 ^ 21 ∧
      ∀ k, (21 ≤ k ∧ k < 32) ∨ 53 ≤ k → v.getLsbD k = d.getLsbD k)

/-- TLOAD fills the shadow tile, TMUL adds or overwrites tile products row by row, AZERO zeroes rows. For instructions that meet no obstacle
with the array queue empty: TLOAD of a good descriptor whose SHAPE is at least the class of its FMT and whose ROWS is N, the shadow tile
not filled, makes the shadow tile the N columns that the descriptor gives; with the shadow filled it waits in the queue; a SHAPE or ROWS
that does not fit raises TILE_BAD. TMUL of a good descriptor, with its tile the shadow one (NEW = 1, which becomes active) or the active
one, of a matching shape, rows and columns in range, gives in row ACC_ROW + r and column ACC_COL + j the product term of row r and column
j, added to the old value unless ZERO = 1; every other accumulator value is kept; without a tile it raises NO_TILE. AZERO zeroes its rows
of the bank and clears their poison, and no others. The FP32 term of a row and a column is the model's tileTerm (R130, R132). (R124, R158,
R177, R178, R179, R180.) -/
def Obligations.ArrayOperations : Prop :=
  ∀ (s : State) (t : Nat) (f : YkF), s.ok = true →
    let x := s.dev.core.tile t
    let u := x.vec
    let n := f.imm.toNat
    u.arrayQ = [] →
    (ykReady s.dev.core rowTload t f = true →
      let d := tget 0 f.d.toNat u.td
      let shape := n % 4
      let fits := shape ≤ 2 ∧ fmtClass (tdFmt d) ≤ shape ∧ tdRows d = tileN shape
      (tdGood d → fits → u.shadow = none → ∃ v st, exec (.tload t f) s = .next v ∧ s.keeps v ∧
        (v.dev.core.tile t).vec = { u with shadow := some st } ∧ (v.dev.core.tile t).seq.pc = x.seq.pc + 8 ∧
        st.fmt = tdFmt d ∧ st.shape = shape ∧ st.cols.length = tdRows d ∧
        ∀ j, j < tdRows d → ∃ e, st.cols[j]? = some e ∧
          e.1.toNat = rdLE x.ls (tdBase d + j * tdRowStride d) (rowBytes (tdFmt d)) ∧
          (tdFmt d < 5 → e.2.toNat = rdLE x.ls (tdScale d + j * tdScaleStride d) 2)) ∧
      (tdGood d → fits → u.shadow ≠ none → exec (.tload t f) s =
        .next (ykDone s t (fun x => { x with vec := { x.vec with arrayQ := [.tload d shape] } }))) ∧
      (tdGood d → ¬fits → exec (.tload t f) s = .next (trapState s t 6 (BitVec.ofNat 64 f.d.toNat) x.seq.pc))) ∧
    (ykReady s.dev.core rowTmul t f = true →
      let d := tget 0 f.a.toNat u.td
      let bank := f.d.toNat
      let row := n % 256
      let col := n / 256 % 64
      let tile := if f.imm.getLsbD 16 then u.shadow else u.active
      (tdGood d → tile = none → exec (.tmul t f) s = .next (trapState s t 8 0 x.seq.pc)) ∧
      ∀ st, tdGood d → tile = some st → st.shape = max (fmtClass (tdFmt d)) (fmtClass st.fmt) → st.cols.length = tileN st.shape →
        row + tdRows d ≤ 256 → col % tileN st.shape = 0 → col + tileN st.shape ≤ 64 →
        ∃ v, exec (.tmul t f) s = .next v ∧ s.keeps v ∧ (v.dev.core.tile t).seq.pc = x.seq.pc + 8 ∧
          (v.dev.core.tile t).vec.active = some st ∧ (v.dev.core.tile t).vec.v = u.v ∧ (v.dev.core.tile t).ls = x.ls ∧
          (v.dev.core.tile t).vec.shadow = (if f.imm.getLsbD 16 then none else u.shadow) ∧
          (∀ r j, r < tdRows d → j < 64 → lane (rdAcc (v.dev.core.tile t).vec bank (row + r)) j =
            let old := lane (rdAcc u bank (row + r)) j
            let term := tileTerm (tdFmt d) st.fmt (tdRow x d r) (st.cols.getD (j - col) (0, 0))
            if col ≤ j ∧ j < col + tileN st.shape then (if f.imm.getLsbD 17 then term else (fpAdd old term).1) else old) ∧
          (∀ b r, r < 256 → ¬(b = bank ∧ row ≤ r ∧ r < row + tdRows d) → rdAcc (v.dev.core.tile t).vec b r = rdAcc u b r)) ∧
    (ykReady s.dev.core rowAzero t f = true →
      let first := n % 256
      let rows := n / 256 % 512
      ∃ w, exec (.azero t f) s = .next (ykDone s t (fun x => { x with vec := w })) ∧
        w = { u with acc := w.acc, accPoison := w.accPoison } ∧
        (∀ b r, r < 256 → rdAcc w b r = if b = f.d.toNat ∧ first ≤ r ∧ r < first + rows then 0 else rdAcc u b r) ∧
        (∀ b r, r < 256 → (b * 256 + r ∈ w.accPoison ↔
          b * 256 + r ∈ u.accPoison ∧ ¬(b = f.d.toNat ∧ first ≤ r ∧ r < first + rows))))

/-- DMAQ queues a descriptor, DMAWAIT waits for DONE, DMARES clears a halt, DMASTAT reads status and DONE. For instructions that meet no
obstacle, with D the channel: DMAQ copies the 32 bytes at x[A] + IMM, wholly in the local store and clean, to the end of the channel's
queue; it stalls while the queue holds 4, and raises LS_RANGE when the copy leaves the local store. DMAWAIT goes on when (DONE − x[A]) mod
2^32 < 2^31 or the channel is halted, else it waits, and what it waits for is noted. DMARES makes a halted channel idle with an empty
queue, the lines still outstanding belonging to no descriptor any more, and does nothing to another. DMASTAT writes x[A] with DONE in
[63:32] and, below it, the state (0 idle, 1 running, 2 halted), the lines outstanding and the queue's length. (R156, R181, R187.) -/
def Obligations.DmaInstructions : Prop :=
  ∀ (s : State) (t : Nat) (f : YkF), s.ok = true →
    let x := s.dev.core.tile t
    let k := f.d.toNat
    let ch := chanOf x k
    let a := (rdX x.seq f.a + f.imm.signExtend 64).toNat
    let past := ch.halted = true ∨ (ch.done.toNat + 2 ^ 32 - (rdX x.seq f.a).toNat % 2 ^ 32) % 2 ^ 32 < 2 ^ 31
    (ykReady s.dev.core rowDmaq t f = true →
      (a + 32 ≤ lsSize → ch.queue.length < 4 → (∀ w, a / 64 ≤ w → w ≤ (a + 31) / 64 → w ∉ x.lsPoison) → exec (.dmaq t f) s =
        .next (ykDone s t (fun x => setChan x k { ch with queue := ch.queue ++
          [⟨BitVec.ofNat 256 (rdLE x.ls a 32), a, 0, 0, 0, false, false⟩] }))) ∧
      (a + 32 ≤ lsSize → 4 ≤ ch.queue.length → exec (.dmaq t f) s = .next s) ∧
      (lsSize < a + 32 → exec (.dmaq t f) s = .next (trapState s t 5 (BitVec.ofNat 64 (max a lsSize)) x.seq.pc))) ∧
    (ykReady s.dev.core rowDmawait t f = true →
      (past → exec (.dmawait t f) s = .next (ykDone s t (fun x => { x with seq := { x.seq with dmaWait := none } }))) ∧
      (¬past → exec (.dmawait t f) s = .next
        (s.withCore (s.dev.core.modSeq t (fun q => { q with dmaWait := some (k, BitVec.ofNat 32 (rdX q f.a).toNat) }))))) ∧
    (ykReady s.dev.core rowDmares t f = true →
      (ch.halted = true → exec (.dmares t f) s =
        .next (ykDone s t (fun x => setChan x k { ch with
          halted := false, queue := [], run := [], lines := ch.lines.map (fun l => { l with dropped := true }) }))) ∧
      (ch.halted = false → exec (.dmares t f) s = .next (ykDone s t id))) ∧
    (ykReady s.dev.core rowDmastat t f = true → ∃ v, exec (.dmastat t f) s = .next (xDone s t f.a v) ∧
      v.toNat / 2 ^ 32 = ch.done.toNat ∧ v.toNat / 256 % 128 = ch.lines.length % 128 ∧ v.toNat / 65536 % 8 = ch.queue.length % 8 ∧
      v.toNat % 4 = (if ch.halted then 2 else if ch.queue = [] ∧ ch.run = [] ∧ (∀ l ∈ ch.lines, l.dropped = true) then 0 else 1))

/-- Class 9 sends its sync-port message only for an object in the partition's range, and waits leave SEQ at waiting. For instructions that
meet no obstacle, with the object number x[A][11:0]: SPROD, SCONS and SARR send PRODUCE, CONSUME and ARRIVE with count x[B][31:0], or
participant x[B][15:0] and PHASE x[B][17:16], note one more unacknowledged operation and move on, or stall while 16 are unacknowledged;
SARR also records the object and PHASE; SWAITA and SWAITS send their wait and leave the sequencer waiting at the instruction; SWAITB waits
on the object and PHASE of the last SARR; SREAD sends READ and awaits the VALUE in x[D]. An object outside the partition's range raises
SYNC_RANGE and nothing is sent. (R183, R187, R250, R251, R253.) -/
def Obligations.SyncInstructions : Prop :=
  ∀ (s : State) (t : Nat) (f : YkF), s.ok = true →
    let c := s.dev.core
    let x := c.tile t
    let p := c.ptn x.ptn
    let obj := (rdX x.seq f.a).toNat % 4096
    let b := rdX x.seq f.b
    let ph := BitVec.ofNat 2 (b.toNat / 2 ^ 16)
    syncRule s t f rowSprod (.sprod t f) ⟨1, obj, x.logical, 0, false, false, b.setWidth 32, 0⟩ id ∧
    syncRule s t f rowScons (.scons t f) ⟨2, obj, x.logical, 0, false, false, b.setWidth 32, 0⟩ id ∧
    syncRule s t f rowSarr (.sarr t f) ⟨3, obj, x.logical, ph, false, false, BitVec.ofNat 32 (b.toNat % 2 ^ 16), 0⟩
      (fun q => { q with lastArr := some (obj, ph) }) ∧
    waitRule s t f rowSwaita (.swaita t f) ⟨4, obj, x.logical, 0, false, false, b.setWidth 32, 0⟩ 0 (b.toNat % 2 ^ 32) ∧
    waitRule s t f rowSwaits (.swaits t f) ⟨5, obj, x.logical, 0, false, false, b.setWidth 32, 0⟩ 1 (b.toNat % 2 ^ 32) ∧
    (ykReady c rowSwaitb t f = true → ∀ o q, x.seq.lastArr = some (o, q) → exec (.swaitb t f) s = .next (s.withCore
      ((c.modSeq t (fun y => { y with st := .waiting, wait := some (o, 2, q.toNat) })).send
        (.sync ⟨6, o, x.logical, q, false, false, 0, 0⟩)))) ∧
    (ykReady c rowSread t f = true →
      (p.syncBase ≤ obj → obj < p.syncBase + p.syncCount → exec (.sread t f) s = .next (s.withCore
        ((c.modSeq t (fun q => { q with sread := some f.d.toNat, pc := q.pc + 8 })).send
          (.sync ⟨8, obj, x.logical, 0, f.imm.getLsbD 0, false, 0, 0⟩)))) ∧
      (¬(p.syncBase ≤ obj ∧ obj < p.syncBase + p.syncCount) →
        exec (.sread t f) s = .next (trapState s t 10 (BitVec.ofNat 64 obj) x.seq.pc)))

/-- A pending asynchronous cause is taken at the boundary, LS_UE first, then DMA_FAULT by channel, then SYNC_FAULT. ASYNC_TRAP of an Active,
unfrozen cluster that is Serving or Draining and in no reset, its sequencer running or waiting outside a handler with a cause pending:
exec answers the next state with TCAUSE = 256 + 13 when LS_UE is pending, else 256 + 14 when a DMA_FAULT is (the lowest channel's), else
256 + 15; TINFO is the cause's, TPC the PC, or the next instruction when the sequencer waits at a DMAWAIT whose condition has come (the
count reached or the channel halted, R181); the cause taken is no longer pending and the others are; a wait is abandoned; with TVEC not 0
the handler runs, else the sequencer is trapped. The registers, the vector part and the local store are unchanged. (R181, R187, R188,
R189.) -/
def Obligations.AsynchronousTraps : Prop :=
  ∀ (s : State) (t : Nat), s.ok = true →
    let c := s.dev.core
    let x := c.tile t
    let q := x.seq
    (q.st = .running ∨ q.st = .waiting) → x.power = .active → x.resetting = false → c.stopped t = false → frozenChip c = false →
    (c.ust 4 t = .serving ∨ c.ust 4 t = .draining) → q.inTrap = false →
    let at' := if q.dmaWait.any (fun k => dmaWaitMet x k.1 k.2) then q.pc + 8 else q.pc
    let takes (cause : Nat) (info : BitVec 64) (ls : Option (BitVec 64)) (dma : Table (Option (BitVec 64))) (sy : Option (BitVec 64)) : Prop :=
      ∃ u, exec (.asyncTrap t) s = .next u ∧ s.keeps u ∧
        let y := u.dev.core.tile t
        y.seq.tcause.toNat = 256 + cause ∧ y.seq.tinfo = info ∧ y.seq.tpc = at' ∧ y.fTrap = true ∧ y.seq.wait = none ∧ y.seq.dmaWait = none ∧
        y.seq.pendLs = ls ∧ y.seq.pendDma = dma ∧ y.seq.pendSync = sy ∧ y.seq.x = q.x ∧ y.vec = x.vec ∧ y.ls = x.ls ∧
        (q.tvec ≠ 0 → y.seq.st = .running ∧ y.seq.inTrap = true ∧ y.seq.pc = q.tvec) ∧
        (q.tvec = 0 → y.seq.st = .trapped)
    (∀ info, q.pendLs = some info → takes 13 info none q.pendDma q.pendSync) ∧
    (∀ k info r, q.pendLs = none → q.pendDma = (k, some info) :: r → takes 14 info none r q.pendSync) ∧
    (∀ info, q.pendLs = none → q.pendDma = [] → q.pendSync = some info → takes 15 info none [] none)

/-- Power, RESET_N and RST_CHIP: what a chip reset leaves, what it clears, RST_CAUSE, and the fuse read that follows. POWER_ON of a chip
without power gives the state of reset with RST_CAUSE 0. RESET_N_ASSERT in a powered chip (even after a rail fault) clears everything but
fuses, flash, the tables of the stacks' system areas, the persistent log and the self-refresh of stacks in use, and sets RST_CAUSE 1, or
keeps 3 after a thermal trip. POWER_DOWN with RESET_N low removes power and the persistent log; with RESET_N high it is a rail fault, but
after a thermal trip the board's removal of the rails, with which the stacks lose their contents. RESET_N_RELEASE and the end of the
quiesce of a RST_CHIP reset read the fuses: GLB_ID becomes valid, M0 is the hash of the mask ROM, an invalid map is a fuse error. RST_CHIP
with the key resets with cause 2; any other value does nothing. That stacks that were in use enter self-refresh and POWER_DOWN's treatment
of RST_CAUSE are the model's choices (log 6, log 43). (R501, R509, R510, R514, R515, R516, R560, R561, R562.) -/
def Obligations.PowerAndChipReset : Prop :=
  ∀ (s : State),
    let d := s.dev
    let c := d.core
    let clear (u : State) (cause : BitVec 2) (rn : Bool) : Prop :=
      u.pending = s.pending ∧ u.dev.perm = { d.perm with rstCause := cause } ∧ u.dev.core.plog = c.plog ∧
      (∀ e, u.dev.core.hbmc e = if (c.hbmc e).trained ∨ (c.hbmc e).selfRefresh then { selfRefresh := true } else {}) ∧
      (∀ k, k ∈ u.dev.core.mem ↔ k ∈ c.mem ∧ 0xFE0000000 ≤ k.1 % 2 ^ 36) ∧
      { u.dev.core with fresh := 0, out := [], plog := [], mem := [], hbmcs := [] } = { pins := { powered := true, resetN := rn } }
    let fuses (u : State) : Prop :=
      s.keeps u ∧ u.dev.core.pins.resetN = true ∧ tget 0 0 u.dev.core.sec.m = digestBits Config.maskRom ∧ u.dev.core.glb.idValid = true ∧ u.dev.core.glb.fuse = d.perm.fuses ∧
      u.dev.core.sec.debugLock = d.perm.fuses.debugLock ∧ u.dev.core.sec.fused = BitVec.ofNat 7 d.perm.fuses.svn ∧
      (u.dev.core.sec.ownerKey = true ↔ d.perm.fuses.ownerHash ≠ 0) ∧
      u.dev.core.glb.ready = (if (fuseFail d.perm.fuses).isSome then .fuseError else c.glb.ready) ∧
      ((fuseFail d.perm.fuses).isNone → u.dev.core.erl = c.erl)
    (c.pins.powered = false → ∃ u, exec .powerOn s = .next u ∧ u.pending = s.pending ∧
      u.dev.perm = { d.perm with rstCause := 0 } ∧ { u.dev.core with fresh := 0, out := [] } = {}) ∧
    (c.pins.powered = true → c.pins.resetN = true → twf {} c.hbmcs = true →
      ∃ u, exec .resetNAssert s = .next u ∧ clear u (if c.pins.thermTrip then 3 else 1) false) ∧
    (c.pins.powered = true → c.pins.resetN = false → c.pins.thermTrip = false → ∃ u, exec (.powerDown false) s = .next u ∧ u.pending = s.pending ∧
      { u.dev.perm with rstCause := 0 } = { d.perm with rstCause := 0 } ∧
      { u.dev.core with fresh := 0, out := [] } = { pins := { powered := false } }) ∧
    (∀ b, c.pins.powered = true → c.pins.thermTrip = true →
      exec (.powerDown b) s = .next (s.withCore { c with mem := [], lineFlags := [], hbmcs := [], plog := [] })) ∧
    (∀ b, c.pins.powered = true → c.pins.thermTrip = false → c.pins.resetN = true →
      exec (.powerDown b) s = .next (s.withCore { c with pins := { c.pins with railFault := true } })) ∧
    (s.ok = true → c.pins.powered = true → c.pins.resetN = false → ∃ u, exec .resetNRelease s = .next u ∧ fuses u) ∧
    (s.ok = true → chipUp c = true → twf {} c.hbmcs = true → ∃ u, exec (.rstChip 0x52535443) s = .next u ∧ clear u 2 true) ∧
    (∀ k, s.ok = true → k ≠ 0x52535443 → exec (.rstChip k) s = .next s) ∧
    (s.ok = true → chipUp c = true → c.glb.idValid = false → ∃ u, exec .chipResetQuiesceDone s = .next u ∧ fuses u)

/-- Firmware start, known-answer runs, the system-area test and readiness change the boot state as the boot rules say. FIRMWARE_START, which
reads the firmware slots of the flash: with a good slot it takes A first and B as fallback, shows the running SVN, records M1 and M2, the
hashes of the two bodies, and sets ATTEST_READY; without a fuse error GLB_READY is then bring-up with the image of the slot that the flash
header names when its checks pass, or no-image with the number of the failed check; with no good slot SEC_ERROR is 1 and FW_FALLBACK is
set. KAT_DONE of a unit whose run is awaited records it, a failure also in the failed list. SYSTEM_AREA_TEST_DONE of a trained, used stack
records the test. READINESS, when every condition of R525 holds, makes GLB_READY ready with the milliseconds since the tick began;
READINESS_TIMEOUT with a required port missing makes it wait for ports and raises service bit 11. (R327, R330, R331, R333, R475, R514,
R520, R522, R525, R527.) -/
def Obligations.BootAndReadiness : Prop :=
  ∀ (s : State), s.ok = true →
    let c := s.dev.core
    let m := s.dev.perm.flash
    let a := slotFail c.glb.fuse m false
    let i := nextSlot m
    (chipUp c = true → c.glb.idValid = true → c.sec.attestReady = false → c.sec.error = 0 →
      (a = none ∨ slotFail c.glb.fuse m true = none → ∃ u, exec .firmwareStart s = .next u ∧ s.keeps u ∧ u.dev.core.sec.attestReady = true ∧
        u.dev.core.sec.fwSlotB = a.isSome ∧ u.dev.core.sec.fallback = a.isSome ∧
        u.dev.core.sec.running = BitVec.ofNat 7 (rotFirmware m a.isSome).svn ∧ tget 0 0 u.dev.core.sec.m = tget 0 0 c.sec.m ∧
        tget 0 1 u.dev.core.sec.m = digestBits (rotFirmware m a.isSome).body ∧
        tget 0 2 u.dev.core.sec.m = digestBits (mgrFirmware m a.isSome).body ∧
        (c.glb.ready = .fuseError → u.dev.core.glb.ready = .fuseError ∧ u.dev.core.cfg = c.cfg) ∧
        (c.glb.ready ≠ .fuseError → imageCheck c m false i = none →
          u.dev.core.glb.ready = .bringUp ∧ u.dev.core.cfg.image = some (slotImage m i) ∧ u.dev.core.cfg.loaded = true ∧
          tget 0 3 u.dev.core.sec.m = (slotImage m i).digest) ∧
        (∀ n st, c.glb.ready ≠ .fuseError → imageCheck c m false i = some (n, st) →
          u.dev.core.glb.ready = .noImage ∧ u.dev.core.sec.error = 2 ∧ u.dev.core.cfg.failCheck = BitVec.ofNat 4 n ∧
          u.dev.core.cfg.image = c.cfg.image)) ∧
      (a.isSome = true → (slotFail c.glb.fuse m true).isSome = true →
        exec .firmwareStart s = .next (s.withCore (c.modSec (fun x => { x with error := 1, fallback := true }))))) ∧
    (∀ k i stage, rotUp c = true → c.glb.mapFixed = false → c.glb.ready ≠ .fuseError → i < 4096 → k * 4096 + i ∈ katUnits c.glb.fuse →
      k * 4096 + i ∉ c.glb.katDone → ∃ u, exec (.katDone k i stage) s = .next u ∧ s.keeps u ∧
        u.dev.core.glb.katDone = c.glb.katDone ++ [k * 4096 + i] ∧
        u.dev.core.glb.katFailed = (if stage = 0 then c.glb.katFailed else c.glb.katFailed ++ [k * 4096 + i]) ∧
        (u.dev.core.glb.mapFixed = true ↔ ∀ j ∈ katUnits c.glb.fuse, j ∈ u.dev.core.glb.katDone)) ∧
    (∀ e bad other, rotUp c = true → c.glb.ready ≠ .ready → c.glb.ready ≠ .fuseError → c.hasUnit 7 e = true → (c.hbmc e).trained = true →
      c.glb.unused.getLsbD e = false → c.glb.sysTested.getLsbD e = false →
      ∃ u, exec (.systemAreaTestDone e bad other) s = .next u ∧ s.keeps u ∧ u.dev.core.glb.sysTested.getLsbD e = true ∧
        u.dev.core.glb.unused.getLsbD e = other ∧ (∀ j ∈ bad, j < 8192 → j ∈ (u.dev.core.hbmc e).badSpares)) ∧
    (readyNow c = true → c.cfg.image.isSome = true → ∃ u, exec .readiness s = .next u ∧ s.keeps u ∧
      u.dev.core.glb.ready = .ready ∧ u.dev.core.glb.readyMs = BitVec.ofNat 32 (c.evc.tick.toNat / 25000)) ∧
    (rotUp c = true → c.glb.ready = .bringUp → c.cfg.loaded = true → portsMissing c ≠ [] →
      ∃ u, exec .readinessTimeout s = .next u ∧ s.keeps u ∧ u.dev.core.glb.service.getLsbD 11 = true ∧
        u.dev.core.rest = (c.modGlb (fun g => { g with ready := .waitPorts })).rest)

/-- I3C private transfers and common command codes set and return the sideband registers of a chip out of reset. In a powered chip out of
reset: SET_OFFSET sets the offset register; ENTDAA gives the dynamic address, RSTDAA takes it away; ENEC and DISEC clear and set bits of
the event mask; SETMWL and SETMRL set and GETMWL and GETMRL return the lengths; GETPID, GETBCR, GETDCR and GETSTATUS return a value and
change nothing else (the values are the model's free constants, log 17). A private read returns the BAR0 word that the sideband may read,
or the word of one of its channels, and moves the offset by 4; where it has no right it returns 0 and counts a refusal. A private write to
ERL_TAIL is ERL_TAIL_WRITE, to a word of one of its channels a mailbox write, to a channel's GO bit a submission; any other is refused and
counted. (R484, R485.) -/
def Obligations.SidebandTransfers : Prop :=
  ∀ (s : State), s.ok = true → chipUp s.dev.core = true →
    let c := s.dev.core
    let sets (i : Instr) (g : Glb) : Prop := exec i s = .next (s.withCore { c with glb := g })
    let gives (i : Instr) (v : BitVec 64) : Prop := exec i s = .next (s.withCore (c.send (.i3c v)))
    let refused : Core := c.modGlb (fun g => { g with i3cRefused := g.i3cRefused + 1 })
    let off (o : BitVec 32) : Nat := o.toNat % 2 ^ 31
    (∀ w, sets (.i3cSetOffset w) { c.glb with i3cOff := w }) ∧
    (∀ a, sets (.entdaa a) { c.glb with i3cAddr := some a }) ∧
    sets .rstdaa { c.glb with i3cAddr := none } ∧
    (∀ m, sets (.enec m) { c.glb with i3cEv := c.glb.i3cEv &&& ~~~m }) ∧
    (∀ m, sets (.disec m) { c.glb with i3cEv := c.glb.i3cEv ||| m }) ∧
    (∀ l, sets (.setmwl l) { c.glb with i3cMwl := l }) ∧
    (∀ l, sets (.setmrl l) { c.glb with i3cMrl := l }) ∧
    gives .getmwl (c.glb.i3cMwl.setWidth 64) ∧ gives .getmrl (c.glb.i3cMrl.setWidth 64) ∧
    (∃ v, gives .getpid v) ∧ (∃ v, gives .getbcr v) ∧ (∃ v, gives .getdcr v) ∧ (∃ v, gives .getstatus v) ∧
    (∀ v, c.glb.i3cOff.getLsbD 31 = false → i3cWord c (off c.glb.i3cOff) = some v → exec .i3cPrivateRead s = .next (s.withCore
      ((c.modGlb (fun g => { g with i3cOff := g.i3cOff + 4 })).send (.i3c (BitVec.ofNat 64 v))))) ∧
    (c.glb.i3cOff.getLsbD 31 = false → i3cWord c (off c.glb.i3cOff) = none → exec .i3cPrivateRead s = .next (s.withCore
      ((refused.modGlb (fun g => { g with i3cOff := g.i3cOff + 4 })).send (.i3c 0)))) ∧
    (∀ ch, c.glb.i3cOff.getLsbD 31 = true → i3cChan c (off c.glb.i3cOff) = some ch → exec .i3cPrivateRead s = .next (s.withCore
      ((c.modGlb (fun g => { g with i3cOff := g.i3cOff + 4 })).send
        (.i3c (BitVec.ofNat 64 (mbxWord (c.mb ch) 0x8000 0x8000 (off c.glb.i3cOff % 0x10000))))))) ∧
    (∀ o w, o.toNat = 0x50004 → exec (.i3cPrivateWrite o w) s = exec (.erlTailWrite w) s) ∧
    (∀ o w, o.getLsbD 31 = false → off o ≠ 0x50004 → exec (.i3cPrivateWrite o w) s = .next (s.withCore refused)) ∧
    (∀ o w ch, o.getLsbD 31 = true → i3cChan c (off o) = some ch → off o % 0x10000 ≠ 4 →
      exec (.i3cPrivateWrite o w) s = .next (s.withCore (mbxWrite ch 0x8000 (off o % 0x10000) w c))) ∧
    (∀ o w ch, o.getLsbD 31 = true → i3cChan c (off o) = some ch → off o % 0x10000 = 4 → w.getLsbD 0 = true →
      exec (.i3cPrivateWrite o w) s = exec (.mailboxGo ch ⟨3, 0, 0, 0, 0, none, 0⟩) s)

/-- A register write keeps the written bits, brings ranged fields into their range, clears write-one bits and touches nothing else. BAR0
writes by PCIe in a chip out of reset whose clocks run: GLB_L2P_SEL, GLB_READY_TMO (100 to 10,000), GLB_UNIT_SEL, INT_STATUS (write one to
clear), INT_EN, RST_TILE_SEL, ERL_INT_CFG, SEC_LINING_RATE and SEC_SWEEP_RATE (10 to 20,000), PWR_ICC_LIMIT (500 to 2,200), PWR_CTRL, a
present home's DIR_CFG, a port's STALL_TMO. An I3C write to any of them is refused and counted. A BAR2 write to a channel of PCIe is a
mailbox write. A host's whole write to RINGr_TMO in its partition's window, through a working edge unit, keeps 16 bits and is answered
Cmp. (R6, R8, R511, R529, R548.) -/
def Obligations.RegisterWrites : Prop :=
  ∀ (s : State) (w : BitVec 32) (p : Nat) (o : Origin), s.ok = true → chipUp s.dev.core = true → frozenChip s.dev.core = false →
    let c := s.dev.core
    let v := w.toNat
    let bar0 (off : Nat) (d : Core) : Prop := exec (.registerWrite ⟨0, BitVec.ofNat 26 off, p, o, true⟩ w) s = .next (s.withCore d)
    bar0 0x18 (c.modGlb (fun g => { g with l2pSel := BitVec.ofNat 10 v })) ∧
    bar0 0x28 (c.modGlb (fun g => { g with readyTmo := BitVec.ofNat 32 (clampNat 100 10000 (v % 2 ^ 14)) })) ∧
    bar0 0x104 (c.modGlb (fun g => { g with unitSel := BitVec.ofNat 32 (v % 2 ^ 16) })) ∧
    bar0 0x120 (c.modGlb (fun g => { g with intStatus := g.intStatus &&& ~~~(w.setWidth 64) })) ∧
    bar0 0x128 (c.modGlb (fun g => { g with intEn := (g.intEn >>> 32) <<< 32 ||| w.setWidth 64 })) ∧
    bar0 0x30010 { c with rst := { c.rst with tileSel := BitVec.ofNat 10 v } } ∧
    bar0 0x5000C (c.modErl (fun l => { l with intCfg := w &&& 0x10003 })) ∧
    bar0 0x70010 (c.modSec (fun x => { x with liningRate := BitVec.ofNat 32 (clampNat 10 20000 (v % 2 ^ 15)) })) ∧
    bar0 0x70014 (c.modSec (fun x => { x with sweepRate := BitVec.ofNat 32 (clampNat 10 20000 (v % 2 ^ 15)) })) ∧
    bar0 0x2000C (c.modPwr (fun x => { x with iccLimit := BitVec.ofNat 32 (clampNat 500 2200 (v % 2 ^ 12)) })) ∧
    bar0 0x20008 (c.modPwr (fun x => { x with ctrl := w &&& 0x00FFFF03 })) ∧
    (∀ e, e < 16 → c.hasUnit 6 e = true → bar0 (0x200000 + 0x10000 * e) (c.modHome e (fun h => { h with dirCfg := w &&& 0x7F03 }))) ∧
    (∀ n, n < 8 → c.hasUnit 9 n = true → bar0 (0x100018 + 0x20000 * n)
      (c.modPort n (fun x => { x with stallTmo := BitVec.ofNat 32 (clampNat 250 2500000 (v % 2 ^ 22)) }))) ∧
    (∀ off wh, off ≠ 0x50004 → exec (.registerWrite ⟨2, off, p, o, wh⟩ w) s =
      .next (s.withCore (c.modGlb (fun g => { g with i3cRefused := g.i3cRefused + 1 })))) ∧
    (∀ ch r, ch < 16 → r < 0x10000 → r % 4 = 0 → chanBus c ch ≠ 1 → exec (.registerWrite ⟨1, BitVec.ofNat 26 (0x10000 * ch + r), p, o, true⟩ w) s =
      .next (s.withCore (mbxWrite ch 0x8000 r w c))) ∧
    (∀ e r, r < 16 → windowEdge p (0x1000 * r + 4) = some e → c.works 8 e = true → windowUser c p o = true →
      ringMayWrite c (tget {} r (c.ptn p).rings) o = true →
      exec (.registerWrite ⟨3, BitVec.ofNat 26 (0x1000 * r + 4), p, o, true⟩ w) s =
        .next (s.withCore ((modRing p r (fun x => Ring.settled { x with tmo := BitVec.ofNat 32 (v % 2 ^ 16) }) c).answer o p 0 { op := opCmp })))

/-- Reads with an effect, event counters, BAR0 timeouts and function resets change and return what their rules say. In a chip out of reset
whose clocks run: RC_READ of HOMEe_TRACKERS and TMGR_Pn_BUF returns the count and peak and clears the peak; of any other word that the RoT
serves, but a counter or TICK_LO, it returns the word and changes nothing, of BAR2 the word of the channel, and a read that is not aligned
is an Unsupported Request (its AER bit is the model's, log 52); TICK_LO_READ returns the tick, latching its high half; EVC_LO_READ returns
the count, or 0 when masked, and latches the high half; EVC_CLEAR leaves the events of its own cycle and clears OVF; EVC_HOLD sets HOLD; a
BAR0 timeout records the address, logs it and answers a read with all ones; PERST_N and FLR clear MSI-X, AER and DOE state and nothing
else. (R6, R481, R482, R483, R531, R538, R539, R564.) -/
def Obligations.ReadEffectsCountersAndBus : Prop :=
  ∀ (s : State), s.ok = true → chipUp s.dev.core = true → frozenChip s.dev.core = false →
    let c := s.dev.core
    (∀ e, e < 16 → c.hasUnit 6 e = true → exec (.rcRead false (BitVec.ofNat 26 (0x20000C + 0x10000 * e)) false) s = .next (s.withCore
      ((c.modHome e (fun h => { h with peak := 0 })).send
        (.readData (BitVec.ofNat 64 (((c.home e).trks.length + (c.home e).peak.toNat * 2 ^ 16) % 2 ^ 32)))))) ∧
    (∀ n, n < 8 → c.hasUnit 9 n = true → exec (.rcRead false (BitVec.ofNat 26 (0x770004 + 16 * n)) false) s = .next (s.withCore
      ((c.modPort n (fun p => { p with bufPeak := 0 })).send (.readData (BitVec.ofNat 64
        (((c.port n).buffered + (c.port n).bufPeak.toNat * 2 ^ 16) % 2 ^ 32)))))) ∧
    (∀ off, off % 4 = 0 → off < 0x4000000 → unitBlock off = false → off ≠ 0x40000 → counterPlace off = none → exec (.rcRead false (BitVec.ofNat 26 off) false) s =
      .next (s.withCore (c.send (.readData (BitVec.ofNat 64 (bar0Word s.dev off % 2 ^ 32)))))) ∧
    (∀ off, off % 4 = 0 → off < 0x4000000 → exec (.rcRead true (BitVec.ofNat 26 off) false) s =
      .next (s.withCore (c.send (.readData (BitVec.ofNat 64 (bar2Word c off % 2 ^ 32)))))) ∧
    (∀ b off, off % 4 ≠ 0 → off < 0x4000000 → exec (.rcRead b (BitVec.ofNat 26 off) false) s =
      .next (s.withCore (c.modGlb (fun g => { g with aer := g.aer ||| 0x100000 })))) ∧
    (∀ wide, ∃ v, exec (.tickLoRead wide) s = .next (s.withCore
      ((c.modEvc (fun e => { e with tickHi := BitVec.ofNat 32 (c.evc.tick.toNat / 2 ^ 32) })).send (.readData v))) ∧
      v.toNat = if wide then c.evc.tick.toNat else c.evc.tick.toNat % 2 ^ 32) ∧
    (∀ off key wide, counterAt c off.toNat = some (key, 0) →
      let m := counterMasked c key
      let n := if m then 0 else (c.counter key).value.toNat
      ∃ v, exec (.evcLoRead off wide) s = .next (s.withCore
        ((putCounter key { c.counter key with hi := BitVec.ofNat 16 (n / 2 ^ 32), masked := m } c).send (.readData v))) ∧
        v.toNat % 2 ^ 32 = n % 2 ^ 32 ∧ (wide = false → v.toNat < 2 ^ 32) ∧
        (wide = true → v.toNat % 2 ^ 48 = n ∧ v.getLsbD 62 = m ∧ v.getLsbD 63 = ((c.counter key).ovf && !m))) ∧
    (∀ off key n, counterAt c off.toNat = some (key, 8) → n < 2 ^ 48 → c.evc.hold = false → ∃ u, exec (.evcClear off n) s = .next u ∧
      s.keeps u ∧ (u.dev.core.counter key).value.toNat = n ∧ (u.dev.core.counter key).ovf = false ∧ u.dev.core.rest = c.rest ∧
      ∀ k, k ≠ key → u.dev.core.counter k = c.counter k) ∧
    (∀ on, exec (.evcHold on) s = .next (s.withCore (c.modEvc (fun e => { e with hold := on })))) ∧
    (∀ off wr, ∃ u, exec (.bar0AccessTimeout off wr) s = .next u ∧ s.keeps u ∧
      u.dev.core.rest = (c.modGlb (fun g => { g with busErr := off, busErrValid := true })).rest ∧
      (wr = false → u.dev.core.out.getLast? = some (.readData 0xFFFFFFFF))) ∧
    exec .perstN s = .next (s.withCore (c.modGlb (fun g => { g with msix := [], pba := 0, aer := 0, doeReady := false }))) ∧
    exec .flr s = .next (s.withCore (c.modGlb (fun g => { g with msix := [], pba := 0, aer := 0, doeReady := false })))

/-- Unit faults, forced and commanded states, drains, timeouts, the reconciler and failed stacks change unit states as their rules say. With
the log's freeze trigger off and no chip freeze: UNIT_FAULT takes a present unit in any state but Off into Failed; UNIT_FORCE enters a
more restrictive state at once; UNIT_COMMAND for the outstanding command enters the next less restrictive state (Held to Ready only when a
controller passes its checks; of the units in Off a cluster that a partition has wakes, one that none has stays, and another unit is
Held), clears it when reached and answers a waiting UNIT_STATE; DRAIN_COMPLETE goes to Ready; a command timeout drops the command and
answers UNIT_REFUSED. RECONCILER_PASS over one unit in disagreement: the more restrictive state wins, the discrepancy is counted and its
cause raised. STACK_FAILED sets the stack's bit at every present port and tile and raises the DATA service cause. (R306, R454, R455, R456,
R457, R458, R464.) -/
def Obligations.UnitStatesAndCommands : Prop :=
  ∀ (s : State) (k i : Nat), s.ok = true → s.dev.core.evc.freezeCfg.getLsbD 3 = false → frozenChip s.dev.core = false →
    let c := s.dev.core
    let x := c.unit k i
    (c.hasUnit k i = true → x.st ≠ .off → x.st ≠ .failed →
      ∃ u, exec (.unitFault k i) s = .next u ∧ s.keeps u ∧ u.dev.core.ust k i = .failed) ∧
    (∀ code st, unitStOf code.toNat = some st → c.hasUnit k i = true → stricter st x.st = true →
      ∃ u, exec (.unitForce k i code) s = .next u ∧ s.keeps u ∧ u.dev.core.ust k i = st ∧ (u.dev.core.unit k i).want = st ∧
        (u.dev.core.unit k i).cmd = none) ∧
    (∀ code st w, x.cmd = some w → unitStOf code.toNat = some st → st = w ∨ (st = .ready ∧ w = .serving) →
      c.hasUnit k i = true → st ≠ .failed → x.st ≠ .failed → x.st ≠ .fenced → (k = 4 → (c.tile i).resetting = false) → stricter x.st st = true →
      x.st ≠ .off → (x.st = .held → st = .ready ∧ (k = 7 → (hbmcCheck i c).isNone)) →
      ∃ u, exec (.unitCommand k i code) s = .next u ∧ s.keeps u ∧ u.dev.core.ust k i = st ∧
        (u.dev.core.unit k i).cmd = (if st = w then none else some w) ∧
        (∀ m, st = w → x.ch = some m → c.rot.detached = [] → (u.dev.core.mb m).st = .done ∧ (u.dev.core.mb m).result = 0)) ∧
    (∀ w, x.cmd = some w → w = .held ∨ w = .ready ∨ w = .serving → c.hasUnit 4 i = true → k = 4 → x.st = .off → (c.tile i).resetting = false →
      ((c.tile i).assigned = true → exec (.unitCommand 4 i 1) s = .next (s.withCore (c.modTile i (fun y => { y with waking := true })))) ∧
      ((c.tile i).assigned = false → exec (.unitCommand 4 i 1) s = .next s)) ∧
    (∀ w, x.cmd = some w → w = .held ∨ w = .ready ∨ w = .serving → c.hasUnit k i = true → k ≠ 4 → x.st = .off →
      ∃ u, exec (.unitCommand k i 1) s = .next u ∧ s.keeps u ∧ u.dev.core.ust k i = .held ∧
        (u.dev.core.unit k i).cmd = (if w = .held then none else some w)) ∧
    (c.hasUnit k i = true → x.st = .draining → drained c k i = true →
      exec (.drainComplete k i) s = .next (s.withCore (c.setUnit k i { x with st := .ready, want := .ready }))) ∧
    (x.cmd.isSome = true → ∃ u, exec (.unitCommandTimeout k i) s = .next u ∧ s.keeps u ∧ u.dev.core.unit k i = { x with cmd := none, ch := none } ∧
      (∀ m, x.ch = some m → c.rot.detached = [] → (u.dev.core.mb m).st = .done ∧ (u.dev.core.mb m).result = 0x32)) ∧
    (∀ m, m < 6 → mgrUp c m = true → mgrsStarted c = true → c.rot.units = [(k * 4096 + i, x)] → i < 4096 → managerOf k i = m →
      c.hasUnit k i = true → x.cmd = none → underReset c k i = false → x.st ≠ x.want →
      ∃ u, exec (.reconcilerPass m) s = .next u ∧ s.keeps u ∧ u.dev.core.glb.discrepancy = c.glb.discrepancy + 1 ∧
        u.dev.core.glb.intStatus.getLsbD 19 = true ∧
        (stricter x.st x.want = true → (u.dev.core.unit k i).want = x.st ∧ u.dev.core.ust k i = x.st) ∧
        (stricter x.st x.want = false → u.dev.core.ust k i = x.want)) ∧
    (c.hasUnit 6 i = true → (c.home i).failTold = false → c.ust 6 i = .failed ∨ c.ust 7 i = .failed →
      ∃ u, exec (.stackFailed i) s = .next u ∧ s.keeps u ∧ (u.dev.core.home i).failTold = true ∧ u.dev.core.glb.service.getLsbD 0 = true ∧
        u.dev.core.erl.service.getLsbD 2 = true ∧ (∀ n ∈ presentPorts c, (u.dev.core.port n).stackFailed.getLsbD i = true) ∧
        (∀ t, t < 840 → (u.dev.core.tile t).stackFailed.getLsbD i = true))

/-- Watchdog kicks, expiries and restarts of the RoT and the domain managers change what their rules say. The RoT's kick advances the
heartbeat. Its expiry starts a restart: counted (saturating at 255), service cause 8, interrupt vectors 17 and 18. ROT_RESUME ends the
restart, derives the keys anew from the same measurements and writes the held log entries. A manager's expiry restarts it, logged; with
three restarts within the last second (25,000,000 ticks) it stays stopped and service cause 9 is raised. MANAGER_RESTART ends its restart.
That the limit counts the last second of ticks is the model's reading (log 47). (R461, R462, R463, R528.) -/
def Obligations.RotAndManagerWatchdogs : Prop :=
  ∀ (s : State) (m : Nat), s.ok = true →
    let c := s.dev.core
    let x := c.mgr m
    let recent := x.restarts.filter (fun t => decide ((c.evc.tick - t).toNat ≤ 25000000))
    (rotUp c = true → exec .rotWatchdogKick s = .next (s.withCore (c.modGlb (fun g => { g with heartbeat := g.heartbeat + 1 })))) ∧
    (rotUp c = true → ∃ u, exec .rotWatchdogExpiry s = .next u ∧ s.keeps u ∧
      u.dev.core.rest = (c.modGlb (fun g => { g with restarting := true, restarts := BitVec.ofNat 8 (min 255 (g.restarts.toNat + 1)) })).rest ∧
      u.dev.core.glb.service.getLsbD 8 = true ∧ u.dev.core.glb.intStatus.getLsbD 18 = true) ∧
    (c.glb.restarting = true → c.pins.powered = true → c.pins.resetN = true → ∃ u, exec .rotResume s = .next u ∧ s.keeps u ∧
      u.dev.core.glb.restarting = false ∧ u.dev.core.erl.heldLog = [] ∧
      (c.rot.actions = [] → u.dev.core.rest = (bootKeys (c.modGlb (fun g => { g with restarting := false }))).rest)) ∧
    (m < 6 → x.stopped = false → x.restarting = false → chipUp c = true → c.sec.attestReady = true →
      ∃ u, exec (.managerWatchdogExpiry m) s = .next u ∧ s.keeps u ∧
        (recent.length < 3 → u.dev.core.rest = (c.setMgr m { x with restarting := true, restarts := recent ++ [c.evc.tick] }).rest) ∧
        (3 ≤ recent.length → u.dev.core.rest = (c.setMgr m { x with stopped := true, restarts := recent }).rest ∧
          u.dev.core.glb.service.getLsbD 9 = true)) ∧
    (x.restarting = true → ∃ u, exec (.managerRestart m) s = .next u ∧ s.keeps u ∧ (u.dev.core.mgr m).restarting = false ∧
      (m ≠ 4 → u = s.withCore (c.setMgr m { x with restarting := false })))

/-- Control intervals, the current limit, thermal samples and parking set draws, levels, floors, the trip and power states as the power rules
say. A control interval with lending off (log 44 for whole watts): each enabled partition's draw is shown; a running cluster's level rises
by one, to at most 15, when the draw exceeds the budget, falls by one when it is below 90 % of it, and never lies below its floor; VID
moves by at most one code. Above ICC_LIMIT the clamp holds every running cluster at level 8 or more; a sample below 95 % of it releases
the clamp. A thermal sample shows the hottest die reading, moves each field's floor by one step, and at a trip temperature drives
THERM_TRIP and sets RST_CAUSE 3. A gated cluster is parked after PARK_TICKS unless it wakes. (R492, R495, R497, R498, R499, R500, R501.) -/
def Obligations.PowerThermalAndParking : Prop :=
  ∀ (s : State), s.ok = true → chipUp s.dev.core = true →
    let c := s.dev.core
    (∀ acts, frozenChip c = false → (c.pwr.ctrl.getLsbD 0 = false ∨ c.pwr.ctrl.getLsbD 1 = false) → twf {} c.tiles = true →
      ∃ u, exec (.powerInterval acts) s = .next u ∧ s.keeps u ∧
        (∀ p, p < 32 → (c.ptn p).en = true → (tget {} p u.dev.core.pwr.ptns).draw = BitVec.ofNat 12 (ptnDraw c acts p / 16000)) ∧
        (∀ t, runsPower c t = true → (c.tile t).assigned = true → (c.tile t).ptn < 32 → (c.ptn (c.tile t).ptn).en = true →
          let b := (tget {} (c.tile t).ptn c.pwr.ptns).budget.toNat * 16000
          let d := ptnDraw c acts (c.tile t).ptn
          let l := (c.tile t).level
          (u.dev.core.tile t).level = max (levelFloor c t) (if b < d then min 15 (l + 1) else if d * 10 < b * 9 then l - 1 else l)) ∧
        (u.dev.core.pins.vid = c.pins.vid ∨ u.dev.core.pins.vid = c.pins.vid + 1 ∨ u.dev.core.pins.vid = c.pins.vid - 1)) ∧
    (∀ amps : BitVec 12, iccAmps c < amps.toNat → ∃ u, exec (.iccLimitExceeded amps) s = .next u ∧ s.keeps u ∧ u.dev.core.pwr.iccClamp = true ∧
      u.dev.core.pwr.icc = amps ∧ ∀ t, runsPower c t = true → 8 ≤ (u.dev.core.tile t).level) ∧
    (∀ amps : BitVec 12, amps.toNat * 100 < iccAmps c * 95 →
      exec (.iccClampRelease amps) s = .next (s.withCore (c.modPwr (fun w => { w with icc := amps, iccClamp := false })))) ∧
    (∀ k : Temps, ∃ u, exec (.thermalSample k) s = .next u ∧ u.pending = s.pending ∧
      let die := readings (k.die.take 857)
      let lim := field c.pwr.therm 7 0
      u.dev.core.pwr.dieMax = BitVec.ofNat 8 (min 255 ((k.die.take 857).foldl max 0)) ∧
      (110 ≤ (k.die.take 857).foldl max 0 → u.dev.core.pins.thermTrip = true ∧
        (c.pins.thermTrip = false → u.dev.perm = { s.dev.perm with rstCause := 3 })) ∧
      ∀ f, f < 4 →
        let mine := die.filter (fun r => decide (sensorField r.1 = f))
        let fl := tget 0 f c.pwr.floors
        tget 0 f u.dev.core.pwr.floors = if mine.any (fun r => decide (lim ≤ r.2)) then min 15 (fl + 1)
          else if mine.all (fun r => decide (r.2 + 3 ≤ lim)) then fl - 1 else fl) ∧
    (∀ t, (c.tile t).power = .gated → (c.tile t).waking = false → (c.tile t).inbox = [] → field c.pwr.ctrl 23 8 ≠ 0 →
      exec (.parkDelay t) s = .next (s.withCore (c.modTile t (fun x => { x with power := .parked }))))

/-- Freeze triggers stop the chip or fence a partition's clusters; JTAG segments open or are refused and are counted. FREEZE_GO with its
enable: in chip scope the chip is frozen with cause 1; in partition scope, with no action running on the partition, its clusters are
fenced, but failed ones. The freeze pin freezes the chip with cause 2. A JTAG segment of a frozen unit opens unless the part is locked and
its tenant has not consented; the header carries class, index, REFUSED and MASKED, then come the contents (of a cluster its local store,
registers and channels, of a router its buffers; of the others by R544 and R545), and the opened or refused count advances; a unit that is
not frozen is refused with the header alone (log 46 for the rules of REFUSED). (R541, R542, R543, R544, R545.) -/
def Obligations.FreezeAndReadOut : Prop :=
  ∀ (s : State), s.ok = true → chipUp s.dev.core = true →
    let c := s.dev.core
    let p := field c.evc.freezeCfg 20 16
    (c.evc.freezeCfg.getLsbD 1 = true → c.evc.fzState ≠ 3 → c.evc.freezeCfg.getLsbD 0 = false →
      ∃ u, exec .freezeGo s = .next u ∧ s.keeps u ∧ frozenChip u.dev.core = true ∧ u.dev.core.evc.fzCause = 1 ∧ u.dev.core.rest = c.rest) ∧
    (c.evc.freezeCfg.getLsbD 1 = true → c.evc.fzState ≠ 3 → c.evc.freezeCfg.getLsbD 0 = true → actionOf c p = none →
      ∃ u, exec .freezeGo s = .next u ∧ s.keeps u ∧ frozenPtn u.dev.core p = true ∧ u.dev.core.evc.fzCause = 1 ∧ u.dev.core.rest = c.rest ∧
        ∀ t ∈ ptnTiles c p, u.dev.core.ust 4 t = if c.ust 4 t = .failed then .failed else .fenced) ∧
    (inService c = true → c.evc.freezeCfg.getLsbD 2 = true → c.evc.fzState ≠ 3 →
      ∃ u, exec .freezePin s = .next u ∧ s.keeps u ∧ frozenChip u.dev.core = true ∧ u.dev.core.evc.fzCause = 2 ∧ u.dev.core.rest = c.rest) ∧
    (∀ k i, k < 16 → i < 4096 →
      let refused : Prop := unitFrozen c k i = false ∨
        (k = 4 ∧ c.sec.debugLock = true ∧ (c.tile i).assigned = true ∧ c.sec.consent.getLsbD (c.tile i).ptn = false)
      ∃ u hdr seg op re, exec (.jtagSegmentOpen k i) s = .next u ∧
        u = s.withCore { c with out := c.out ++ [.jtag hdr seg], evc := { c.evc with opened := op, refused := re } } ∧
        hdr.toNat % 2 ^ 16 = k + 16 * i ∧ (hdr.getLsbD 16 = true ↔ refused) ∧
        (hdr.getLsbD 17 = true ↔ ¬refused ∧ k ≠ 4 ∧ c.sec.debugLock = true ∧ ∃ e ∈ c.ptns, e.2.en = true ∧ c.sec.consent.getLsbD e.1 = false) ∧
        (refused → seg = .closed) ∧ (¬refused → seg = segment c k i) ∧
        (¬refused → k = 4 → seg = .cluster (c.tile i).ls (c.tile i).lsPoison (c.tile i).seq (c.tile i).vec (c.tile i).chans) ∧
        (¬refused → k = 5 → seg = .router (c.router i).bufs) ∧
        op = (if refused then c.evc.opened else c.evc.opened + 1) ∧
        re = (if refused ∧ unitFrozen c k i = true then c.evc.refused + 1 else c.evc.refused))

/-- Sequencer, cluster and partition resets begin and end with the states and registers that the reset rules give. Outside a chip freeze, for
the selected, enabled, mapped tile with no reset running: SEQUENCER_RESET clears the sequencer, discards queued vector, array and DMA work
but lines already issued, keeps local store and vector registers, and shows RST busy; CLUSTER_RESET does that and drains the cluster. When
no line is outstanding the reset ends with RST done and result 0; a cluster reset also clears WIN_GEN, the limiter and the t registers and
leaves the cluster Held, or Off if it has no power. PTNp_RESET of an enabled partition without an action starts step 1: HOSTS_FENCED, STEP
1, BUSY; a partition not enabled or busy gives its code in RESULT (log 49). The seam timer fences every host with a transaction at a home.
(R502, R503, R504, R505, R506, R508, R511.) -/
def Obligations.TileAndPartitionResets : Prop :=
  ∀ (s : State), s.ok = true →
    let c := s.dev.core
    (∀ t b, chipUp c = true → frozenChip c = false → c.rst.tileSel.toNat = t → t < 840 → c.rst.st ≠ 1 → (c.tile t).resetting = false → (c.tile t).en = true →
      c.tileOf (c.tile t).logical = some t → ((c.tile t).assigned = true → (c.ptn (c.tile t).ptn).resetStep = 0) →
      ∃ u, exec (if b then .clusterReset t else .sequencerReset t) s = .next u ∧ s.keeps u ∧
        u.dev.core.rst = { c.rst with st := 1, result := 0, tile := t } ∧
        (let x := c.tile t
         let y := u.dev.core.tile t
         y.seq = {} ∧ y.vec = { x.vec with arrayQ := [], vecQ := [] } ∧ y.ls = x.ls ∧ y.lsPoison = x.lsPoison ∧ y.resetting = true ∧ y.resetCluster = b ∧
         y.work = failWork x.work 0x40 (BitVec.ofNat 64 x.logical) ∧
         (twf {} x.chans = true → ∀ k, chanOf y k = { lines := (chanOf x k).lines })) ∧
        (b = true → stricter .draining (c.ust 4 t) = true → u.dev.core.ust 4 t = .draining)) ∧
    (∀ t, (c.tile t).resetting = true → linesOut (c.tile t) = 0 → frozenChip c = false →
      ∃ u, exec (.sequencerResetDone t) s = .next u ∧ s.keeps u ∧
        (let x := c.tile t
         let y := u.dev.core.tile t
         y.seq = {} ∧ y.chans = [] ∧ y.resetting = false ∧ y.ls = x.ls ∧ y.vec.v = x.vec.v ∧
         (x.resetCluster = true → y.winGen = 0 ∧ y.rate = 65536 ∧ y.vec.td = [] ∧
           u.dev.core.ust 4 t = if c.ust 4 t = .off then .off else .held) ∧
         (x.resetCluster = false → y.vec = x.vec ∧ u.dev.core.rot = c.rot)) ∧
        (c.rst.st = 1 → c.rst.tile = t → u.dev.core.rst = { c.rst with st := 2, result := 0 })) ∧
    (∀ p f, rotUp c = true → p < 32 → frozenChip c = false → (c.ptn p).resetBusy = false →
      ((c.ptn p).en = true → ptnBusy c p = false → ∃ u a, exec (.partitionReset p f) s = .next u ∧ s.keeps u ∧
        u.dev.core.ptn p = { c.ptn p with forced := f, hostsFenced := true, resetStep := 1, resetBusy := true } ∧
        actionOf u.dev.core p = some a ∧ a.kind = 1 ∧ a.step = 11 ∧ a.await = [4, 5]) ∧
      ((c.ptn p).en = false → exec (.partitionReset p f) s =
        .next (s.withCore (c.setPtn p { c.ptn p with forced := f, resetResult := BitVec.ofNat 8 stPtnNotEnabled }))) ∧
      ((c.ptn p).en = true → ptnBusy c p = true → exec (.partitionReset p f) s =
        .next (s.withCore (c.setPtn p { c.ptn p with forced := f, resetResult := BitVec.ofNat 8 stPartitionBusy })))) ∧
    (∀ p, p ∈ c.rot.seam → ∃ u, exec (.seamTimeout p) s = .next u ∧ s.keeps u ∧ p ∉ u.dev.core.rot.seam ∧
      ∀ h ∈ transactHosts c p, (u.dev.core.host h).st = 1)

/-- A GO submits, is ignored or refused; unlisted codes, ECHO and REPORT_CHUNK are answered as their rules say. At a device channel a GO in a
chip out of reset submits a request when the channel is idle or done, else it is ignored and counted. A host's GO at its partition's
tenant mailbox through a working edge unit submits and is answered Cmp, or, while a request is accepted or running, NackRevoked. A request
that the RoT takes: an unlisted code is answered BAD_REQUEST, ECHO OK with DATA unchanged, REPORT_CHUNK OK with the chunk's words in the
buffer (zeros past the end of the report) or CHUNK_RANGE; an answer sets RESULT and TAG, STATE done and the channel's interrupt. (R464,
R465, R466, R467, R468, R469.) -/
def Obligations.MailboxSubmissionAndAnswers : Prop :=
  ∀ (s : State) (ch : Nat), s.ok = true →
    let c := s.dev.core
    let m := c.mb ch
    (∀ o : Origin, chipUp c = true → ch < 16 → o.kind ≠ 1 →
      (m.st = .idle ∨ m.st = .done →
        exec (.mailboxGo ch o) s = .next (s.withCore (c.setMb ch { m with st := .accepted, full := true, goHost := 0 }))) ∧
      (m.st = .accepted ∨ m.st = .running →
        exec (.mailboxGo ch o) s = .next (s.withCore (c.setMb ch { m with ignored := m.ignored + 1 })))) ∧
    (∀ o : Origin, chipUp c = true → 16 ≤ ch → ch < 48 → o.kind = 1 → (c.host o.idx).valid = true → (c.host o.idx).p = ch - 16 →
      tenantEdgeUp c (ch - 16) = true →
      (m.st = .idle ∨ m.st = .done → exec (.mailboxGo ch o) s = .next (s.withCore
        ((c.setMb ch { m with st := .accepted, full := true, goHost := o.idx }).answer o (ch - 16) 0 { op := opCmp }))) ∧
      (m.st = .accepted ∨ m.st = .running → exec (.mailboxGo ch o) s = .next (s.withCore
        (c.answer o (ch - 16) 0 { op := opNackRevoked, reason := 4 })))) ∧
    (reqCode c ch ∉ listedCodes → taken c ch (reqCode c ch) 7 = true → answered s ch 0x30 c (exec (.unlistedRequest ch) s)) ∧
    (taken c ch 0x070 7 = true → answered s ch 0 c (exec (.echo ch) s)) ∧
    (taken c ch 0x044 7 = true →
      let n := (reqData c ch 0).toNat
      let size := if ch < 16 then 0x8000 else 0xC00
      let ws := tget [] ch c.sec.reports
      (4 * ws.length ≤ n * size → answered s ch 0x38 c (exec (.reportChunk ch) s)) ∧
      (n * size < 4 * ws.length → ∃ u b, exec (.reportChunk ch) s = .next u ∧ s.keeps u ∧ u.dev.core.mb ch = { mbAnswer m 0 with buf := b } ∧
        ∀ i, i < size / 4 → rdLE b (4 * i) 4 = (ws.getD (n * (size / 4) + i) 0).toNat))

/-- EXT_MAP, EXT_GRANT, EXT_REVOKE and EXT_UNMAP start their actions with the entries that the extent rules give, or are refused by name. A
taken request with legal fields, of a partition on which no action runs. EXT_MAP of a free entry, within quota and type, takes the lowest
free PPA extent and starts the map action; a mapped entry or a full quota is refused. EXT_GRANT to a group without a slot writes group,
access and expiry into the lowest empty slot (the model's choice of slot, log 142) and starts the grant action, or is refused with every
slot taken; to a group with a slot it writes access and expiry there, as a graceful revocation of write access where that is lowered;
ALLGRP clears the slots. EXT_REVOKE of a group with a slot, or of all groups, writes the entry without it with LIFE = revoking and the
next sequence number and starts the revocation; with nothing to revoke it is answered OK; of one group of ALLGRP it gives the other groups
slots (in ascending order: the model's choice, log 142), or is refused when they are more than four. EXT_UNMAP of an entry outside a
created region does the same without any grant left. That the slots are cleared under ALLGRP is the model's choice (log 31). (R50, R51,
R52, R53, R58, R60, R573, R574.) -/
def Obligations.ExtentRequests : Prop :=
  ∀ (s : State) (ch : Nat), s.ok = true →
    let c := s.dev.core
    let p := reqPtn c ch
    let d0 := reqData c ch 0
    let d1 := reqData c ch 1
    let d2 := reqData c ch 2
    let i := field d0 9 0
    let x := c.masterExt p i
    let g := field d1 8 0
    ptnBusy c p = false → i ≤ 895 →
    (taken c ch 0x001 7 = true → reservedClear d0 0x007303FF = true → reservedClear d1 0x3FF = true → field d0 22 20 ≤ 4 →
      let typ := field d0 17 16
      let r := field d1 9 0
      (x.valid = true → answered s ch 0x04 c (exec (.extMap ch) s)) ∧
      (x.valid = false → ¬((c.ptn p).mirrored = true ∧ (typ = 0 ∨ typ = 3)) → (typ = 1 → c.regionOwner r = some p) →
        ((c.ptn p).quota ≤ mappedCount c p → answered s ch 0x02 c (exec (.extMap ch) s)) ∧
        (∀ ppa, mappedCount c p < (c.ptn p).quota → lowestFree c (field d0 22 20) = some ppa → ∃ u, exec (.extMap ch) s = .next u ∧ s.keeps u ∧
          ppa ∈ u.dev.core.rot.taken ∧ acting u p 4 (some ch) 3 (fun a => a.await = [5] ∧ a.i = i ∧
            a.ent = { valid := true, typ := BitVec.ofNat 2 typ, ppa := ppa, region := if typ = 1 then r else 0 })))) ∧
    (taken c ch 0x002 7 = true → reservedClear d0 0x3FF = true → reservedClear d1 0x000301FF = true → reservedClear d2 0x00FFFFFF = true →
      grantExpired c p i g = false → x.valid = true → x.typ ≠ 3 →
      let e := field d2 23 0
      let acc := BitVec.ofNat 2 (field d1 17 16)
      (∀ j, g < 256 → ownsGroup c p g = true → acc = 1 ∨ acc = 2 → x.allGrp = false → x.slots.all (fun t => !decide (t.1 = g ∧ t.2 ≠ 0)) = true →
        x.slots.findIdx? (fun t => decide (t.2 = 0)) = some j → ∃ u, exec (.extGrant ch) s = .next u ∧ s.keeps u ∧
          u.dev.core.masterExt p i = slotExpiry { x with slots := x.slots.set j (g, acc) } j e ∧ acting u p 5 (some ch) 4 (fun a => a.await = [5])) ∧
      (∀ j, g < 256 → ownsGroup c p g = true → acc = 1 ∨ acc = 2 → x.allGrp = false →
        x.slots.findIdx? (fun t => decide (t.1 = g ∧ t.2 ≠ 0)) = some j → (x.slots.getD j (0, 0)).2 ≠ 2 ∨ acc = 2 →
        ∃ u, exec (.extGrant ch) s = .next u ∧ s.keeps u ∧
          u.dev.core.masterExt p i = slotExpiry { x with slots := x.slots.set j (g, acc) } j e ∧ acting u p 5 (some ch) 4 (fun a => a.await = [5])) ∧
      (∀ j, g < 256 → ownsGroup c p g = true → acc = 1 → x.allGrp = false →
        x.slots.findIdx? (fun t => decide (t.1 = g ∧ t.2 ≠ 0)) = some j → (x.slots.getD j (0, 0)).2 = 2 →
        ∃ u, exec (.extGrant ch) s = .next u ∧ s.keeps u ∧
          u.dev.core.masterExt p i = { slotExpiry { x with slots := x.slots.set j (g, 1) } j e with life := 1 } ∧
          acting u p 6 (some ch) 6 (fun a => a.await = [5] ∧ a.groups = [g] ∧ a.lower = true ∧ a.forced = false)) ∧
      (g < 256 → ownsGroup c p g = true → acc = 1 ∨ acc = 2 → x.allGrp = false → x.slots.all (fun t => !decide (t.1 = g ∧ t.2 ≠ 0)) = true →
        x.slots.findIdx? (fun t => decide (t.2 = 0)) = none → answered s ch 0x07 c (exec (.extGrant ch) s)) ∧
      (g = 256 → acc = 2 → ∃ u, exec (.extGrant ch) s = .next u ∧ s.keeps u ∧
          u.dev.core.masterExt p i = { x with allGrp := true, slots := noSlots, ms := e, msSlots := 0, msAll := decide (e ≠ 0) } ∧
          acting u p 5 (some ch) 4 (fun a => a.await = [5]))) ∧
    (taken c ch 0x003 7 = true → reservedClear d0 0x3FF = true → reservedClear d1 0x000101FF = true → x.valid = true →
      (∀ gs ent, (g = 256 ∧ hasGrant x = true ∧ gs = groupsOf c p ∧ ent = dropAll x) ∨
          (g < 256 ∧ ownsGroup c p g = true ∧ x.allGrp = false ∧ x.slots.any (fun t => decide (t.1 = g ∧ t.2 ≠ 0)) = true ∧ gs = [g] ∧ ent = dropSlots x [g]) →
        ∃ u, exec (.extRevoke ch) s = .next u ∧ s.keeps u ∧ u.dev.core.masterExt p i = { ent with life := 1 } ∧
          acting u p 6 (some ch) 6 (fun a => a.await = [5] ∧ a.groups = gs ∧ a.forced = d1.getLsbD 16 ∧ a.seq = nextSeq c.rot.lastSeq)) ∧
      (let others := (groupsOf c p).filter (fun k => decide (k ≠ g))
       g < 256 → ownsGroup c p g = true → x.allGrp = true →
        (others ≠ [] → others.length ≤ 4 → ∃ u, exec (.extRevoke ch) s = .next u ∧ s.keeps u ∧
          u.dev.core.masterExt p i = { splitAll x others with life := 1 } ∧ acting u p 6 (some ch) 6 (fun a => a.await = [5] ∧ a.groups = [g])) ∧
        (4 < others.length → answered s ch 0x07 c (exec (.extRevoke ch) s))) ∧
      (g = 256 → hasGrant x = false → answered s ch 0 c (exec (.extRevoke ch) s)) ∧
      (g < 256 → ownsGroup c p g = false → answered s ch 0x06 c (exec (.extRevoke ch) s))) ∧
    (taken c ch 0x004 7 = true → reservedClear d0 0x3FF = true → reservedClear d1 0x00010000 = true →
      (x.valid = false → answered s ch 0x05 c (exec (.extUnmap ch) s)) ∧
      (x.valid = true → ¬(x.typ = 1 ∧ (c.region x.region).created = true ∧ (c.region x.region).p = p ∧ (c.region x.region).base ≤ i ∧
          i < (c.region x.region).base + (c.region x.region).v + (c.region x.region).q) →
        ∃ u, exec (.extUnmap ch) s = .next u ∧ s.keeps u ∧ u.dev.core.masterExt p i = { dropAll x with life := 1 } ∧
          ∃ a, actionOf u.dev.core p = some a ∧ a.kind = 7 ∧ a.ch = some ch ∧ a.unmap = true ∧ a.groups = groupsOf c p ∧ a.await ≠ []))

/-- HOST_ADMIT, HOST_REMOVE, HOST_FENCE and expired grants change the host table and start the actions that their rules name. HOST_ADMIT with
legal fields takes the lowest free host index, writes endpoint, partition, group and port, and answers the index in DATA0; a second
admission of an endpoint is refused. HOST_REMOVE of an admitted host marks it removing and starts the removal; of a fenced one whose walk
has ended it clears the entry. HOST_FENCE of a host that is not fenced fences it and starts the walk. GRANT_EXPIRY clears the running
count; while an action runs the revocation is queued, else the covered slots, or ALLGRP, are revoked gracefully. QUEUED_REVOCATION_START
starts the oldest queued one. (R51, R54, R55, R58, R88, R402, R573.) -/
def Obligations.HostRequestsAndExpiry : Prop :=
  ∀ (s : State) (ch : Nat), s.ok = true →
    let c := s.dev.core
    let p := reqPtn c ch
    let d0 := reqData c ch 0
    let d1 := reqData c ch 1
    let h := field d0 11 0
    (taken c ch 0x005 7 = true → ptnHeld c p = false → ptnBusy c p = false → reservedClear d0 0x3FFFF = true → reservedClear d1 0x7FF = true →
      field d1 10 8 ∈ presentPorts c → (c.port (field d1 10 8)).cfg.getLsbD 4 = false → ownsGroup c p (field d1 7 0) = true →
      let ep := BitVec.ofNat 18 (field d0 17 0)
      (c.hosts.any (fun k => k.2.valid && decide (k.2.ep = ep ∧ k.2.p = p)) = true → answered s ch 0x0B c (exec (.hostAdmit ch) s)) ∧
      (∀ k, c.hosts.any (fun k => k.2.valid && decide (k.2.ep = ep ∧ k.2.p = p)) = false → k < 4096 → (c.host k).valid = false →
        (∀ j, j < k → (c.host j).valid = true) → ∃ u, exec (.hostAdmit ch) s = .next u ∧ s.keeps u ∧
          u.dev.core.host k = { ep := ep, p := p, group := field d1 7 0, valid := true, st := 0, port := field d1 10 8 } ∧
          (∀ j, j ≠ k → u.dev.core.host j = c.host j) ∧ tget 0 k u.dev.core.mesh.hostPort = field d1 10 8 ∧
          u.dev.core.mb ch = { mbAnswer (c.mb ch) 0 with data := tput 0 0 (BitVec.ofNat 32 k) (c.mb ch).data })) ∧
    (taken c ch 0x006 7 = true → ptnBusy c p = false → reservedClear d0 0xFFF = true → (c.host h).valid = true → (c.host h).p = p →
      ((c.host h).st ≠ 1 → ∃ u, exec (.hostRemove ch) s = .next u ∧ s.keeps u ∧ (u.dev.core.host h).st = 2 ∧
        acting u p 10 (some ch) 20 (fun a => a.host = h ∧ a.await = [5])) ∧
      ((c.host h).st = 1 → c.rot.walks.all (fun w => decide (w.1 ≠ h)) = true → ∃ u, exec (.hostRemove ch) s = .next u ∧ s.keeps u ∧
        u.dev.core.host h = {} ∧ (u.dev.core.mb ch).st = .done ∧ (u.dev.core.mb ch).result = 0)) ∧
    (taken c ch 0x007 3 = true → reservedClear d0 0xFFF = true → reservedClear d1 0xFF = true → (c.host h).valid = true → (c.host h).p = p →
      ((c.host h).st ≠ 1 → ∃ u, exec (.hostFence ch) s = .next u ∧ s.keeps u ∧ u.dev.core.host h = { c.host h with st := 1 } ∧
        (h, liveHomes c, 0, 0) ∈ u.dev.core.rot.walks ∧ u.dev.core.mb ch = mbAnswer (c.mb ch) 0) ∧
      ((c.host h).st = 1 → answered s ch 0x0D c (exec (.hostFence ch) s))) ∧
    (∀ q i, rotUp c = true → (c.masterExt q i).valid = true → (c.masterExt q i).ms ≠ 0 →
      let x := c.masterExt q i
      (ptnBusy c q = true → exec (.grantExpiry q i) s = .next (s.withCore
        ((setMaster q i { x with ms := 0, msSlots := 0, msAll := false } c).modRot (fun r => { r with
          expired := r.expired.filter (fun k => decide (k.2.2.2 = c.evc.tick)) ++ [(q, i, coveredGroups x, c.evc.tick)]
          queued := r.queued ++ [(q, i, coveredGroups x)] })))) ∧
      (ptnBusy c q = false → (x.msAll = true ∧ x.allGrp = true) ∨ (x.msAll = false ∧ coveredGroups x ≠ [] ∧ 256 ∉ coveredGroups x) →
        ∃ u, exec (.grantExpiry q i) s = .next u ∧ s.keeps u ∧ (u.dev.core.masterExt q i).life = 1 ∧ (u.dev.core.masterExt q i).ms = 0 ∧
          acting u q 6 none 6 (fun a => a.i = i ∧ a.forced = false ∧ a.await = [5]))) ∧
    (∀ q i gs, rotUp c = true → actionOf c q = none → c.rot.queued.find? (fun k => decide (k.1 = q)) = some (q, i, gs) →
      (c.masterExt q i).valid = true → 256 ∉ gs → (c.masterExt q i).slots.any (fun t => gs.contains t.1 && decide (t.2 ≠ 0)) = true →
      ∃ u, exec (.queuedRevocationStart q) s = .next u ∧ s.keeps u ∧ u.dev.core.rot.queued = c.rot.queued.erase (q, i, gs) ∧
        u.dev.core.masterExt q i = { dropSlots (c.masterExt q i) gs with life := 1 } ∧ acting u q 6 none 6 (fun a => a.i = i ∧ a.groups = gs))

/-- Entry installs, commit markers, lining lines, walks and step reports carry a partition-wide action forward as its rules say.
EXTENT_ENTRY_INSTALL writes the action's entry at the home; in a revocation the home also takes its mode and sends a marker on both planes
to every present port. COMMIT_MARKER is held at the port, and with the last one the port's copy changes and it reports. LINING_LINE writes
zeros over the pass's next line, clears its poison and moves the pass on. RECALL_WALK_DONE ends the home's walk and reports.
FENCE_WALK_DONE ends the walk of a host and logs it. STEP_COMPLETE_REPORT of an awaited manager to which the step has come over the
control ring and whose step is complete takes it from the list, with its skipped units, and while others are awaited nothing else happens.
(R25, R27, R56, R57, R87, R89, R348, R350.) -/
def Obligations.ActionStepsAndReports : Prop :=
  ∀ (s : State), s.ok = true →
    let c := s.dev.core
    (∀ e p a, actionOf c p = some a → e ∈ liveHomes c → a.step = 4 ∨ a.step = 6 → c.homeExt e p a.i ≠ a.ent → mgrUp c 5 = true →
      ∃ u, exec (.extentEntryInstall e p a.i) s = .next u ∧ s.keeps u ∧ u.dev.core.homeExt e p a.i = a.ent ∧
        (a.step = 4 → u.dev.core.out = c.out) ∧
        (a.step = 6 → tget none (p * 1024 + a.i) (u.dev.core.home e).mode = some (a.forced, a.groups) ∧
          ∀ n ∈ presentPorts c, ∀ b, Msg.commitMarker e n a.seq b ∈ u.dev.core.out)) ∧
    (∀ n e q b a, c.rot.actions.find? (fun a => decide (a.seq = q) && (decide (a.step = 6) || decide (a.step = 7))) = some a →
      n ∈ presentPorts c → c.homeExt e a.p a.i = a.ent → (e, b, q) ∉ (c.port n).markers →
      let d := c.modPort n (fun x => { x with markers := x.markers ++ [(e, b, q)] })
      (allMarkers d n q = false → exec (.commitMarker n e q b) s = .next (s.withCore d)) ∧
      (allMarkers d n q = true → tget {} (a.p * 1024 + a.i) (c.port n).ext = a.ent → exec (.commitMarker n e q b) s = .next (s.withCore d)) ∧
      (allMarkers d n q = true → tget {} (a.p * 1024 + a.i) (c.port n).ext ≠ a.ent → ∃ u, exec (.commitMarker n e q b) s = .next u ∧ s.keeps u ∧
        tget {} (a.p * 1024 + a.i) (u.dev.core.port n).ext = a.ent ∧ u.dev.core.out = c.out ++ [.report 9 n 1 a.p])) ∧
    (∀ e p k r rs, c.works 6 e = true → (c.home e).passes.find? (fun k => decide (k.what = 0 ∧ k.p = p)) = some k → k.ranges = r :: rs →
      let l := r.1 + k.pos
      ∃ u, exec (.liningLine e p) s = .next u ∧ s.keeps u ∧
        (∀ a, rdByte u.dev.core.mem a = if caKey e (l * 128) ≤ a ∧ a < caKey e (l * 128) + 128 then 0 else rdByte c.mem a) ∧
        (u.dev.core.lmeta e l).poison = false ∧ (u.dev.core.lmeta e l).gen = (c.keys p).gen.getLsbD 0 ∧
        (u.dev.core.home e).passes = (c.home e).passes.flatMap (fun x => if x = k then k.next.toList else [x])) ∧
    (∀ e p, c.works 6 e = true → p ∈ (c.home e).walking → recalling c e p = false → exec (.recallWalkDone e p) s = .next (s.withCore
      ((c.modHome e (fun h => { h with walking := h.walking.erase p })).send (.report 6 e 0 p)))) ∧
    (∀ h w, c.rot.walks.find? (fun w => decide (w.1 = h)) = some w →
      (liveHomes c).all (fun e => (c.home e).fence.contains h) = true → (stepHomes c).all (fun e => !walkOwed (c.home e) h) = true →
      ∃ u, exec (.fenceWalkDone h) s = .next u ∧ s.keeps u ∧ ∀ k ∈ u.dev.core.rot.walks, k.1 ≠ h) ∧
    (∀ p m a, actionOf c p = some a → c.rot.actions = [a] → a.step < 22 → m ∈ a.await → a.await.erase m ≠ [] → mgrUp c m = true →
      c.glb.restarting = false → stepArrived c m = true → stepDone c a m = true → frozenChip c = false → a.step = 1 ∨ a.step = 11 ∨ a.step = 12 →
      exec (.stepCompleteReport p m) s = .next (s.withCore (c.modRot (fun r => { r with
        ring := r.ring.filter (fun k => !decide (k = .step p m a.step))
        actions := [{ a with await := a.await.erase m, skipped := (a.skipped ++ skippedUnits c a m).eraseDups }] }))))

/-- SNAP_CREATE, SNAP_DESTROY, SYNC_SET, ROTATE, PTN_LINE, CONSENT, PAGE_RETIRE and RETIRE_LINE_COPY do what their rules say. SNAP_CREATE with
a legal layout makes the region with slot 0 working; SNAP_DESTROY with no commit running clears it. SYNC_SET of a counter whose consistent
counts are given writes them. ROTATE and PTN_LINE start their actions; PTN_LINE fences the admitted hosts. CONSENT from a host of the
first group sets or clears the partition's flag alone. PAGE_RETIRE of a data page with a free spare starts the move; a copy of its line 0
to 510 moves on by one line, that of line 511 retires the page to the spare and writes its record, and that of a spare the page had
before, into the retirement area of the boot flash (the layout of a record: log 145). (R94, R111, R116, R264, R314, R344, R349, R353.) -/
def Obligations.RegionObjectKeyAndPageRequests : Prop :=
  ∀ (s : State) (ch : Nat), s.ok = true →
    let c := s.dev.core
    let p := reqPtn c ch
    let d0 := reqData c ch 0
    let d1 := reqData c ch 1
    let r := field d0 9 0
    (taken c ch 0x010 7 = true → reservedClear d0 0x3FF = true → reservedClear d1 0x3FFFFFFF = true → c.regionOwner r = some p →
      let base := field d1 9 0
      let v := field d1 19 10
      let q := field d1 29 20
      ((c.region r).created = true → answered s ch 0x0F c (exec (.snapCreate ch) s)) ∧
      ((c.region r).created = false → v ≠ 0 → layoutOk c p r base (v + q) = true → ∃ u, exec (.snapCreate ch) s = .next u ∧ s.keeps u ∧
        u.dev.core.region r = { created := true, p := p, base := base, v := v, q := q, slots := [(0, ⟨.working, 0, none⟩)] } ∧
        (∀ k, k ≠ r → u.dev.core.region k = c.region k) ∧ u.dev.core.mb ch = mbAnswer (c.mb ch) 0)) ∧
    (taken c ch 0x011 7 = true → reservedClear d0 0x3FF = true → reservedClear d1 0x00010000 = true → c.regionOwner r = some p →
      (c.region r).created = true → (c.region r).destroy = none → (c.region r).commit = none →
      (d1.getLsbD 16 = true ∨ (c.edge (r / 64)).opens.all (fun k => decide (k.2.1 ≠ r)) = true) →
      ∃ u, exec (.snapDestroy ch) s = .next u ∧ s.keeps u ∧ u.dev.core.region r = {} ∧ (∀ k ∈ (u.dev.core.edge (r / 64)).opens, k.2.1 ≠ r) ∧
        (u.dev.core.mb ch).st = .done ∧ (u.dev.core.mb ch).result = 0) ∧
    (taken c ch 0x020 3 = true → reservedClear d0 0xC0130FFF = true → field d0 31 30 = 0 → field d0 17 16 = 1 →
      let o := field d0 11 0
      let produced := BitVec.ofNat 64 ((reqData c ch 1).toNat + (reqData c ch 2).toNat * 2 ^ 32)
      let consumed := BitVec.ofNat 64 ((reqData c ch 3).toNat + (reqData c ch 4).toNat * 2 ^ 32)
      let y := { c.obj o with produced := produced, consumed := consumed }
      (∀ k, c.objOwner o = some k → c.sec.consent.getLsbD k = true) → (c.obj o).mode = .counter → y.avail ≤ y.lim →
      ∃ u, exec (.syncSet ch) s = .next u ∧ s.keeps u ∧ u.dev.core.obj o = y ∧ (∀ k, k ≠ o → u.dev.core.obj k = c.obj k) ∧
        (u.dev.core.mb ch).st = .done ∧ (u.dev.core.mb ch).result = 0) ∧
    (taken c ch 0x040 7 = true → ptnBusy c p = false → ((c.keys p).sweep = true → answered s ch 0x1A c (exec (.rotate ch) s)) ∧
      ((c.keys p).sweep = false → ∃ u, exec (.rotate ch) s = .next u ∧ s.keeps u ∧ acting u p 3 (some ch) 9 (fun a => a.await = [5]))) ∧
    (taken c ch 0x041 3 = true → (ptnBusy c p = true → answered s ch 0x01 c (exec (.ptnLine ch) s)) ∧
      (ptnBusy c p = false → ∃ u, exec (.ptnLine ch) s = .next u ∧ s.keeps u ∧ acting u p 2 (some ch) 1 (fun a => a.await = [4, 5]) ∧
        ∀ h ∈ admittedHosts c p, (u.dev.core.host h).st = 1)) ∧
    (taken c ch 0x042 4 = true → (c.ptn (ch - 16)).en = true → reservedClear d0 1 = true →
      ((c.host (c.mb ch).goHost).group ≠ (c.ptn (ch - 16)).groupBase → answered s ch 0x1C c (exec (.consent ch) s)) ∧
      ((c.host (c.mb ch).goHost).group = (c.ptn (ch - 16)).groupBase → ∃ w, answered s ch 0 (c.modSec (fun x => { x with consent := w })) (exec (.consent ch) s) ∧
        ∀ k, k < 32 → w.getLsbD k = if k = ch - 16 then d0.getLsbD 0 else c.sec.consent.getLsbD k)) ∧
    (taken c ch 0x030 3 = true → reservedClear d1 0xFF = true →
      let ppa := d0.toNat + field d1 7 0 * 2 ^ 32
      let e := (c.place ppa).1
      (ppa % 65536 ≠ 0 → answered s ch 0x16 c (exec (.pageRetire ch) s)) ∧
      (∀ j, ppa % 65536 = 0 → ppa / 2 ^ 30 < c.glb.fuse.stacks.length * 56 → c.ust 6 e ≠ .failed → c.ust 7 e ≠ .failed → (c.hbmc e).moving = none →
        (List.range 8192).find? (fun j => !(sparesTaken (c.hbmc e)).contains j) = some j → exec (.pageRetire ch) s = .next (s.withCore
          ((c.setMb ch { c.mb ch with st := .running, full := false }).setHbmc e
            { c.hbmc e with moving := some ((c.place ppa).2 / 65536, j, 0), movingCh := ch })))) ∧
    (∀ e w page j i, (c.hbmc e).moving = some (page, j, i) → c.works 6 e = true → lineBlocked (c.home e) (page * 512 + i) = false →
      ∃ u, exec (.retireLineCopy e w) s = .next u ∧ u.pending = s.pending ∧
        (i < 511 → (u.dev.core.hbmc e).moving = some (page, j, i + 1) ∧ u.dev.perm = s.dev.perm) ∧
        (511 ≤ i → (u.dev.core.hbmc e).moving = none ∧ tget none page (u.dev.core.hbmc e).retired = some j ∧
          u.dev.perm = { s.dev.perm with flash := u.dev.perm.flash } ∧
          rdLE u.dev.perm.flash (areaAddr e j) 16 = (retireRecord (some page)).toNat ∧
          (∀ k, tget none page (c.hbmc e).retired = some k → k ≠ j → rdLE u.dev.perm.flash (areaAddr e k) 16 = (retireRecord none).toNat) ∧
          ∀ a, (a < areaAddr e j ∨ areaAddr e j + 16 ≤ a) →
            (∀ k, tget none page (c.hbmc e).retired = some k → a < areaAddr e k ∨ areaAddr e k + 16 ≤ a) →
            rdByte u.dev.perm.flash a = rdByte s.dev.perm.flash a))

/-- Attestation, SVN_COMMIT, flash, image and UNIT_STATE requests answer and change what their rules say. ATTEST and a DOE request of the
exchange's vendor and type (another does nothing) with no report being signed start the signing, else they queue, and the ninth is
refused. ATTEST_SIGN_DONE keeps the report with its signature under the attestation key for its channel and answers its length; for DOE
the response becomes ready. SVN_COMMIT raises the fuse to the running version, never below itself. A flash erase makes the range read as
the erased byte, a write as the buffer, a read fills the buffer; a change that the device fails at is answered FLASH_ERROR and touches
nothing outside the range. IMAGE_SELECT sets the slot pointer in the flash header. The image of the slot that a request names, failing a
check, is refused with the check's status; passing them and without routes it is applied at once: IMAGE_TUNE sets the tuning id,
IMAGE_RECONFIG that changes no partition the image id. UNIT_STATE to the state a unit has is answered OK, a more restrictive one is
entered, a less restrictive one commanded; a change that waits is answered UNIT_REFUSED (the model's choice, log 159). The erased byte is
a free constant (log 16). (R329, R332, R334, R335, R336, R454, R457, R472, R475, R477, R478, R479.) -/
def Obligations.SecurityFlashAndImageRequests : Prop :=
  ∀ (s : State) (ch : Nat), s.ok = true →
    let c := s.dev.core
    let m := c.mb ch
    let d0 := reqData c ch 0
    let n := (reqData c ch 1).toNat
    let flash := s.dev.perm.flash
    (taken c ch 0x043 7 = true → ∃ nonce : BitVec 256, (∀ i, i < 8 → nonce.toNat / 2 ^ (32 * i) % 2 ^ 32 = (reqData c ch i).toNat) ∧
      (c.sec.signing = none → ∃ u ws, exec (.attest ch) s = .next u ∧ s.keeps u ∧ u.dev.core.sec.signing = some (⟨ch, nonce⟩, ws) ∧
        (u.dev.core.mb ch).st = .running) ∧
      (c.sec.signing.isSome = true → c.sec.attQueue.length < 8 → ∃ u, exec (.attest ch) s = .next u ∧ s.keeps u ∧
        u.dev.core.sec = { c.sec with attQueue := c.sec.attQueue ++ [⟨ch, nonce⟩] } ∧ (u.dev.core.mb ch).st = .running) ∧
      (c.sec.signing.isSome = true → 8 ≤ c.sec.attQueue.length → answered s ch 0x1B c (exec (.attest ch) s))) ∧
    (∀ v, rotUp c = true →
      (c.sec.signing = none → ∃ u ws, exec (.doeRequest 0x1F6B 1 v) s = .next u ∧ s.keeps u ∧ u.dev.core.sec.signing = some (⟨48, v⟩, ws)) ∧
      (c.sec.signing.isSome = true → 8 ≤ c.sec.attQueue.length → ∃ u, exec (.doeRequest 0x1F6B 1 v) s = .next u ∧ s.keeps u ∧
        u.dev.core.glb.doeReady = true ∧ u.dev.core.sec = c.sec ∧ Msg.doe 0x1F6B 2 [0x1B] ∈ u.dev.core.out)) ∧
    (∀ vendor typ v, vendor ≠ 0x1F6B ∨ typ ≠ 1 → exec (.doeRequest vendor typ v) s = .next s) ∧
    (∀ a ws, rotUp c = true → c.sec.signing = some (a, ws) → c.rot.detached = [] → ∃ u, exec .attestSignDone s = .next u ∧ s.keeps u ∧
      (a.ch < 48 → (∃ v, tget [] a.ch u.dev.core.sec.reports = ws ++ reportSig c.sec v ws) ∧ (tget [] a.ch u.dev.core.sec.reports).length = ws.length + 1964 ∧
        (u.dev.core.mb a.ch).st = .done ∧ (u.dev.core.mb a.ch).result = 0 ∧
        tget 0 0 (u.dev.core.mb a.ch).data = BitVec.ofNat 32 (4 * (ws.length + 1964))) ∧
      (48 ≤ a.ch → u.dev.core.glb.doeReady = true ∧ ∃ v, Msg.doe 0x1F6B 2 (ws ++ reportSig c.sec v ws) ∈ u.dev.core.out)) ∧
    (taken c ch 0x045 1 = true → c.sec.fused.toNat ≤ s.dev.perm.fuses.svn →
      (c.sec.running.toNat < c.sec.fused.toNat → answered s ch 0x1D c (exec (.svnCommit ch) s)) ∧
      (c.sec.fused.toNat ≤ c.sec.running.toNat → ∃ u, exec (.svnCommit ch) s = .next u ∧ u.pending = s.pending ∧
        u.dev.perm = { s.dev.perm with fuses := { s.dev.perm.fuses with svn := max s.dev.perm.fuses.svn c.sec.running.toNat } } ∧
        u.dev.core.sec.fused = c.sec.running ∧ (u.dev.core.mb ch).result = 0)) ∧
    (taken c ch 0x060 1 = true → flashStatus c ch true true false = 0 → ∃ u, exec (.flashErase ch false) s = .next u ∧
      u.dev.core.mb ch = mbAnswer m 0 ∧ u.dev.perm = { s.dev.perm with flash := u.dev.perm.flash } ∧
      ∀ a, rdByte u.dev.perm.flash a = if d0.toNat ≤ a ∧ a < d0.toNat + n then Config.erasedByte else rdByte flash a) ∧
    (taken c ch 0x061 1 = true → flashStatus c ch false true false = 0 → ∃ u, exec (.flashWrite ch false) s = .next u ∧
      u.dev.core.mb ch = mbAnswer m 0 ∧ u.dev.perm = { s.dev.perm with flash := u.dev.perm.flash } ∧
      ∀ a, rdByte u.dev.perm.flash a = if d0.toNat ≤ a ∧ a < d0.toNat + n then rdByte m.buf (a - d0.toNat) else rdByte flash a) ∧
    (∀ code i, (code = 0x060 ∧ i = .flashErase ch true) ∨ (code = 0x061 ∧ i = .flashWrite ch true) → taken c ch code 1 = true →
      flashStatus c ch (decide (code = 0x060)) true true = 0x34 → ∃ u, exec i s = .next u ∧
      u.dev.core.mb ch = mbAnswer m 0x34 ∧ u.dev.perm = { s.dev.perm with flash := u.dev.perm.flash } ∧
      ∀ a, a < d0.toNat ∨ d0.toNat + n ≤ a → rdByte u.dev.perm.flash a = rdByte flash a) ∧
    (taken c ch 0x062 3 = true → flashStatus c ch false false false = 0 → ∃ u, exec (.flashRead ch false) s = .next u ∧ s.keeps u ∧
      (u.dev.core.mb ch).result = 0 ∧ ∀ i, rdByte (u.dev.core.mb ch).buf i = if i < n then rdByte flash (d0.toNat + i) else rdByte m.buf i) ∧
    (taken c ch 0x065 1 = true → reservedClear d0 1 = true → ∃ u, exec (.imageSelect ch) s = .next u ∧
      u.dev.perm = { s.dev.perm with flash := setNextSlot flash (d0.getLsbD 0) } ∧ u.dev.core.mb ch = mbAnswer m 0) ∧
    (let i := slotImage flash (d0.getLsbD 0)
     taken c ch 0x063 1 = true → reservedClear d0 1 = true → imageCheck c flash true (d0.getLsbD 0) = none → i.routes = none → ∃ u,
      exec (.imageTune ch) s = .next u ∧ s.keeps u ∧ u.dev.core.cfg.tuneId = i.imageId ∧ u.dev.core.cfg.imageId = c.cfg.imageId ∧
      tget 0 3 u.dev.core.sec.m = i.digest ∧ (u.dev.core.mb ch).st = .done ∧ (u.dev.core.mb ch).result = 0) ∧
    (∀ code b, (code = 0x063 ∧ b = true) ∨ (code = 0x064 ∧ b = false) → taken c ch code 1 = true → reservedClear d0 1 = true →
      ∀ k st, imageCheck c flash b (d0.getLsbD 0) = some (k, st) →
      ∃ u, exec (if b then .imageTune ch else .imageReconfig ch) s = .next u ∧ s.keeps u ∧ u.dev.core.cfg = c.cfg ∧
        u.dev.core.mb ch = mbAnswer m st) ∧
    (let i := slotImage flash (d0.getLsbD 0)
     ∀ run, taken c ch 0x064 1 = true → reservedClear d0 1 = true → imageCheck c flash false (d0.getLsbD 0) = none → i.routes = none →
      c.cfg.image = some run → sameRest run i = true → changedPtns run i = [] → ∃ u, exec (.imageReconfig ch) s = .next u ∧ s.keeps u ∧
      u.dev.core.cfg.imageId = i.imageId ∧ u.dev.core.cfg.image = some i ∧ (u.dev.core.mb ch).st = .done ∧ (u.dev.core.mb ch).result = 0) ∧
    (∀ st, taken c ch 0x050 3 = true → reservedClear d0 0x0007FFFF = true → unitStOf (field d0 18 16) = some st → st ≠ .failed →
      c.evc.freezeCfg.getLsbD 3 = false →
      let k := field d0 3 0
      let i := field d0 15 4
      let x := c.unit k i
      c.hasUnit k i = true → x.st ≠ .failed → x.st ≠ .fenced → x.ch ≠ some ch → frozenChip c = false →
        ∃ u, exec (.unitState ch) s = .next u ∧ s.keeps u ∧
        (∀ w, x.ch = some w → c.rot.detached = [] → (u.dev.core.mb w).st = .done ∧ (u.dev.core.mb w).result = 0x32) ∧
        (x.st = st ∨ stricter st x.st = true → u.dev.core.ust k i = st ∧ (u.dev.core.unit k i).want = st ∧ (u.dev.core.mb ch).st = .done) ∧
        (x.st ≠ st → stricter st x.st = false → u.dev.core.unit k i = { x with want := st, cmd := some st, ch := some ch } ∧
          (u.dev.core.mb ch).st = .running))

/-- OPEN, CLOSE, COMMIT, queued commits and bad writes at a snapshot region's view do what the region's rules say. By a host, or for it a
replicated request of the peer, at a region of its partition through a working edge unit. OPEN of a published slot with the version it
holds adds a record, or keeps the one there is, and is answered Cmp; a slot that is not published or another version sets LAST_REFUSAL 1,
a full table 4, a group without the grant 5, each refused. CLOSE removes the record, and a published slot that is neither newest nor open
becomes retiring. COMMIT with a newer version takes the lowest free slot as the new one and sends a seal marker to every home that is not
Failed; a retiring slot is waited for; while a commit runs it waits, and QUEUED_COMMIT_START begins it; an older version sets 2, no slot
3, no grant 5. A write that is no operation sets LAST_REFUSAL 7, in both regions of the line when it touches both views, and is refused. A
region that is not created refuses with 8; in a region of another partition each of the four is answered Cmp with no effect. That the
lowest slot is taken is the model's reading (log 50). (R47, R99, R103, R104, R105, R106, R107, R108, R439.) -/
def Obligations.SnapshotOperations : Prop :=
  ∀ (s : State) (r : Nat) (o : Origin), s.ok = true →
    let c := s.dev.core
    let g := c.region r
    let p := c.originPtn o
    let opens := (c.edge (r / 64)).opens
    let refused (code : BitVec 4) : State := s.withCore
      ((c.modRegion r (fun g => { g with refusal := code })).answer o p 0 { op := opNackRevoked, reason := 4 })
    let taken (k : Nat) : Prop := (tget {} k g.slots).st ≠ .free ∧ (tget {} k g.slots).st ≠ .retiring
    r < 1024 → c.works 8 (r / 64) = true → o.kind = 1 →
    (c.regionOwner r = some p → g.created = true →
      (∀ slot ver, mayUse c g o false = true →
        (slot < 8 → (tget {} slot g.slots).st = .published → (tget {} slot g.slots).ver = ver →
          ((o.idx, r, slot) ∉ opens → opens.length < 4096 → exec (.openPleat r o slot ver) s = .next (s.withCore
            ((c.modEdge (r / 64) (fun d => { d with opens := d.opens ++ [(o.idx, r, slot)] })).answer o g.p 0 { op := opCmp }))) ∧
          ((o.idx, r, slot) ∈ opens → exec (.openPleat r o slot ver) s = .next (s.withCore (c.answer o g.p 0 { op := opCmp }))) ∧
          ((o.idx, r, slot) ∉ opens → 4096 ≤ opens.length → exec (.openPleat r o slot ver) s = .next (refused 4))) ∧
        (8 ≤ slot ∨ (tget {} slot g.slots).st ≠ .published ∨ (tget {} slot g.slots).ver ≠ ver →
          exec (.openPleat r o slot ver) s = .next (refused 1))) ∧
      (∀ slot ver, mayUse c g o false = false → exec (.openPleat r o slot ver) s = .next (refused 5)) ∧
      (∀ slot, ∃ u, exec (.closePleat r o slot) s = .next u ∧ s.keeps u ∧
        (u.dev.core.edge (r / 64)).opens = opens.erase (o.idx, r, slot) ∧
        (slot < 8 → (tget {} slot g.slots).st = .published → g.newest ≠ some slot →
          (∀ k ∈ opens.erase (o.idx, r, slot), ¬(k.2.1 = r ∧ k.2.2 = slot)) → (tget {} slot (u.dev.core.region r).slots).st = .retiring)) ∧
      (∀ ver, g.commit = none → mayUse c g o true = true →
        (g.newest.isSome = true → newer ver g.newestVer = false → exec (.commitPleat r o ver) s = .next (refused 2)) ∧
        ((g.newest.isSome = true → newer ver g.newestVer = true) →
          (∀ w, w < 8 → w ≠ g.working → (∀ k, k < w → k ≠ g.working → taken k) →
            ((tget {} w g.slots).st = .free → ∃ u, exec (.commitPleat r o ver) s = .next u ∧ s.keeps u ∧
              u.dev.core.region r = { g with commit := some ⟨o, ver, g.working, w, liveHomes c, [], false⟩ } ∧
              u.dev.core.out = c.out ++ (liveHomes c).map (fun e => .seal e r g.working w ver)) ∧
            ((tget {} w g.slots).st = .retiring → exec (.commitPleat r o ver) s = .next (s.withCore
              (c.setRegion r { g with commit := some ⟨o, ver, g.working, w, [], [], true⟩ })))) ∧
          ((∀ k, k < 8 → k ≠ g.working → taken k) → exec (.commitPleat r o ver) s = .next (refused 3)))) ∧
      (∀ ver, g.commit = none → mayUse c g o true = false → exec (.commitPleat r o ver) s = .next (refused 5)) ∧
      (∀ ver, g.commit.isSome = true → exec (.commitPleat r o ver) s = .next (s.withCore
        (c.setRegion r { g with queue := g.queue ++ [⟨o, ver, 0, 0, [], [], false⟩] }))) ∧
      (∀ rest y w, g.commit = none → g.queue = y :: rest → mayUse c g y.o true = true → (g.newest.isSome = true → newer y.ver g.newestVer = true) →
        w < 8 → w ≠ g.working → (tget {} w g.slots).st = .free → (∀ k, k < w → k ≠ g.working → taken k) →
        ∃ u, exec (.queuedCommitStart r) s = .next u ∧ s.keeps u ∧
          u.dev.core.region r = { g with queue := rest, commit := some ⟨y.o, y.ver, g.working, w, liveHomes c, [], false⟩ } ∧
          u.dev.core.out = c.out ++ (liveHomes c).map (fun e => .seal e r g.working w y.ver))) ∧
    (c.regionOwner r = some p → g.created = false →
      (∀ slot ver, exec (.openPleat r o slot ver) s = .next (refused 8)) ∧ (∀ slot, exec (.closePleat r o slot) s = .next (refused 8)) ∧
      (∀ ver, exec (.commitPleat r o ver) s = .next (refused 8))) ∧
    (c.regionOwner r ≠ some p → ∀ i, ((∃ slot ver, i = .openPleat r o slot ver) ∨ (∃ slot, i = .closePleat r o slot) ∨
        (∃ ver, i = .commitPleat r o ver) ∨ i = .snapViewBadWrite r o false) → exec i s = .next (s.withCore (c.answer o p 0 { op := opCmp }))) ∧
    (c.regionOwner r = some p → exec (.snapViewBadWrite r o false) s = .next (refused 7)) ∧
    (c.regionOwner r = some p → c.regionOwner (r ^^^ 1) = some p → exec (.snapViewBadWrite r o true) s = .next (s.withCore
      (((c.modRegion r (fun g => { g with refusal := 7 })).modRegion (r ^^^ 1) (fun g => { g with refusal := 7 })).answer o p 0
        { op := opNackRevoked, reason := 4 })))

/-- Seal and retire markers, their answers and page copies carry commits and retirements to their end. A home seals once on its marker and
answers. The answer of a home that is not the last is noted; the last one publishes the sealed slot with the commit's version as newest
and makes the new slot working with the sealed one as parent. A retire marker starts the home's walk; its end frees the slot's pages and
reports; with the last report the slot is free and its children take its parent. The end of a page copy in a quiet home names the new page
for the slot, counts the copy, and the new page's lines hold the old page's data and poison (for pages below the system area). (R98, R106,
R110, R111, R112, R114.) -/
def Obligations.SnapshotMarkersAndCopies : Prop :=
  ∀ (s : State) (e r : Nat), s.ok = true →
    let c := s.dev.core
    let g := c.region r
    (∀ k, g.sealing = some k → e ∈ k.await → e ∉ k.sealed → c.works 6 e = true → exec (.sealMarker e r) s = .next (s.withCore
      ((c.setRegion r { g with commit := some { k with sealed := k.sealed ++ [e] } }).send (.sealAnswer e r)))) ∧
    (∀ k, g.sealing = some k → e ∈ k.await → e ∈ k.sealed → c.works 8 (r / 64) = true →
      (k.await.erase e ≠ [] → exec (.sealAnswer e r) s = .next (s.withCore
        (c.setRegion r { g with commit := some { k with await := k.await.erase e } }))) ∧
      (k.await.erase e = [] → k.old ≠ k.new → g.destroy = none → ∃ u, exec (.sealAnswer e r) s = .next u ∧ s.keeps u ∧
        let y := u.dev.core.region r
        y.commit = none ∧ y.newest = some k.old ∧ y.newestVer = k.ver ∧ y.working = k.new ∧ y.commits = g.commits + 1 ∧
        tget {} k.old y.slots = { tget {} k.old g.slots with st := .published, ver := k.ver } ∧
        tget {} k.new y.slots = ⟨.working, 0, some k.old⟩)) ∧
    (∀ sl aw, g.retire = some (sl, aw) → e ∈ aw → tget 0 e g.retireAt = 0 → c.works 6 e = true →
      exec (.retireMarker e r) s = .next (s.withCore (c.setRegion r { g with retireAt := tput 0 e 1 g.retireAt }))) ∧
    (∀ sl aw, g.retire = some (sl, aw) → e ∈ aw → tget 0 e g.retireAt = 1 → c.works 6 e = true → ∃ u,
      exec (.retireWalkDone e r) s = .next u ∧ s.keeps u ∧ u.dev.core.region r = { g with retireAt := tput 0 e 2 g.retireAt } ∧
      u.dev.core.out = c.out ++ [.retireReport e r] ∧
      ∀ pg ∈ runPages c e g.p g.base g.v, (u.dev.core.pageWords e pg).getD sl (0, false) = (0, false)) ∧
    (∀ sl aw, g.retire = some (sl, aw) → e ∈ aw → tget 0 e g.retireAt = 2 → c.works 8 (r / 64) = true →
      (aw.erase e ≠ [] → exec (.retireReport e r) s = .next (s.withCore (c.setRegion r { g with retire := some (sl, aw.erase e) }))) ∧
      (aw.erase e = [] → ∃ u, exec (.retireReport e r) s = .next u ∧ s.keeps u ∧ tget {} sl (u.dev.core.region r).slots = {} ∧
        ∀ k, k ≠ sl → tget {} k (u.dev.core.region r).slots = (let y : Slot := tget {} k g.slots
          if y.parent = some sl then { y with parent := (tget {} sl g.slots : Slot).parent } else y))) ∧
    (∀ page k, c.works 6 e = true → homeQuiet c e = true → (c.home e).copies.find? (fun k => decide (k.page = page)) = some k →
      k.slot < 8 → k.src ≠ k.dst → k.src < 917504 → k.dst < 917504 →
      ∃ u, exec (.pageCopyDone e page) s = .next u ∧ s.keeps u ∧ (u.dev.core.home e).copies = (c.home e).copies.erase k ∧
        u.dev.core.pageWords e page = (c.pageWords e page).set k.slot (k.dst, true) ∧
        (u.dev.core.region k.region).copies = (c.region k.region).copies + 1 ∧
        ∀ i, i < 512 → u.dev.core.rdPool e (k.dst * 512 + i) = c.rdPool e (k.src * 512 + i))

/-- Operations on counters and barriers apply or are refused with a counted fault, as the object rules say. At a working edge unit, by a
cluster or a host of the object's partition. PRODUCE, CONSUME and SIGNAL change their count when the bound or the available amount allows,
else the object is unchanged but for the fault, whose code is kept if it is the first. ARRIVE in the current round counts, marks the
participant, and as the last one releases the round; a second arrival is refused. A wait that is met is answered WAKE, else recorded;
CANCEL removes it. a wait on an object of another mode is a fault. SYNC_READ returns the count, or of a barrier the round or the arrivals.
INIT of an object without waiters sets its mode; CLEAR_FAULT clears LAST_FAULT; a bad write is BAD_OP, for both objects of the line when
it touches both. No other object changes. (R240, R242, R243, R244, R246, R248, R249, R254, R255, R257, R259, R260.) -/
def Obligations.SyncObjectOperations : Prop :=
  ∀ (s : State) (b : Nat) (o : Origin), s.ok = true →
    let c := s.dev.core
    let x := c.obj b
    edgeTakes c b = true → hostMay c b o = true →
    let becomes (i : Instr) (y : SyncObj) : Prop := ∃ u, exec i s = .next u ∧ s.keeps u ∧ u.dev.core.obj b = y ∧ ∀ k, k ≠ b → u.dev.core.obj k = c.obj k
    let faulted (code : BitVec 4) : SyncObj := { x with faults := x.faults + 1, lastFault := if x.lastFault = 0 then code else x.lastFault }
    (∀ n : BitVec 32,
      (x.mode = .counter → x.avail + n.toNat ≤ x.lim → becomes (.produce b o n) { x with produced := x.produced + n.setWidth 64 }) ∧
      (x.mode = .counter → x.lim < x.avail + n.toNat → becomes (.produce b o n) (faulted 2)) ∧
      (x.mode = .counter → n.toNat ≤ x.avail → becomes (.consume b o n) { x with consumed := x.consumed + n.setWidth 64 }) ∧
      (x.mode = .counter → x.avail < n.toNat → becomes (.consume b o n) (faulted 1)) ∧
      (x.mode ≠ .counter → becomes (.produce b o n) (faulted 6) ∧ becomes (.consume b o n) (faulted 6))) ∧
    (∀ nt, (x.mode = .counter → x.avail + 1 ≤ x.lim → becomes (.signal b o nt) { x with produced := x.produced + 1 }) ∧
      (x.mode = .counter → x.lim < x.avail + 1 → becomes (.signal b o nt) (faulted 2))) ∧
    (∀ (i : BitVec 16) (ph : BitVec 2), x.mode = .barrier → x.parts ≤ 64 → i.toNat < x.parts → ph.toNat = x.round.toNat % 4 →
      let odd := x.round.getLsbD 0
      let arr := if odd then x.arr1 else x.arr0
      let bm := if odd then x.bm1 else x.bm0
      (bm.getLsbD i.toNat = true → becomes (.arrive b o i ph) (faulted 4)) ∧
      (bm.getLsbD i.toNat = false → arr.toNat + 1 < x.parts → becomes (.arrive b o i ph)
        (if odd then { x with arr1 := arr + 1, bm1 := bm ||| (1#64 <<< i.toNat) } else { x with arr0 := arr + 1, bm0 := bm ||| (1#64 <<< i.toNat) })) ∧
      (bm.getLsbD i.toNat = false → arr.toNat + 1 = x.parts → (if odd then x.arr0 else x.arr1).toNat < x.parts → becomes (.arrive b o i ph)
        (if odd then { x with arr1 := 0, bm1 := 0, round := x.round + 1 } else { x with arr0 := 0, bm0 := 0, round := x.round + 1 }))) ∧
    (∀ (cl : Nat) (n : BitVec 32) (ph : BitVec 2),
      let wake : Core := c.send (.sync ⟨10, b, cl, 0, false, false, 0, 0⟩)
      let queued (kind k : Nat) : Core := c.modEdge (b / 256) (fun d => { d with waiters := d.waiters ++ [⟨b, cl, kind, k⟩] })
      (x.mode = .counter → exec (.waitAvail b cl n) s = .next (s.withCore (if n.toNat ≤ x.avail then wake else queued 0 n.toNat))) ∧
      (x.mode = .counter → exec (.waitSpace b cl n) s = .next (s.withCore (if n.toNat ≤ x.lim - x.avail then wake else queued 1 n.toNat))) ∧
      (x.mode = .barrier → exec (.waitBarrier b cl ph) s = .next (s.withCore
        (if (x.round.toNat + 4 - ph.toNat) % 4 = 1 ∨ (x.round.toNat + 4 - ph.toNat) % 4 = 2 then wake else queued 2 ph.toNat))) ∧
      (x.mode ≠ .counter → becomes (.waitAvail b cl n) (faulted 6) ∧ becomes (.waitSpace b cl n) (faulted 6)) ∧
      (x.mode ≠ .barrier → becomes (.waitBarrier b cl ph) (faulted 6)) ∧
      exec (.cancel b cl) s = .next (s.withCore (c.modEdge (b / 256) (fun d =>
        { d with waiters := d.waiters.filter (fun w => !(decide (w.obj = b ∧ w.c = cl))) })))) ∧
    (∀ cl sel, (x.mode = .counter → exec (.syncRead b cl sel) s = .next (s.withCore
        (c.send (.sync ⟨11, b, cl, 0, sel, false, 0, if sel then x.consumed else x.produced⟩)))) ∧
      (x.mode = .barrier → exec (.syncRead b cl sel) s = .next (s.withCore (c.send (.sync ⟨11, b, cl, 0, sel, false, 0,
        if sel then BitVec.ofNat 64 (x.arr0.toNat + x.arr1.toNat * 65536) else x.round.setWidth 64⟩)))) ∧
      (x.mode = .unconfigured → becomes (.syncRead b cl sel) (faulted 6))) ∧
    (∀ arg : BitVec 32, hasWaiter c b = false → becomes (.initObject b o 1 arg) { mode := .counter, param := arg } ∧
      (arg.toNat % 2 ^ 16 ≠ 0 → becomes (.initObject b o 2 arg) { mode := .barrier, param := BitVec.ofNat 32 (arg.toNat % 2 ^ 16) }) ∧
      (arg.toNat % 2 ^ 16 = 0 → becomes (.initObject b o 2 arg) (faulted 8))) ∧
    (∀ arg m, hasWaiter c b = true → becomes (.initObject b o m arg) (faulted 7)) ∧
    becomes (.clearFault b o) { x with lastFault := 0 } ∧
    becomes (.syncViewBadWrite b o false) (faulted 8) ∧
    (hostMay c (b ^^^ 1) o = true → ∃ u, exec (.syncViewBadWrite b o true) s = .next u ∧ s.keeps u ∧ u.dev.core.obj b = faulted 8 ∧
      (let y := c.obj (b ^^^ 1)
       u.dev.core.obj (b ^^^ 1) = { y with faults := y.faults + 1, lastFault := if y.lastFault = 0 then 8 else y.lastFault }) ∧
      ∀ k, k ≠ b → k ≠ b ^^^ 1 → u.dev.core.obj k = c.obj k)

/-- ACK, WAKE and VALUE reach a cluster, long waits gate it, and a blocked partition is reported once. At an Active, Serving cluster: ACK
takes the object from the unacknowledged list unless it answers a signal, a wait or a read, and one with a fault code makes SYNC_FAULT
pending; WAKE of the object waited for ends the wait at PC + 8, and another is discarded; VALUE writes the SREAD's register. A gated or
parked cluster keeps the packet and wakes. A wait longer than SYNC_GATE_WAIT gates a quiet cluster. DEADLOCK_WINDOW of a blocked partition
counts and names the lowest object waited for, once for each blocked episode. (R155, R250, R251, R253, R254, R261, R262, R263.) -/
def Obligations.SyncAnswersAtTheTile : Prop :=
  ∀ (s : State) (t : Nat), s.ok = true →
    let c := s.dev.core
    let x := c.tile t
    (frozenChip c = false → tileTakes c t = true → x.power = .active →
      (∀ b, exec (.ack t b 0 false) s = .next (s.withCore (c.modTile t (fun y => { y with seq := { y.seq with unacked := y.seq.unacked.erase b } })))) ∧
      (∀ b code, code ≠ 0 → x.seq.pendSync = none → ∃ u, exec (.ack t b code false) s = .next u ∧ s.keeps u ∧
        u.dev.core.tile t = { x with seq := { x.seq with unacked := x.seq.unacked.erase b,
                                                         pendSync := some (BitVec.ofNat 64 (b % 4096 + code.toNat * 65536)) } }) ∧
      (∀ b code, code ≠ 0 → x.seq.pendSync = none → exec (.ack t b code true) s = .next (s.withCore (c.modTile t (fun y =>
        { y with seq := { y.seq with pendSync := some (BitVec.ofNat 64 (b % 4096 + code.toNat * 65536)) } })))) ∧
      (∀ b, x.seq.st ≠ .waiting ∨ x.seq.wait.map (fun w => w.1) ≠ some b → exec (.wake t b) s = .next s) ∧
      (∀ b, x.seq.st = .waiting → x.seq.wait.map (fun w => w.1) = some b → exec (.wake t b) s = .next (s.withCore (c.modTile t (fun y =>
        { y with seq := { y.seq with st := .running, wait := none, pc := y.seq.pc + 8 } })))) ∧
      (∀ v d, x.seq.sread = some d → d < 32 → ∃ u, exec (.value t v) s = .next u ∧ s.keeps u ∧ (u.dev.core.tile t).seq.sread = none ∧
        ∀ k, rdX (u.dev.core.tile t).seq k = if k.toNat = d ∧ d ≠ 0 then v else rdX x.seq k)) ∧
    (frozenChip c = false → tileTakes c t = true → x.power = .gated ∨ x.power = .parked →
      ∀ b, exec (.wake t b) s = .next (s.withCore (c.modTile t (fun y => { y with inbox := y.inbox ++ [.wake b], waking := true })))) ∧
    (frozenChip c = false → x.power = .active → x.seq.st = .waiting → c.gateWait.getLsbD 16 = true → tileQuiet x = true →
      exec (.longWaitGate t) s = .next (s.withCore (c.modTile t (fun y => { y with power := .gated })))) ∧
    (∀ p, (c.ptn p).dlkCfg.getLsbD 16 = true → ptnBlocked c p = true → (c.ptn p).blocked = false →
      ∃ u, exec (.deadlockWindow p) s = .next u ∧ s.keeps u ∧ (u.dev.core.ptn p).blocked = true ∧
        (u.dev.core.ptn p).dlkCount = (c.ptn p).dlkCount + 1 ∧
        ∀ k ∈ ptnTiles c p, ∀ w, (c.tile k).seq.st = .waiting → (c.tile k).seq.wait = some w → (u.dev.core.ptn p).dlkObject ≤ w.1)

/-- DMA descriptors start, lines are issued, answered, reissued and timed out, and pushed data is written, as the channel rules say. A running
channel starts its next descriptor (a chained one as it is read from the local store), once the one before is issued whole and ORDER
allows, when no check fails; one that fails halts the channel with its code. DMA_LINE_ISSUE of a READ or a WRITE with a mapped window
entry, a working stack, clean data and room for a line sends the request to the line's home and advances; a WRITE waits for an outstanding
write of the same line. A read response writes its bytes of the line into the local store and nothing else there, and closes the line;
NackRetry keeps it for the back-off, after which DMA_REISSUE sends it again and counts it; a refusal, and poison under the trap policy,
faults the line's descriptor. A timeout abandons the oldest line with code 0x050A. PUSH data at a Serving cluster is written and answered
Cmp; at any other it is refused with 0x0509. (R141, R142, R143, R144, R145, R146, R147, R150, R151, R152, R305, R306.) -/
def Obligations.DmaChannels : Prop :=
  ∀ (s : State) (t k : Nat), s.ok = true →
    let c := s.dev.core
    let x := c.tile t
    let ch := chanOf x k
    (∀ q rest, dmaRuns c t k = true → ch.queue = q :: rest → ch.run.all (fun e => e.issued) = true →
      let d : DmaDesc := if q.unread then
          { q with unread := false
                   w := if poisonIn x q.addr 32 = [] then BitVec.ofNat 256 (rdLE x.ls q.addr 32) else 0 }
        else q
      (dOrder d.w = true → ch.run = []) →
      (lsSize < d.addr + 32 → exec (.descriptorStart t k) s = .next (s.withCore (dmaFault t k 0x0503 ch.started d.addr c))) ∧
      (∀ code, d.addr + 32 ≤ lsSize → descFault c x d = some code →
        exec (.descriptorStart t k) s = .next (s.withCore (dmaFault t k code ch.started d.addr c))) ∧
      (d.addr + 32 ≤ lsSize → descFault c x d = none → ∃ u, exec (.descriptorStart t k) s = .next u ∧ s.keeps u ∧
        let y := chanOf (u.dev.core.tile t) k
        y.started = ch.started + 1 ∧ y.done = ch.done ∧ y.run = ch.run ++ [{ d with no := ch.started, row := 0, col := 0, issued := false }] ∧
        y.queue = (if dChain d.w then [{ w := 0, addr := d.addr + 32, no := ch.started + 1, row := 0, col := 0, issued := false, unread := true }] else []) ++ rest)) ∧
    (∀ d e, dmaRuns c t k = true → ch.lines.length < 64 → linesOut x < 512 → ownLines x = false → ch.run.find? (fun d => !d.issued) = some d →
      dPool d.w = true → (dSig d.w = true → (advance d).issued = true → ch.lines.all (fun l => l.desc != d.no) = true) →
      let ck := nextChunk d
      let line := ck.addr - ck.off
      let wr := decide (dOp d.w = 2)
      let home := (c.place (e * 2 ^ 30 + line % 2 ^ 30)).1
      (wr = true → ch.lines.any (fun l => l.write && decide (l.pla.toNat = line)) = true → exec (.dmaLineIssue t k) s = .next s) ∧
      ((wr = true → ch.lines.any (fun l => l.write && decide (l.pla.toNat = line)) = false ∧ poisonIn x ck.ls ck.len = []) →
        (896 ≤ ck.addr / 2 ^ 30 → exec (.dmaLineIssue t k) s = .next (s.withCore (dmaFault t k 0x0504 d.no d.addr c))) ∧
        (ck.addr / 2 ^ 30 < 896 → tget none (ck.addr / 2 ^ 30) x.win = none →
          exec (.dmaLineIssue t k) s = .next (s.withCore (dmaFault t k 0x0505 d.no d.addr c))) ∧
        (ck.addr / 2 ^ 30 < 896 → (tget none (ck.addr / 2 ^ 30) x.win).map (fun y => y.1) = some e → x.stackFailed.getLsbD home = false →
          let q := chunkReq x d.w ck false (freeTag k ch.lines)
          ∃ u, exec (.dmaLineIssue t k) s = .next u ∧ s.keeps u ∧
            u.dev.core.out = c.out ++ [.toHome home ⟨0, x.logical, freeTag k ch.lines, 0, k, lineSig (advance d), q.cls⟩ q] ∧
            (u.dev.core.tile t).ls = x.ls ∧ (chanOf (u.dev.core.tile t) k).queue = ch.queue ∧
            (chanOf (u.dev.core.tile t) k).lines.map (fun l => (l.q, l.lsAddr, l.off, l.len, l.desc, l.home, l.retry)) =
              ch.lines.map (fun l => (l.q, l.lsAddr, l.off, l.len, l.desc, l.home, l.retry)) ++ [(q, ck.ls, ck.off, ck.len, d.no, home, false)] ∧
            (chanOf (u.dev.core.tile t) k).run = ch.run.map (fun y => if y.no = d.no then advance d else y)))) ∧
    (∀ (r : DmaResp) l, frozenChip c = false → x.power = .active → (ownLines x = false ∨ k ≠ 0) →
      ch.lines.find? (fun l => decide (l.q.tag = r.tag) && decide (l.pla = r.pla) && !l.retry) = some l → r.ce = false →
      let closed := c.setTile t (setChan x k { ch with lines := ch.lines.erase l })
      (r.op = opNackRetry ∨ r.op = opNackBusy → exec (.dmaResponse t k r) s = .next (s.withCore
        (c.setTile t (setChan x k { ch with lines := ch.lines.map (fun e => if e = l then { e with retry := true } else e) })))) ∧
      (r.op = opCmpData → r.fault = 0 → l.write = false → r.poison = false →
        ∃ u, exec (.dmaResponse t k r) s = .next u ∧ s.keeps u ∧ (chanOf (u.dev.core.tile t) k).lines = ch.lines.erase l ∧
          ∀ a, rdByte (u.dev.core.tile t).ls a = if l.lsAddr ≤ a ∧ a < l.lsAddr + l.len then lineByte r.data (l.off + (a - l.lsAddr)) else rdByte x.ls a) ∧
      (r.op = opCmpData → r.fault = 0 → l.write = false → r.poison = true → (c.ptn x.ptn).ueTrap = true →
        exec (.dmaResponse t k r) s = .next (s.withCore (lineFault t k 0x050B l.desc closed))) ∧
      (r.op ≠ opNackRetry → r.op ≠ opNackBusy → r.fault ≠ 0 → exec (.dmaResponse t k r) s = .next (s.withCore (lineFault t k r.fault.toNat l.desc closed)))) ∧
    (∀ tag l, x.power = .active → frozenChip c = false → ch.lines.find? (fun l => decide (l.q.tag = tag) && l.retry) = some l →
      x.stackFailed.getLsbD l.home = false → ∃ u sig, exec (.dmaReissue t k tag) s = .next u ∧ s.keeps u ∧
        (u.dev.core.tile t).dmaRetry = x.dmaRetry + 1 ∧ u.dev.core.out.getLast? = some (.toHome l.home ⟨0, x.logical, l.q.tag, 0, k, sig, l.q.cls⟩ l.q) ∧
        (chanOf (u.dev.core.tile t) k).lines = ch.lines.map (fun y => if y = l then { y with retry := false } else y)) ∧
    (∀ l, ch.lines.find? (fun l => !l.retry) = some l → (ownLines x = false ∨ k ≠ 0) →
      exec (.dmaTimeout t k) s = .next (s.withCore (lineFault t k 0x050A l.desc (c.setTile t (setChan x k { ch with lines := ch.lines.erase l }))))) ∧
    (∀ w : PushPkt, frozenChip c = false →
      let src := (c.tile w.src).logical
      (c.ust 4 t ≠ .serving → exec (.pushData t w) s = .next (s.withCore
        (c.send (.toCluster src w.chan ⟨opNackFenced, w.tag, 0, 0, false, w.ce, 0x0509, 0⟩)))) ∧
      (c.ust 4 t = .serving → x.power = .active → w.part = none → w.poison = false → w.sig = none → ∃ u, exec (.pushData t w) s = .next u ∧ s.keeps u ∧
        u.dev.core.out = c.out ++ [.toCluster src w.chan ⟨opCmp, w.tag, 0, 0, false, w.ce, 0, 0⟩] ∧
        ∀ a, rdByte (u.dev.core.tile t).ls a = if w.addr ≤ a ∧ a < w.addr + w.bytes.length then w.bytes.getD (a - w.addr) 0 else rdByte x.ls a))

/-- An idle cluster is gated; a waking cluster becomes Active, from Off as Held. AUTO_GATE of an Active, halted, idle cluster with automatic
gating on makes it Gated and changes nothing else. CLUSTER_WAKE_DONE of a waking cluster makes it Active; from Gated or Parked its
registers and local store are as before when no packet waited; from Off the unit is Held. (R154, R155, R490, R491.) -/
def Obligations.GatingAndWaking : Prop :=
  ∀ (s : State) (t : Nat), s.ok = true → frozenChip s.dev.core = false →
    let c := s.dev.core
    let x := c.tile t
    (x.power = .active → x.pwr.getLsbD 16 = true → x.seq.st = .halted → x.work = none → tileQuiet x = true → x.inbox = [] →
      exec (.autoGate t) s = .next (s.withCore (c.modTile t (fun y => { y with power := .gated })))) ∧
    (x.waking = true → x.power = .gated ∨ x.power = .parked → x.inbox = [] →
      exec (.clusterWakeDone t) s = .next (s.withCore (c.modTile t (fun y => { y with power := .active, waking := false })))) ∧
    (x.waking = true → x.power = .off → x.inbox = [] → ∃ u, exec (.clusterWakeDone t) s = .next u ∧ s.keeps u ∧
      (u.dev.core.tile t).power = .active ∧ (u.dev.core.tile t).waking = false ∧ u.dev.core.ust 4 t = .held ∧
      (u.dev.core.tile t).seq.st = .halted ∧ (u.dev.core.tile t).chans = [])

/-- Requests at a quiet home read and write memory, enter the requester in the directory, or snoop the owner, as the table of R82 says. By a
host, accepted by a quiet home, for a coherent extent, on a line without directory entry and a free way: RDSHARED and RDOWN return the
line, the requester then owns it in X (S for RDSHARED with E grants off), and the line is blocked until CmpAck; UPGRADE likewise; RDONCE
returns it and leaves no entry; WRFULL stores the line, WRPART its enabled bytes, DIRTYEVICT nothing, each answered Cmp. A host that reads
or wants a line whose owner in X is another host makes the home snoop that owner. A reserved request code is refused with BAD_OPCODE, a
request of a fenced host with NackFenced, one that fails a check with that check's answer; while the nack queue is full the home takes
none. In an extent of another type a write goes to memory without the directory, in a snapshot region to the page that the working slot
owns. (R43, R62, R66, R73, R74, R78, R80, R82, R88, R301, R302.) -/
def Obligations.CoherentRequests : Prop :=
  ∀ (s : State) (e : Nat) (o : Origin) (q : Req), s.ok = true → o.kind = 1 →
    let c := s.dev.core
    let h := o.idx
    let l := reqLine c e o q
    let old := (c.rdPool e l).1
    let bad := (c.rdPool e l).2
    let last (u : State) : Option Msg := u.dev.core.out.getLast?
    let owns (u : State) : Prop := (∃ d, u.dev.core.dirEnt e l = some d ∧ d.st = .x ∧ d.owner = h ∧ d.coarse = false ∧ ∀ y ∈ d.ptrs, y = none) ∧
      ((u.dev.core.home e).trks.map (fun t => (t.phase, t.line))) = [(2, l)] ∧ u.dev.core.mem = c.mem
    let data (grant : BitVec 2) : Msg := hostDone c o q opCmpData grant bad old
    let cmp : Msg := hostDone c o q opCmp 0 false 0
    (∀ op, homeAccepts c e o { q with op := op } 0 = true → c.dirEnt e l = none → (setOf (c.home e) l).length < 16 →
      (op = 1 → (c.home e).dirCfg.getLsbD 0 = true → ∃ u, exec (.rdShared e o q) s = .next u ∧ s.keeps u ∧ owns u ∧ last u = some (data 2)) ∧
      (op = 1 → (c.home e).dirCfg.getLsbD 0 = false → ∃ u d, exec (.rdShared e o q) s = .next u ∧ s.keeps u ∧ u.dev.core.dirEnt e l = some d ∧
        d.st = .s ∧ d.ptrs = [some h, none, none, none] ∧ last u = some (data 1)) ∧
      (op = 2 → ∃ u, exec (.rdOwn e o q) s = .next u ∧ s.keeps u ∧ owns u ∧ last u = some (data 2)) ∧
      (op = 4 → ∃ u, exec (.upgrade e o q) s = .next u ∧ s.keeps u ∧ owns u ∧ last u = some (data 2)) ∧
      (op = 3 → ∃ u, exec (.rdOnce e o q) s = .next u ∧ s.keeps u ∧ u.dev.core.dirEnt e l = none ∧ homeQuiet u.dev.core e = true ∧
        u.dev.core.mem = c.mem ∧ last u = some (data 0)) ∧
      (op = 8 → ∃ u, exec (.wrFull e o q) s = .next u ∧ s.keeps u ∧ homeQuiet u.dev.core e = true ∧ last u = some cmp ∧
        u.dev.core.rdPool e l = (if q.poison then (0, true) else (q.data, false)) ∧ otherLines c u.dev.core e l) ∧
      (op = 9 → q.mask ≠ fullMask → q.poison = false → ∃ u, exec (.wrPart e o q) s = .next u ∧ s.keeps u ∧ homeQuiet u.dev.core e = true ∧
        last u = some cmp ∧ (u.dev.core.rdPool e l).2 = bad ∧ otherLines c u.dev.core e l ∧
        ∀ b, b < 128 → rdByte u.dev.core.mem (caKey e (l * 128) + b) =
          if q.mask.getLsbD b then lineByte q.data b else rdByte c.mem (caKey e (l * 128) + b)) ∧
      (op = 10 → ∃ u, exec (.dirtyEvict e o q) s = .next u ∧ s.keeps u ∧ homeQuiet u.dev.core e = true ∧ last u = some cmp ∧
        u.dev.core.mem = c.mem ∧ u.dev.core.lineFlags = c.lineFlags)) ∧
    (∀ op d, homeAccepts c e o { q with op := op } 0 = true → c.dirEnt e l = some d → d.st = .x → d.owner ≠ h →
      (c.home e).fence.contains d.owner = false →
      let asks (i : Instr) (inv : Bool) : Prop := ∃ u tag pla, exec i s = .next u ∧ s.keeps u ∧
        last u = some (.snoop e d.owner (c.host d.owner).port inv false pla tag) ∧ (twf {} c.ptns = true → pla = c.linePla e l) ∧
        (u.dev.core.home e).trks.map (fun t => (t.phase, t.line, t.snoops.length)) = [(1, l, 1)] ∧ u.dev.core.mem = c.mem
      (op = 1 → asks (.rdShared e o q) false) ∧ (op = 3 → asks (.rdOnce e o q) false) ∧ (op = 2 → asks (.rdOwn e o q) true) ∧
      (op = 4 → asks (.upgrade e o q) true)) ∧
    (c.works 6 e = true → e < 16 → (c.home e).nackQ < 256 →
      let no (a : Ans) : Core := sendNack e o (c.originPtn o) q.pla { a with ce := q.ce } c
      ((c.home e).fence.contains h = false → reservedOp q.op = true →
        exec (.reservedRequest e o q) s = .next (s.withCore (no { op := opNackRevoked, reason := 5 }))) ∧
      ((c.home e).fence.contains h = true → exec (.rdShared e o q) s = .next (s.withCore (no { op := opNackFenced, reason := 6 })) ∧
        exec (.dirtyEvict e o q) s = .next s) ∧
      (∀ a, (c.home e).fence.contains h = false → homeRefusal c e (c.originPtn o) o { q with op := 1 } = some a →
        exec (.rdShared e o q) s = .next (s.withCore (no a)))) ∧
    (256 ≤ (c.home e).nackQ → inWindow q.pla = false → ∀ i ∈ [Instr.rdShared e o q, .rdOwn e o q, .upgrade e o q, .rdOnce e o q, .wrFull e o q, .wrPart e o q,
      .dirtyEvict e o q, .reservedRequest e o q], exec i s = .next s) ∧
    (homeAccepts c e o { q with op := 8 } 2 = true → ∃ u, exec (.wrFull e o q) s = .next u ∧ s.keeps u ∧ last u = some cmp ∧
      u.dev.core.rdPool e l = (if q.poison then (0, true) else (q.data, false)) ∧ otherLines c u.dev.core e l ∧ u.dev.core.dirEnt e l = c.dirEnt e l) ∧
    (∀ pg, homeAccepts c e o { q with op := 8 } 1 = true → (c.home e).copies = [] →
      (c.pageWords e (l / 512))[q.pleat.toNat]? = some (pg, true) → ∃ u, exec (.wrFull e o q) s = .next u ∧ s.keeps u ∧
        last u = some cmp ∧ u.dev.core.rdPool e (pg * 512 + l % 512) = (if q.poison then (0, true) else (q.data, false)))

/-- Snoop responses, CmpAck, snoop and salvage timers and the fence end or move the transactions of a home as the protocol says. In a home
whose one transaction is a host's RDSHARED waiting for the owner in X: retained data makes the owner keep the line in O with the reader as
sharer and goes to the reader; data not retained is stored and the reader shares; SNPACKS gives the reader the line from memory beside the
owner; SNPACKI gives it in X. A response that names no open snoop is counted and discarded. CmpAck ends the transaction that awaits it.
The snoop timer sends the snoop again and counts it, after the last retry it fences the host. A salvage timer removes the sharer.
FENCE_APPLY of a fenced host puts it into the unit's fence table. (R64, R65, R74, R75, R81, R82, R88, R90.) -/
def Obligations.SnoopAnswersAndFences : Prop :=
  ∀ (s : State) (e : Nat), s.ok = true → s.dev.core.works 6 e = true → e < 16 →
    let c := s.dev.core
    let hm := c.home e
    let tagOf (t : Trk) : BitVec 16 := BitVec.ofNat 16 (t.idx + t.gen.toNat * 4096)
    (∀ t d sn (r : SnpResp), hm.trks = [t] → hm.recallQ = [] → t.kind = .request → t.phase = 1 → t.snoops = [sn] → sn.salvage = false → t.salvaging = false →
      t.gone = [] → t.dirty = false → t.idx < 4096 → t.line < 2 ^ 29 → t.o.kind = 1 → t.q.op = 1 → ((c.mirr t.p).pendOf t.o).isNone = true →
      c.dirEnt e t.line = some d → d.st = .x → d.owner = sn.h → d.owner ≠ t.o.idx → r.h = sn.h → r.tag = tagOf t →
      hm.fence.contains sn.h = false → hm.fence.contains t.o.idx = false →
      let done (grant : BitVec 2) (p : Bool) (v : Line) : Msg :=
        .completion ⟨t.p, t.o.idx, (c.host t.o.idx).ep, (c.ptn t.p).endpoint, t.o.port, opCmpData, grant, p, t.q.ce, 0, t.o.tag, 0, 0, t.o.cls, v⟩
      let ends (i : Instr) (st : DirSt) (owner : Nat) (ptrs : List Nat) (m : Msg) : Prop := ∃ u x, exec i s = .next u ∧ s.keeps u ∧
        u.dev.core.dirEnt e t.line = some x ∧ x.st = st ∧ x.owner = owner ∧ x.ptrs.filterMap id = ptrs ∧ u.dev.core.out.getLast? = some m ∧
        (u.dev.core.home e).trks.map (fun y => (y.idx, y.phase)) = [(t.idx, 2)] ∧
        (u.dev.core.mem = c.mem ∨ (r.retained = false ∧ i = .snpAckData e r ∧ u.dev.core.rdPool e t.line = (r.data, false)))
      (r.retained = true → ends (.snpAckData e r) .o d.owner [t.o.idx] (done 1 false r.data)) ∧
      (r.retained = false → ends (.snpAckData e r) .s 0 [t.o.idx] (done 1 false r.data)) ∧
      ends (.snpAckS e r) .s 0 [d.owner, t.o.idx] (done 1 (c.rdPool e t.line).2 (c.rdPool e t.line).1) ∧
      ends (.snpAckI e r) .x t.o.idx [] (done 2 (c.rdPool e t.line).2 (c.rdPool e t.line).1)) ∧
    (∀ r : SnpResp, hm.fence.contains r.h = false → trkOfTag c e r.tag = none →
      let counted : Core := c.modHome e (fun x => { x with cohProto := x.cohProto + 1 })
      exec (.snpAckI e r) s = .next (s.withCore counted) ∧ exec (.snpAckS e r) s = .next (s.withCore counted) ∧
      exec (.snpAckData e r) s = .next (s.withCore counted)) ∧
    (∀ t, hm.trks = [t] → hm.recallQ = [] → t.phase = 2 → t.o.kind = 1 → hm.fence.contains t.o.idx = false →
      ∃ u, exec (.cmpAck e t.o.idx t.o.tag) s = .next u ∧ s.keeps u ∧ (u.dev.core.home e).trks = [] ∧ (u.dev.core.home e).dir = hm.dir) ∧
    (∀ h tag, hm.fence.contains h = false → hm.trks = [] → exec (.cmpAck e h tag) s = .next (s.withCore
      (c.modHome e (fun x => { x with cohProto := x.cohProto + 1 })))) ∧
    (∀ t sn, hm.trks = [t] → t.snoops = [sn] → sn.salvage = false → t.idx < 4096 →
      (sn.tries < field t.tmo 26 24 → ∃ u, exec (.snoopTimeout e (tagOf t)) s = .next u ∧ s.keeps u ∧
        (u.dev.core.home e).snoopRetry = hm.snoopRetry + 1 ∧ (u.dev.core.home e).trks = [{ t with snoops := [{ sn with tries := sn.tries + 1 }] }] ∧
        .snoop e sn.h (c.host sn.h).port sn.inv false (c.linePla e t.line) (tagOf t) ∈ u.dev.core.out) ∧
      (field t.tmo 26 24 ≤ sn.tries → ∃ u, exec (.snoopTimeout e (tagOf t)) s = .next u ∧ s.keeps u ∧ (u.dev.core.host sn.h).st = 1 ∧
        (u.dev.core.home e).fence.contains sn.h = true)) ∧
    (∀ t sn d g, hm.trks = [t] → hm.recallQ = [] → t.kind = .walk g → t.snoops = [sn] → sn.salvage = true → t.salvaging = true → t.phase = 1 → t.idx < 4096 →
      c.dirEnt e t.line = some d → ∃ u, exec (.salvageTimeout e (tagOf t)) s = .next u ∧ s.keeps u ∧
        ∀ x, u.dev.core.dirEnt e t.line = some x → some sn.h ∉ x.ptrs) ∧
    (∀ h, (c.host h).st = 1 → (∃ u, exec (.fenceApply 6 e h) s = .next u ∧ s.keeps u ∧ (u.dev.core.home e).fence.contains h = true) ∧
      (∀ n, n < 8 → ∃ u, exec (.fenceApply 9 n h) s = .next u ∧ s.keeps u ∧ (u.dev.core.port n).fence.contains h = true))

/-- A port's link moves between Disabled, Train, Init, Up, Retrain and Down by the events and with the causes of the link-state table. For a
port that exists and runs: LINK_ENABLE of a Disabled port and DOWN_RETRY of an enabled Down port train the groups whose two laser fibres
are lit, or go Down with cause 1. Training done goes to Init with the AND of both maps when it is wide enough, else Down with cause 3; the
timers of Train, Init and Retrain go Down with 2, 4 and 5; LINK_DOWN with 9; LINK_DISABLE to Disabled; each clears what the link held and
counts the discarded packets. Lock loss, a laser that falls, the fifth replay and LINK_RETRAIN start a retrain from Up; PORT_RETRAIN_DONE
drops failing groups. A credit stall of the packet that its channel would send next is counted, and with STALL_DOWN goes Down with 10.
Nothing but this port, units, log, counters and interrupts changes, as long as no partition's mirror link is lost by it. The cause field
of PORT_RETRAIN is a free number (log 29). (R359, R362, R363, R364, R365, R366, R377, R382, R384, R426.) -/
def Obligations.PortLinkStates : Prop :=
  ∀ (s : State) (n : Nat), s.ok = true → portRuns s.dev.core n = true →
    let c := s.dev.core
    let p := c.port n
    ((p.mirrorRole = true → p.linked = true → ∀ q, q ∈ c.ptns.map Prod.fst → c.mirrored q = true → (c.mirr q).port.toNat ≠ n) →
      (∀ ok, p.link = .disabled →
        (c.ust 9 n = .failed → portOnly s n { p with en := true } (exec (.linkEnable n ok) s)) ∧
        (c.ust 9 n ≠ .failed → litGroups ok ≠ 0 →
          portOnly s n { p with en := true, laser := ok, link := .train, groups := litGroups ok } (exec (.linkEnable n ok) s)) ∧
        (c.ust 9 n ≠ .failed → litGroups ok = 0 → portOnly s n (Port.down { p with en := true, laser := ok } 1) (exec (.linkEnable n ok) s))) ∧
      (∀ ok, p.link = .down → p.en = true →
        (litGroups ok ≠ 0 → portOnly s n { p with laser := ok, link := .train, groups := litGroups ok } (exec (.downRetry n ok) s)) ∧
        (litGroups ok = 0 → portOnly s n (Port.down { p with laser := ok } 1) (exec (.downRetry n ok) s))) ∧
      portOnly s n (Port.fallen { p with en := false } .disabled) (exec (.linkDisable n) s) ∧
      (p.link ≠ .disabled → p.link ≠ .down → portOnly s n (p.down 9) (exec (.linkDown n) s)) ∧
      (∀ mine peer, p.link = .train →
        let m := mine &&& p.groups
        let g := m &&& peer
        let x : Port := { p with localPass := m, peerPass := peer, groups := g, width := 16 * groupCount g }
        (p.minWidth ≤ 16 * groupCount g →
          portOnly s n { x with link := .init, rxNo := 0, txNo := 0 } (exec (.portTrainingDone n mine peer) s)) ∧
        (16 * groupCount g < p.minWidth → portOnly s n (x.down 3) (exec (.portTrainingDone n mine peer) s))) ∧
      (p.link = .train → portOnly s n (p.down 2) (exec (.trainTimeout n) s)) ∧
      (p.link = .init → portOnly s n (p.down 4) (exec (.initTimeout n) s)) ∧
      (p.link = .retrain → portOnly s n (p.down 5) (exec (.portRetrainTimeout n) s)) ∧
      (∀ passed, p.link = .retrain →
        let g := p.groups &&& passed &&& litGroups p.laser
        let x : Port := { p with groups := g, width := 16 * groupCount g, resuming := true }
        (p.minWidth ≤ 16 * groupCount g → portOnly s n x (exec (.portRetrainDone n passed) s)) ∧
        (16 * groupCount g < p.minWidth → portOnly s n (x.down 3) (exec (.portRetrainDone n passed) s))) ∧
      (∀ vc k, p.link = .up → nextHead p vc = some k → p.avail vc < slotCost (egLen k.body) →
        let x : Port := { p with cnt := { p.cnt with creditStall := p.cnt.creditStall + 1 } }
        portOnly s n (if p.cfg.getLsbD 5 then x.down 10 else x) (exec (.creditStallTimeout n vc) s))) ∧
    (p.link = .up →
      portOnly s n (p.retraining 4 3) (exec (.linkRetrain n) s) ∧
      (∃ k, portOnly s n (Port.retraining { p with cnt := { p.cnt with fecUncorr := p.cnt.fecUncorr + k } } 0 0) (exec (.lockLoss n) s)) ∧
      (∀ ok : BitVec 8, p.laser &&& ~~~ok ≠ 0 → portOnly s n (Port.retraining { p with laser := ok } 1 0) (exec (.laserLow n ok) s)) ∧
      (p.buf = [] → exec (.replayTimeout n) s = .next s) ∧
      (p.buf ≠ [] → p.replayCount < 4 → portOnly s n
        { p with replaying := p.buf, replayedSince := true, replayCount := p.replayCount + 1, cnt := { p.cnt with replays := p.cnt.replays + 1 } }
        (exec (.replayTimeout n) s)) ∧
      (p.buf ≠ [] → 4 ≤ p.replayCount → portOnly s n (p.retraining 2 3) (exec (.replayTimeout n) s))) ∧
    (∀ ok : BitVec 8, (p.laser &&& ~~~ok = 0 ∨ p.link ≠ .up) → portOnly s n { p with laser := ok } (exec (.laserLow n ok) s))

/-- Flits are accepted by sequence number, acknowledged, framed into packets and sent by priority and credit; capture is armed and fired. The
handshake of Init records the peer's credits, INIT_DONE after both have been exchanged brings the link Up, RESUME after RESUME brings a
retrained link Up, RETRAIN starts a retrain. A payload flit with the expected number is accepted, a whole packet in it goes on, EXPECTED
advances; a later number asks for a replay and an earlier is counted, neither accepted; one whose CRC fails uses nothing. ACK in the
window frees the replay buffer up to it. FLIT_SEND sends replayed flits first with RETX, then a new flit of the first channel with work
and credit while the replay window is open, else an idle flit; ACK, CRD and CRC are this end's. A flit whose CRC fails is the same
whichever command brings it. Egress packets enter their queue only in Up and Retrain, a completion its fair queue with the finish tag.
Corrected symbols are a free count (log 3). (R366, R367, R369, R370, R371, R373, R374, R375, R379, R380, R384, R387.) -/
def Obligations.FlitsAndEgress : Prop :=
  ∀ (s : State) (n : Nat), s.ok = true → portRuns s.dev.core n = true →
    let c := s.dev.core
    let p := c.port n
    let w (f : Flit) (i : Nat) : BitVec 32 := slotWord (f.slots.headD 0) i
    (∀ f : Flit, crcGood f = true → p.link = .init → f.kind = 2 → ctlOf f = 1 → p.doneSent = false →
      ∃ u, exec (.portInit n f) s = .next u ∧ s.keeps u ∧ (u.dev.core.port n).link = .init ∧
        (sameLink p f = true → (u.dev.core.port n).initGot = true ∧ ∀ v, v < 4 →
          (tget {} v (u.dev.core.port n).vcs).limit = BitVec.ofNat 16 (field (w f (1 + v / 2)) (16 * (v % 2) + 15) (16 * (v % 2)))) ∧
        (sameLink p f = false → (u.dev.core.port n).initBad = true)) ∧
    (∀ f : Flit, crcGood f = true → p.link = .init → ctlOf f = 2 → ∃ u, exec (.initDone n f) s = .next u ∧ s.keeps u ∧
      (p.initGot = true → p.doneSent = true → p.initBad = false →
        let q := u.dev.core.port n
        q.link = .up ∧ q.next = 0 ∧ q.oldest = 0 ∧ q.expected = 0 ∧ q.buf = [] ∧ ∀ v, v < 4 → (tget {} v q.vcs).consumed = 0 ∧
          (tget {} v q.vcs).limit = (tget {} v p.vcs).limit ∧ (tget {} v q.vcs).returned = BitVec.ofNat 16 (p.advertised v)) ∧
      (p.initGot = false ∨ p.doneSent = false ∨ p.initBad = true → (u.dev.core.port n).link = .init ∧ (u.dev.core.port n).doneGot = true)) ∧
    (∀ f : Flit, crcGood f = true → p.link = .up → ctlOf f = 3 → ∃ u, exec (.portRetrain n f) s = .next u ∧ s.keeps u ∧ (u.dev.core.port n).link = .retrain) ∧
    (∀ f : Flit, crcGood f = true → p.link = .retrain → p.resuming = true → ctlOf f = 4 → sameLink p f = true → ∃ u, exec (.portResume n f) s = .next u ∧ s.keeps u ∧
      (p.resumeSent = true → p.resumeBad = false → (u.dev.core.port n).link = .up) ∧
      (p.resumeSent = false ∨ p.resumeBad = true → (u.dev.core.port n).link = .retrain ∧ (u.dev.core.port n).resumeGot = true)) ∧
    (∀ (f : Flit) (a : BitVec 128) rest, crcGood f = true → p.link = .up → f.kind = 0 → f.seq = p.expected → f.replayReq = false → f.first = 0 →
      (tget {} f.vc.toNat p.vcs).need = 0 → slots15 f = a :: rest → slotWord (rest.headD 0) 0 = 0 → packetLen p.mirrorRole f.vc.toNat a = some 1 →
      1 ≤ (tget {} f.vc.toNat p.vcs).room → startViolations p.mirrorRole f.vc.toNat a = [] →
      let k := packetOf f.vc.toNat [a]
      ∃ u, exec (.payloadFlit n f) s = .next u ∧ s.keeps u ∧ (forwards c n f.vc.toNat k = true → u.dev.core.out.getLast? = some (.packet n f.vc k)) ∧
        (u.dev.core.port n).expected = p.expected + 1 ∧ (u.dev.core.port n).askReplay = false ∧ (u.dev.core.port n).link = .up) ∧
    (∀ f : Flit, crcGood f = true → p.link = .up → f.kind = 0 → f.seq ≠ p.expected → ∃ u, exec (.payloadFlit n f) s = .next u ∧ s.keeps u ∧
      (u.dev.core.port n).expected = p.expected ∧
      ((f.seq - p.expected).toNat ≤ 32767 → (u.dev.core.port n).askReplay = true ∧ (u.dev.core.port n).cnt.gapDiscard = p.cnt.gapDiscard + 1) ∧
      (32767 < (f.seq - p.expected).toNat → (u.dev.core.port n).cnt.dupDiscard = p.cnt.dupDiscard + 1)) ∧
    (∀ f : Flit, crcGood f = true → exec (.flitCrcError n f) s = .next s) ∧
    (∀ f : Flit, crcGood f = false →
      (f.kind = 0 → exec (.payloadFlit n f) s = exec (.flitCrcError n f) s) ∧ (f.kind = 1 → exec (.idleFlit n f) s = exec (.flitCrcError n f) s) ∧
      (ctlOf f = 1 → exec (.portInit n f) s = exec (.flitCrcError n f) s) ∧ (ctlOf f = 2 → exec (.initDone n f) s = exec (.flitCrcError n f) s) ∧
      (ctlOf f = 3 → exec (.portRetrain n f) s = exec (.flitCrcError n f) s) ∧ (ctlOf f = 4 → exec (.portResume n f) s = exec (.flitCrcError n f) s)) ∧
    (∀ f : Flit, crcGood f = false → p.link = .init ∨ p.link = .up ∨ p.link = .retrain → ∃ u k x, exec (.flitCrcError n f) s = .next u ∧ s.keeps u ∧
      u.dev.core.port n = { p with rxNo := p.rxNo + 1, cap := x, cnt := { p.cnt with crcErr := p.cnt.crcErr + 1, fecUncorr := p.cnt.fecUncorr + k } }) ∧
    (∀ f : Flit, crcGood f = true → p.link = .up → f.kind = 1 → f.replayReq = false → ∃ u, exec (.idleFlit n f) s = .next u ∧ s.keeps u ∧
      (u.dev.core.port n).expected = p.expected ∧
      ((f.ack - p.oldest).toNat ≤ (p.next - p.oldest).toNat →
        (u.dev.core.port n).oldest = f.ack ∧ (u.dev.core.port n).buf = p.buf.drop (f.ack - p.oldest).toNat) ∧
      ((p.next - p.oldest).toNat < (f.ack - p.oldest).toNat → (u.dev.core.port n).oldest = p.oldest ∧ (u.dev.core.port n).buf = p.buf)) ∧
    (∀ el, p.link = .init → p.initGot = false → ∃ u g, exec (.flitSend n el) s = .next u ∧ s.keeps u ∧ u.dev.core.out.getLast? = some (.flit n g) ∧
      g.kind = 2 ∧ ctlOf g = 1 ∧ (u.dev.core.port n).crdVc = p.crdVc + 1) ∧
    (∀ el f r, p.link = .up → p.replaying = f :: r → ∃ u g, exec (.flitSend n el) s = .next u ∧ s.keeps u ∧
      u.dev.core.out.getLast? = some (.flit n g) ∧ g.seq = f.1.seq ∧ g.slots = f.1.slots ∧ g.retx = true ∧ g.ack = p.expected ∧
      (u.dev.core.port n).replaying = r ∧ (u.dev.core.port n).next = p.next ∧
      ∀ v, (tget {} v (u.dev.core.port n).vcs).consumed = (tget {} v p.vcs).consumed ∧ (tget {} v (u.dev.core.port n).vcs).rest = (tget {} v p.vcs).rest) ∧
    (∀ el k, p.link = .up → p.replaying = [] → (p.next - p.oldest).toNat < 16384 → p.mirrorRole = false → p.mgt = [] → p.snoops = [k] →
      (∀ v, v < 4 → (tget {} v p.vcs).rest = []) → slotCost (egLen k.body) ≤ p.avail 1 → (egWords k.body).length ≤ 15 →
      ∃ u g, exec (.flitSend n el) s = .next u ∧ s.keeps u ∧ u.dev.core.out.getLast? = some (.flit n g) ∧ g.kind = 0 ∧ g.vc = 1 ∧ g.seq = p.next ∧
        g.first = 0 ∧ g.retx = false ∧ g.slots = egWords k.body ∧ (u.dev.core.port n).next = p.next + 1 ∧ (u.dev.core.port n).snoops = [] ∧
        (u.dev.core.port n).buf.length = p.buf.length + 1 ∧
        (tget {} 1 (u.dev.core.port n).vcs).consumed = (tget {} 1 p.vcs).consumed + BitVec.ofNat 16 (slotCost (egLen k.body))) ∧
    (∀ el, p.link = .up → p.replaying = [] →
      16384 ≤ (p.next - p.oldest).toNat ∨ (p.mgt = [] ∧ p.snoops = [] ∧ p.answers = [] ∧ p.reqs = [] ∧ p.heads = [] ∧ ∀ v, v < 4 → (tget {} v p.vcs).rest = []) →
      ∃ u g, exec (.flitSend n el) s = .next u ∧ s.keeps u ∧ u.dev.core.out.getLast? = some (.flit n g) ∧ g.kind = 1 ∧ g.ack = p.expected ∧
        g.crdVc = p.crdVc ∧ g.crd = (tget {} p.crdVc.toNat p.vcs).nextCrd ∧ g.replayReq = p.askReplay ∧ g.crc = crc64 (flitBytes g) ∧
        (u.dev.core.port n).crdVc = p.crdVc + 1 ∧ (u.dev.core.port n).next = p.next ∧ (u.dev.core.port n).buf = p.buf) ∧
    (∀ k : EgPkt,
      (p.linked = false → portOnly s n { p with cnt := { p.cnt with egressDiscard := p.cnt.egressDiscard + 1 } } (exec (.egressEnqueue n k) s)) ∧
      (p.linked = true → ∀ typ d a pl, k.body = .mgt typ d a pl →
        exec (.egressEnqueue n k) s = .next (s.withCore (c.setPort n { p with mgt := p.mgt ++ [k] }))) ∧
      (p.linked = true → p.mirrorRole = false → ∀ d a inv sal pla tag, k.body = .snoop d a inv sal pla tag →
        exec (.egressEnqueue n k) s = .next (s.withCore (c.setPort n { p with snoops := p.snoops ++ [k] }))) ∧
      (p.linked = true → p.mirrorRole = true → ∀ m, k.body = .cmp m → exec (.egressEnqueue n k) s = .next s) ∧
      (p.linked = true → p.mirrorRole = false → ∀ m, k.body = .cmp m →
        let q := 4 * k.ptn + m.cls.toNat
        let x := tget ({} : FairQ) q p.queues
        let weight := max 1 (field x.weight 11 0)
        let tag := (if tagBefore x.f p.vtime then p.vtime else x.f) + BitVec.ofNat 32 (ceilDiv ((egWords k.body).length * 65536) weight)
        x.pkts.length < 512 → (p.queues.map (fun y => y.2.pkts.length)).sum < 4096 → ∃ u, exec (.egressEnqueue n k) s = .next u ∧ s.keeps u ∧
          (u.dev.core.port n).queues = tput {} q { x with pkts := x.pkts ++ [(k, tag)], f := tag } p.queues)) ∧
    exec (.capArm n) s = .next (s.withCore (c.setPort n { p with cap := { p.cap with cfg := p.cap.cfg ||| 1, st := 1, ents := [], trigIndex := 0, post := 0 } })) ∧
    (p.cap.st ≠ 1 → exec (.capGo n) s = .next s) ∧
    (p.cap.st = 1 → ∃ u, exec (.capGo n) s = .next u ∧ s.keeps u ∧
      (u.dev.core.port n).cap.st = (if field p.cap.cfg 25 16 = 0 then 3 else 2) ∧ (u.dev.core.port n).cap.ents = p.cap.ents)

/-- A router forwards by escape table, detour, then X before Y; credit, marks, dead neighbours, escapes, the congestion map and route changes
follow the mesh rules. A new packet enters its origin's input where it may, with the epoch in force there. A packet at the head of its
input whose output is local is delivered, one for a next router is moved into its input when it has credit there and waits otherwise; one
for a dead router is dropped and counted. CE is set only on requests and completions and only when the waiting count has reached the
threshold; it is never cleared. A blocked packet moves to VE when a slot is free and is counted. A multicast copy for a fenced leaf is
dropped and counted, and with ACK_REQ answered. AIMD_WINDOW halves or raises the rate by the marks of the window. The congestion interval
replaces the map by the levels of R412 and counts it; CMAP_READ answers only the fabric manager, with the segment it names or all ten. A
drain marker counts once for each injection point, at its manager; a drained change flips the epoch and applies the rest of its image; an
expired drain timer only logs. (R393, R396, R397, R399, R401, R403, R405, R407, R408, R409, R411, R412.) -/
def Obligations.MeshForwardingAndRoutes : Prop :=
  ∀ s : State, s.ok = true →
    let c := s.dev.core
    (∀ (t : Nat) (k : MeshPkt), k.esc = false → (c.mesh.routes k.epoch).detours = [] →
      let g := targetRouter k.kind k.dst (meshSel k)
      (t % 40 < g % 40 → routeOf c.mesh t k = some 1) ∧ (g % 40 < t % 40 → routeOf c.mesh t k = some 3) ∧
      (t % 40 = g % 40 → t / 40 < g / 40 → routeOf c.mesh t k = some 0) ∧ (t % 40 = g % 40 → g / 40 < t / 40 → routeOf c.mesh t k = some 2) ∧
      (t % 40 = g % 40 → t / 40 = g / 40 → routeOf c.mesh t k = some 4)) ∧
    (∀ (t : Nat) (k : MeshPkt), t < 840 → c.works 5 t = true → deadRouter c t = false →
      (k ∉ (c.router t).bufs → injectable c t k = true → exec (.routerForward t k) s = exec (.routerForward t k) (s.withCore (inject t k c))) ∧
      (k ∉ (c.router t).bufs → injectable c t k = false → exec (.routerForward t k) s = .next s)) ∧
    (∀ (t : Nat) (k : MeshPkt), t < 840 → c.works 5 t = true → deadRouter c t = false → atHead (c.router t) k = true →
      let w := unwait t k c
      (k.kind ≠ 3 → ∀ out, routeOf c.mesh t k = some out →
        let ce := k.ce || (trCe k.tr && decide (markThresh c.mesh ≤ waitingFor w t out k))
        (out = 4 → k.leaf = none → ∃ u, exec (.routerForward t k) s = .next u ∧ s.keeps u ∧
          u.dev.core.out.getLast? = some (.delivered t { k with ce := ce }) ∧ (u.dev.core.router t).bufs = (c.router t).bufs.erase k ∧
          tget 0 k.epoch.toNat u.dev.core.mesh.sunk = tget 0 k.epoch.toNat c.mesh.sunk + 1) ∧
        (∀ v, out ≠ 4 → nextRouter t out = some v → deadRouter c v = true → ∃ u, exec (.routerForward t k) s = .next u ∧ s.keeps u ∧
          u.dev.core.out = c.out ∧ (u.dev.core.router t).bufs = (c.router t).bufs.erase k ∧
          (u.dev.core.router t).deadDrop = (c.router t).deadDrop + 1 ∧
          tget 0 k.epoch.toNat u.dev.core.mesh.sunk = tget 0 k.epoch.toNat c.mesh.sunk + 1 ∧ u.dev.core.router v = c.router v) ∧
        (∀ v, out ≠ 4 → nextRouter t out = some v → deadRouter c v = false →
          (c.works 5 v = true → inputUse (c.router v) k ((out + 2) % 4) < bufCap (meshChan k) →
            ∃ u, exec (.routerForward t k) s = .next u ∧ s.keeps u ∧ (u.dev.core.router t).bufs = (c.router t).bufs.erase k ∧
              (u.dev.core.router v).bufs = (c.router v).bufs ++ [{ k with inp := (out + 2) % 4, ce := ce }] ∧
              ∀ x, x ≠ t → x ≠ v → u.dev.core.router x = c.router x) ∧
          (c.works 5 v = false ∨ bufCap (meshChan k) ≤ inputUse (c.router v) k ((out + 2) % 4) → exec (.routerForward t k) s = .next s))) ∧
      (∀ l : Leaf, k.kind = 3 → (c.router t).mc.find? (fun x => decide (x.1 = k)) = none →
        treeOuts (c.mesh.routes k.epoch) t (meshPlaneB k) k.tree = [4] →
        leavesAt (c.mesh.routes k.epoch) k t = [l] → l.kind = 0 → ∃ u, exec (.routerForward t k) s = .next u ∧ s.keeps u ∧
          (leafFenced c l = false → u.dev.core.out.getLast? = some (.delivered t (leafCopy k l)) ∧
            (u.dev.core.router t).mcFenced = (c.router t).mcFenced) ∧
          (leafFenced c l = true → (u.dev.core.router t).mcFenced = (c.router t).mcFenced + 1 ∧
            (k.ackReq = true → u.dev.core.out.getLast? = some (.deliveredFenced t (leafCopy k l)))))) ∧
    (∀ (t : Nat) (k : MeshPkt), c.works 5 t = true → atHead (c.router t) k = true → k.esc = false → k.kind ≠ 3 →
      let x : MeshPkt := { k with esc := true }
      (4 ≤ inputUse (c.router t) x k.inp → exec (.escapeThreshold t k) s = .next s) ∧
      (inputUse (c.router t) x k.inp < 4 → ∃ u, exec (.escapeThreshold t k) s = .next u ∧ s.keeps u ∧
        (u.dev.core.router t).escapes = (c.router t).escapes + 1 ∧
        (u.dev.core.router t).bufs = (c.router t).bufs.erase k ++ [x])) ∧
    (∀ t, c.hasUnit 4 t = true → frozenChip c = false → exec (.aimdWindow t) s = .next (s.withCore (c.modTile t (fun x => { x with
      marks := 0
      rate := if x.marks = 0 then min 65536 (x.rate + max 1 (field c.mesh.aimd 7 0) * 256)
              else max (max 1 (field c.mesh.aimd 23 16) * 256) (x.rate - x.rate / 2 ^ (min 2 (field c.mesh.aimd 9 8) + 1)) })))) ∧
    (∀ l : List (Nat × Nat), frozenChip c = false → (l.map Prod.fst).Nodup → ∃ u, exec (.congestionInterval l) s = .next u ∧ s.keeps u ∧
      u.dev.core.mesh.cmapSeq = c.mesh.cmapSeq + 1 ∧ u.dev.core.rest = (c.modMesh (fun _ => u.dev.core.mesh)).rest ∧
      ∀ x ∈ l, x.1 < 8400 →
        let v := tget 0 x.1 u.dev.core.mesh.levels
        if c.ust 5 (x.1 / 10) = .off then v = 0 else
          (v = 0 ↔ x.2 < 25000) ∧ (v = 1 ↔ 25000 ≤ x.2 ∧ x.2 < 100000) ∧ (v = 2 ↔ 100000 ≤ x.2 ∧ x.2 < 175000) ∧ (v = 3 ↔ 175000 ≤ x.2)) ∧
    (∀ (n : Nat) (src : BitVec 18) (seg : BitVec 4), portIn c n [.up] = true →
      let fm := c.mesh.fmEp.getLsbD 31 = true ∧ field c.mesh.fmEp 17 0 = src.toNat
      let sends (u : State) (l : List Nat) : Prop := ∃ ep, u.dev.core.out = c.out ++ l.map (fun g => .cmapData n g c.mesh.cmapSeq (cmapSegment c.mesh g)) ∧
        (u.dev.core.port n).mgt = (c.port n).mgt ++ l.map (fun g => ⟨0, .mgt 3 src ep (cmapPayload c.mesh.cmapSeq g (cmapSegment c.mesh g))⟩)
      (fm → seg.toNat ≤ 9 → ∃ u, exec (.cmapRead n src seg) s = .next u ∧ s.keeps u ∧ sends u [seg.toNat]) ∧
      (fm → seg = 15 → ∃ u, exec (.cmapRead n src seg) s = .next u ∧ s.keeps u ∧ sends u (List.range 10)) ∧
      (¬fm ∨ (10 ≤ seg.toNat ∧ seg ≠ 15) →
        exec (.cmapRead n src seg) s = .next (s.withCore (c.modMesh (fun m => { m with cmapRefused := m.cmapRefused + 1 }))))) ∧
    (∀ mgr inj k, c.mesh.change = some k → exec (.drainMarker mgr inj) s =
      .next (if k.markers.contains inj ∨ mgrUp c mgr = false ∨ managerOf (inj / 4096) (inj % 4096) ≠ mgr then s
        else s.withCore (c.modMesh (fun m => { m with change := some { k with markers := k.markers ++ [inj] } })))) ∧
    (routeDrained c = false → exec .drainPoll s = .next s) ∧
    (∀ k, routeDrained c = true → rotUp c = true → c.mesh.change = some k → c.rot.actions.all (fun a => decide (a.step ≠ 22)) = true →
      (k.img = none → ∃ u, exec .drainPoll s = .next u ∧ s.keeps u ∧ u.dev.core.mesh =
        { c.mesh with cur := !c.mesh.cur, change := none, sunk := tput 0 c.mesh.cur.toNat 0 c.mesh.sunk,
                      stamped := c.mesh.stamped.filter (fun x => decide (x.1 % 2 ≠ c.mesh.cur.toNat)) } ∧ u.dev.core.glb.intStatus.getLsbD 21 = true) ∧
      (∀ i, k.img = some i → i.traffic = [] → i.settings = [] → ∃ u, exec .drainPoll s = .next u ∧ s.keeps u ∧
        u.dev.core.mesh.cur = !c.mesh.cur ∧ u.dev.core.mesh.change = none ∧ u.dev.core.cfg.busy = false ∧
        (i.tuning = true → u.dev.core.cfg.tuneId = i.imageId ∧ u.dev.core.cfg.imageId = c.cfg.imageId) ∧
        (i.tuning = false → u.dev.core.cfg.imageId = i.imageId ∧ u.dev.core.cfg.image = some i))) ∧
    (∀ lag, ∃ u, exec (.routeDrainTimeout lag) s = .next u ∧ s.keeps u ∧ u.dev.core.rest = c.rest ∧
      (c.mesh.change = none ∨ routeDrained c = true → u = s))

/-- A request at a fabric port is matched, metered, checked and forwarded or refused in the order and with the reasons of R42. A port that is
not Serving, and an endpoint of no enabled partition, give NackFenced 7; a mirrored partition whose cuff is elsewhere too, and counts it;
fenced or unknown hosts give 6, and a fenced host's DirtyEvict is discarded. An admitted host's request is coloured by the meter of its
group: a red one is answered NackRetry with the meter's back-off, a yellow one carries CE. Then an absent extent, an aperture and a
missing right give NackRevoked 3, 4 and 2; a failed stack drops writes and poisons reads; the rest goes to the home of its line. The
port's own answers go out and join its answer queue. The refusals before a host is known carry the host index 4096 that the model uses
(log 42). A meter setting takes the written bits; a changed bucket size fills the bucket in load condition and else only clamps it. (R40,
R41, R42, R44, R88, R306, R418, R419, R420, R427, R447, R526.) -/
def Obligations.IngressAndMeters : Prop :=
  ∀ (s : State) (n : Nat), s.ok = true → portRuns s.dev.core n = true →
    let c := s.dev.core
    let p := c.port n
    (∀ (q : Req) (el : Nat), p.linked = true → p.mirrorRole = false → p.answers.length < 64 → requestOp q.op = true →
      let answer (u : State) (pt h : Nat) (op : BitVec 6) (reason : BitVec 4) (ce poison : Bool) (b : BitVec 16) : Prop :=
        let m : Cmp := ⟨pt, h, q.src, q.dst, n, op, 0, poison, ce, reason, q.tag, b, 0, q.cls, 0⟩
        s.keeps u ∧ u.dev.core.mem = c.mem ∧ u.dev.core.homes = c.homes ∧ u.dev.core.tiles = c.tiles ∧
        u.dev.core.out.getLast? = some (.completion m) ∧ (u.dev.core.port n).answers = p.answers ++ [⟨pt, .cmp m⟩]
      (c.ust 9 n ≠ .serving ∨ ptnOfEp c q.dst = none → ∃ u, exec (.requestIngress n q el) s = .next u ∧ answer u 0 4096 0x3A 7 q.ce false 0) ∧
      (∀ pt, c.ust 9 n = .serving → ptnOfEp c q.dst = some pt →
        (c.mirrored pt = true → holderServes (c.mirr pt) = false → ∃ u, exec (.requestIngress n q el) s = .next u ∧
          answer u pt ((hostOfEp c pt q.src).getD 4096) 0x3A 7 q.ce false 0 ∧ (u.dev.core.mirr pt).notHolder = (c.mirr pt).notHolder + 1) ∧
        ((c.mirrored pt = true → holderServes (c.mirr pt) = true) →
          ((c.ptn pt).hostsFenced = true → q.op ≠ 10 → ∃ u, exec (.requestIngress n q el) s = .next u ∧
            answer u pt ((hostOfEp c pt q.src).getD 4096) 0x3A 6 q.ce false 0) ∧
          ((c.ptn pt).hostsFenced = false ∨ q.op = 10 → hostOfEp c pt q.src = none → ∃ u, exec (.requestIngress n q el) s = .next u ∧
            answer u pt 4096 0x3A 6 q.ce false 0) ∧
          (∀ h, (c.ptn pt).hostsFenced = false ∨ q.op = 10 → hostOfEp c pt q.src = some h → (c.host h).st ≠ 0 ∨ h ∈ p.fence →
            (q.op ≠ 10 → ∃ u, exec (.requestIngress n q el) s = .next u ∧ answer u pt h 0x3A 6 q.ce false 0) ∧
            (q.op = 10 → exec (.requestIngress n q el) s = .next (s.withCore (freeReqBuffer n q c)))) ∧
          (∀ h, (c.ptn pt).hostsFenced = false ∨ q.op = 10 → hostOfEp c pt q.src = some h → (c.host h).st = 0 → h ∉ p.fence →
            let k := meterOf (c.host h).group q.op
            let m := tget ({} : Meter) k p.meters
            let a := m.accrue el
            let o : Origin := ⟨1, h, q.tag, n, 0, none, q.cls⟩
            let passes (u : State) (yellow : Bool) : Prop :=
              let ce := q.ce || yellow
              let i := plaExt q.pla
              let x := tget ({} : Ext) (pt * 1024 + i) p.ext
              let e := (c.place (x.ppa * 2 ^ 30 + q.pla.toNat % 2 ^ 30)).1
              i ≤ 1022 →
                (895 < i ∨ x.valid = false → answer u pt h 0x39 3 ce false 0 ∧
                  (u.dev.core.ptn pt).nackRevoked = (c.ptn pt).nackRevoked + 1) ∧
                (i ≤ 895 → x.valid = true → x.typ = 3 → answer u pt h 0x39 4 ce false 0) ∧
                (i ≤ 895 → x.valid = true → x.typ ≠ 3 → q.op ≠ 10 → grants x (c.host h).group (needsWrite q.op) = false →
                  answer u pt h 0x39 2 ce false 0) ∧
                (i ≤ 895 → x.valid = true → x.typ ≠ 3 → q.op = 10 ∨ grants x (c.host h).group (needsWrite q.op) = true →
                  (p.stackFailed.getLsbD e = true → isWrite q.op = true ∨ q.op = 10 → answer u pt h 0x31 0 ce false 0) ∧
                  (p.stackFailed.getLsbD e = true → isWrite q.op = false → q.op ≠ 10 → answer u pt h 0x30 0 ce true 0) ∧
                  (p.stackFailed.getLsbD e = false → c.mirrored pt = false ∨ isWrite q.op = false →
                    u.dev.core.out.getLast? = some (.toHome e o { q with ce := ce })))
            (m.en = false → ∃ u, exec (.requestIngress n q el) s = .next u ∧ passes u false ∧
              tget {} k (u.dev.core.port n).meters = { m with green := m.green + 1 }) ∧
            (m.en = true → a.p.tok < meterBytes → q.op ≠ 10 → ∃ u, exec (.requestIngress n q el) s = .next u ∧
              answer u pt h 0x38 1 q.ce false (meterBackoff c.tmgr a) ∧ tget {} k (u.dev.core.port n).meters = { a with red := a.red + 1 }) ∧
            (m.en = true → a.p.tok < meterBytes → q.op = 10 → ∃ u, exec (.requestIngress n q el) s = .next u ∧ passes u true ∧
              tget {} k (u.dev.core.port n).meters = { a with yellow := a.yellow + 1 }) ∧
            (m.en = true → meterBytes ≤ a.p.tok → a.c.tok < meterBytes → ∃ u, exec (.requestIngress n q el) s = .next u ∧ passes u true ∧
              tget {} k (u.dev.core.port n).meters = { a with yellow := a.yellow + 1, p := { a.p with tok := a.p.tok - meterBytes } }) ∧
            (m.en = true → meterBytes ≤ a.p.tok → meterBytes ≤ a.c.tok → ∃ u, exec (.requestIngress n q el) s = .next u ∧ passes u false ∧
              tget {} k (u.dev.core.port n).meters = { a with green := a.green + 1, p := { a.p with tok := a.p.tok - meterBytes },
                                                              c := { a.c with tok := a.c.tok - meterBytes } }))))) ∧
    (∀ (off : BitVec 26) (w : BitVec 32) (el k r : Nat), k < 512 → r < 32 → n < 8 → off.toNat = 0x710000 + n * 0x4000 + k * 32 + r →
      let m := tget ({} : Meter) k p.meters
      let a := if m.en then m.accrue el else m
      ∃ u, exec (.meterSettingWrite off w el) s = .next u ∧ s.keeps u ∧ (∀ j, j ≠ k → tget {} j (u.dev.core.port n).meters = tget {} j p.meters) ∧
        u.dev.core.rest = (c.setPort n { p with meters := (u.dev.core.port n).meters }).rest ∧
        let y := tget {} k (u.dev.core.port n).meters
        (r = 0 → y.cir = w &&& 0x803FFFFF ∧ (m.en = false → w.getLsbD 31 = true → y.c = ⟨y.cSize * 65536, 0⟩ ∧ y.p = ⟨y.pSize * 65536, 0⟩)) ∧
        (r = 8 → y.cbs = w &&& 0x3FFFF ∧ y.cir = m.cir ∧ y.p = a.p ∧
          (w &&& 0x3FFFF = m.cbs → y.c = a.c) ∧
          (w &&& 0x3FFFF ≠ m.cbs → loadCond c n none = true → y.c = ⟨y.cSize * 65536, 0⟩) ∧
          (w &&& 0x3FFFF ≠ m.cbs → loadCond c n none = false → y.c.tok = min a.c.tok (y.cSize * 65536))) ∧
        (r = 4 → y.pir = w &&& 0x3FFFFF) ∧ (r = 12 → y.pbs = w &&& 0x3FFFF) ∧
        (r ≠ 0 → r ≠ 4 → r ≠ 8 → r ≠ 12 → (y.cir, y.pir, y.cbs, y.pbs) = (m.cir, m.pir, m.cbs, m.pbs))) ∧
    (∀ (off : BitVec 26) (w : BitVec 32) (el q : Nat), q < 128 → n < 8 → off.toNat = 0x740000 + n * 0x1000 + q * 16 →
      exec (.meterSettingWrite off w el) s = .next (s.withCore (c.setPort n { p with
        queues := tput {} q { tget ({} : FairQ) q p.queues with weight := w &&& 0xFFF } p.queues })))

/-- Replicated requests, acknowledgements, the cuff, the lease and PEER_STATE move a mirrored partition between its states as the mirror rules
say. A device that is not the holder counts and refuses a replicated request with NackFenced 7; the holder answers a completed duplicate
from the dedupe table, ignores one in progress, and sends a new one to its home; REPL at the peer goes to the home with its order number,
of a host that is not known there without a host number below 4,096. REPL_ACK with the same answer completes the request to its host; a
different one, and the loss of the peer while Active, leave the device SoloPending with CUFF_REQ SOLO sent. Requests for the cuff carry
state, epoch and the next number. A grant that answers a recent request and ends in the future sets lease and epoch, and takes Standby to
Active or Solo and SoloPending to Solo; an expired lease makes a holder Stale. PEER_STATE restarts the peer timer and moves the state as
its table says; RELEASE hands the cuff over once nothing is pending; TAKE asks for it from Stale. Where answers held by the homes would
move too, the statement assumes that no tracker waits. (R436, R437, R439, R440, R442, R444, R445, R447, R448, R449.) -/
def Obligations.MirrorRequestsAndCuff : Prop :=
  ∀ (s : State) (p : Nat), s.ok = true → s.dev.core.mirrored p = true →
    let c := s.dev.core
    let m := c.mirr p
    let idle : Prop := ∀ h ∈ c.homes, h.2.trks = []
    let sent (u : State) (x : Msg) : Prop := ∃ l, u.dev.core.out = c.out ++ l ∧ x ∈ l
    let done (o : Origin) (op : BitVec 6) (reason : BitVec 4) (backoff : BitVec 16) (order : BitVec 48) : Msg :=
      .completion ⟨p, o.idx, (c.host o.idx).ep, (c.ptn p).endpoint, o.port, op, 0, false, false, reason, o.tag, backoff, order, o.cls, 0⟩
    let req (u : State) (solo : Bool) : Prop :=
      sent u (.cuffReq p (u.dev.core.mirr p).st.code (u.dev.core.mirr p).leaseEnd.isSome solo (m.reqNo + 1) m.epoch (BitVec.ofNat 10 (leaseMs m))) ∧
      (u.dev.core.mirr p).reqNo = m.reqNo + 1
    (∀ (o : Origin) (q : Req),
      let d := (tget [] o.idx m.dedupe).find? (fun d => decide (d.tag = o.tag))
      (holderServes m = false → ∃ u, exec (.replicatedRequest p o q) s = .next u ∧ s.keeps u ∧ (u.dev.core.mirr p).notHolder = m.notHolder + 1 ∧
        u.dev.core.out.getLast? = some (done o 0x3A 7 0 0)) ∧
      (∀ x, holderServes m = true → d = some x → x.done = false → exec (.replicatedRequest p o q) s = .next s) ∧
      (∀ x, holderServes m = true → d = some x → x.done = true → ∃ u, exec (.replicatedRequest p o q) s = .next u ∧ s.keeps u ∧
        (u.dev.core.mirr p).hits = m.hits + 1 ∧ u.dev.core.mem = c.mem ∧
        u.dev.core.out.getLast? = some (done o x.op 0 0 x.order)) ∧
      (holderServes m = true → d = none → (c.mirrs.map (fun x => (x.2.pend.filter (fun k => !k.dead)).length)).sum < 4096 → plaExt q.pla ≤ 895 →
        ∃ u, exec (.replicatedRequest p o q) s = .next u ∧ s.keeps u ∧ u.dev.core.out = c.out ++ [.toHome (plaLine c p q.pla).1 o q] ∧
          (u.dev.core.mirr p).pend = m.pend ++ [⟨0, o, q, 0, 0, false⟩] ∧ (u.dev.core.mirr p).order = m.order) ∧
      (holderServes m = true → d = none → 4096 ≤ (c.mirrs.map (fun x => (x.2.pend.filter (fun k => !k.dead)).length)).sum →
        ∃ u, exec (.replicatedRequest p o q) s = .next u ∧ s.keeps u ∧ u.dev.core.mirr p = m ∧
          u.dev.core.out.getLast? = some (done o 0x3B 8 10 0))) ∧
    (∀ k : ReplPkt,
      (∀ h, m.st = .standby ∨ m.st = .resync → plaExt k.q.pla ≤ 895 → hostOfEp c p k.q.src = some h → (c.host h).st = 0 →
        let o : Origin := ⟨1, h, k.q.tag, (c.host h).port, 0, none, k.q.cls⟩
        exec (.repl p k) s = .next (s.withCore ((c.setMirr p { m with pend := m.pend ++ [⟨k.order, o, k.q, 0, 0, false⟩] }).send
          (.toHome (plaLine c p k.q.pla).1 o k.q)))) ∧
      (m.st = .standby ∨ m.st = .resync → plaExt k.q.pla ≤ 895 → hostOfEp c p k.q.src = none → ∃ u o, exec (.repl p k) s = .next u ∧ s.keeps u ∧
        (∀ h : Nat, h < 4096 → o.idx ≠ h) ∧ (u.dev.core.mirr p).pend = m.pend ++ [⟨k.order, o, k.q, 0, 0, false⟩] ∧
        sent u (.toHome (plaLine c p k.q.pla).1 o k.q)) ∧
      (m.st ≠ .standby → m.st ≠ .resync → exec (.repl p k) s = .next s)) ∧
    (∀ (n : BitVec 48) (a : BitVec 6), idle → m.st = .active →
      (∀ k, m.pend.find? (fun k => decide (k.order = n) && decide (k.op ≠ 0)) = some k →
        (a = k.op → m.releasing = false → ∃ u, exec (.replAck p n a) s = .next u ∧ s.keeps u ∧ (u.dev.core.mirr p).pend = (m.dropPend k.o).pend ∧
          (u.dev.core.mirr p).st = .active ∧
          u.dev.core.out.getLast? = some (done k.o k.op k.reason 0 k.order)) ∧
        (a ≠ k.op → ∃ u, exec (.replAck p n a) s = .next u ∧ s.keeps u ∧ (u.dev.core.mirr p).st = .soloPending ∧ (u.dev.core.mirr p).peerLost = true ∧ req u true)) ∧
      (m.pend.find? (fun k => decide (k.order = n) && decide (k.op ≠ 0)) = none → m.rsOn = true → 1 < m.rsOut →
        exec (.replAck p n a) s = .next (s.withCore (c.setMirr p { m with rsOut := m.rsOut - 1 }))) ∧
      (m.pend.find? (fun k => decide (k.order = n) && decide (k.op ≠ 0)) = none → m.rsOn = false → exec (.replAck p n a) s = .next s)) ∧
    ((m.st = .standby ∨ m.st = .active ∨ m.st = .solo → ∃ u, exec (.cuffRenew p) s = .next u ∧ s.keeps u ∧ req u false ∧ (u.dev.core.mirr p).st = m.st) ∧
      (m.st = .soloPending → ∃ u, exec (.cuffRenew p) s = .next u ∧ s.keeps u ∧ req u true ∧ (u.dev.core.mirr p).st = m.st) ∧
      (m.st = .stale → m.seek = true → ∃ u, exec (.cuffRenew p) s = .next u ∧ s.keeps u ∧ req u true ∧ (u.dev.core.mirr p).st = m.st) ∧
      (m.st = .resync → exec (.cuffRenew p) s = .next s) ∧ (m.st = .stale → m.seek = false → exec (.cuffRenew p) s = .next s)) ∧
    (∀ (n e : BitVec 32) (d : BitVec 10) sent' solo, d ≠ 0 → m.sends.find? (fun k => decide (k.1 = n)) = some (n, sent', solo) →
      let till := max (m.leaseEnd.getD 0) (sent' + d.toNat * 24990 - 25000)
      (till ≤ c.evc.tick.toNat → m.leaseEnd = none → exec (.cuffGrant p n e d) s = .next s) ∧
      (c.evc.tick.toNat < till → (∀ k ∈ m.pend, k.op = 0) → ∃ u, exec (.cuffGrant p n e d) s = .next u ∧ s.keeps u ∧
        (u.dev.core.mirr p).leaseEnd = some till ∧ (u.dev.core.mirr p).epoch = e ∧ (u.dev.core.mirr p).st =
          (if m.st = .standby then (if m.peerLost ∨ m.peer = 0 then .solo else if m.peer = 2 then .active else .standby)
           else if m.st = .soloPending ∧ solo = true then .solo
           else if m.st = .stale ∧ m.seek = true ∧ solo = true then .solo else m.st))) ∧
    (∀ (n e : BitVec 32) (d : BitVec 10), m.sends.find? (fun k => decide (k.1 = n)) = none → exec (.cuffGrant p n e d) s = .next s) ∧
    (idle → ∃ u, exec (.leaseExpiry p) s = .next u ∧ s.keeps u ∧ (u.dev.core.mirr p).leaseEnd = none ∧
      (u.dev.core.mirr p).st = (if holderSt m.st then .stale else m.st) ∧ (u.dev.core.mirr p).epoch = m.epoch ∧ (u.dev.core.mirr p).order = m.order) ∧
    (idle → ∀ n, (m.st = .active → (∃ k ∈ m.pend, k.order = n ∧ k.op ≠ 0) → ∃ u, exec (.replTimeout p n) s = .next u ∧ s.keeps u ∧
        (u.dev.core.mirr p).st = .soloPending ∧ (u.dev.core.mirr p).peerLost = true ∧ req u true) ∧
      (m.st ≠ .active → m.st ≠ .solo → exec (.replTimeout p n) s = .next s)) ∧
    (m.peerLost = true → exec (.peerTimeout p) s = .next s) ∧
    (idle → m.peerLost = false → ∃ u, exec (.peerTimeout p) s = .next u ∧ s.keeps u ∧ (u.dev.core.mirr p).peerLost = true ∧
      (u.dev.core.mirr p).st = (if m.st = .active then .soloPending else if m.st = .resync then .stale else m.st) ∧ (m.st = .active → req u true)) ∧
    (mirrLinkUp c p = false → exec (.peerStateSend p) s = .next s) ∧
    (mirrLinkUp c p = true → ∃ u, exec (.peerStateSend p) s = .next u ∧ s.keeps u ∧ u.dev.core.mirr p = m ∧
      u.dev.core.out = c.out ++ [.peerState p m.st.code m.order m.epoch]) ∧
    (∀ (ep : BitVec 18) (st : BitVec 3) (n : BitVec 48) (e : BitVec 32), idle → ∃ u, exec (.peerState p ep st n e) s = .next u ∧ s.keeps u ∧
      let x := u.dev.core.mirr p
      x.peer = st ∧ x.peerOrder = n ∧ x.peerEpoch = e ∧ x.peerLost = false ∧ x.epoch = m.epoch ∧ x.order = m.order ∧ x.st =
        (if m.st = .stale ∧ mirrLinkUp c p = true then
            (if st = 3 ∨ st = 5 then .resync else if m.order = 0 ∧ n = 0 ∧ (st = 0 ∨ st = 2) then .standby else .stale)
         else if m.st = .resync ∧ st ≠ 3 ∧ st ≠ 5 then .stale
         else if m.st = .standby ∧ (newer e m.epoch = true ∨ st = 5) then .stale else m.st)) ∧
    (m.st = .active → m.pend.all (fun k => k.dead) = true → ∃ u, exec (.release p) s = .next u ∧ s.keeps u ∧
      u.dev.core.mirr p = { m with st := .standby, releasing := false, leaseEnd := none } ∧ u.dev.core.out = c.out ++ [.cuffRelease p m.epoch]) ∧
    (m.st = .active → m.pend.all (fun k => k.dead) = false → exec (.release p) s = .next (s.withCore (c.setMirr p { m with releasing := true }))) ∧
    (m.st ≠ .active → exec (.release p) s = .next s) ∧
    (m.st = .stale → m.peerLost = true ∨ mirrLinkUp c p = false → ∃ u, exec (.takeCuff p) s = .next u ∧ s.keeps u ∧
      (u.dev.core.mirr p).seek = true ∧ (u.dev.core.mirr p).st = .stale ∧ req u true) ∧
    (m.st ≠ .stale ∨ (m.peerLost = false ∧ mirrLinkUp c p = true) → exec (.takeCuff p) s = .next s)

/-- The holder's resync walk sends each line once and ends the stream; the returning device applies each packet and acknowledges it. While a
resync runs on the holder, RESYNC_LINE sends the next line of the walk with its data in one packet and moves on by one line, then to the
next extent; of a snapshot region the packets of its live slots' own pages; with no extent left it sends the last block. The returning
device writes the line of a packet into its home, changes no other line, and acknowledges it with the packet's order number; after the
last packet, once no record is pending, it is Standby with the peer's epoch. A device that is not in Resync ignores the stream. (R447,
R450.) -/
def Obligations.MirrorResync : Prop :=
  ∀ (s : State) (p : Nat), s.ok = true →
    let c := s.dev.core
    let m := c.mirr p
    let sent (u : State) (x : Msg) : Prop := ∃ l, u.dev.core.out = c.out ++ l ∧ x ∈ l
    let walk := ((validExts c p).mergeSort (fun a b => decide (a ≤ b))).find? (fun i => decide (m.rsEnt ≤ i))
    (m.rsOn = false → exec (.resyncLine p) s = .next s) ∧
    (m.rsOn = true → m.rsDone = false → m.st = .active ∨ m.st = .solo →
      (walk = none → ∃ u, exec (.resyncLine p) s = .next u ∧ s.keeps u ∧ sent u (.rsync p ⟨m.order, some .fin, 0, 0, 0, 0⟩) ∧ (u.dev.core.mirr p).rsDone = true ∧ (u.dev.core.mirr p).rsOut = m.rsOut + 1) ∧
      (∀ i, walk = some i →
        let l := if i = m.rsEnt then m.rsLine else 0
        let pla := BitVec.ofNat 40 (i * 2 ^ 30 + l * 128)
        let e := (plaLine c p pla).1
        let line := (plaLine c p pla).2
        (c.works 6 e = false ∨ lineBlocked (c.home e) line = true → exec (.resyncLine p) s = .next s) ∧
        (c.works 6 e = true → lineBlocked (c.home e) line = false →
          ∃ u, exec (.resyncLine p) s = .next u ∧ s.keeps u ∧ u.dev.core.mem = c.mem ∧
            ((c.masterExt p i).typ ≠ 1 → sent u (.rsync p ⟨m.order, none, 0, 0, pla, (c.rdPool e line).1⟩) ∧ (u.dev.core.mirr p).rsOut = m.rsOut + 1) ∧
            (∀ w pg : Nat, (c.masterExt p i).typ = 1 →
              let g := c.region (c.masterExt p i).region
              g.created = true → g.base ≤ i → i < g.base + g.v → (c.pageWords e (line / 512))[w]? = some (pg, true) → (tget {} w g.slots).st ≠ .free →
                sent u (.rsync p ⟨m.order, none, 0, BitVec.ofNat 3 w, pla, (c.rdPool e (pg * 512 + line % 512)).1⟩)) ∧
            (u.dev.core.mirr p).rsEnt = (if l + 1 = 2 ^ 23 then i + 1 else i) ∧
            (u.dev.core.mirr p).rsLine = (if l + 1 = 2 ^ 23 then 0 else l + 1)))) ∧
    (∀ k : RsyncPkt, m.st ≠ .resync → exec (.rsync p k) s = .next s) ∧
    (∀ k : RsyncPkt, m.st = .resync → k.blk = none → (c.masterExt p (plaExt k.pla)).valid = true → (c.masterExt p (plaExt k.pla)).typ ≠ 1 →
      let e := (plaLine c p k.pla).1
      let line := (plaLine c p k.pla).2
      line < 2 ^ 29 → ∃ u, exec (.rsync p k) s = .next u ∧ s.keeps u ∧ u.dev.core.rdPool e line = (k.data, false) ∧ otherLines c u.dev.core e line ∧
        sent u (.replAck p k.order 0x31) ∧ (u.dev.core.mirr p).order = k.order ∧
        (m.rsDone = true → (∀ x ∈ m.pend, x.order = 0) → (u.dev.core.mirr p).st = .standby ∧ (u.dev.core.mirr p).epoch = m.peerEpoch) ∧
        (m.rsDone = false → (u.dev.core.mirr p).st = .resync)) ∧
    (∀ k : RsyncPkt, m.st = .resync → k.blk = some .fin → ∃ u, exec (.rsync p k) s = .next u ∧ s.keeps u ∧ u.dev.core.mem = c.mem ∧
      sent u (.replAck p k.order 0x31) ∧
      ((∀ x ∈ m.pend, x.order = 0) → (u.dev.core.mirr p).st = .standby ∧ (u.dev.core.mirr p).epoch = m.peerEpoch) ∧
      ((∃ x ∈ m.pend, x.order ≠ 0) → (u.dev.core.mirr p).st = .resync ∧ (u.dev.core.mirr p).rsDone = true)) ∧
    (∀ (k : RsyncPkt) (e : BitVec 32), m.st = .resync → k.blk = some (.epoch e) → m.rsDone = false → ∃ u, exec (.rsync p k) s = .next u ∧ s.keeps u ∧
      u.dev.core.mirr p = { m with peerEpoch := e, order := k.order } ∧ u.dev.core.mem = c.mem ∧ sent u (.replAck p k.order 0x31)) ∧
    (∀ (k : RsyncPkt) o md pr co pa ro a0 a1 b0 b1, m.st = .resync → k.blk = some (.obj o md pr co pa ro a0 a1 b0 b1) →
      ∃ u, exec (.rsync p k) s = .next u ∧ s.keeps u ∧ u.dev.core.mem = c.mem ∧ (u.dev.core.obj o).produced = pr ∧ (u.dev.core.obj o).consumed = co ∧
        (u.dev.core.obj o).param = pa ∧ (u.dev.core.obj o).round = ro ∧ (∀ x, x ≠ o → u.dev.core.obj x = c.obj x))

/-- An HBM controller queues line accesses and metadata, issues refresh, RFM and request commands in order, recovers from parity alerts and
trains. A line access of a Serving controller enters its pseudo-channel's queue together with what its metadata needs, when every queue
has room; a metadata miss is counted and reads the metadata line. An issue takes an owed all-bank refresh first, then an owed bank
refresh, then RFM, then a request: it opens the row, issues the next of four column commands on an open row, or precharges another row. A
refresh that falls due is owed, the ninth becomes an all-bank refresh. The open-page timer closes an unhinted row that nothing hits. Self-
refresh writes back the metadata; work ends it. A parity alert stops the channel; its end replays, and after three replays, or with the
recovery timer, retrains; a retrain gives the command lanes new delays and ends in issue, or in Failed. TRAINING_GO runs only in Held.
AGE_CAP is a free bit (log 32) that decides nothing where one request waits. The statement assumes that no log entry freezes the chip,
which would put every stack into self-refresh. (R269, R270, R276, R277, R279, R280, R282, R283, R284, R285, R287, R289.) -/
def Obligations.HbmControllers : Prop :=
  ∀ (s : State) (e : Nat), s.ok = true → s.dev.core.steady = true →
    let c := s.dev.core
    let x := c.hbmc e
    let new (u : State) : Hbmc := u.dev.core.hbmc e
    let sent (u : State) (m : Msg) : Prop := ∃ l, u.dev.core.out = c.out ++ l ∧ m ∈ l
    (∀ (w : Bool) (k : HbmReq),
      let i : Instr := if w then .lineWrite e k else .lineRead e k
      let c1 := if w then evictLine e (k.addr / 128) c else c
      let own : Access := ⟨w, caOf (c1.hbmc e) e k.addr, k.hint, if w then c1.stackLine e k.addr else 0⟩
      let m := mdLine k.addr
      let all := own :: (if k.addr < saMeta then mdNeeds c1 e m else [])
      let pc (y : Hbmc) : Pc := pcOf y (caPc x own.ca)
      (c.ust 7 e ≠ .serving ∨ frozenChip c = true ∨ enqueueAll (c1.hbmc e) all = none → exec i s = .next s) ∧
      (c.ust 7 e = .serving → frozenChip c = false → (enqueueAll (c1.hbmc e) all).isSome = true → ∃ u, exec i s = .next u ∧
        s.keeps u ∧ u.dev.core.mem = c.mem ∧
        ⟨own.ca, k.hint, own.data, x.arrivals, 4⟩ ∈ (if w then (pc (new u)).wq else (pc (new u)).rq) ∧
        (saMeta ≤ k.addr → (new u).md = x.md ∧ (new u).mdMiss = x.mdMiss) ∧
        (k.addr < saMeta → x.md.any (fun y => decide (y.1 = m)) = true → (new u).md = mdAfter w m x.md ∧ (new u).mdMiss = x.mdMiss) ∧
        (k.addr < saMeta → x.md.any (fun y => decide (y.1 = m)) = false →
          (new u).md = mdAfter w m x.md ∧ (new u).mdMiss = x.mdMiss + 1 ∧
          ⟨caOf x e (mdAddr m), 0, 0, x.arrivals + 1, 4⟩ ∈ (pcOf (new u) (caPc x (caOf x e (mdAddr m)))).rq))) ∧
    (∀ pc : Nat, pcIssues c e pc = true → begun (pcOf x pc) = none →
      let p := pcOf x pc
      let q' (u : State) : Pc := pcOf (new u) pc
      let does (g : State → Prop) : Prop := ∃ u, exec (.hbmCommandIssue e pc) s = .next u ∧ s.keeps u ∧ g u
      (p.allDue = true →
        (p.rows ≠ [] → does (fun u => sent u (.hbm e pc .prechargeAll false) ∧ (q' u).rows = [] ∧ (q' u).allDue = true)) ∧
        (p.rows = [] → does (fun u => sent u (.hbm e pc .refreshAll false) ∧ (q' u).due = [] ∧ (q' u).allDue = false))) ∧
      (∀ b r, p.allDue = false → p.due = b :: r →
        ((tget none b p.rows).isSome = true → does (fun u => sent u (.hbm e pc (.precharge b) false) ∧ tget none b (q' u).rows = none ∧ (q' u).due = p.due)) ∧
        (tget none b p.rows = none → does (fun u => sent u (.hbm e pc (.refresh b) false) ∧ (q' u).due = r))) ∧
      (∀ b, p.allDue = false → p.due = [] → rfmBankOf e x p = some b →
        ((tget none b p.rows).isSome = true → does (fun u => sent u (.hbm e pc (.precharge b) false) ∧ (q' u).acts = p.acts)) ∧
        (tget none b p.rows = none → does (fun u => sent u (.hbm e pc (.rfm b) false) ∧ (new u).rfm = x.rfm + 1 ∧
          tget 0 b (q' u).acts = tget 0 b p.acts - max 1 (Config.rfmIssue e)))) ∧
      (p.allDue = false → p.due = [] → rfmBankOf e x p = none →
        (c.works 7 e = false → exec (.hbmCommandIssue e pc) s = .next s) ∧
        (p.rq = [] → p.wq = [] → c.works 7 e = true → does (fun u => u.dev.core.out = c.out ∧ (q' u).rows = p.rows)) ∧
        (∀ q : QReq, p.rq = [q] → p.wq = [] → c.works 7 e = true →
          let bank := caBank x q.ca
          (tget none bank p.rows = none → x.cfg.getLsbD 13 = false ∨ tget 0 bank p.acts < Config.rfmMax e → does (fun u =>
            sent u (.hbm e pc (.activate bank (caRow q.ca)) false) ∧ tget none bank (q' u).rows = some (caRow q.ca, 3) ∧ (q' u).rq = [q] ∧
            (x.cfg.getLsbD 13 = true → tget 0 bank (q' u).acts = tget 0 bank p.acts + 1))) ∧
          (∀ r h, tget none bank p.rows = some (r, h) → r ≠ caRow q.ca → does (fun u =>
            sent u (.hbm e pc (.precharge bank) false) ∧ tget none bank (q' u).rows = none ∧ (q' u).rq = [q]))))) ∧
    (∀ (pc : Nat) (q : QReq) h, pcIssues c e pc = true → c.works 7 e = true →
      let p := pcOf x pc
      let bank := caBank x q.ca
      p.rq = [q] → p.wq = [] → p.allDue = false → p.due = [] → rfmBankOf e x p = none → 1 ≤ q.left → q.left ≤ 4 → tget none bank p.rows = some (caRow q.ca, h) →
      let close := decide (q.left = 1) && (decide (q.hint = 1) || (decide (q.hint = 0) && decide (field x.cfg 9 0 = 0)))
      let kept : BitVec 2 := if q.hint = 2 then 2 else 0
      ∃ u, exec (.hbmCommandIssue e pc) s = .next u ∧ s.keeps u ∧ sent u (.hbm e pc (.read q.ca (4 - q.left) kept close) false) ∧
        (pcOf (new u) pc).rq = (if q.left = 1 then [] else [{ q with left := q.left - 1 }]) ∧
        tget none bank (pcOf (new u) pc).rows = if close then none else some (caRow q.ca, kept)) ∧
    (∀ (pc bank r : Nat) (h : BitVec 2), pcIssues c e pc = true → tget none bank (pcOf x pc).rows = some (r, h) →
      let hit := ((pcOf x pc).rq ++ (pcOf x pc).wq).any (fun k => decide (caBank x k.ca = bank) && decide (caRow k.ca = r))
      (h = 2 ∨ hit = true → exec (.openPageTimeout e pc bank) s = .next s) ∧
      (h ≠ 2 → hit = false → ∃ u, exec (.openPageTimeout e pc bank) s = .next u ∧ s.keeps u ∧
        u.dev.core.out = c.out ++ [.hbm e pc (.precharge bank) false] ∧ tget none bank (pcOf (new u) pc).rows = none)) ∧
    (∀ pc, c.hasUnit 7 e = true → frozenChip c = false → c.ust 7 e ≠ .off → c.ust 7 e ≠ .failed → x.trained = true → x.selfRefresh = false → pc < 64 →
      let p := pcOf x pc
      let next := (p.nextBank + 1) % 64
      (p.allDue = true → exec (.refreshDeadline e pc) s = .next s) ∧
      (p.allDue = false → p.due.length < 8 → exec (.refreshDeadline e pc) s = .next (s.withCore (modPc e pc (fun p => { p with
        due := p.due ++ [p.nextBank], nextBank := next }) c))) ∧
      (p.allDue = false → 8 ≤ p.due.length → exec (.refreshDeadline e pc) s = .next (s.withCore (modPc e pc (fun p => { p with
        allDue := true, nextBank := next }) c)))) ∧
    (c.hasUnit 7 e = true → frozenChip c = false → c.ust 7 e ≠ .off → c.ust 7 e ≠ .failed → x.trained = true → x.selfRefresh = false →
      x.pwr.getLsbD 0 = true → queuesEmpty x = true → ptnsOnStack c e = [] → (∀ k ∈ x.chans, k.2.step = 0) →
      ∃ u, exec (.selfRefreshIdle e) s = .next u ∧ s.keeps u ∧ (new u).selfRefresh = true ∧ (∀ y ∈ (new u).md, y.2 = false) ∧
        sent u (.hbm e 0 (.selfRefresh true) false) ∧ ∀ m ∈ x.md, m.2 = true → ∀ b, b < 4 →
          let ca := caOf x e (mdAddr m.1)
          sent u (.hbm e (caPc x ca) (.write ca b 0 false (burstOf (c.stackLine e (mdAddr m.1)) b)) false)) ∧
    (frozenChip c = false → x.selfRefresh = true → queuesEmpty x = false → exec (.selfRefreshExit e) s =
      .next (s.withCore ((c.setHbmc e { x with selfRefresh := false }).send (.hbm e 0 (.selfRefresh false) false)))) ∧
    (x.selfRefresh = false ∨ queuesEmpty x = true → exec (.selfRefreshExit e) s = .next s) ∧
    (∀ k : Nat,
      let h := chanOfHbm x k
      (c.hasUnit 7 e = true → frozenChip c = false → c.ust 7 e ≠ .held → c.ust 7 e ≠ .off → c.ust 7 e ≠ .failed → k < 32 → x.cfg.getLsbD 14 = true →
        h.step ≠ 1 → h.step ≠ 6 → ∃ u, exec (.parityAlert e k) s = .next u ∧ s.keeps u ∧
        chanOfHbm (new u) k = { h with step := 1, alerts := h.alerts + 1 } ∧ (new u).parityAlert = x.parityAlert + 1) ∧
      (c.ust 7 e ≠ .held → x.cfg.getLsbD 14 = false ∨ h.step = 1 ∨ h.step = 6 → exec (.parityAlert e k) s = .next s) ∧
      (c.ust 7 e = .held → c.hasUnit 7 e = true → x.trnBusy = true → field x.trnRun 3 1 = 1 → k < 32 →
        exec (.parityAlert e k) s = .next (s.withCore (c.setHbmc e { x with trnAlert := true }))) ∧
      (h.step = 1 → h.replays < 3 → ∃ u, exec (.parityAlertClear e k) s = .next u ∧ s.keeps u ∧ (new u).replay = x.replay + 1 ∧
        ∀ pc, pc = 2 * k ∨ pc = 2 * k + 1 → sent u (.hbm e pc .prechargeAll false) ∧ (pcOf (new u) pc).due = [] ∧
          (∀ b ∈ (pcOf x pc).due, (pcOf x pc).allDue = false → sent u (.hbm e pc (.refresh b) false)) ∧
          (∀ op ∈ (pcOf x pc).replay, sent u (.hbm e pc op true) ∧ chanOfHbm (new u) k = { h with step := 4, replays := h.replays + 1 })) ∧
      (h.step = 1 → 3 ≤ h.replays → exec (.parityAlertClear e k) s = .next (s.withCore (startHbmRetrain e k c))) ∧
      (h.step = 1 → ∃ u, exec (.alertRecoveryTimeout e k) s = .next u ∧ s.keeps u ∧ chanOfHbm (new u) k = { h with step := 6, slices := 0 } ∧
        (new u).retrain = x.retrain + 1) ∧
      (h.step ≠ 1 → exec (.alertRecoveryTimeout e k) s = .next s ∧ exec (.parityAlertClear e k) s = .next s) ∧
      (h.step = 6 → ∃ u, exec (.hbmRetrainSlice e k) s = .next u ∧ s.keeps u ∧ chanOfHbm (new u) k = { h with slices := h.slices + 1 } ∧
        ∀ pc, pc = 2 * k ∨ pc = 2 * k + 1 → (pcOf (new u) pc).due = [] ∧ (pcOf (new u) pc).allDue = false ∧
          ∀ op ∈ owedOps (pcOf x pc), sent u (.hbm e pc op false)) ∧
      (h.step = 6 → ∃ u v, exec (.hbmRetrain e k) s = .next u ∧ s.keeps u ∧ chanOfHbm (new u) k = {} ∧ (pcOf (new u) (2 * k)).due = [] ∧
        (new u).dly = newDelays k v x.dly) ∧
      (h.step = 6 → ∃ u, exec (.hbmRetrainLimit e k) s = .next u ∧ s.keeps u ∧ (chanOfHbm (new u) k).step = 0 ∧ u.dev.core.ust 7 e = .failed) ∧
      (h.step ≠ 6 → exec (.hbmRetrainSlice e k) s = .next s ∧ exec (.hbmRetrain e k) s = .next s ∧ exec (.hbmRetrainLimit e k) s = .next s)) ∧
    (∀ pc a r, (pcOf x pc).replay = a :: r → (chanOfHbm x (pc / 2)).step ≠ 1 → (chanOfHbm x (pc / 2)).step ≠ 6 →
      let ends := (chanOfHbm x (pc / 2)).step = 4 ∧ (pcOf x pc).ahead = 0
      ∃ u, exec (.commandBufferRetire e pc) s = .next u ∧ s.keeps u ∧ (pcOf (new u) pc).replay = r ∧
        (ends → chanOfHbm (new u) (pc / 2) = {}) ∧ (¬ends → chanOfHbm (new u) (pc / 2) = chanOfHbm x (pc / 2))) ∧
    (∀ w : BitVec 32, c.hasUnit 7 e = true →
      let ctl := w &&& 0xFFFF3F7E
      (c.ust 7 e ≠ .held → exec (.trainingGo e w) s = .next (s.withCore (c.setHbmc e { x with trnRefused := true }))) ∧
      (c.ust 7 e = .held → x.trnBusy = true → exec (.trainingGo e w) s = .next s) ∧
      (c.ust 7 e = .held → x.trnBusy = false → ∃ bits, exec (.trainingGo e w) s = .next (s.withCore ((c.setHbmc e { x with
        trnCtrl := ctl, trnRun := ctl, trnBusy := true, trnDone := false, trnRefused := false, trnAlert := false }).send
          (.training e (field ctl 3 1) (field ctl 6 4) (if w.getLsbD 13 then 0xFFFFFFFF else 1#32 <<< field ctl 12 8) (max 1 (field ctl 31 16)) bits))))) ∧
    (∀ k : TrnReport, x.trnBusy = true → ∃ u v, exec (.trainingRunDone e k) s = .next u ∧ s.keeps u ∧
      let y := runDone x k v
      y.trnBusy = false ∧ y.trnDone = true ∧ y.trnErr.toNat = min 0xFFFFFFFF (errsOf k (field x.trnLane 11 0)) ∧
      (k.report = false → new u = y) ∧
      (k.report = true → new u = { y with trained := (trainFail y).isNone } ∧
        (trainFail y = none → e < 16 → u.dev.core.glb.trained.getLsbD e = true) ∧
        (trainFail y ≠ none → e < 16 → inService c = false → u.dev.core.glb.unused.getLsbD e = true)))

/-- Corrected and uncorrectable lines, the patrol, the sweep, the SRAM scrubbers, fault events and their windows change what the integrity
rules say. The codeword of a line read is decoded and its MAC checked: at most three wrong symbols are corrected and counted, and the data
of the codeword stand in the line unless the line store holds a newer version; the line is marked scrub-seen from CE_SCRUB_MIN on, and a
correction of a scrub-seen line is hard. What cannot be decoded, or a wrong MAC, poisons the line with zeros and counts it. A line that no
partition holds is not checked (log 146). The patrol moves to the next assigned line, or ends its lap with its time. The sweep gives a
line of the old slot the current key and no other data. An uncorrectable row poisons a local-store word, a vector register or an
accumulator row, fails a home, or takes a port down with cause 6; a correctable one is only logged. A fault event sends a numbered message
to every admitted host, or joins its open window, which sends what it counted when it ends. (R298, R299, R300, R302, R305, R307, R308,
R310, R312, R317, R322, R345.) -/
def Obligations.DataIntegrityAndLog : Prop :=
  ∀ s : State, s.ok = true →
    let c := s.dev.core
    let sent (u : State) (m : Msg) : Prop := ∃ l, u.dev.core.out = c.out ++ l ∧ m ∈ l
    (∀ (e : Nat) (k : HbmData) (off : Nat), c.works 6 e = true → c.place k.ppa.toNat = (e, off) → off < saMeta →
      let l := off / 128
      let h := c.home e
      let r := c.readLine e l k.ppa.toNat k.word
      (c.lineOwner e l = none → exec (.hbmReadData e k) s = .next s) ∧
      (∀ p a, c.lineOwner e l = some (p, a) →
        (∀ d m, r = .good d m 0 → ∃ u, exec (.hbmReadData e k) s = .next u ∧ s.keeps u ∧ u.dev.core.lmeta e l = { m with scrubSeen := false } ∧
          u.dev.core.homes = c.homes ∧
          u.dev.core.mem = if tget none l h.store = some true then c.mem else wrLine c.mem (caKey e (l * 128)) d) ∧
        (∀ d m n, r = .good d m n → n ≠ 0 → ∃ u, exec (.hbmReadData e k) s = .next u ∧ s.keeps u ∧
          u.dev.core.mem = (if tget none l h.store = some true then c.mem else wrLine c.mem (caKey e (l * 128)) d) ∧
          (u.dev.core.home e).ce = h.ce + 1 ∧ (u.dev.core.home e).ue = h.ue ∧ (u.dev.core.home e).hardCe = (if m.scrubSeen then h.hardCe + 1 else h.hardCe) ∧
          u.dev.core.lmeta e l = { m with scrubSeen := m.scrubSeen || decide (max 1 (field h.integCfg 1 0) ≤ n) }) ∧
        (r = .uncorrectable ∨ r = .macFail → ∃ u, exec (.hbmReadData e k) s = .next u ∧ s.keeps u ∧ u.dev.core.rdPool e l = (0, true) ∧
          otherLines c u.dev.core e l ∧ (u.dev.core.home e).ue = h.ue + 1 ∧ (u.dev.core.home e).ce = h.ce ∧
          ∃ w ∈ u.dev.core.erl.faultWins, w.p = p ∧ w.cause = 2))) ∧
    (∀ (e l : Nat) (w : Codeword), c.works 6 e = true →
      let h := c.home e
      let rs := assigned c e
      let lap := BitVec.ofNat 32 ((c.evc.tick - h.patrolStart).toNat / 25000000)
      h.patrolCfg.getLsbD 0 = true → (lineFrom rs h.patrolPos).or (lineFrom rs 0) = some l → lineBlocked h l = false →
      ∃ u, exec (.patrolStep e w) s = .next u ∧ s.keeps u ∧
        let y := u.dev.core.home e
        (tget none l h.store = some true → u.dev.core.mem = c.mem ∧ u.dev.core.lmeta e l = c.lmeta e l) ∧
        ((lineFrom rs (l + 1)).isSome = true → y.patrolPos = l + 1) ∧ (lineFrom rs (l + 1) = none → y.patrolPos = 0) ∧
        (lineFrom rs h.patrolPos = some l → (lineFrom rs (l + 1)).isSome = true → y.patrolLap = h.patrolLap ∧ y.patrolStart = h.patrolStart) ∧
        (lineFrom rs h.patrolPos = some l → lineFrom rs (l + 1) = none → y.patrolLap = lap ∧ y.patrolStart = c.evc.tick) ∧
        (lineFrom rs h.patrolPos = none → (lineFrom rs (l + 1)).isSome = true → y.patrolLap = lap ∧ y.patrolStart = c.evc.tick)) ∧
    (∀ (e p : Nat) (w : Codeword), c.works 6 e = true → ∀ k r rest, (c.home e).passes.find? (fun k => decide (k.what = 1 ∧ k.p = p)) = some k → k.ranges = r :: rest →
      let l := r.1 + k.pos
      let g := (c.keys p).gen.getLsbD 0
      lineBlocked (c.home e) l = false → ∃ u, exec (.sweepLine e p w) s = .next u ∧ s.keeps u ∧ (u.dev.core.lmeta e l).gen = g ∧
        ((c.lmeta e l).gen = g → u.dev.core.mem = c.mem ∧ u.dev.core.lmeta e l = c.lmeta e l) ∧
        (∀ q a d m, (c.lmeta e l).gen ≠ g → c.lineOwner e l = some (q, a) → c.readLine e l (c.linePpa e l) w = .good d m 0 →
          u.dev.core.lmeta e l = { m with scrubSeen := false, gen := g } ∧
          u.dev.core.mem = if tget none l (c.home e).store = some true then c.mem else wrLine c.mem (caKey e (l * 128)) d)) ∧
    (∀ e p, (c.keys p).sweep = true →
      ((∃ e' ∈ liveHomes c, e' ≠ e ∧ (c.home e').passes.any (fun k => decide (k.what = 1 ∧ k.p = p)) = true) → ∃ u, exec (.sweepLapEnd e p) s = .next u ∧
        s.keeps u ∧ u.dev.core.keys p = c.keys p ∧ u.dev.core.mem = c.mem) ∧
      ((∀ e' ∈ liveHomes c, (c.home e').passes.any (fun k => decide (k.what = 1 ∧ k.p = p)) = false) → ∃ u, exec (.sweepLapEnd e p) s = .next u ∧
        s.keeps u ∧ u.dev.core.keys p = { (c.keys p).dropPrev with sweep := false, pagesLeft := 0 })) ∧
    (∀ (k : ScrubRow) (i : Instr), i = .sramScrubRow k ∨ i = .sramForcedScrub k → k.lap = none → frozenChip c = false →
      (k.cls < 4 → k.found = 0 → exec i s = .next s) ∧
      (k.cls < 4 → k.found = 1 → ∃ u, exec i s = .next u ∧ s.keeps u ∧ u.dev.core.rest = c.rest) ∧
      (k.cls = 4 ∨ k.cls = 5 → k.found ≠ 2 → exec i s = .next s) ∧
      (k.found = 2 → k.cls = 4 ∨ k.cls = 5 → c.hasUnit 4 k.unit = true → c.ust 4 k.unit ≠ .off → k.row < (if k.cls = 4 then 32 else 256) → k.bank < 4 →
        ∃ v, exec i s = .next (s.withCore (c.modTile k.unit (fun y => { y with vec := v }))) ∧
          (k.cls = 4 → k.row ∈ v.vPoison ∧ v.accPoison = (c.tile k.unit).vec.accPoison) ∧
          (k.cls = 5 → k.bank * 256 + k.row ∈ v.accPoison ∧ v.vPoison = (c.tile k.unit).vec.vPoison)) ∧
      (k.found = 2 → k.cls = 0 → c.hasUnit 4 k.unit = true → c.ust 4 k.unit ≠ .off → (c.tile k.unit).en = true →
        let x := c.tile k.unit
        let a := k.row * 2048 + k.bank * 64
        ∃ u, exec i s = .next u ∧ s.keeps u ∧ a / 64 ∈ (u.dev.core.tile k.unit).lsPoison ∧ (∀ w ∈ x.lsPoison, w ∈ (u.dev.core.tile k.unit).lsPoison) ∧
          (u.dev.core.tile k.unit).fLsUe = true ∧ (u.dev.core.tile k.unit).ls = x.ls ∧
          ((c.ptn x.ptn).ueTrap = true → x.work.isSome = true → x.seq.pendLs = none → (u.dev.core.tile k.unit).seq.pendLs = some (BitVec.ofNat 64 a)) ∧
          ((c.ptn x.ptn).ueTrap = false ∨ x.work = none → (u.dev.core.tile k.unit).seq = x.seq)) ∧
      (k.found = 2 → k.cls = 1 ∨ (k.cls = 2 ∧ k.tagHit = true) → c.hasUnit 6 k.unit = true → c.ust 6 k.unit ≠ .off →
        ∃ u, exec i s = .next u ∧ s.keeps u ∧ u.dev.core.ust 6 k.unit = .failed) ∧
      (k.found = 2 → k.cls = 3 → c.hasUnit 9 k.unit = true → c.ust 9 k.unit ≠ .off → (c.port k.unit).mirrorRole = false →
        (c.port k.unit).link = .up → portOnly s k.unit ((c.port k.unit).down 6) (exec i s))) ∧
    (∀ w, ((c.erl.head - w).toNat ≤ 1024 → exec (.erlTailWrite w) s = .next (s.withCore (c.modErl (fun l => { l with tail := w })))) ∧
      (1024 < (c.erl.head - w).toNat → exec (.erlTailWrite w) s = .next s)) ∧
    (∀ code cls unit, exec (.logCoalesceWindow code cls unit) s = .next (s.withCore (c.modErl (fun l => { l with
      logWins := l.logWins.filter (fun w => !(decide (w.code = code ∧ w.cls = cls ∧ w.unit = unit))) })))) ∧
    (∀ (p cause : Nat) (d : BitVec 32), (c.ptn p).en = true → 1 ≤ cause → cause ≤ 5 →
      let n := if tget 0 p c.erl.evSeq + 1 = 0 then 1 else tget 0 p c.erl.evSeq + 1
      (c.erl.faultWins.find? (fun w => decide (w.p = p ∧ w.cause = cause)) = none → ∃ u, exec (.faultEvent p cause d) s = .next u ∧ s.keeps u ∧
        (∀ h ∈ admittedHosts c p, sent u (.faultEvent p h (c.host h).port cause n 1 d)) ∧ tget 0 p u.dev.core.erl.evSeq = n ∧
        u.dev.core.erl.faultWins = c.erl.faultWins ++ [⟨p, cause, 0, 0⟩] ∧ (p < 32 → u.dev.core.glb.intStatus.getLsbD (24 + p) = true)) ∧
      (∀ w, c.erl.faultWins.find? (fun w => decide (w.p = p ∧ w.cause = cause)) = some w →
        (∃ u, exec (.faultEvent p cause d) s = .next u ∧ s.keeps u ∧ u.dev.core.out = c.out ∧ u.dev.core.erl.evSeq = c.erl.evSeq ∧
          ⟨p, cause, w.count + 1, if w.count = 0 then d else w.detail⟩ ∈ u.dev.core.erl.faultWins) ∧
        (w.count = 0 → exec (.faultEventWindow p cause) s = .next (s.withCore (c.modErl (fun l => { l with
          faultWins := l.faultWins.filter (fun w => !(decide (w.p = p ∧ w.cause = cause))) })))) ∧
        (w.count ≠ 0 → ∃ u, exec (.faultEventWindow p cause) s = .next u ∧ s.keeps u ∧ tget 0 p u.dev.core.erl.evSeq = n ∧
          (∀ h ∈ admittedHosts c p, sent u (.faultEvent p h (c.host h).port cause n (min w.count 65535) w.detail)) ∧
          ⟨p, cause, 0, 0⟩ ∈ u.dev.core.erl.faultWins)))

/-- Ring pages take or refuse host writes, descriptors are fetched, and completion records are written, as the ring rules say. A partial
write, or one of a group that may not write, is refused with NackRevoked BAD_TYPE and counted. CTRL of a disabled ring enables it only
when SIZE_LOG2 and both regions are good, else sets STOP to RING_REGION; of a running ring only EN counts. Bases change only while
disabled. TAIL and CPL_ACK move only forward within their limits. A fetch appends the command of descriptor HEAD and increments HEAD; a
poisoned descriptor ends with DESC_POISON, a TYPE that is not listed with BAD_DESC, and such a command is in flight no more. A refused
descriptor read stops the ring with RING_READ. An accepted record write puts the eight words into the pool, counts DONE, drops the command
and sends the signal; a refused one stops the ring with RING_WRITE and sends nothing. A stopped ring has no record left to write, and a
command of it that ends leaves none. (R203, R204, R205, R206, R207, R208, R209, R220, R221.) -/
def Obligations.RingsAndRecords : Prop :=
  ∀ s : State, s.ok = true →
    let c := s.dev.core
    (∀ a : RingAddr, c.works 8 (a.p / 2) = true → a.o.kind = 1 → a.o.idx < 4096 → (c.host a.o.idx).valid = true → (c.host a.o.idx).p = a.p → a.r < 16 →
      (c.mirr a.p).pendOf a.o = none →
      let x := c.ringOf a.p a.r
      let answer (u : State) (op : BitVec 6) (reason : BitVec 4) : Prop := s.keeps u ∧ u.dev.core.mem = c.mem ∧ u.dev.core.tiles = c.tiles ∧
        (∀ r, r ≠ a.r → u.dev.core.ringOf a.p r = c.ringOf a.p r) ∧
        u.dev.core.out.getLast? = some (.completion ⟨a.p, a.o.idx, (c.host a.o.idx).ep, (c.ptn a.p).endpoint, a.o.port, op, 0, false, false, reason, a.o.tag,
          0, 0, a.o.cls, 0⟩)
      let takes (i : Instr) (y : Ring) : Prop := ∃ u, exec i s = .next u ∧ answer u 0x31 0 ∧ u.dev.core.ringOf a.p a.r = y
      let refuses (i : Instr) (y : Ring) : Prop := ∃ u, exec i s = .next u ∧ answer u 0x39 4 ∧ u.dev.core.ringOf a.p a.r = { y with refused := y.refused + 1 }
      (a.whole = false ∨ ringMayWrite c x a.o = false → ∀ (w : BitVec 32) (off : BitVec 8),
        refuses (.ringCtrlWrite a w) x ∧ refuses (.ringBaseWrite a off w) x ∧ refuses (.ringTailWrite a w) x ∧ refuses (.ringCplAckWrite a w) x) ∧
      (a.whole = true → ringMayWrite c x a.o = true →
        (∀ w : BitVec 32,
          let lg := field w 8 4
          let good := 4 ≤ lg ∧ lg ≤ 16 ∧ inUncached c a.p x.cmdBase.toNat (2 ^ lg * 128) = true ∧ inUncached c a.p x.cplBase.toNat (2 ^ lg * 32) = true
          (x.st = .disabled → w.getLsbD 0 = false → takes (.ringCtrlWrite a w) { x with ctrl := w &&& 0x01FF01F0 }) ∧
          (x.st = .disabled → w.getLsbD 0 = true → good → takes (.ringCtrlWrite a w)
            { x with ctrl := w &&& 0x01FF01F1, tail := 0, head := 0, done := 0, cplAck := 0, stop := 0, st := .running }) ∧
          (x.st = .disabled → w.getLsbD 0 = true → ¬good → refuses (.ringCtrlWrite a w) { x with stop := 1 }) ∧
          (x.st = .running → w.getLsbD 0 = true → takes (.ringCtrlWrite a w) x) ∧
          (x.st = .running → w.getLsbD 0 = false → takes (.ringCtrlWrite a w)
            { x with ctrl := x.ctrl &&& ~~~1#32, st := if x.inFlight = 0 then .disabled else .draining }) ∧
          (x.st = .draining ∨ x.st = .stopped → w.getLsbD 0 = false → takes (.ringCtrlWrite a w) (Ring.settled { x with ctrl := x.ctrl &&& ~~~1#32 }))) ∧
        (∀ (off : BitVec 8) (w : BitVec 32),
          (x.st ≠ .disabled → refuses (.ringBaseWrite a off w) x) ∧
          (x.st = .disabled →
            (off ≠ 0x0C → off ≠ 0x10 → off ≠ 0x14 → takes (.ringBaseWrite a off w) { x with cmdBase := BitVec.ofNat 40 (x.cmdBase.toNat / 2 ^ 32 * 2 ^ 32 + w.toNat / 128 * 128) }) ∧
            (off = 0x0C → takes (.ringBaseWrite a off w) { x with cmdBase := BitVec.ofNat 40 (x.cmdBase.toNat % 2 ^ 32 + w.toNat % 256 * 2 ^ 32) }) ∧
            (off = 0x10 → takes (.ringBaseWrite a off w) { x with cplBase := BitVec.ofNat 40 (x.cplBase.toNat / 2 ^ 32 * 2 ^ 32 + w.toNat / 128 * 128) }) ∧
            (off = 0x14 → takes (.ringBaseWrite a off w) { x with cplBase := BitVec.ofNat 40 (x.cplBase.toNat % 2 ^ 32 + w.toNat % 256 * 2 ^ 32) }))) ∧
        (∀ w : BitVec 32,
          (x.st ≠ .disabled → (w = x.tail ∨ ((w - x.head).toNat ≤ x.size ∧ (w - x.tail).toNat < 0x80000000)) →
            takes (.ringTailWrite a w) (Ring.settled { x with tail := w })) ∧
          (x.st = .disabled ∨ (w ≠ x.tail ∧ (x.size < (w - x.head).toNat ∨ 0x80000000 ≤ (w - x.tail).toNat)) → refuses (.ringTailWrite a w) x) ∧
          (x.st ≠ .disabled → (w - x.cplAck).toNat ≤ (x.done - x.cplAck).toNat → takes (.ringCplAckWrite a w) (Ring.settled { x with cplAck := w })) ∧
          (x.st = .disabled ∨ (x.done - x.cplAck).toNat < (w - x.cplAck).toNat → refuses (.ringCplAckWrite a w) x)))) ∧
    (∀ p : Nat, nextRing c p = none → exec (.descriptorFetch p) s = .next s ∧ exec (.descriptorReadRefused p) s = .next s) ∧
    (∀ p r e l : Nat, nextRing c p = some r →
      let x := c.ringOf p r
      let gone : Ring := { x with head := x.head + 1 }
      dispAccess c p (readReq x.slotPla 0 0 0) = some (.ok (e, l)) →
      exec (.descriptorReadRefused p) s = .next s ∧ ∃ u, exec (.descriptorFetch p) s = .next u ∧ s.keeps u ∧ u.dev.core.mem = c.mem ∧
        (u.dev.core.ptn p).turn = r ∧
        let d := (c.rdPool e l).1
        ((c.rdPool e l).2 = false → 1 ≤ cType d → cType d ≤ 8 → u.dev.core.ringOf p r = { gone with inFlight := x.inFlight + 1 } ∧
          (u.dev.core.ptn p).cmds = (c.ptn p).cmds ++ [{ r := r, idx := x.head, desc := d }] ∧ (u.dev.core.ptn p).ended = (c.ptn p).ended) ∧
        ((c.rdPool e l).2 = true → u.dev.core.ringOf p r = gone ∧ (u.dev.core.ptn p).ended = (c.ptn p).ended ++ [(r, x.head)] ∧
          ∃ k ∈ (u.dev.core.ptn p).cmds, k.r = r ∧ k.idx = x.head ∧ k.status = 0x15 ∧ k.failed = true ∧ k.phase = 3) ∧
        ((c.rdPool e l).2 = false → cType d = 0 ∨ 8 < cType d → u.dev.core.ringOf p r = gone ∧ (u.dev.core.ptn p).ended = (c.ptn p).ended ++ [(r, x.head)] ∧
          ∃ k ∈ (u.dev.core.ptn p).cmds, k.r = r ∧ k.idx = x.head ∧ k.status = 0x10 ∧ k.failed = true ∧ k.phase = 3)) ∧
    (∀ (p r : Nat) (n : Ans), nextRing c p = some r →
      let x := c.ringOf p r
      dispAccess c p (readReq x.slotPla 0 0 0) = some (.error n) → exec (.descriptorFetch p) s = .next s ∧
        ∃ u, exec (.descriptorReadRefused p) s = .next u ∧ s.keeps u ∧
          (u.dev.core.ptn p).cmds = (c.ptn p).cmds.filter (fun k => !(decide (k.r = r) && decide (k.phase = 3))) ∧
          u.dev.core.ringOf p r = Ring.settled { x with stop := 2, errIndex := x.head, st := .stopped }) ∧
    (∀ (p : Nat) (k : Cmd), dispatches c p = true → nextRecord c p = some k →
      let x := c.ringOf p k.r
      let gone (u : State) : Prop := ∀ j ∈ (u.dev.core.ptn p).cmds, ¬(j.r = k.r ∧ j.idx = k.idx)
      (∀ e l, x.cplBase.toNat % 128 = 0 → dispAccess c p (recordReq x k) = some (.ok (e, l)) →
        exec (.recordWriteAnswer p true) s = .next s ∧ ∃ u, exec (.recordWriteAnswer p false) s = .next u ∧ s.keeps u ∧ gone u ∧
          u.dev.core.ringOf p k.r = { x with done := x.done + 1 } ∧
          (∀ i, i < 8 → rdLE u.dev.core.mem (caKey e (l * 128) + x.recordPla % 128 + 4 * i) 4 = ((recordWords x k).getD i 0).toNat) ∧
          (cSigEn k.desc = true → (c.ptn p).syncBase ≤ cObj k.desc → cObj k.desc < (c.ptn p).syncBase + (c.ptn p).syncCount →
            u.dev.core.out.getLast? = some (.sync ⟨12, cObj k.desc, p, 0, false, false, 0, 0⟩))) ∧
      (∀ n, dispAccess c p (recordReq x k) = some (.error n) → exec (.recordWriteAnswer p false) s = .next s ∧
        ∃ u, exec (.recordWriteAnswer p true) s = .next u ∧ s.keeps u ∧ u.dev.core.mem = c.mem ∧
          (∀ j ∈ (u.dev.core.ptn p).cmds, ¬(j.r = k.r ∧ j.phase = 3)) ∧
          u.dev.core.ringOf p k.r = Ring.settled { x with stop := 3, errIndex := x.done, st := .stopped })) ∧
    (∀ (p : Nat) (k : Cmd) (st : BitVec 8) (w : Nat), dispatches c p = true → awaiting c p 1 = some k →
      (specReduce k.desc).check (c.ptn p) k.desc = some (st, w) → (c.ringOf p k.r).st = .stopped →
      ∃ u, exec (.reduce p) s = .next u ∧ s.keeps u ∧ u.dev.core.out = c.out ∧ (∀ j ∈ (u.dev.core.ptn p).cmds, ¬(j.r = k.r ∧ j.idx = k.idx)) ∧
        u.dev.core.ringOf p k.r = Ring.settled { c.ringOf p k.r with inFlight := (c.ringOf p k.r).inFlight - 1 })

/-- A fetched command is checked in the order of R220, started on idle clusters, run by work items, reported, and aborted by its timer. Each
type's checks put the command into the start queue or end it with the first failing status; a reserved bit of word 0 is BAD_DESC at word
0, a REDUCE of no inputs BAD_DESC at word 4, a KERNEL outside an uncached or aperture extent its own status. The head of the start queue
ends with NO_CLUSTERS when none is available, waits while its clusters are not idle, and else takes the idle ones of the lowest logical
numbers, each with its work item. A work item of a built-in operation starts its share. That of a KERNEL begins its load: the cluster
reads text and data line by line on channel 0, an address its window does not hold fails it with 0x30, and after the last line the kernel
runs from ENTRY with the entry registers. A report without a failure of the last cluster ends the command with OK, a failure with its
status. The timer sets TIMEOUT once. What a built-in operation leaves in its clusters is free (log 6). (R191, R192, R194, R195, R196,
R210, R220, R221, R223, R227, R228, R229.) -/
def Obligations.CommandsOnClusters : Prop :=
  ∀ s : State, s.ok = true →
    let c := s.dev.core
    (∀ (p typ : Nat) (spec : Line → DescSpec) (i : Instr),
      (i, typ, spec) ∈ [(.reduce p, 1, specReduce), (.gatherpool p, 2, specGather), (.attend p, 3, specAttend), (.optstep p, 4, specOptstep),
        (.requant p, 5, specRequant), (.copyOp p, 6, specCopy), (.fillOp p, 7, specFill)] → dispatches c p = true →
      (awaiting c p typ = none → exec i s = .next s) ∧
      (∀ k, awaiting c p typ = some k →
        ((spec k.desc).check (c.ptn p) k.desc = none → exec i s = .next (s.withCore (modCmd p k.r k.idx (fun k => { k with phase := 1 }) c))) ∧
        (∀ st w, (spec k.desc).check (c.ptn p) k.desc = some (st, w) → exec i s = .next (s.withCore (failCmd p k st w 0 c))) ∧
        (dword k.desc 0 &&& 0xFF000000 ≠ 0 → exec i s = .next (s.withCore (failCmd p k 0x10 0 0 c))) ∧
        (typ = 1 → (specReduce k.desc).formBad k.desc = none → fmtOk (field (dword k.desc 4) 15 12) = true → fmtOk (field (dword k.desc 4) 19 16) = true →
          field (dword k.desc 4) 6 0 = 0 → exec i s = .next (s.withCore (failCmd p k 0x10 4 0 c))))) ∧
    (∀ (p : Nat) (k : Cmd), dispatches c p = true → awaiting c p 8 = some k →
      (∀ st w, (specKernel k.desc).check (c.ptn p) k.desc = some (st, w) → exec (.kernel p) s = .next (s.withCore (failCmd p k st w 0 c))) ∧
      ((specKernel k.desc).check (c.ptn p) k.desc = none →
        (let x := c.masterExt p ((refAt k.desc 4).pla / 2 ^ 30)
         x.valid = false ∨ (x.typ ≠ 2 ∧ x.typ ≠ 3) → exec (.kernel p) s = .next (s.withCore (kernelRefused p k 0x20 c))) ∧
        (∀ st, kernelCheck c p k.desc = some st → exec (.kernel p) s = .next (s.withCore (kernelRefused p k st c))) ∧
        (kernelCheck c p k.desc = none → ∀ h b, binLine c p (refAt k.desc 4).pla k.desc = some (h, b) → exec (.kernel p) s = .next (s.withCore
          (modCmd p k.r k.idx (fun k => { k with phase := 1, hdr := h, minC := max 1 (field (dword h 14) 9 0), maxC := field (dword h 14) 25 16 }) c))))) ∧
    (∀ (p : Nat) (k : Cmd), dispatches c p = true → (c.ptn p).cmds.find? (fun k => decide (k.phase ≤ 1)) = some k →
      let avail := availTiles c p k.desc
      let idle := avail.filter (idleTile c)
      let lens : List Nat := []
      let n := clusterCount k.desc lens k.maxC avail.length
      (k.phase = 0 → exec (.commandStart p) s = .next s) ∧
      (k.phase = 1 → k.n = none →
        (avail = [] → exec (.commandStart p) s = .next (s.withCore (failCmd p k 0x18 0 0 c))) ∧
        (avail ≠ [] → k.refused = none → cType k.desc = 8 → n < k.minC → exec (.commandStart p) s = .next (s.withCore (kernelRefused p k 0x25 c))) ∧
        (avail ≠ [] → k.refused = none → cType k.desc ≠ 3 → (cType k.desc = 8 → k.minC ≤ n) → idle.length < n → ∃ u, exec (.commandStart p) s = .next u ∧
          s.keeps u ∧ u.dev.core.tiles = c.tiles ∧ u.dev.core.out = c.out ∧
          (u.dev.core.ptn p).cmds.find? (fun j => decide (j.r = k.r ∧ j.idx = k.idx)) = some { k with n := some n, lens := some [], buf := [] }) ∧
        (avail ≠ [] → k.refused = none → cType k.desc ≠ 3 → (cType k.desc = 8 → k.minC ≤ n) → 0 < n → n ≤ idle.length → cOrder k.desc = false →
          (c.tiles.map Prod.fst).Nodup → ∃ u, exec (.commandStart p) s = .next u ∧ s.keeps u ∧
            (∃ j, (u.dev.core.ptn p).cmds.find? (fun j => decide (j.r = k.r ∧ j.idx = k.idx)) = some j ∧ j.phase = 2 ∧ j.clusters = idle.take n ∧
              j.tmo = field (c.ringOf p k.r).tmo 15 0) ∧
            ∀ i t, (idle.take n)[i]? = some t → .workItem t p k.r k.idx ∈ u.dev.core.out ∧ (u.dev.core.tile t).work = some
              { p := p, r := k.r, idx := k.idx, ci := i, count := n, kernel := decide (cType k.desc = 8), desc := k.desc, lens := [], hdr := k.hdr, peers := idle.take n }))) ∧
    (∀ (t : Nat) (w : Work),
      let x := c.tile t
      x.work = some w → w.started = false → w.status = none → x.power = .active → x.resetting = false → c.ust 4 t = .serving → frozenChip c = false →
      c.stopped t = false →
      (w.kernel = false → ∃ u, exec (.workItem t) s = .next u ∧ s.keeps u ∧ u.dev.core.out = c.out ∧ u.dev.core.mem = c.mem ∧
        (u.dev.core.tile t).work = some { w with started := true, seed := c.fresh }) ∧
      (w.kernel = true → ∃ u, exec (.workItem t) s = .next u ∧ s.keeps u ∧ u.dev.core.out = c.out ∧ u.dev.core.mem = c.mem ∧
        (u.dev.core.tile t).chans = [] ∧ (u.dev.core.tile t).seq.st = .halted ∧ (u.dev.core.tile t).ls = x.ls ∧
        let bin := (refAt w.desc 4).pla
        let text := loadChunks (bin + hdr w.hdr 4) (hdr w.hdr 5) (hdrA w.hdr 6)
        let data := loadChunks (bin + hdr w.hdr 7) (hdr w.hdr 8) (hdrA w.hdr 9)
        (u.dev.core.tile t).work = some { w with started := true, loading := true, toLoad := text ++ data })) ∧
    (∀ (t pla ls len : Nat) (w : Work) (rest : List (Nat × Nat × Nat)),
      let x := c.tile t
      x.work = some w → w.kernel = true → w.started = true → w.loading = true → w.status = none → w.toLoad = (pla, ls, len) :: rest → pla < 2 ^ 40 →
      dmaRuns c t 0 = true → (chanOf x 0).lines.length < 64 → linesOut x < 512 →
      (896 ≤ pla / 2 ^ 30 ∨ tget none (pla / 2 ^ 30) x.win = none → ∃ u v, exec (.dmaLineIssue t 0) s = .next u ∧ s.keeps u ∧ u.dev.core.mem = c.mem ∧
        (u.dev.core.tile t).work = some v ∧ (chanOf (u.dev.core.tile t) 0).halted = true ∧
        v.status.map Prod.fst = some (if 896 ≤ pla / 2 ^ 30 then 0x14 else 0x30)) ∧
      (∀ e, pla / 2 ^ 30 < 896 → tget none (pla / 2 ^ 30) x.win = some e →
        let home := (c.place (e.1 * 2 ^ 30 + pla / 128 * 128 % 2 ^ 30)).1
        x.stackFailed.getLsbD home = false → ∃ u q, exec (.dmaLineIssue t 0) s = .next u ∧ s.keeps u ∧
          u.dev.core.out = c.out ++ [.toHome home ⟨0, x.logical, freeTag 0 (chanOf x 0).lines, 0, 0, none, q.cls⟩ q] ∧ q.op = 3 ∧
          q.pla = BitVec.ofNat 40 (pla / 128 * 128) ∧ q.pleat = 0 ∧ q.cls = BitVec.ofNat 2 (cClass w.desc) ∧ q.hint = BitVec.ofNat 2 (cHint w.desc) ∧
          (u.dev.core.tile t).work = some { w with toLoad := rest } ∧ ∃ l, (chanOf (u.dev.core.tile t) 0).lines = (chanOf x 0).lines ++ [l] ∧
            l.lsAddr = ls ∧ l.off = pla % 128 ∧ l.len = len ∧ l.q = q)) ∧
    (∀ (t : Nat) (w : Work) (d : DmaResp) (l : DmaLine),
      let x := c.tile t
      x.work = some w → w.kernel = true → w.loading = true → w.status = none → w.toLoad = [] → frozenChip c = false → x.power = .active →
      (chanOf x 0).lines = [l] → l.retry = false → l.write = false → l.q.tag = d.tag → l.pla = d.pla → l.lsAddr + l.len ≤ 0x1FF000 →
      d.op = opCmpData → d.fault = 0 → d.poison = false → binLayoutOk w.hdr = true →
      ∃ u, exec (.dmaResponse t 0 d) s = .next u ∧ s.keeps u ∧ u.dev.core.mem = c.mem ∧ u.dev.core.out = c.out ∧
        let h := w.hdr
        let a := u.dev.core.tile t
        a.seq.st = .running ∧ a.seq.pc = BitVec.ofNat 64 (hdrA h 2) ∧ a.seq.tvec = BitVec.ofNat 64 (hdrA h 3) ∧
        (a.vec.v = [] ∧ a.vec.acc = [] ∧ a.vec.vPoison = [] ∧ a.vec.accPoison = []) ∧ a.chans = [] ∧
        rdX a.seq 1 = 0x1FF100 ∧ rdX a.seq 2 = BitVec.ofNat 64 (hdrA h 12) ∧ rdX a.seq 10 = 0x1FF000 ∧ rdX a.seq 11 = BitVec.ofNat 64 w.ci ∧
        rdX a.seq 12 = BitVec.ofNat 64 w.count ∧ rdX a.seq 3 = 0 ∧ a.work = some { w with loading := false } ∧
        rdLE a.ls 0x1FF040 8 = w.idx.toNat ∧ rdLE a.ls 0x1FF100 8 = (rowHalt.word ⟨false, 0, 0, 0, 0, 0⟩).toNat ∧
        (∀ i, i < 16 → rdLE a.ls (0x1FF000 + 4 * i) 4 = (dword w.desc (8 + i)).toNat) ∧
        (∀ i, i < hdr h 11 → rdByte a.ls (hdrA h 10 + i) = 0) ∧
        (∀ i, i < l.len → l.off + l.len ≤ 128 → (l.lsAddr + i < hdrA h 10 ∨ hdrA h 10 + hdr h 11 ≤ l.lsAddr + i) →
          rdByte a.ls (l.lsAddr + i) = lineByte d.data (l.off + i))) ∧
    (∀ (t : Nat) (w : Work) (k : Cmd), (c.tile t).work = some w → c.works 8 (w.p / 2) = true → c.cmdOf w = some k → (c.ringOf w.p k.r).st ≠ .stopped → c.steady = true →
      (w.status = none → c.ust 4 t ≠ .fenced → c.ust 4 t ≠ .failed → exec (.clusterReport t) s = .next s) ∧
      (w.status = none → c.ust 4 t = .fenced ∨ c.ust 4 t = .failed → k.failed = false → k.clusters = [t] → k.reported = [] → ∃ u, exec (.clusterReport t) s = .next u ∧
        s.keeps u ∧ (u.dev.core.tile t).work = none ∧ ∃ j, u.dev.core.cmdOf w = some j ∧ j.phase = 3 ∧ j.status = 0x40 ∧ j.failed = true) ∧
      (∀ x10, w.status = some (0, 0, x10) → workIdle (c.tile t) = true → k.reported.length + 1 = k.clusters.length → k.failed = false → k.kpoison = false →
        k.poisonedOut + w.poisonedOut = 0 → w.gotPoison = false → ∃ u, exec (.clusterReport t) s = .next u ∧ s.keeps u ∧
          (u.dev.core.tile t).work = none ∧ (u.dev.core.ptn w.p).ended = (c.ptn w.p).ended ++ [(k.r, k.idx)] ∧
          ∃ j, u.dev.core.cmdOf w = some j ∧ j.phase = 3 ∧ j.status = 0 ∧ j.failed = false) ∧
      (∀ st d d64, w.status = some (st, d, d64) → st ≠ 0 → w.told = false → k.failed = false → cType k.desc = 8 → workIdle (c.tile t) = true →
        k.clusters = [t] → k.reported = [] → ∃ u, exec (.clusterReport t) s = .next u ∧ s.keeps u ∧ (u.dev.core.tile t).work = none ∧
          ∃ j, u.dev.core.cmdOf w = some j ∧ j.phase = 3 ∧ j.status = st ∧ j.failed = true ∧ j.detail = d ∧ j.detail64 = d64)) ∧
    (∀ (p r : Nat) (idx : BitVec 32) (k : Cmd), dispatches c p = true → (c.ptn p).cmds.find? (fun k => decide (k.r = r ∧ k.idx = idx)) = some k →
      (k.phase ≠ 2 ∨ k.tmo = 0 → exec (.commandTimeout p r idx) s = .next s) ∧
      (k.phase = 2 → k.tmo ≠ 0 → k.failed = false → cType k.desc = 8 → ∃ u j, exec (.commandTimeout p r idx) s = .next u ∧ s.keeps u ∧ u.dev.core.mem = c.mem ∧
        (u.dev.core.ptn p).cmds.find? (fun k => decide (k.r = r ∧ k.idx = idx)) = some j ∧ j.status = 0x41 ∧ j.failed = true ∧ j.phase = 2 ∧ j.tmo = 0))

/-- A share of a built-in operation reads the lines it needs, writes its output, and pushes partial results; FILL writes its pattern to every
byte of its rows. The units of the clusters follow one another and cover all of them. A cluster with a share asks the home of each line
that its computation still needs, keeps the answered data with its poison, sends its writes one at a time, and is done with status 0 after
the last; REQUANT, COPY and FILL go piece by piece, each written before the next is read. Partial results of an ATTEND that another
cluster combines are pushed to it and join its own. A piece of a FILL writes the bytes of PATTERN to exactly the bytes of its granules,
the pieces follow one another, and they end with the share. (R143, R147, R150, R218, R225, R233, R235, R236.) -/
def Obligations.BuiltinShares : Prop :=
  (∀ units n i, 0 < n → (shareOf units 0 n).1 = 0 ∧ (shareOf units i n).2 = (shareOf units (i + 1) n).1 ∧ (shareOf units (n - 1) n).2 = units) ∧
  (∀ (s : State) (t : Nat) (w : Work), s.ok = true →
    let c := s.dev.core
    let x := c.tile t
    x.work = some w → w.kernel = false → w.loading = false → w.started = true → w.status = none → dmaRuns c t 0 = true → linesOut x < 512 →
    (chanOf x 0).lines = [] →
    let reads (key : Nat) : Prop := ∀ e,
      let pla := key % 2 ^ 33 * 128
      let home := (c.place (e.1 * 2 ^ 30 + pla % 2 ^ 30)).1
      pla / 2 ^ 30 < 896 → tget none (pla / 2 ^ 30) x.win = some e → x.stackFailed.getLsbD home = false →
      ∃ u q, exec (.dmaLineIssue t 0) s = .next u ∧ s.keeps u ∧ u.dev.core.out = c.out ++ [.toHome home ⟨0, x.logical, freeTag 0 [], 0, 0, none, q.cls⟩ q] ∧
        q.op = 3 ∧ q.pla = BitVec.ofNat 40 pla ∧ q.pleat = BitVec.ofNat 3 (key / 2 ^ 33) ∧ q.cls = BitVec.ofNat 2 (cClass w.desc) ∧
        (u.dev.core.tile t).work = some w ∧ (chanOf (u.dev.core.tile t) 0).lines.length = 1
    let writes (k : PoolWr) (v : Work) : Prop := ∀ e,
      let pla := k.pla.toNat
      let home := (c.place (e.1 * 2 ^ 30 + pla % 2 ^ 30)).1
      pla / 2 ^ 30 < 896 → tget none (pla / 2 ^ 30) x.win = some e → x.stackFailed.getLsbD home = false →
      ∃ u q, exec (.dmaLineIssue t 0) s = .next u ∧ s.keeps u ∧ u.dev.core.out = c.out ++ [.toHome home ⟨0, x.logical, freeTag 0 [], 0, 0, none, q.cls⟩ q] ∧
        q.op = (if k.mask = fullMask then 8 else 9) ∧ q.pla = k.pla ∧ q.pleat = k.pleat ∧ q.mask = k.mask ∧ q.data = k.data ∧ q.poison = k.poison ∧
        (u.dev.core.tile t).work = some v ∧ (chanOf (u.dev.core.tile t) 0).lines.length = 1
    let quiet (v : Work) : Prop := ∃ u, exec (.dmaLineIssue t 0) s = .next u ∧ s.keeps u ∧ u.dev.core.out = c.out ∧ u.dev.core.mem = c.mem ∧
      (u.dev.core.tile t).work = some v
    (w.push = [] → byLine w.desc = false → (cType w.desc = 3 → w.posted = true) →
      (∀ key, w.wr = none → planShare w = .error (.need key) → reads key) ∧
      (w.wr = none → planShare w = .error .wait → exec (.dmaLineIssue t 0) s = .next s) ∧
      (∀ o, w.wr = none → planShare w = .ok o → quiet { w with
        wr := some o.wr, sat := o.sat, nonf := o.nonf, poisonedOut := (o.wr.filter (fun k => k.poison)).length,
        status := if o.wr = [] then some (0, 0, 0) else none }) ∧
      (∀ k r, w.wr = some (k :: r) → writes k { w with wr := some r }) ∧
      (w.wr = some [] → quiet { w with status := some (0, 0, 0) })) ∧
    (w.push = [] → byLine w.desc = true →
      (∀ key, nextPiece w = .error (.need key) → reads key) ∧
      (∀ k n cur, nextPiece w = .ok (some (k, n, cur)) →
        writes k { w with cursor := cur, sat := w.sat + n, poisonedOut := w.poisonedOut + k.poison.toNat }) ∧
      (nextPiece w = .ok none → quiet { w with status := some (0, 0, 0) })) ∧
    (w.push = [] → cType w.desc = 3 → w.posted = false →
      (∀ key, planParts w.rd w.desc w.lens w.ci w.count = .error (.need key) → reads key) ∧
      (∀ ps, planParts w.rd w.desc w.lens w.ci w.count = .ok ps →
        let dest (y : AttPart) : Nat := combinerOf (attUnits (attShape w.desc) w.lens) y.k w.count
        quiet { w with posted := true, parts := w.parts ++ ps.filter (fun y => decide (dest y = w.ci)),
                       push := (ps.filter (fun y => decide (dest y ≠ w.ci))).map (fun y => (dest y, y)) })) ∧
    (∀ dest y r, w.push = (dest, y) :: r → ∃ u, exec (.dmaLineIssue t 0) s = .next u ∧ s.keeps u ∧ u.dev.core.out = c.out ++
        [.push (w.peers.getD dest 0) ⟨t, 0, freeTag 0 [], 0, partBytes y, y.poison, false, none, some y.k⟩] ∧
      (u.dev.core.tile t).work = some { w with push := r } ∧ (chanOf (u.dev.core.tile t) 0).lines.length = 1)) ∧
  (∀ (s : State) (t : Nat) (w : Work) (r : DmaResp) (l : DmaLine), s.ok = true →
    let c := s.dev.core
    let x := c.tile t
    x.work = some w → w.kernel = false → frozenChip c = false → x.power = .active →
    (chanOf x 0).lines.find? (fun l => decide (l.q.tag = r.tag) && decide (l.pla = r.pla) && !l.retry) = some l →
    r.op = opCmpData → r.fault = 0 → l.write = false → r.poison = false →
    ∃ u v, exec (.dmaResponse t 0 r) s = .next u ∧ s.keeps u ∧ (chanOf (u.dev.core.tile t) 0).lines = (chanOf x 0).lines.erase l ∧
      (u.dev.core.tile t).work = some v ∧ tget none (lineNo l.q.pleat.toNat (l.pla.toNat / 128)) v.rd = some (r.data, false) ∧ (u.dev.core.tile t).ls = x.ls) ∧
  (∀ (s : State) (t j : Nat) (w : Work) (k : PushPkt), s.ok = true →
    let c := s.dev.core
    let x := c.tile t
    x.work = some w → cType w.desc = 3 → k.part = some j → c.ust 4 t = .serving → frozenChip c = false → x.power = .active →
    ∃ u, exec (.pushData t k) s = .next u ∧ s.keeps u ∧ (u.dev.core.tile t).ls = x.ls ∧
      (u.dev.core.tile t).work = some { w with parts := w.parts ++ [partOf (attShape w.desc) j k.bytes k.poison] }) ∧
  (∀ (d : Line) (ci count cur : Nat),
    let a := (refAt d 6).pla
    let rb := (dword d 4).toNat
    let stride := (dword d 8).toNat
    let rows := field (dword d 5) 23 0
    let pattern := (dword d 10).toNat + (dword d 11).toNat * 2 ^ 32 + (dword d 12).toNat * 2 ^ 64 + (dword d 13).toNat * 2 ^ 96
    let units := shareOf (ceilDiv (rb * rows) 0x100000) ci count
    let g0 := units.1 * 65536 + cur
    let stop := min (rb * rows / 16) (units.2 * 65536)
    a % 16 = 0 → rb % 16 = 0 → stride % 16 = 0 → 0 < rb → a + (rows - 1) * stride + rb ≤ 2 ^ 40 →
    (stop ≤ g0 → fillPiece d ci count cur = .ok none) ∧
    (g0 < stop → ∃ k cur', fillPiece d ci count cur = .ok (some (k, 0, cur')) ∧ cur < cur' ∧ units.1 * 65536 + cur' ≤ stop ∧
      k.poison = false ∧ k.pla.toNat % 128 = 0 ∧
      (∀ b, b < 128 → (k.mask.getLsbD b = true ↔ ∃ g j, g0 ≤ g ∧ g < units.1 * 65536 + cur' ∧ j < 16 ∧
        k.pla.toNat + b = a + g * 16 / rb * stride + g * 16 % rb + j)) ∧
      ∀ b, b < 128 → k.mask.getLsbD b = true → lineByte k.data b = BitVec.ofNat 8 (pattern / 2 ^ (8 * (b % 16)))))

/-- A step runs the command at the front of the queue, and with none waiting one always-on tick passes. Step of a state with c at the front of
its queue is exec of c on the state with the queue's rest. With an empty queue, the model's choice (logs 1 and 151) is one always-on tick:
a powered chip out of reset that no rail fault has hit adds 1 to EVC_TICK, lets nack queues and vector queues empty unless its clocks
stand still, and changes nothing else unless 25,000 divides the new count, when running grant expiries lose a millisecond; a chip without
power, in reset, or in a chip reset that is not yet released stays as it is. (R531, R54, R73, R139.) -/
def Obligations.StepRunsFrontCommand : Prop :=
  (∀ (c : Instr) (r : List Instr) (s : State), s.pending = c :: r → step s = exec c { s with pending := r }) ∧
  (∀ s : State, s.pending = [] → s.ok = true →
    let c := s.dev.core
    (c.pins.powered = false ∨ c.pins.resetN = false ∨ c.glb.idValid = false → step s = .next s) ∧
    (c.pins.powered = true → c.pins.resetN = true → c.glb.idValid = true → ∃ u, step s = .next (s.withCore u) ∧
      (∀ e, u.home e = if frozenChip c then c.home e else { c.home e with nackQ := 0 }) ∧
      (∀ t, u.tile t = if frozenChip c then c.tile t else { c.tile t with vec := { (c.tile t).vec with vecQ := [] } }) ∧
      { u with homes := [], tiles := [], ptns := [] } = { c with homes := [], tiles := [], ptns := [], evc := { c.evc with tick := c.evc.tick + 1 } } ∧
      ((c.evc.tick + 1).toNat % 25000 ≠ 0 → u.ptns = c.ptns) ∧
      ((c.evc.tick + 1).toNat % 25000 = 0 → ∀ p, u.ptn p = { c.ptn p with ext := (c.ptn p).ext.map (fun x => (x.1, countDown x.2)) })))

/-- Every command answers a next state and leaves the queue alone; only a rail fault stops the block, until RESET_N or power ends it. As long
as no rail has left its tolerance since RESET_N was last asserted, every command, whatever its operands, answers a next state whose queue
is the one it was given: no command is refused and none faults. After a rail fault, RESET_N_ASSERT, POWER_ON and POWER_DOWN still answer a
next state, and every other command stops with the fault behaviourNotDefined, since the manual defines no behaviour there. A falling
RESET_N of a powered chip ends the fault. (R561.) -/
def Obligations.CommandsCompleteOrStop : Prop :=
  ∀ (s : State) (c : Instr),
    (s.ok = true → ∃ u, exec c s = .next u ∧ u.pending = s.pending) ∧
    (s.ok = false →
      (c = .resetNAssert ∨ c = .powerOn ∨ (∃ b, c = .powerDown b) → ∃ u, exec c s = .next u ∧ u.pending = s.pending) ∧
      (c ≠ .resetNAssert → c ≠ .powerOn → (∀ b, c ≠ .powerDown b) → exec c s = .fault .behaviourNotDefined)) ∧
    (s.dev.core.pins.powered = true → s.dev.core.pins.resetN = true → ∃ u, exec .resetNAssert s = .next u ∧ u.ok = true)

/-- Every kernel instruction's word decodes to its row and fields, and the words written out from the manual decode as it says. For every row
of the instruction tables and every setting of its fields that R163 admits, with OP[7] set only where the row has that form, the 64-bit
word of R162 decodes to that row and those fields: no bit is dropped and no two words collide. The manual's example of R180, the bytes 37
10 04 00 00 00 01 00, is TMUL with D = 1, A = 2 and NEW = 1; further words, of ADD with an immediate, SD, HALT and SREAD, decode as their
tables say. The unused CLASS 10, the unlisted OP 0x18 of class 0 and a HALT with D = 1 decode to nothing. (R162, R163, R164, R165, R166,
R168, R169, R172, R177, R181, R183.) -/
def Obligations.KernelWordsRoundTrip : Prop :=
  (∀ (r : YkRow) (f : YkF), r ∈ ykRows → r.legal f = true → (f.rep = true → r.rep = true) → ykDecode (r.word f) = some (r, f)) ∧
  ykDecode 0x0001000000041037 = some (rowTmul, ⟨false, 1, 2, 0, 0, 0x10000⟩) ∧
  ykDecode 0xFFFFFFF800065800 = some (rowAdd, ⟨true, 5, 3, 0, 0, 0xFFFFFFF8⟩) ∧
  ykDecode 0x00000010000470B1 = some (rowSd, ⟨false, 7, 2, 0, 0, 0x10⟩) ∧
  ykDecode 0x0000000000000102 = some (rowHalt, ⟨false, 0, 0, 0, 0, 0⟩) ∧
  ykDecode 0x0000000100147069 = some (rowSread, ⟨false, 7, 10, 0, 0, 1⟩) ∧
  ykDecode 0x000000000000000A = none ∧ ykDecode 0x0000000000000180 = none ∧ ykDecode 0x0000000000001102 = none

/-- Every step keeps what survives a chip reset canonical, never lowers the fused SVN, and lets only the named commands change each part. For
every state whose flash bytes and retirement records are in canonical form, if a step answers next, the new state's are too. Whatever the
state, the step leaves every fuse but the SVN as it was and the SVN no lower; the SVN changes by SVN_COMMIT alone, the flash bytes by
FLASH_ERASE and FLASH_WRITE, by IMAGE_SELECT in the slot pointer and by RETIRE_LINE_COPY in the retirement area, and RST_CAUSE by power,
RESET_N, RST_CHIP and the thermal trip. (R314, R315, R324, R325, R329, R477, R478, R510.) -/
def Obligations.PermanentStateInvariant : Prop :=
  ∀ s t : State, step s = .next t → let p := s.dev.perm
    let q := t.dev.perm
    let front (P : Instr → Prop) : Prop := ∃ c, s.pending.head? = some c ∧ P c
    (s.Inv → t.Inv) ∧ { q.fuses with svn := 0 } = { p.fuses with svn := 0 } ∧ p.fuses.svn ≤ q.fuses.svn ∧
    (q.fuses ≠ p.fuses → front (fun c => ∃ ch, c = .svnCommit ch)) ∧
    (∀ a, rdByte q.flash a ≠ rdByte p.flash a → front (fun c => (∃ ch e, c = .flashErase ch e ∨ c = .flashWrite ch e) ∨
      (a < 0x1000 ∧ ∃ ch, c = .imageSelect ch) ∨ (0x3100000 ≤ a ∧ ∃ e w, c = .retireLineCopy e w))) ∧
    (q.rstCause ≠ p.rstCause → front (fun c => c = .powerOn ∨ (∃ b, c = .powerDown b) ∨ c = .resetNAssert ∨ (∃ k, c = .rstChip k) ∨
      ∃ k, c = .thermalSample k))

/-- The state of reset: RESET_N low, every unit Off, every port Disabled, nothing mapped, and the registers at their Reset column. After chip
reset no command waits, RESET_N is low, every unit is in state Off and every tile's power Off, every port Disabled, no partition is
enabled, no extent mapped, no host listed, no request held and nothing logged, EVC_TICK is 0, and the RW registers with a nonzero Reset
entry hold it (power, cluster, home, HBM controller, port, mesh, traffic, mirror, sync, log and security registers). The canonical form
that every step keeps holds there. That the model begins with power and with the fuses and flash of an SH9600 fresh from the factory is
its own choice (log 43). (R92, R156, R265, R294, R320, R321, R355, R390, R415, R451, R509, R511.) -/
def Obligations.ResetState : Prop :=
  let s := State.reset
  let c := s.dev.core
  s.pending = [] ∧ s.ok = true ∧ s.Inv ∧ c.pins.powered = true ∧ c.pins.resetN = false ∧ c.evc.tick = 0 ∧ c.evc.freezeCfg = 4 ∧
  (∀ k i, c.ust k i = .off) ∧ (∀ t, (c.tile t).power = .off ∧ (c.tile t).assigned = false ∧ (c.tile t).pwr = 0x00010400 ∧ (c.tile t).dmaTmo = 0x9C4) ∧
  (∀ n, let p := c.port n
    p.link = .disabled ∧ p.en = false ∧ p.cfg = 0x100 ∧ p.replayTmo = 0xFA0 ∧ p.retrainTmo = 0x30D4 ∧ p.stallTmo = 0x61A8 ∧ p.retry = 0x64 ∧
    p.credInit0 = 0xFFFF ∧ p.credInit1 = 0x0400C000 ∧ p.cap.cfg = 2 ∧ ∀ q, (tget ({} : FairQ) q p.queues).weight = 1) ∧
  (∀ p, (c.ptn p).en = false ∧ (c.ptn p).dlkCfg = 0x0001000A ∧ (c.mirr p).lease = 0x00050014 ∧ ∀ i, (c.masterExt p i).valid = false) ∧
  (∀ h, (c.host h).valid = false) ∧ (∀ ch, (c.mb ch).full = false) ∧
  (∀ e, let h := c.home e
    h.dirCfg = 0x00004003 ∧ h.snoopTmo = 0x020030D4 ∧ h.integCfg = 0x401 ∧ h.patrolCfg = 0x05A00001 ∧ h.trks = [] ∧ ∀ p i, (c.homeExt e p i).valid = false) ∧
  (∀ e, let x := c.hbmc e
    x.cfg = 0x7040 ∧ x.sched = 0x00FA0818 ∧ x.pwr = 0x0061A801 ∧ x.spareCfg = 0x199A ∧ x.trained = false) ∧
  c.pwr.deviceBudget = 0xA28 ∧ c.pwr.shared = 0x546 ∧ c.pwr.ctrl = 0x0061A803 ∧ c.pwr.iccLimit = 0x898 ∧ c.pwr.therm = 0x00505F5F ∧
  c.mesh.cfg = 0x00060100 ∧ c.mesh.aimd = 0x0A040008 ∧ c.mesh.drainTmo = 0xA ∧ c.tmgr = 0x03E80100 ∧ c.gateWait = 0x000101F4 ∧
  c.mirrG.replTmo = 0x9C4 ∧ c.mirrG.resyncRate = 0xC8 ∧ c.erl.intCfg = 0x00010002 ∧ c.erl.ring = [] ∧ c.sec.liningRate = 0x3E8 ∧
  c.sec.sweepRate = 0x3E8 ∧ c.glb.readyTmo = 0x3E8 ∧ c.glb.intEn = 0xFFFFFFFFFFFFFFFF ∧ c.glb.ready = .boot

/-- What a kernel instruction leaves alone: all state beside its tile, and of its tile every register group it does not name. Whenever exec of
a kernel instruction answers a next state (its own effect, a wait or a trap), every part of the device beside the tile is as it was but
for log, interrupts, counters, freezes, messages sent and the count of free values (log 3), and every other tile is untouched. Of the tile
itself only sequencer, vector and array registers, local store, DMA channels, work item and FAULT.TRAP can change: local store and its
poison only by scalar and vector stores; a scalar register only as the D of an instruction that writes one, or the A of DMASTAT; a vector
register and its poison only as the D of one that writes it; accumulators only by TMUL, AZERO and VWRA; descriptors only by TLDD and TADD;
the array by class 7; channels by DMAQ and DMARES; TVEC by SRW; SATCNT by SRW and VQ; FFLAGS by SRW and classes 4 and 6. (R19, R158, R161,
R163, R169, R172, R177, R181, R188, R197.) -/
def Obligations.KernelInstructionFrame : Prop :=
  ∀ (s u : State) (i : Instr) (t : Nat) (f : YkF) (r : YkRow), ykRow i = some (t, f, r) → exec i s = .next u →
    let x := s.dev.core.tile t
    let y := u.dev.core.tile t
    s.keeps u ∧ u.dev.core.besideTiles = s.dev.core.besideTiles ∧ (∀ k, k ≠ t → u.dev.core.tile k = s.dev.core.tile k) ∧
    y.besideKernel = x.besideKernel ∧
    (rowStores r = false → y.ls = x.ls ∧ y.lsPoison = x.lsPoison) ∧
    (∀ k, (rowWritesX r = true → k ≠ f.d) → (r = rowDmastat → k ≠ f.a) → rdX y.seq k = rdX x.seq k) ∧
    (∀ k, (rowWritesV r = true → k ≠ f.d) → rdV y.vec k = rdV x.vec k ∧ vPoisoned y.vec k = vPoisoned x.vec k) ∧
    (rowWritesA r = false → y.vec.acc = x.vec.acc ∧ y.vec.accPoison = x.vec.accPoison) ∧
    (r ≠ rowTldd → r ≠ rowTadd → y.vec.td = x.vec.td) ∧
    (r.cls ≠ 7 → y.vec.shadow = x.vec.shadow ∧ y.vec.active = x.vec.active ∧ y.vec.arrayQ = x.vec.arrayQ) ∧
    (r ≠ rowDmaq → r ≠ rowDmares → y.chans = x.chans) ∧
    (r ≠ rowSrw → y.seq.tvec = x.seq.tvec ∧ (r ≠ rowVq → y.seq.satcnt = x.seq.satcnt) ∧
      (r.cls ≠ 4 → r.cls ≠ 6 → y.seq.fflags = x.seq.fflags))

/-- A new payload flit is sent only while fewer than 16,384 flits lie between OLDEST and NEXT. For every port and state, FLIT_SEND, the
command by which a port puts a flit on its fibre, answers a next state; and whenever the flit it sent last is a payload flit that is not a
retransmission, (NEXT − OLDEST) mod 2^16 was below 16,384 before, the flit carries NEXT, NEXT has moved on by one and the replay buffer
holds one flit more. With the window closed, NEXT and the buffer stay, and with the window open and a packet of a channel in turn, they
move on. (R375.) -/
def Obligations.ReplayWindow : Prop :=
  ∀ (s : State) (n el : Nat), s.ok = true → portRuns s.dev.core n = true →
    let p := s.dev.core.port n
    ∃ u, exec (.flitSend n el) s = .next u ∧ s.keeps u ∧
      let q := u.dev.core.port n
      (∀ g, p.link = .up → p.replaying = [] → u.dev.core.out.getLast? = some (.flit n g) → g.kind = 0 →
        (p.next - p.oldest).toNat < 16384 ∧ g.retx = false ∧ g.seq = p.next ∧ q.next = p.next + 1 ∧ q.buf.length = p.buf.length + 1) ∧
      (p.link = .up → 16384 ≤ (p.next - p.oldest).toNat → q.next = p.next ∧ q.buf = p.buf) ∧
      (p.link = .up → p.replaying ≠ [] → q.next = p.next ∧ q.buf = p.buf)
end

