-- ==== Sys2Proof/Laws/Table.lean ====
section
/-! SUPPORT. The laws of tables and of memory: reading after writing, and the canonical form kept by every operation. -/

namespace Sys2Proof.Machine
open Sys2Proof

theorem tget_tdel_same {α : Type} (d : α) (k : Nat) (t : Table α) : tget d k (tdel k t) = d := by
  induction t with
  | nil => rfl
  | cons e r ih => obtain ⟨i, a⟩ := e; by_cases h : i = k <;> simp [tdel, tget, h, ih]

theorem tget_tdel_ne {α : Type} (d : α) {j k : Nat} (h : j ≠ k) (t : Table α) : tget d j (tdel k t) = tget d j t := by
  induction t with
  | nil => rfl
  | cons e r ih =>
    obtain ⟨i, a⟩ := e
    by_cases hi : i = k
    · have hij : ¬ i = j := fun e => h (e ▸ hi)
      have hkj : ¬ k = j := fun e => h e.symm
      simp [tdel, tget, hi, ih, hkj]
    · simp [tdel, tget, hi, ih]

theorem tget_tins_ne {α : Type} (d : α) {j k : Nat} (h : j ≠ k) (v : α) (t : Table α) : tget d j (tins k v t) = tget d j t := by
  induction t with
  | nil => simp [tins, tget, Ne.symm h]
  | cons e r ih =>
    obtain ⟨i, a⟩ := e
    by_cases hi : k < i
    · simp [tins, tget, hi, Ne.symm h]
    · simp [tins, tget, hi, ih]

/-- A record entered where its number is not listed. -/
theorem tget_tins_same {α : Type} (d : α) (k : Nat) (v : α) (t : Table α) (h : ∀ e ∈ t, e.1 ≠ k) : tget d k (tins k v t) = v := by
  induction t with
  | nil => simp [tins, tget]
  | cons e r ih =>
    obtain ⟨i, a⟩ := e
    have hi : i ≠ k := h (i, a) (by simp)
    have hr : ∀ e ∈ r, e.1 ≠ k := fun e he => h e (by simp [he])
    by_cases hk : k < i
    · simp [tins, tget, hk]
    · simp [tins, tget, hk, hi, ih hr]

theorem mem_tdel {α : Type} {k : Nat} {t : Table α} {e : Nat × α} (h : e ∈ tdel k t) : e ∈ t ∧ e.1 ≠ k := by
  induction t with
  | nil => simp [tdel] at h
  | cons x r ih =>
    obtain ⟨i, a⟩ := x
    by_cases hi : i = k
    · simp only [tdel, hi, if_true] at h; have := ih h; exact ⟨by simp [this.1], this.2⟩
    · simp only [tdel, hi, if_false, List.mem_cons] at h
      rcases h with rfl | h
      · exact ⟨by simp, hi⟩
      · have := ih h; exact ⟨by simp [this.1], this.2⟩

/-- Reading the record just written. -/
@[simp] theorem tget_tput_same {α : Type} [DecidableEq α] (d : α) (k : Nat) (v : α) (t : Table α) : tget d k (tput d k v t) = v := by
  unfold tput
  split
  · next h => rw [h, tget_tdel_same]
  · exact tget_tins_same d k v _ (fun e he => (mem_tdel he).2)

/-- A write leaves every other record alone. -/
@[simp] theorem tget_tput_ne {α : Type} [DecidableEq α] (d : α) {j k : Nat} (h : j ≠ k) (v : α) (t : Table α) :
    tget d j (tput d k v t) = tget d j t := by
  unfold tput
  split
  · exact tget_tdel_ne d h t
  · rw [tget_tins_ne d h, tget_tdel_ne d h]

theorem tget_tput {α : Type} [DecidableEq α] (d : α) (j k : Nat) (v : α) (t : Table α) :
    tget d j (tput d k v t) = if j = k then v else tget d j t := by
  by_cases h : j = k
  · subst h; simp
  · simp [h]

/-! ### The canonical form -/

theorem rising_cons {a : Nat} {l : List Nat} : rising (a :: l) = true ↔ (∀ b ∈ l, a < b) ∧ rising l = true := by
  induction l generalizing a with
  | nil => simp [rising]
  | cons b r ih =>
    simp only [rising, Bool.and_eq_true, decide_eq_true_eq, List.mem_cons, forall_eq_or_imp]
    constructor
    · rintro ⟨hab, hbr⟩
      exact ⟨⟨hab, fun c hc => Nat.lt_trans hab ((ih.1 hbr).1 c hc)⟩, hbr⟩
    · rintro ⟨⟨hab, _⟩, hbr⟩
      exact ⟨hab, hbr⟩

theorem tdel_sub {α : Type} (k : Nat) (t : Table α) : ∀ i ∈ (tdel k t).map Prod.fst, i ∈ t.map Prod.fst := by
  intro i hi
  obtain ⟨e, he, rfl⟩ := List.mem_map.1 hi
  exact List.mem_map.2 ⟨e, (mem_tdel he).1, rfl⟩

theorem rising_tdel {α : Type} (k : Nat) (t : Table α) (h : rising (t.map Prod.fst) = true) : rising ((tdel k t).map Prod.fst) = true := by
  induction t with
  | nil => simpa [tdel] using h
  | cons e r ih =>
    obtain ⟨i, a⟩ := e
    rw [List.map_cons, rising_cons] at h
    by_cases hi : i = k
    · simpa [tdel, hi] using ih h.2
    · simp only [tdel, hi, if_false, List.map_cons]
      exact rising_cons.2 ⟨fun b hb => h.1 b (tdel_sub k r b hb), ih h.2⟩

theorem tins_keys {α : Type} (k : Nat) (v : α) (t : Table α) : ∀ i ∈ (tins k v t).map Prod.fst, i = k ∨ i ∈ t.map Prod.fst := by
  induction t with
  | nil => intro i hi; simp [tins] at hi; exact Or.inl hi
  | cons e r ih =>
    obtain ⟨j, a⟩ := e
    intro i hi
    by_cases hk : k < j
    · simp only [tins, hk, if_true, List.map_cons, List.mem_cons] at hi ⊢; tauto
    · simp only [tins, hk, if_false, List.map_cons, List.mem_cons] at hi ⊢
      rcases hi with rfl | hi
      · exact Or.inr (Or.inl rfl)
      · rcases ih i hi with h | h <;> tauto

theorem rising_tins {α : Type} (k : Nat) (v : α) (t : Table α) (h : rising (t.map Prod.fst) = true) (hk : ∀ i ∈ t.map Prod.fst, i ≠ k) :
    rising ((tins k v t).map Prod.fst) = true := by
  induction t with
  | nil => simp [tins, rising]
  | cons e r ih =>
    obtain ⟨j, a⟩ := e
    have h' := h
    rw [List.map_cons, rising_cons] at h
    by_cases hj : k < j
    · simp only [tins, hj, if_true]
      rw [List.map_cons]
      refine rising_cons.2 ⟨fun b hb => ?_, h'⟩
      rw [List.map_cons, List.mem_cons] at hb
      rcases hb with rfl | hb
      · exact hj
      · exact Nat.lt_trans hj (h.1 b hb)
    · simp only [tins, hj, if_false, List.map_cons]
      refine rising_cons.2 ⟨fun b hb => ?_, ih h.2 (fun i hi => hk i (by simp [hi]))⟩
      rcases tins_keys k v r b hb with rfl | hb
      · have : j ≠ b := hk j (by simp)
        omega
      · exact h.1 b hb

theorem mem_tins {α : Type} {k : Nat} {v : α} {t : Table α} {e : Nat × α} (h : e ∈ tins k v t) : e = (k, v) ∨ e ∈ t := by
  induction t with
  | nil => simp [tins] at h; exact Or.inl h
  | cons x r ih =>
    obtain ⟨j, a⟩ := x
    by_cases hk : k < j
    · simpa [tins, hk] using h
    · simp only [tins, hk, if_false, List.mem_cons] at h
      rcases h with rfl | h
      · exact Or.inr (by simp)
      · rcases ih h with h | h
        · exact Or.inl h
        · exact Or.inr (by simp [h])

/-- Every write keeps the canonical form. -/
theorem twf_tput {α : Type} [DecidableEq α] (d : α) (k : Nat) (v : α) (t : Table α) (h : twf d t = true) : twf d (tput d k v t) = true := by
  simp only [twf, Bool.and_eq_true, List.all_eq_true, decide_eq_true_eq] at h ⊢
  unfold tput
  split
  · exact ⟨rising_tdel k t h.1, fun e he => h.2 e (mem_tdel he).1⟩
  · next hv =>
    refine ⟨rising_tins k v _ (rising_tdel k t h.1) ?_, fun e he => ?_⟩
    · intro i hi
      obtain ⟨e, he, rfl⟩ := List.mem_map.1 hi
      exact (mem_tdel he).2
    · rcases mem_tins he with rfl | he
      · exact hv
      · exact h.2 e (mem_tdel he).1

/-! ### Memory -/

/-- A byte read after a write of one byte. -/
theorem rdByte_wrByte (m : Mem) (a b : Nat) (v : BitVec 8) : rdByte (wrByte m a v) b = if b = a then v else rdByte m b := tget_tput 0 b a v m

theorem memWf_nil : memWf [] = true := rfl

theorem memWf_wrByte {m : Mem} (h : memWf m = true) (a : Nat) (v : BitVec 8) : memWf (wrByte m a v) = true := twf_tput 0 a v m h

theorem memWf_wrLE {m : Mem} (h : memWf m = true) (a n v : Nat) : memWf (wrLE m a n v) = true := by
  induction n generalizing m a v with
  | zero => exact h
  | succ n ih => exact ih (memWf_wrByte h a _) (a + 1) (v / 256)

theorem memWf_wrMasked {m : Mem} (h : memWf m = true) (a : Nat) (l : Line) (mask : BitVec 128) (b n : Nat) :
    memWf (wrMasked m a l mask b n) = true := by
  induction n generalizing m b with
  | zero => exact h
  | succ n ih =>
    simp only [wrMasked]
    split
    · exact ih (memWf_wrByte h _ _) (b + 1)
    · exact ih h (b + 1)

theorem memWf_wrLine {m : Mem} (h : memWf m = true) (a : Nat) (l : Line) : memWf (wrLine m a l) = true := memWf_wrLE h a 128 _

theorem rising_filter (f : Host.Cell → Bool) (m : Mem) (h : rising (m.map Prod.fst) = true) : rising ((m.filter f).map Prod.fst) = true := by
  induction m with
  | nil => exact h
  | cons e r ih =>
    rw [List.map_cons, rising_cons] at h
    by_cases he : f e = true
    · rw [List.filter_cons_of_pos he, List.map_cons]
      refine rising_cons.2 ⟨fun b hb => ?_, ih h.2⟩
      obtain ⟨x, hx, rfl⟩ := List.mem_map.1 hb
      exact h.1 _ (List.mem_map.2 ⟨x, (List.mem_filter.1 hx).1, rfl⟩)
    · rw [List.filter_cons_of_neg he]; exact ih h.2

theorem memWf_zeroRange {m : Mem} (h : memWf m = true) (a n : Nat) : memWf (zeroRange m a n) = true := by
  simp only [memWf, twf, Bool.and_eq_true, List.all_eq_true, decide_eq_true_eq] at h ⊢
  exact ⟨rising_filter _ m h.1, fun e he => h.2 e (List.mem_filter.1 he).1⟩

theorem tget_filter (g : Host.Cell → Bool) (m : Mem) (b : Nat) (hg : ∀ v, g (b, v) = true) : tget (0 : BitVec 8) b (m.filter g) = tget 0 b m := by
  induction m with
  | nil => rfl
  | cons e r ih =>
    obtain ⟨i, v⟩ := e
    by_cases hi : i = b
    · subst hi; rw [List.filter_cons_of_pos (hg v)]; simp [tget]
    · by_cases hv : g (i, v) = true
      · rw [List.filter_cons_of_pos hv]; simpa [tget, hi] using ih
      · rw [List.filter_cons_of_neg hv]; simpa [tget, hi] using ih

theorem tget_filter_out (g : Host.Cell → Bool) (m : Mem) (b : Nat) (hg : ∀ v, g (b, v) = false) : tget (0 : BitVec 8) b (m.filter g) = 0 := by
  induction m with
  | nil => rfl
  | cons e r ih =>
    obtain ⟨i, v⟩ := e
    by_cases hv : g (i, v) = true
    · have hi : ¬ i = b := fun hi => by subst hi; simp [hg v] at hv
      rw [List.filter_cons_of_pos hv]; simpa [tget, hi] using ih
    · rw [List.filter_cons_of_neg hv]; exact ih

/-- A byte read after a range was zeroed. -/
theorem rdByte_zeroRange (m : Mem) (a n b : Nat) : rdByte (zeroRange m a n) b = if a ≤ b ∧ b < a + n then 0 else rdByte m b := by
  unfold rdByte zeroRange
  split
  · next h => exact tget_filter_out _ m b (fun v => by simp [h.1, h.2])
  · next h =>
    exact tget_filter _ m b (fun v => by
      simp only [Bool.not_eq_true', Bool.and_eq_false_imp, decide_eq_true_eq, decide_eq_false_iff_not]; exact fun h1 h2 => h ⟨h1, h2⟩)

/-- Bytes outside a range written are as before. -/
theorem rdByte_wrLE_ne (m : Mem) (a n v b : Nat) (h : b < a ∨ a + n ≤ b) : rdByte (wrLE m a n v) b = rdByte m b := by
  induction n generalizing m a v with
  | zero => rfl
  | succ n ih =>
    rw [wrLE, ih _ _ _ (by omega), rdByte_wrByte]
    have : ¬ b = a := by omega
    simp [this]

/-- A byte of a range written. -/
theorem rdByte_wrLE_eq (m : Mem) (a n v i : Nat) (h : i < n) : rdByte (wrLE m a n v) (a + i) = BitVec.ofNat 8 (v / 256 ^ i) := by
  induction n generalizing m a v i with
  | zero => omega
  | succ n ih =>
    rw [wrLE]
    cases i with
    | zero => rw [Nat.add_zero, rdByte_wrLE_ne _ _ _ _ _ (by omega), rdByte_wrByte]; simp
    | succ i =>
      have := ih (wrByte m a (BitVec.ofNat 8 v)) (a + 1) (v / 256) i (by omega)
      rw [show a + (i + 1) = a + 1 + i by omega, this, Nat.div_div_eq_div_mul, Nat.pow_succ, Nat.mul_comm]

/-- A number read back from the bytes that hold it. -/
theorem rdLE_lt (m : Mem) (a n : Nat) : rdLE m a n < 256 ^ n := by
  induction n generalizing a with
  | zero => simp [rdLE]
  | succ n ih =>
    have h := (rdByte m a).isLt
    have := ih (a + 1)
    rw [rdLE, pow_succ]
    omega

theorem rdLE_wrLE (m : Mem) (a n v : Nat) : rdLE (wrLE m a n v) a n = v % 256 ^ n := by
  suffices H : ∀ (k j : Nat), j + k = n → rdLE (wrLE m a n v) (a + j) k = v / 256 ^ j % 256 ^ k by
    simpa using H n 0 (by omega)
  intro k
  induction k with
  | zero => intro j _; simp [rdLE, Nat.mod_one]
  | succ k ih =>
    intro j hj
    rw [rdLE, rdByte_wrLE_eq m a n v j (by omega), show a + j + 1 = a + (j + 1) by omega, ih (j + 1) (by omega)]
    rw [BitVec.toNat_ofNat, Nat.pow_succ 256 j, ← Nat.div_div_eq_div_mul, Nat.pow_succ 256 k, Nat.mul_comm (256 ^ k) 256,
      Nat.mod_mul]

end Sys2Proof.Machine
end

