-- ==== Sys2Proof/Laws/State.lean ====
section
/-! SUPPORT. One lemma for each field of the device's record and each update of a unit, and for each unit read after an update. -/

namespace Sys2Proof.Machine
open Sys2Proof


/-! ### setMb -/

@[simp] theorem Core.setMb_pins (c : Core) (k : Nat) (x : Mbx) : (c.setMb k x).pins = c.pins := rfl
@[simp] theorem Core.setMb_fresh (c : Core) (k : Nat) (x : Mbx) : (c.setMb k x).fresh = c.fresh := rfl
@[simp] theorem Core.setMb_out (c : Core) (k : Nat) (x : Mbx) : (c.setMb k x).out = c.out := rfl
@[simp] theorem Core.setMb_evc (c : Core) (k : Nat) (x : Mbx) : (c.setMb k x).evc = c.evc := rfl
@[simp] theorem Core.setMb_erl (c : Core) (k : Nat) (x : Mbx) : (c.setMb k x).erl = c.erl := rfl
@[simp] theorem Core.setMb_plog (c : Core) (k : Nat) (x : Mbx) : (c.setMb k x).plog = c.plog := rfl
@[simp] theorem Core.setMb_sec (c : Core) (k : Nat) (x : Mbx) : (c.setMb k x).sec = c.sec := rfl
@[simp] theorem Core.setMb_glb (c : Core) (k : Nat) (x : Mbx) : (c.setMb k x).glb = c.glb := rfl
@[simp] theorem Core.setMb_cfg (c : Core) (k : Nat) (x : Mbx) : (c.setMb k x).cfg = c.cfg := rfl
@[simp] theorem Core.setMb_pwr (c : Core) (k : Nat) (x : Mbx) : (c.setMb k x).pwr = c.pwr := rfl
@[simp] theorem Core.setMb_rst (c : Core) (k : Nat) (x : Mbx) : (c.setMb k x).rst = c.rst := rfl
@[simp] theorem Core.setMb_rot (c : Core) (k : Nat) (x : Mbx) : (c.setMb k x).rot = c.rot := rfl
@[simp] theorem Core.setMb_ptns (c : Core) (k : Nat) (x : Mbx) : (c.setMb k x).ptns = c.ptns := rfl
@[simp] theorem Core.setMb_hosts (c : Core) (k : Nat) (x : Mbx) : (c.setMb k x).hosts = c.hosts := rfl
@[simp] theorem Core.setMb_homes (c : Core) (k : Nat) (x : Mbx) : (c.setMb k x).homes = c.homes := rfl
@[simp] theorem Core.setMb_mem (c : Core) (k : Nat) (x : Mbx) : (c.setMb k x).mem = c.mem := rfl
@[simp] theorem Core.setMb_lineFlags (c : Core) (k : Nat) (x : Mbx) : (c.setMb k x).lineFlags = c.lineFlags := rfl
@[simp] theorem Core.setMb_hbmcs (c : Core) (k : Nat) (x : Mbx) : (c.setMb k x).hbmcs = c.hbmcs := rfl
@[simp] theorem Core.setMb_edges (c : Core) (k : Nat) (x : Mbx) : (c.setMb k x).edges = c.edges := rfl
@[simp] theorem Core.setMb_objs (c : Core) (k : Nat) (x : Mbx) : (c.setMb k x).objs = c.objs := rfl
@[simp] theorem Core.setMb_gateWait (c : Core) (k : Nat) (x : Mbx) : (c.setMb k x).gateWait = c.gateWait := rfl
@[simp] theorem Core.setMb_regions (c : Core) (k : Nat) (x : Mbx) : (c.setMb k x).regions = c.regions := rfl
@[simp] theorem Core.setMb_ports (c : Core) (k : Nat) (x : Mbx) : (c.setMb k x).ports = c.ports := rfl
@[simp] theorem Core.setMb_tmgr (c : Core) (k : Nat) (x : Mbx) : (c.setMb k x).tmgr = c.tmgr := rfl
@[simp] theorem Core.setMb_routers (c : Core) (k : Nat) (x : Mbx) : (c.setMb k x).routers = c.routers := rfl
@[simp] theorem Core.setMb_mesh (c : Core) (k : Nat) (x : Mbx) : (c.setMb k x).mesh = c.mesh := rfl
@[simp] theorem Core.setMb_mirrs (c : Core) (k : Nat) (x : Mbx) : (c.setMb k x).mirrs = c.mirrs := rfl
@[simp] theorem Core.setMb_mirrG (c : Core) (k : Nat) (x : Mbx) : (c.setMb k x).mirrG = c.mirrG := rfl
@[simp] theorem Core.setMb_tiles (c : Core) (k : Nat) (x : Mbx) : (c.setMb k x).tiles = c.tiles := rfl
@[simp] theorem Core.setMb_get_ptn (c : Core) (k : Nat) (x : Mbx) (j : Nat) : (c.setMb k x).ptn j = c.ptn j := rfl
@[simp] theorem Core.setMb_get_host (c : Core) (k : Nat) (x : Mbx) (j : Nat) : (c.setMb k x).host j = c.host j := rfl
@[simp] theorem Core.setMb_get_home (c : Core) (k : Nat) (x : Mbx) (j : Nat) : (c.setMb k x).home j = c.home j := rfl
@[simp] theorem Core.setMb_get_hbmc (c : Core) (k : Nat) (x : Mbx) (j : Nat) : (c.setMb k x).hbmc j = c.hbmc j := rfl
@[simp] theorem Core.setMb_get_edge (c : Core) (k : Nat) (x : Mbx) (j : Nat) : (c.setMb k x).edge j = c.edge j := rfl
@[simp] theorem Core.setMb_get_obj (c : Core) (k : Nat) (x : Mbx) (j : Nat) : (c.setMb k x).obj j = c.obj j := rfl
@[simp] theorem Core.setMb_get_region (c : Core) (k : Nat) (x : Mbx) (j : Nat) : (c.setMb k x).region j = c.region j := rfl
@[simp] theorem Core.setMb_get_port (c : Core) (k : Nat) (x : Mbx) (j : Nat) : (c.setMb k x).port j = c.port j := rfl
@[simp] theorem Core.setMb_get_router (c : Core) (k : Nat) (x : Mbx) (j : Nat) : (c.setMb k x).router j = c.router j := rfl
@[simp] theorem Core.setMb_get_mirr (c : Core) (k : Nat) (x : Mbx) (j : Nat) : (c.setMb k x).mirr j = c.mirr j := rfl
@[simp] theorem Core.setMb_get_tile (c : Core) (k : Nat) (x : Mbx) (j : Nat) : (c.setMb k x).tile j = c.tile j := rfl
@[simp] theorem Core.setMb_get_keys (c : Core) (k : Nat) (x : Mbx) (j : Nat) : (c.setMb k x).keys j = c.keys j := rfl
@[simp] theorem Core.setMb_get_mgr (c : Core) (k : Nat) (x : Mbx) (j : Nat) : (c.setMb k x).mgr j = c.mgr j := rfl
@[simp] theorem Core.setMb_get_unit (c : Core) (k : Nat) (x : Mbx) (a b : Nat) : (c.setMb k x).unit a b = c.unit a b := rfl
@[simp] theorem Core.setMb_get_ust (c : Core) (k : Nat) (x : Mbx) (a b : Nat) : (c.setMb k x).ust a b = c.ust a b := rfl
@[simp] theorem Core.setMb_same (c : Core) (k : Nat) (x : Mbx) : (c.setMb k x).mb k = x := by simp [Core.setMb, Core.mb]
theorem Core.setMb_get (c : Core) (k : Nat) (x : Mbx) (j : Nat) : (c.setMb k x).mb j = if j = k then x else c.mb j := by simp [Core.setMb, Core.mb, tget_tput]
@[simp] theorem Core.setMb_ne (c : Core) (k : Nat) (x : Mbx) {j : Nat} (h : j ≠ k) : (c.setMb k x).mb j = c.mb j := by simp [Core.setMb, Core.mb, h]

/-! ### setPtn -/

@[simp] theorem Core.setPtn_pins (c : Core) (k : Nat) (x : Ptn) : (c.setPtn k x).pins = c.pins := rfl
@[simp] theorem Core.setPtn_fresh (c : Core) (k : Nat) (x : Ptn) : (c.setPtn k x).fresh = c.fresh := rfl
@[simp] theorem Core.setPtn_out (c : Core) (k : Nat) (x : Ptn) : (c.setPtn k x).out = c.out := rfl
@[simp] theorem Core.setPtn_evc (c : Core) (k : Nat) (x : Ptn) : (c.setPtn k x).evc = c.evc := rfl
@[simp] theorem Core.setPtn_erl (c : Core) (k : Nat) (x : Ptn) : (c.setPtn k x).erl = c.erl := rfl
@[simp] theorem Core.setPtn_plog (c : Core) (k : Nat) (x : Ptn) : (c.setPtn k x).plog = c.plog := rfl
@[simp] theorem Core.setPtn_sec (c : Core) (k : Nat) (x : Ptn) : (c.setPtn k x).sec = c.sec := rfl
@[simp] theorem Core.setPtn_glb (c : Core) (k : Nat) (x : Ptn) : (c.setPtn k x).glb = c.glb := rfl
@[simp] theorem Core.setPtn_cfg (c : Core) (k : Nat) (x : Ptn) : (c.setPtn k x).cfg = c.cfg := rfl
@[simp] theorem Core.setPtn_pwr (c : Core) (k : Nat) (x : Ptn) : (c.setPtn k x).pwr = c.pwr := rfl
@[simp] theorem Core.setPtn_rst (c : Core) (k : Nat) (x : Ptn) : (c.setPtn k x).rst = c.rst := rfl
@[simp] theorem Core.setPtn_rot (c : Core) (k : Nat) (x : Ptn) : (c.setPtn k x).rot = c.rot := rfl
@[simp] theorem Core.setPtn_mbx (c : Core) (k : Nat) (x : Ptn) : (c.setPtn k x).mbx = c.mbx := rfl
@[simp] theorem Core.setPtn_hosts (c : Core) (k : Nat) (x : Ptn) : (c.setPtn k x).hosts = c.hosts := rfl
@[simp] theorem Core.setPtn_homes (c : Core) (k : Nat) (x : Ptn) : (c.setPtn k x).homes = c.homes := rfl
@[simp] theorem Core.setPtn_mem (c : Core) (k : Nat) (x : Ptn) : (c.setPtn k x).mem = c.mem := rfl
@[simp] theorem Core.setPtn_lineFlags (c : Core) (k : Nat) (x : Ptn) : (c.setPtn k x).lineFlags = c.lineFlags := rfl
@[simp] theorem Core.setPtn_hbmcs (c : Core) (k : Nat) (x : Ptn) : (c.setPtn k x).hbmcs = c.hbmcs := rfl
@[simp] theorem Core.setPtn_edges (c : Core) (k : Nat) (x : Ptn) : (c.setPtn k x).edges = c.edges := rfl
@[simp] theorem Core.setPtn_objs (c : Core) (k : Nat) (x : Ptn) : (c.setPtn k x).objs = c.objs := rfl
@[simp] theorem Core.setPtn_gateWait (c : Core) (k : Nat) (x : Ptn) : (c.setPtn k x).gateWait = c.gateWait := rfl
@[simp] theorem Core.setPtn_regions (c : Core) (k : Nat) (x : Ptn) : (c.setPtn k x).regions = c.regions := rfl
@[simp] theorem Core.setPtn_ports (c : Core) (k : Nat) (x : Ptn) : (c.setPtn k x).ports = c.ports := rfl
@[simp] theorem Core.setPtn_tmgr (c : Core) (k : Nat) (x : Ptn) : (c.setPtn k x).tmgr = c.tmgr := rfl
@[simp] theorem Core.setPtn_routers (c : Core) (k : Nat) (x : Ptn) : (c.setPtn k x).routers = c.routers := rfl
@[simp] theorem Core.setPtn_mesh (c : Core) (k : Nat) (x : Ptn) : (c.setPtn k x).mesh = c.mesh := rfl
@[simp] theorem Core.setPtn_mirrs (c : Core) (k : Nat) (x : Ptn) : (c.setPtn k x).mirrs = c.mirrs := rfl
@[simp] theorem Core.setPtn_mirrG (c : Core) (k : Nat) (x : Ptn) : (c.setPtn k x).mirrG = c.mirrG := rfl
@[simp] theorem Core.setPtn_tiles (c : Core) (k : Nat) (x : Ptn) : (c.setPtn k x).tiles = c.tiles := rfl
@[simp] theorem Core.setPtn_get_mb (c : Core) (k : Nat) (x : Ptn) (j : Nat) : (c.setPtn k x).mb j = c.mb j := rfl
@[simp] theorem Core.setPtn_get_host (c : Core) (k : Nat) (x : Ptn) (j : Nat) : (c.setPtn k x).host j = c.host j := rfl
@[simp] theorem Core.setPtn_get_home (c : Core) (k : Nat) (x : Ptn) (j : Nat) : (c.setPtn k x).home j = c.home j := rfl
@[simp] theorem Core.setPtn_get_hbmc (c : Core) (k : Nat) (x : Ptn) (j : Nat) : (c.setPtn k x).hbmc j = c.hbmc j := rfl
@[simp] theorem Core.setPtn_get_edge (c : Core) (k : Nat) (x : Ptn) (j : Nat) : (c.setPtn k x).edge j = c.edge j := rfl
@[simp] theorem Core.setPtn_get_obj (c : Core) (k : Nat) (x : Ptn) (j : Nat) : (c.setPtn k x).obj j = c.obj j := rfl
@[simp] theorem Core.setPtn_get_region (c : Core) (k : Nat) (x : Ptn) (j : Nat) : (c.setPtn k x).region j = c.region j := rfl
@[simp] theorem Core.setPtn_get_port (c : Core) (k : Nat) (x : Ptn) (j : Nat) : (c.setPtn k x).port j = c.port j := rfl
@[simp] theorem Core.setPtn_get_router (c : Core) (k : Nat) (x : Ptn) (j : Nat) : (c.setPtn k x).router j = c.router j := rfl
@[simp] theorem Core.setPtn_get_mirr (c : Core) (k : Nat) (x : Ptn) (j : Nat) : (c.setPtn k x).mirr j = c.mirr j := rfl
@[simp] theorem Core.setPtn_get_tile (c : Core) (k : Nat) (x : Ptn) (j : Nat) : (c.setPtn k x).tile j = c.tile j := rfl
@[simp] theorem Core.setPtn_get_keys (c : Core) (k : Nat) (x : Ptn) (j : Nat) : (c.setPtn k x).keys j = c.keys j := rfl
@[simp] theorem Core.setPtn_get_mgr (c : Core) (k : Nat) (x : Ptn) (j : Nat) : (c.setPtn k x).mgr j = c.mgr j := rfl
@[simp] theorem Core.setPtn_get_unit (c : Core) (k : Nat) (x : Ptn) (a b : Nat) : (c.setPtn k x).unit a b = c.unit a b := rfl
@[simp] theorem Core.setPtn_get_ust (c : Core) (k : Nat) (x : Ptn) (a b : Nat) : (c.setPtn k x).ust a b = c.ust a b := rfl
@[simp] theorem Core.setPtn_same (c : Core) (k : Nat) (x : Ptn) : (c.setPtn k x).ptn k = x := by simp [Core.setPtn, Core.ptn]
theorem Core.setPtn_get (c : Core) (k : Nat) (x : Ptn) (j : Nat) : (c.setPtn k x).ptn j = if j = k then x else c.ptn j := by simp [Core.setPtn, Core.ptn, tget_tput]
@[simp] theorem Core.setPtn_ne (c : Core) (k : Nat) (x : Ptn) {j : Nat} (h : j ≠ k) : (c.setPtn k x).ptn j = c.ptn j := by simp [Core.setPtn, Core.ptn, h]

/-! ### setHost -/

@[simp] theorem Core.setHost_pins (c : Core) (k : Nat) (x : HostEnt) : (c.setHost k x).pins = c.pins := rfl
@[simp] theorem Core.setHost_fresh (c : Core) (k : Nat) (x : HostEnt) : (c.setHost k x).fresh = c.fresh := rfl
@[simp] theorem Core.setHost_out (c : Core) (k : Nat) (x : HostEnt) : (c.setHost k x).out = c.out := rfl
@[simp] theorem Core.setHost_evc (c : Core) (k : Nat) (x : HostEnt) : (c.setHost k x).evc = c.evc := rfl
@[simp] theorem Core.setHost_erl (c : Core) (k : Nat) (x : HostEnt) : (c.setHost k x).erl = c.erl := rfl
@[simp] theorem Core.setHost_plog (c : Core) (k : Nat) (x : HostEnt) : (c.setHost k x).plog = c.plog := rfl
@[simp] theorem Core.setHost_sec (c : Core) (k : Nat) (x : HostEnt) : (c.setHost k x).sec = c.sec := rfl
@[simp] theorem Core.setHost_glb (c : Core) (k : Nat) (x : HostEnt) : (c.setHost k x).glb = c.glb := rfl
@[simp] theorem Core.setHost_cfg (c : Core) (k : Nat) (x : HostEnt) : (c.setHost k x).cfg = c.cfg := rfl
@[simp] theorem Core.setHost_pwr (c : Core) (k : Nat) (x : HostEnt) : (c.setHost k x).pwr = c.pwr := rfl
@[simp] theorem Core.setHost_rst (c : Core) (k : Nat) (x : HostEnt) : (c.setHost k x).rst = c.rst := rfl
@[simp] theorem Core.setHost_rot (c : Core) (k : Nat) (x : HostEnt) : (c.setHost k x).rot = c.rot := rfl
@[simp] theorem Core.setHost_mbx (c : Core) (k : Nat) (x : HostEnt) : (c.setHost k x).mbx = c.mbx := rfl
@[simp] theorem Core.setHost_ptns (c : Core) (k : Nat) (x : HostEnt) : (c.setHost k x).ptns = c.ptns := rfl
@[simp] theorem Core.setHost_homes (c : Core) (k : Nat) (x : HostEnt) : (c.setHost k x).homes = c.homes := rfl
@[simp] theorem Core.setHost_mem (c : Core) (k : Nat) (x : HostEnt) : (c.setHost k x).mem = c.mem := rfl
@[simp] theorem Core.setHost_lineFlags (c : Core) (k : Nat) (x : HostEnt) : (c.setHost k x).lineFlags = c.lineFlags := rfl
@[simp] theorem Core.setHost_hbmcs (c : Core) (k : Nat) (x : HostEnt) : (c.setHost k x).hbmcs = c.hbmcs := rfl
@[simp] theorem Core.setHost_edges (c : Core) (k : Nat) (x : HostEnt) : (c.setHost k x).edges = c.edges := rfl
@[simp] theorem Core.setHost_objs (c : Core) (k : Nat) (x : HostEnt) : (c.setHost k x).objs = c.objs := rfl
@[simp] theorem Core.setHost_gateWait (c : Core) (k : Nat) (x : HostEnt) : (c.setHost k x).gateWait = c.gateWait := rfl
@[simp] theorem Core.setHost_regions (c : Core) (k : Nat) (x : HostEnt) : (c.setHost k x).regions = c.regions := rfl
@[simp] theorem Core.setHost_ports (c : Core) (k : Nat) (x : HostEnt) : (c.setHost k x).ports = c.ports := rfl
@[simp] theorem Core.setHost_tmgr (c : Core) (k : Nat) (x : HostEnt) : (c.setHost k x).tmgr = c.tmgr := rfl
@[simp] theorem Core.setHost_routers (c : Core) (k : Nat) (x : HostEnt) : (c.setHost k x).routers = c.routers := rfl
@[simp] theorem Core.setHost_mesh (c : Core) (k : Nat) (x : HostEnt) : (c.setHost k x).mesh = c.mesh := rfl
@[simp] theorem Core.setHost_mirrs (c : Core) (k : Nat) (x : HostEnt) : (c.setHost k x).mirrs = c.mirrs := rfl
@[simp] theorem Core.setHost_mirrG (c : Core) (k : Nat) (x : HostEnt) : (c.setHost k x).mirrG = c.mirrG := rfl
@[simp] theorem Core.setHost_tiles (c : Core) (k : Nat) (x : HostEnt) : (c.setHost k x).tiles = c.tiles := rfl
@[simp] theorem Core.setHost_get_mb (c : Core) (k : Nat) (x : HostEnt) (j : Nat) : (c.setHost k x).mb j = c.mb j := rfl
@[simp] theorem Core.setHost_get_ptn (c : Core) (k : Nat) (x : HostEnt) (j : Nat) : (c.setHost k x).ptn j = c.ptn j := rfl
@[simp] theorem Core.setHost_get_home (c : Core) (k : Nat) (x : HostEnt) (j : Nat) : (c.setHost k x).home j = c.home j := rfl
@[simp] theorem Core.setHost_get_hbmc (c : Core) (k : Nat) (x : HostEnt) (j : Nat) : (c.setHost k x).hbmc j = c.hbmc j := rfl
@[simp] theorem Core.setHost_get_edge (c : Core) (k : Nat) (x : HostEnt) (j : Nat) : (c.setHost k x).edge j = c.edge j := rfl
@[simp] theorem Core.setHost_get_obj (c : Core) (k : Nat) (x : HostEnt) (j : Nat) : (c.setHost k x).obj j = c.obj j := rfl
@[simp] theorem Core.setHost_get_region (c : Core) (k : Nat) (x : HostEnt) (j : Nat) : (c.setHost k x).region j = c.region j := rfl
@[simp] theorem Core.setHost_get_port (c : Core) (k : Nat) (x : HostEnt) (j : Nat) : (c.setHost k x).port j = c.port j := rfl
@[simp] theorem Core.setHost_get_router (c : Core) (k : Nat) (x : HostEnt) (j : Nat) : (c.setHost k x).router j = c.router j := rfl
@[simp] theorem Core.setHost_get_mirr (c : Core) (k : Nat) (x : HostEnt) (j : Nat) : (c.setHost k x).mirr j = c.mirr j := rfl
@[simp] theorem Core.setHost_get_tile (c : Core) (k : Nat) (x : HostEnt) (j : Nat) : (c.setHost k x).tile j = c.tile j := rfl
@[simp] theorem Core.setHost_get_keys (c : Core) (k : Nat) (x : HostEnt) (j : Nat) : (c.setHost k x).keys j = c.keys j := rfl
@[simp] theorem Core.setHost_get_mgr (c : Core) (k : Nat) (x : HostEnt) (j : Nat) : (c.setHost k x).mgr j = c.mgr j := rfl
@[simp] theorem Core.setHost_get_unit (c : Core) (k : Nat) (x : HostEnt) (a b : Nat) : (c.setHost k x).unit a b = c.unit a b := rfl
@[simp] theorem Core.setHost_get_ust (c : Core) (k : Nat) (x : HostEnt) (a b : Nat) : (c.setHost k x).ust a b = c.ust a b := rfl
@[simp] theorem Core.setHost_same (c : Core) (k : Nat) (x : HostEnt) : (c.setHost k x).host k = x := by simp [Core.setHost, Core.host]
theorem Core.setHost_get (c : Core) (k : Nat) (x : HostEnt) (j : Nat) : (c.setHost k x).host j = if j = k then x else c.host j := by simp [Core.setHost, Core.host, tget_tput]
@[simp] theorem Core.setHost_ne (c : Core) (k : Nat) (x : HostEnt) {j : Nat} (h : j ≠ k) : (c.setHost k x).host j = c.host j := by simp [Core.setHost, Core.host, h]

/-! ### setHome -/

@[simp] theorem Core.setHome_pins (c : Core) (k : Nat) (x : Home) : (c.setHome k x).pins = c.pins := rfl
@[simp] theorem Core.setHome_fresh (c : Core) (k : Nat) (x : Home) : (c.setHome k x).fresh = c.fresh := rfl
@[simp] theorem Core.setHome_out (c : Core) (k : Nat) (x : Home) : (c.setHome k x).out = c.out := rfl
@[simp] theorem Core.setHome_evc (c : Core) (k : Nat) (x : Home) : (c.setHome k x).evc = c.evc := rfl
@[simp] theorem Core.setHome_erl (c : Core) (k : Nat) (x : Home) : (c.setHome k x).erl = c.erl := rfl
@[simp] theorem Core.setHome_plog (c : Core) (k : Nat) (x : Home) : (c.setHome k x).plog = c.plog := rfl
@[simp] theorem Core.setHome_sec (c : Core) (k : Nat) (x : Home) : (c.setHome k x).sec = c.sec := rfl
@[simp] theorem Core.setHome_glb (c : Core) (k : Nat) (x : Home) : (c.setHome k x).glb = c.glb := rfl
@[simp] theorem Core.setHome_cfg (c : Core) (k : Nat) (x : Home) : (c.setHome k x).cfg = c.cfg := rfl
@[simp] theorem Core.setHome_pwr (c : Core) (k : Nat) (x : Home) : (c.setHome k x).pwr = c.pwr := rfl
@[simp] theorem Core.setHome_rst (c : Core) (k : Nat) (x : Home) : (c.setHome k x).rst = c.rst := rfl
@[simp] theorem Core.setHome_rot (c : Core) (k : Nat) (x : Home) : (c.setHome k x).rot = c.rot := rfl
@[simp] theorem Core.setHome_mbx (c : Core) (k : Nat) (x : Home) : (c.setHome k x).mbx = c.mbx := rfl
@[simp] theorem Core.setHome_ptns (c : Core) (k : Nat) (x : Home) : (c.setHome k x).ptns = c.ptns := rfl
@[simp] theorem Core.setHome_hosts (c : Core) (k : Nat) (x : Home) : (c.setHome k x).hosts = c.hosts := rfl
@[simp] theorem Core.setHome_mem (c : Core) (k : Nat) (x : Home) : (c.setHome k x).mem = c.mem := rfl
@[simp] theorem Core.setHome_lineFlags (c : Core) (k : Nat) (x : Home) : (c.setHome k x).lineFlags = c.lineFlags := rfl
@[simp] theorem Core.setHome_hbmcs (c : Core) (k : Nat) (x : Home) : (c.setHome k x).hbmcs = c.hbmcs := rfl
@[simp] theorem Core.setHome_edges (c : Core) (k : Nat) (x : Home) : (c.setHome k x).edges = c.edges := rfl
@[simp] theorem Core.setHome_objs (c : Core) (k : Nat) (x : Home) : (c.setHome k x).objs = c.objs := rfl
@[simp] theorem Core.setHome_gateWait (c : Core) (k : Nat) (x : Home) : (c.setHome k x).gateWait = c.gateWait := rfl
@[simp] theorem Core.setHome_regions (c : Core) (k : Nat) (x : Home) : (c.setHome k x).regions = c.regions := rfl
@[simp] theorem Core.setHome_ports (c : Core) (k : Nat) (x : Home) : (c.setHome k x).ports = c.ports := rfl
@[simp] theorem Core.setHome_tmgr (c : Core) (k : Nat) (x : Home) : (c.setHome k x).tmgr = c.tmgr := rfl
@[simp] theorem Core.setHome_routers (c : Core) (k : Nat) (x : Home) : (c.setHome k x).routers = c.routers := rfl
@[simp] theorem Core.setHome_mesh (c : Core) (k : Nat) (x : Home) : (c.setHome k x).mesh = c.mesh := rfl
@[simp] theorem Core.setHome_mirrs (c : Core) (k : Nat) (x : Home) : (c.setHome k x).mirrs = c.mirrs := rfl
@[simp] theorem Core.setHome_mirrG (c : Core) (k : Nat) (x : Home) : (c.setHome k x).mirrG = c.mirrG := rfl
@[simp] theorem Core.setHome_tiles (c : Core) (k : Nat) (x : Home) : (c.setHome k x).tiles = c.tiles := rfl
@[simp] theorem Core.setHome_get_mb (c : Core) (k : Nat) (x : Home) (j : Nat) : (c.setHome k x).mb j = c.mb j := rfl
@[simp] theorem Core.setHome_get_ptn (c : Core) (k : Nat) (x : Home) (j : Nat) : (c.setHome k x).ptn j = c.ptn j := rfl
@[simp] theorem Core.setHome_get_host (c : Core) (k : Nat) (x : Home) (j : Nat) : (c.setHome k x).host j = c.host j := rfl
@[simp] theorem Core.setHome_get_hbmc (c : Core) (k : Nat) (x : Home) (j : Nat) : (c.setHome k x).hbmc j = c.hbmc j := rfl
@[simp] theorem Core.setHome_get_edge (c : Core) (k : Nat) (x : Home) (j : Nat) : (c.setHome k x).edge j = c.edge j := rfl
@[simp] theorem Core.setHome_get_obj (c : Core) (k : Nat) (x : Home) (j : Nat) : (c.setHome k x).obj j = c.obj j := rfl
@[simp] theorem Core.setHome_get_region (c : Core) (k : Nat) (x : Home) (j : Nat) : (c.setHome k x).region j = c.region j := rfl
@[simp] theorem Core.setHome_get_port (c : Core) (k : Nat) (x : Home) (j : Nat) : (c.setHome k x).port j = c.port j := rfl
@[simp] theorem Core.setHome_get_router (c : Core) (k : Nat) (x : Home) (j : Nat) : (c.setHome k x).router j = c.router j := rfl
@[simp] theorem Core.setHome_get_mirr (c : Core) (k : Nat) (x : Home) (j : Nat) : (c.setHome k x).mirr j = c.mirr j := rfl
@[simp] theorem Core.setHome_get_tile (c : Core) (k : Nat) (x : Home) (j : Nat) : (c.setHome k x).tile j = c.tile j := rfl
@[simp] theorem Core.setHome_get_keys (c : Core) (k : Nat) (x : Home) (j : Nat) : (c.setHome k x).keys j = c.keys j := rfl
@[simp] theorem Core.setHome_get_mgr (c : Core) (k : Nat) (x : Home) (j : Nat) : (c.setHome k x).mgr j = c.mgr j := rfl
@[simp] theorem Core.setHome_get_unit (c : Core) (k : Nat) (x : Home) (a b : Nat) : (c.setHome k x).unit a b = c.unit a b := rfl
@[simp] theorem Core.setHome_get_ust (c : Core) (k : Nat) (x : Home) (a b : Nat) : (c.setHome k x).ust a b = c.ust a b := rfl
@[simp] theorem Core.setHome_same (c : Core) (k : Nat) (x : Home) : (c.setHome k x).home k = x := by simp [Core.setHome, Core.home]
theorem Core.setHome_get (c : Core) (k : Nat) (x : Home) (j : Nat) : (c.setHome k x).home j = if j = k then x else c.home j := by simp [Core.setHome, Core.home, tget_tput]
@[simp] theorem Core.setHome_ne (c : Core) (k : Nat) (x : Home) {j : Nat} (h : j ≠ k) : (c.setHome k x).home j = c.home j := by simp [Core.setHome, Core.home, h]

/-! ### setHbmc -/

@[simp] theorem Core.setHbmc_pins (c : Core) (k : Nat) (x : Hbmc) : (c.setHbmc k x).pins = c.pins := rfl
@[simp] theorem Core.setHbmc_fresh (c : Core) (k : Nat) (x : Hbmc) : (c.setHbmc k x).fresh = c.fresh := rfl
@[simp] theorem Core.setHbmc_out (c : Core) (k : Nat) (x : Hbmc) : (c.setHbmc k x).out = c.out := rfl
@[simp] theorem Core.setHbmc_evc (c : Core) (k : Nat) (x : Hbmc) : (c.setHbmc k x).evc = c.evc := rfl
@[simp] theorem Core.setHbmc_erl (c : Core) (k : Nat) (x : Hbmc) : (c.setHbmc k x).erl = c.erl := rfl
@[simp] theorem Core.setHbmc_plog (c : Core) (k : Nat) (x : Hbmc) : (c.setHbmc k x).plog = c.plog := rfl
@[simp] theorem Core.setHbmc_sec (c : Core) (k : Nat) (x : Hbmc) : (c.setHbmc k x).sec = c.sec := rfl
@[simp] theorem Core.setHbmc_glb (c : Core) (k : Nat) (x : Hbmc) : (c.setHbmc k x).glb = c.glb := rfl
@[simp] theorem Core.setHbmc_cfg (c : Core) (k : Nat) (x : Hbmc) : (c.setHbmc k x).cfg = c.cfg := rfl
@[simp] theorem Core.setHbmc_pwr (c : Core) (k : Nat) (x : Hbmc) : (c.setHbmc k x).pwr = c.pwr := rfl
@[simp] theorem Core.setHbmc_rst (c : Core) (k : Nat) (x : Hbmc) : (c.setHbmc k x).rst = c.rst := rfl
@[simp] theorem Core.setHbmc_rot (c : Core) (k : Nat) (x : Hbmc) : (c.setHbmc k x).rot = c.rot := rfl
@[simp] theorem Core.setHbmc_mbx (c : Core) (k : Nat) (x : Hbmc) : (c.setHbmc k x).mbx = c.mbx := rfl
@[simp] theorem Core.setHbmc_ptns (c : Core) (k : Nat) (x : Hbmc) : (c.setHbmc k x).ptns = c.ptns := rfl
@[simp] theorem Core.setHbmc_hosts (c : Core) (k : Nat) (x : Hbmc) : (c.setHbmc k x).hosts = c.hosts := rfl
@[simp] theorem Core.setHbmc_homes (c : Core) (k : Nat) (x : Hbmc) : (c.setHbmc k x).homes = c.homes := rfl
@[simp] theorem Core.setHbmc_mem (c : Core) (k : Nat) (x : Hbmc) : (c.setHbmc k x).mem = c.mem := rfl
@[simp] theorem Core.setHbmc_lineFlags (c : Core) (k : Nat) (x : Hbmc) : (c.setHbmc k x).lineFlags = c.lineFlags := rfl
@[simp] theorem Core.setHbmc_edges (c : Core) (k : Nat) (x : Hbmc) : (c.setHbmc k x).edges = c.edges := rfl
@[simp] theorem Core.setHbmc_objs (c : Core) (k : Nat) (x : Hbmc) : (c.setHbmc k x).objs = c.objs := rfl
@[simp] theorem Core.setHbmc_gateWait (c : Core) (k : Nat) (x : Hbmc) : (c.setHbmc k x).gateWait = c.gateWait := rfl
@[simp] theorem Core.setHbmc_regions (c : Core) (k : Nat) (x : Hbmc) : (c.setHbmc k x).regions = c.regions := rfl
@[simp] theorem Core.setHbmc_ports (c : Core) (k : Nat) (x : Hbmc) : (c.setHbmc k x).ports = c.ports := rfl
@[simp] theorem Core.setHbmc_tmgr (c : Core) (k : Nat) (x : Hbmc) : (c.setHbmc k x).tmgr = c.tmgr := rfl
@[simp] theorem Core.setHbmc_routers (c : Core) (k : Nat) (x : Hbmc) : (c.setHbmc k x).routers = c.routers := rfl
@[simp] theorem Core.setHbmc_mesh (c : Core) (k : Nat) (x : Hbmc) : (c.setHbmc k x).mesh = c.mesh := rfl
@[simp] theorem Core.setHbmc_mirrs (c : Core) (k : Nat) (x : Hbmc) : (c.setHbmc k x).mirrs = c.mirrs := rfl
@[simp] theorem Core.setHbmc_mirrG (c : Core) (k : Nat) (x : Hbmc) : (c.setHbmc k x).mirrG = c.mirrG := rfl
@[simp] theorem Core.setHbmc_tiles (c : Core) (k : Nat) (x : Hbmc) : (c.setHbmc k x).tiles = c.tiles := rfl
@[simp] theorem Core.setHbmc_get_mb (c : Core) (k : Nat) (x : Hbmc) (j : Nat) : (c.setHbmc k x).mb j = c.mb j := rfl
@[simp] theorem Core.setHbmc_get_ptn (c : Core) (k : Nat) (x : Hbmc) (j : Nat) : (c.setHbmc k x).ptn j = c.ptn j := rfl
@[simp] theorem Core.setHbmc_get_host (c : Core) (k : Nat) (x : Hbmc) (j : Nat) : (c.setHbmc k x).host j = c.host j := rfl
@[simp] theorem Core.setHbmc_get_home (c : Core) (k : Nat) (x : Hbmc) (j : Nat) : (c.setHbmc k x).home j = c.home j := rfl
@[simp] theorem Core.setHbmc_get_edge (c : Core) (k : Nat) (x : Hbmc) (j : Nat) : (c.setHbmc k x).edge j = c.edge j := rfl
@[simp] theorem Core.setHbmc_get_obj (c : Core) (k : Nat) (x : Hbmc) (j : Nat) : (c.setHbmc k x).obj j = c.obj j := rfl
@[simp] theorem Core.setHbmc_get_region (c : Core) (k : Nat) (x : Hbmc) (j : Nat) : (c.setHbmc k x).region j = c.region j := rfl
@[simp] theorem Core.setHbmc_get_port (c : Core) (k : Nat) (x : Hbmc) (j : Nat) : (c.setHbmc k x).port j = c.port j := rfl
@[simp] theorem Core.setHbmc_get_router (c : Core) (k : Nat) (x : Hbmc) (j : Nat) : (c.setHbmc k x).router j = c.router j := rfl
@[simp] theorem Core.setHbmc_get_mirr (c : Core) (k : Nat) (x : Hbmc) (j : Nat) : (c.setHbmc k x).mirr j = c.mirr j := rfl
@[simp] theorem Core.setHbmc_get_tile (c : Core) (k : Nat) (x : Hbmc) (j : Nat) : (c.setHbmc k x).tile j = c.tile j := rfl
@[simp] theorem Core.setHbmc_get_keys (c : Core) (k : Nat) (x : Hbmc) (j : Nat) : (c.setHbmc k x).keys j = c.keys j := rfl
@[simp] theorem Core.setHbmc_get_mgr (c : Core) (k : Nat) (x : Hbmc) (j : Nat) : (c.setHbmc k x).mgr j = c.mgr j := rfl
@[simp] theorem Core.setHbmc_get_unit (c : Core) (k : Nat) (x : Hbmc) (a b : Nat) : (c.setHbmc k x).unit a b = c.unit a b := rfl
@[simp] theorem Core.setHbmc_get_ust (c : Core) (k : Nat) (x : Hbmc) (a b : Nat) : (c.setHbmc k x).ust a b = c.ust a b := rfl
@[simp] theorem Core.setHbmc_same (c : Core) (k : Nat) (x : Hbmc) : (c.setHbmc k x).hbmc k = x := by simp [Core.setHbmc, Core.hbmc]
theorem Core.setHbmc_get (c : Core) (k : Nat) (x : Hbmc) (j : Nat) : (c.setHbmc k x).hbmc j = if j = k then x else c.hbmc j := by simp [Core.setHbmc, Core.hbmc, tget_tput]
@[simp] theorem Core.setHbmc_ne (c : Core) (k : Nat) (x : Hbmc) {j : Nat} (h : j ≠ k) : (c.setHbmc k x).hbmc j = c.hbmc j := by simp [Core.setHbmc, Core.hbmc, h]

/-! ### setEdge -/

@[simp] theorem Core.setEdge_pins (c : Core) (k : Nat) (x : Edge) : (c.setEdge k x).pins = c.pins := rfl
@[simp] theorem Core.setEdge_fresh (c : Core) (k : Nat) (x : Edge) : (c.setEdge k x).fresh = c.fresh := rfl
@[simp] theorem Core.setEdge_out (c : Core) (k : Nat) (x : Edge) : (c.setEdge k x).out = c.out := rfl
@[simp] theorem Core.setEdge_evc (c : Core) (k : Nat) (x : Edge) : (c.setEdge k x).evc = c.evc := rfl
@[simp] theorem Core.setEdge_erl (c : Core) (k : Nat) (x : Edge) : (c.setEdge k x).erl = c.erl := rfl
@[simp] theorem Core.setEdge_plog (c : Core) (k : Nat) (x : Edge) : (c.setEdge k x).plog = c.plog := rfl
@[simp] theorem Core.setEdge_sec (c : Core) (k : Nat) (x : Edge) : (c.setEdge k x).sec = c.sec := rfl
@[simp] theorem Core.setEdge_glb (c : Core) (k : Nat) (x : Edge) : (c.setEdge k x).glb = c.glb := rfl
@[simp] theorem Core.setEdge_cfg (c : Core) (k : Nat) (x : Edge) : (c.setEdge k x).cfg = c.cfg := rfl
@[simp] theorem Core.setEdge_pwr (c : Core) (k : Nat) (x : Edge) : (c.setEdge k x).pwr = c.pwr := rfl
@[simp] theorem Core.setEdge_rst (c : Core) (k : Nat) (x : Edge) : (c.setEdge k x).rst = c.rst := rfl
@[simp] theorem Core.setEdge_rot (c : Core) (k : Nat) (x : Edge) : (c.setEdge k x).rot = c.rot := rfl
@[simp] theorem Core.setEdge_mbx (c : Core) (k : Nat) (x : Edge) : (c.setEdge k x).mbx = c.mbx := rfl
@[simp] theorem Core.setEdge_ptns (c : Core) (k : Nat) (x : Edge) : (c.setEdge k x).ptns = c.ptns := rfl
@[simp] theorem Core.setEdge_hosts (c : Core) (k : Nat) (x : Edge) : (c.setEdge k x).hosts = c.hosts := rfl
@[simp] theorem Core.setEdge_homes (c : Core) (k : Nat) (x : Edge) : (c.setEdge k x).homes = c.homes := rfl
@[simp] theorem Core.setEdge_mem (c : Core) (k : Nat) (x : Edge) : (c.setEdge k x).mem = c.mem := rfl
@[simp] theorem Core.setEdge_lineFlags (c : Core) (k : Nat) (x : Edge) : (c.setEdge k x).lineFlags = c.lineFlags := rfl
@[simp] theorem Core.setEdge_hbmcs (c : Core) (k : Nat) (x : Edge) : (c.setEdge k x).hbmcs = c.hbmcs := rfl
@[simp] theorem Core.setEdge_objs (c : Core) (k : Nat) (x : Edge) : (c.setEdge k x).objs = c.objs := rfl
@[simp] theorem Core.setEdge_gateWait (c : Core) (k : Nat) (x : Edge) : (c.setEdge k x).gateWait = c.gateWait := rfl
@[simp] theorem Core.setEdge_regions (c : Core) (k : Nat) (x : Edge) : (c.setEdge k x).regions = c.regions := rfl
@[simp] theorem Core.setEdge_ports (c : Core) (k : Nat) (x : Edge) : (c.setEdge k x).ports = c.ports := rfl
@[simp] theorem Core.setEdge_tmgr (c : Core) (k : Nat) (x : Edge) : (c.setEdge k x).tmgr = c.tmgr := rfl
@[simp] theorem Core.setEdge_routers (c : Core) (k : Nat) (x : Edge) : (c.setEdge k x).routers = c.routers := rfl
@[simp] theorem Core.setEdge_mesh (c : Core) (k : Nat) (x : Edge) : (c.setEdge k x).mesh = c.mesh := rfl
@[simp] theorem Core.setEdge_mirrs (c : Core) (k : Nat) (x : Edge) : (c.setEdge k x).mirrs = c.mirrs := rfl
@[simp] theorem Core.setEdge_mirrG (c : Core) (k : Nat) (x : Edge) : (c.setEdge k x).mirrG = c.mirrG := rfl
@[simp] theorem Core.setEdge_tiles (c : Core) (k : Nat) (x : Edge) : (c.setEdge k x).tiles = c.tiles := rfl
@[simp] theorem Core.setEdge_get_mb (c : Core) (k : Nat) (x : Edge) (j : Nat) : (c.setEdge k x).mb j = c.mb j := rfl
@[simp] theorem Core.setEdge_get_ptn (c : Core) (k : Nat) (x : Edge) (j : Nat) : (c.setEdge k x).ptn j = c.ptn j := rfl
@[simp] theorem Core.setEdge_get_host (c : Core) (k : Nat) (x : Edge) (j : Nat) : (c.setEdge k x).host j = c.host j := rfl
@[simp] theorem Core.setEdge_get_home (c : Core) (k : Nat) (x : Edge) (j : Nat) : (c.setEdge k x).home j = c.home j := rfl
@[simp] theorem Core.setEdge_get_hbmc (c : Core) (k : Nat) (x : Edge) (j : Nat) : (c.setEdge k x).hbmc j = c.hbmc j := rfl
@[simp] theorem Core.setEdge_get_obj (c : Core) (k : Nat) (x : Edge) (j : Nat) : (c.setEdge k x).obj j = c.obj j := rfl
@[simp] theorem Core.setEdge_get_region (c : Core) (k : Nat) (x : Edge) (j : Nat) : (c.setEdge k x).region j = c.region j := rfl
@[simp] theorem Core.setEdge_get_port (c : Core) (k : Nat) (x : Edge) (j : Nat) : (c.setEdge k x).port j = c.port j := rfl
@[simp] theorem Core.setEdge_get_router (c : Core) (k : Nat) (x : Edge) (j : Nat) : (c.setEdge k x).router j = c.router j := rfl
@[simp] theorem Core.setEdge_get_mirr (c : Core) (k : Nat) (x : Edge) (j : Nat) : (c.setEdge k x).mirr j = c.mirr j := rfl
@[simp] theorem Core.setEdge_get_tile (c : Core) (k : Nat) (x : Edge) (j : Nat) : (c.setEdge k x).tile j = c.tile j := rfl
@[simp] theorem Core.setEdge_get_keys (c : Core) (k : Nat) (x : Edge) (j : Nat) : (c.setEdge k x).keys j = c.keys j := rfl
@[simp] theorem Core.setEdge_get_mgr (c : Core) (k : Nat) (x : Edge) (j : Nat) : (c.setEdge k x).mgr j = c.mgr j := rfl
@[simp] theorem Core.setEdge_get_unit (c : Core) (k : Nat) (x : Edge) (a b : Nat) : (c.setEdge k x).unit a b = c.unit a b := rfl
@[simp] theorem Core.setEdge_get_ust (c : Core) (k : Nat) (x : Edge) (a b : Nat) : (c.setEdge k x).ust a b = c.ust a b := rfl
@[simp] theorem Core.setEdge_same (c : Core) (k : Nat) (x : Edge) : (c.setEdge k x).edge k = x := by simp [Core.setEdge, Core.edge]
theorem Core.setEdge_get (c : Core) (k : Nat) (x : Edge) (j : Nat) : (c.setEdge k x).edge j = if j = k then x else c.edge j := by simp [Core.setEdge, Core.edge, tget_tput]
@[simp] theorem Core.setEdge_ne (c : Core) (k : Nat) (x : Edge) {j : Nat} (h : j ≠ k) : (c.setEdge k x).edge j = c.edge j := by simp [Core.setEdge, Core.edge, h]

/-! ### setObj -/

@[simp] theorem Core.setObj_pins (c : Core) (k : Nat) (x : SyncObj) : (c.setObj k x).pins = c.pins := rfl
@[simp] theorem Core.setObj_fresh (c : Core) (k : Nat) (x : SyncObj) : (c.setObj k x).fresh = c.fresh := rfl
@[simp] theorem Core.setObj_out (c : Core) (k : Nat) (x : SyncObj) : (c.setObj k x).out = c.out := rfl
@[simp] theorem Core.setObj_evc (c : Core) (k : Nat) (x : SyncObj) : (c.setObj k x).evc = c.evc := rfl
@[simp] theorem Core.setObj_erl (c : Core) (k : Nat) (x : SyncObj) : (c.setObj k x).erl = c.erl := rfl
@[simp] theorem Core.setObj_plog (c : Core) (k : Nat) (x : SyncObj) : (c.setObj k x).plog = c.plog := rfl
@[simp] theorem Core.setObj_sec (c : Core) (k : Nat) (x : SyncObj) : (c.setObj k x).sec = c.sec := rfl
@[simp] theorem Core.setObj_glb (c : Core) (k : Nat) (x : SyncObj) : (c.setObj k x).glb = c.glb := rfl
@[simp] theorem Core.setObj_cfg (c : Core) (k : Nat) (x : SyncObj) : (c.setObj k x).cfg = c.cfg := rfl
@[simp] theorem Core.setObj_pwr (c : Core) (k : Nat) (x : SyncObj) : (c.setObj k x).pwr = c.pwr := rfl
@[simp] theorem Core.setObj_rst (c : Core) (k : Nat) (x : SyncObj) : (c.setObj k x).rst = c.rst := rfl
@[simp] theorem Core.setObj_rot (c : Core) (k : Nat) (x : SyncObj) : (c.setObj k x).rot = c.rot := rfl
@[simp] theorem Core.setObj_mbx (c : Core) (k : Nat) (x : SyncObj) : (c.setObj k x).mbx = c.mbx := rfl
@[simp] theorem Core.setObj_ptns (c : Core) (k : Nat) (x : SyncObj) : (c.setObj k x).ptns = c.ptns := rfl
@[simp] theorem Core.setObj_hosts (c : Core) (k : Nat) (x : SyncObj) : (c.setObj k x).hosts = c.hosts := rfl
@[simp] theorem Core.setObj_homes (c : Core) (k : Nat) (x : SyncObj) : (c.setObj k x).homes = c.homes := rfl
@[simp] theorem Core.setObj_mem (c : Core) (k : Nat) (x : SyncObj) : (c.setObj k x).mem = c.mem := rfl
@[simp] theorem Core.setObj_lineFlags (c : Core) (k : Nat) (x : SyncObj) : (c.setObj k x).lineFlags = c.lineFlags := rfl
@[simp] theorem Core.setObj_hbmcs (c : Core) (k : Nat) (x : SyncObj) : (c.setObj k x).hbmcs = c.hbmcs := rfl
@[simp] theorem Core.setObj_edges (c : Core) (k : Nat) (x : SyncObj) : (c.setObj k x).edges = c.edges := rfl
@[simp] theorem Core.setObj_gateWait (c : Core) (k : Nat) (x : SyncObj) : (c.setObj k x).gateWait = c.gateWait := rfl
@[simp] theorem Core.setObj_regions (c : Core) (k : Nat) (x : SyncObj) : (c.setObj k x).regions = c.regions := rfl
@[simp] theorem Core.setObj_ports (c : Core) (k : Nat) (x : SyncObj) : (c.setObj k x).ports = c.ports := rfl
@[simp] theorem Core.setObj_tmgr (c : Core) (k : Nat) (x : SyncObj) : (c.setObj k x).tmgr = c.tmgr := rfl
@[simp] theorem Core.setObj_routers (c : Core) (k : Nat) (x : SyncObj) : (c.setObj k x).routers = c.routers := rfl
@[simp] theorem Core.setObj_mesh (c : Core) (k : Nat) (x : SyncObj) : (c.setObj k x).mesh = c.mesh := rfl
@[simp] theorem Core.setObj_mirrs (c : Core) (k : Nat) (x : SyncObj) : (c.setObj k x).mirrs = c.mirrs := rfl
@[simp] theorem Core.setObj_mirrG (c : Core) (k : Nat) (x : SyncObj) : (c.setObj k x).mirrG = c.mirrG := rfl
@[simp] theorem Core.setObj_tiles (c : Core) (k : Nat) (x : SyncObj) : (c.setObj k x).tiles = c.tiles := rfl
@[simp] theorem Core.setObj_get_mb (c : Core) (k : Nat) (x : SyncObj) (j : Nat) : (c.setObj k x).mb j = c.mb j := rfl
@[simp] theorem Core.setObj_get_ptn (c : Core) (k : Nat) (x : SyncObj) (j : Nat) : (c.setObj k x).ptn j = c.ptn j := rfl
@[simp] theorem Core.setObj_get_host (c : Core) (k : Nat) (x : SyncObj) (j : Nat) : (c.setObj k x).host j = c.host j := rfl
@[simp] theorem Core.setObj_get_home (c : Core) (k : Nat) (x : SyncObj) (j : Nat) : (c.setObj k x).home j = c.home j := rfl
@[simp] theorem Core.setObj_get_hbmc (c : Core) (k : Nat) (x : SyncObj) (j : Nat) : (c.setObj k x).hbmc j = c.hbmc j := rfl
@[simp] theorem Core.setObj_get_edge (c : Core) (k : Nat) (x : SyncObj) (j : Nat) : (c.setObj k x).edge j = c.edge j := rfl
@[simp] theorem Core.setObj_get_region (c : Core) (k : Nat) (x : SyncObj) (j : Nat) : (c.setObj k x).region j = c.region j := rfl
@[simp] theorem Core.setObj_get_port (c : Core) (k : Nat) (x : SyncObj) (j : Nat) : (c.setObj k x).port j = c.port j := rfl
@[simp] theorem Core.setObj_get_router (c : Core) (k : Nat) (x : SyncObj) (j : Nat) : (c.setObj k x).router j = c.router j := rfl
@[simp] theorem Core.setObj_get_mirr (c : Core) (k : Nat) (x : SyncObj) (j : Nat) : (c.setObj k x).mirr j = c.mirr j := rfl
@[simp] theorem Core.setObj_get_tile (c : Core) (k : Nat) (x : SyncObj) (j : Nat) : (c.setObj k x).tile j = c.tile j := rfl
@[simp] theorem Core.setObj_get_keys (c : Core) (k : Nat) (x : SyncObj) (j : Nat) : (c.setObj k x).keys j = c.keys j := rfl
@[simp] theorem Core.setObj_get_mgr (c : Core) (k : Nat) (x : SyncObj) (j : Nat) : (c.setObj k x).mgr j = c.mgr j := rfl
@[simp] theorem Core.setObj_get_unit (c : Core) (k : Nat) (x : SyncObj) (a b : Nat) : (c.setObj k x).unit a b = c.unit a b := rfl
@[simp] theorem Core.setObj_get_ust (c : Core) (k : Nat) (x : SyncObj) (a b : Nat) : (c.setObj k x).ust a b = c.ust a b := rfl
@[simp] theorem Core.setObj_same (c : Core) (k : Nat) (x : SyncObj) : (c.setObj k x).obj k = x := by simp [Core.setObj, Core.obj]
theorem Core.setObj_get (c : Core) (k : Nat) (x : SyncObj) (j : Nat) : (c.setObj k x).obj j = if j = k then x else c.obj j := by simp [Core.setObj, Core.obj, tget_tput]
@[simp] theorem Core.setObj_ne (c : Core) (k : Nat) (x : SyncObj) {j : Nat} (h : j ≠ k) : (c.setObj k x).obj j = c.obj j := by simp [Core.setObj, Core.obj, h]

/-! ### setRegion -/

@[simp] theorem Core.setRegion_pins (c : Core) (k : Nat) (x : Region) : (c.setRegion k x).pins = c.pins := rfl
@[simp] theorem Core.setRegion_fresh (c : Core) (k : Nat) (x : Region) : (c.setRegion k x).fresh = c.fresh := rfl
@[simp] theorem Core.setRegion_out (c : Core) (k : Nat) (x : Region) : (c.setRegion k x).out = c.out := rfl
@[simp] theorem Core.setRegion_evc (c : Core) (k : Nat) (x : Region) : (c.setRegion k x).evc = c.evc := rfl
@[simp] theorem Core.setRegion_erl (c : Core) (k : Nat) (x : Region) : (c.setRegion k x).erl = c.erl := rfl
@[simp] theorem Core.setRegion_plog (c : Core) (k : Nat) (x : Region) : (c.setRegion k x).plog = c.plog := rfl
@[simp] theorem Core.setRegion_sec (c : Core) (k : Nat) (x : Region) : (c.setRegion k x).sec = c.sec := rfl
@[simp] theorem Core.setRegion_glb (c : Core) (k : Nat) (x : Region) : (c.setRegion k x).glb = c.glb := rfl
@[simp] theorem Core.setRegion_cfg (c : Core) (k : Nat) (x : Region) : (c.setRegion k x).cfg = c.cfg := rfl
@[simp] theorem Core.setRegion_pwr (c : Core) (k : Nat) (x : Region) : (c.setRegion k x).pwr = c.pwr := rfl
@[simp] theorem Core.setRegion_rst (c : Core) (k : Nat) (x : Region) : (c.setRegion k x).rst = c.rst := rfl
@[simp] theorem Core.setRegion_rot (c : Core) (k : Nat) (x : Region) : (c.setRegion k x).rot = c.rot := rfl
@[simp] theorem Core.setRegion_mbx (c : Core) (k : Nat) (x : Region) : (c.setRegion k x).mbx = c.mbx := rfl
@[simp] theorem Core.setRegion_ptns (c : Core) (k : Nat) (x : Region) : (c.setRegion k x).ptns = c.ptns := rfl
@[simp] theorem Core.setRegion_hosts (c : Core) (k : Nat) (x : Region) : (c.setRegion k x).hosts = c.hosts := rfl
@[simp] theorem Core.setRegion_homes (c : Core) (k : Nat) (x : Region) : (c.setRegion k x).homes = c.homes := rfl
@[simp] theorem Core.setRegion_mem (c : Core) (k : Nat) (x : Region) : (c.setRegion k x).mem = c.mem := rfl
@[simp] theorem Core.setRegion_lineFlags (c : Core) (k : Nat) (x : Region) : (c.setRegion k x).lineFlags = c.lineFlags := rfl
@[simp] theorem Core.setRegion_hbmcs (c : Core) (k : Nat) (x : Region) : (c.setRegion k x).hbmcs = c.hbmcs := rfl
@[simp] theorem Core.setRegion_edges (c : Core) (k : Nat) (x : Region) : (c.setRegion k x).edges = c.edges := rfl
@[simp] theorem Core.setRegion_objs (c : Core) (k : Nat) (x : Region) : (c.setRegion k x).objs = c.objs := rfl
@[simp] theorem Core.setRegion_gateWait (c : Core) (k : Nat) (x : Region) : (c.setRegion k x).gateWait = c.gateWait := rfl
@[simp] theorem Core.setRegion_ports (c : Core) (k : Nat) (x : Region) : (c.setRegion k x).ports = c.ports := rfl
@[simp] theorem Core.setRegion_tmgr (c : Core) (k : Nat) (x : Region) : (c.setRegion k x).tmgr = c.tmgr := rfl
@[simp] theorem Core.setRegion_routers (c : Core) (k : Nat) (x : Region) : (c.setRegion k x).routers = c.routers := rfl
@[simp] theorem Core.setRegion_mesh (c : Core) (k : Nat) (x : Region) : (c.setRegion k x).mesh = c.mesh := rfl
@[simp] theorem Core.setRegion_mirrs (c : Core) (k : Nat) (x : Region) : (c.setRegion k x).mirrs = c.mirrs := rfl
@[simp] theorem Core.setRegion_mirrG (c : Core) (k : Nat) (x : Region) : (c.setRegion k x).mirrG = c.mirrG := rfl
@[simp] theorem Core.setRegion_tiles (c : Core) (k : Nat) (x : Region) : (c.setRegion k x).tiles = c.tiles := rfl
@[simp] theorem Core.setRegion_get_mb (c : Core) (k : Nat) (x : Region) (j : Nat) : (c.setRegion k x).mb j = c.mb j := rfl
@[simp] theorem Core.setRegion_get_ptn (c : Core) (k : Nat) (x : Region) (j : Nat) : (c.setRegion k x).ptn j = c.ptn j := rfl
@[simp] theorem Core.setRegion_get_host (c : Core) (k : Nat) (x : Region) (j : Nat) : (c.setRegion k x).host j = c.host j := rfl
@[simp] theorem Core.setRegion_get_home (c : Core) (k : Nat) (x : Region) (j : Nat) : (c.setRegion k x).home j = c.home j := rfl
@[simp] theorem Core.setRegion_get_hbmc (c : Core) (k : Nat) (x : Region) (j : Nat) : (c.setRegion k x).hbmc j = c.hbmc j := rfl
@[simp] theorem Core.setRegion_get_edge (c : Core) (k : Nat) (x : Region) (j : Nat) : (c.setRegion k x).edge j = c.edge j := rfl
@[simp] theorem Core.setRegion_get_obj (c : Core) (k : Nat) (x : Region) (j : Nat) : (c.setRegion k x).obj j = c.obj j := rfl
@[simp] theorem Core.setRegion_get_port (c : Core) (k : Nat) (x : Region) (j : Nat) : (c.setRegion k x).port j = c.port j := rfl
@[simp] theorem Core.setRegion_get_router (c : Core) (k : Nat) (x : Region) (j : Nat) : (c.setRegion k x).router j = c.router j := rfl
@[simp] theorem Core.setRegion_get_mirr (c : Core) (k : Nat) (x : Region) (j : Nat) : (c.setRegion k x).mirr j = c.mirr j := rfl
@[simp] theorem Core.setRegion_get_tile (c : Core) (k : Nat) (x : Region) (j : Nat) : (c.setRegion k x).tile j = c.tile j := rfl
@[simp] theorem Core.setRegion_get_keys (c : Core) (k : Nat) (x : Region) (j : Nat) : (c.setRegion k x).keys j = c.keys j := rfl
@[simp] theorem Core.setRegion_get_mgr (c : Core) (k : Nat) (x : Region) (j : Nat) : (c.setRegion k x).mgr j = c.mgr j := rfl
@[simp] theorem Core.setRegion_get_unit (c : Core) (k : Nat) (x : Region) (a b : Nat) : (c.setRegion k x).unit a b = c.unit a b := rfl
@[simp] theorem Core.setRegion_get_ust (c : Core) (k : Nat) (x : Region) (a b : Nat) : (c.setRegion k x).ust a b = c.ust a b := rfl
@[simp] theorem Core.setRegion_same (c : Core) (k : Nat) (x : Region) : (c.setRegion k x).region k = x := by simp [Core.setRegion, Core.region]
theorem Core.setRegion_get (c : Core) (k : Nat) (x : Region) (j : Nat) : (c.setRegion k x).region j = if j = k then x else c.region j := by simp [Core.setRegion, Core.region, tget_tput]
@[simp] theorem Core.setRegion_ne (c : Core) (k : Nat) (x : Region) {j : Nat} (h : j ≠ k) : (c.setRegion k x).region j = c.region j := by simp [Core.setRegion, Core.region, h]

/-! ### setPort -/

@[simp] theorem Core.setPort_pins (c : Core) (k : Nat) (x : Port) : (c.setPort k x).pins = c.pins := rfl
@[simp] theorem Core.setPort_fresh (c : Core) (k : Nat) (x : Port) : (c.setPort k x).fresh = c.fresh := rfl
@[simp] theorem Core.setPort_out (c : Core) (k : Nat) (x : Port) : (c.setPort k x).out = c.out := rfl
@[simp] theorem Core.setPort_evc (c : Core) (k : Nat) (x : Port) : (c.setPort k x).evc = c.evc := rfl
@[simp] theorem Core.setPort_erl (c : Core) (k : Nat) (x : Port) : (c.setPort k x).erl = c.erl := rfl
@[simp] theorem Core.setPort_plog (c : Core) (k : Nat) (x : Port) : (c.setPort k x).plog = c.plog := rfl
@[simp] theorem Core.setPort_sec (c : Core) (k : Nat) (x : Port) : (c.setPort k x).sec = c.sec := rfl
@[simp] theorem Core.setPort_glb (c : Core) (k : Nat) (x : Port) : (c.setPort k x).glb = c.glb := rfl
@[simp] theorem Core.setPort_cfg (c : Core) (k : Nat) (x : Port) : (c.setPort k x).cfg = c.cfg := rfl
@[simp] theorem Core.setPort_pwr (c : Core) (k : Nat) (x : Port) : (c.setPort k x).pwr = c.pwr := rfl
@[simp] theorem Core.setPort_rst (c : Core) (k : Nat) (x : Port) : (c.setPort k x).rst = c.rst := rfl
@[simp] theorem Core.setPort_rot (c : Core) (k : Nat) (x : Port) : (c.setPort k x).rot = c.rot := rfl
@[simp] theorem Core.setPort_mbx (c : Core) (k : Nat) (x : Port) : (c.setPort k x).mbx = c.mbx := rfl
@[simp] theorem Core.setPort_ptns (c : Core) (k : Nat) (x : Port) : (c.setPort k x).ptns = c.ptns := rfl
@[simp] theorem Core.setPort_hosts (c : Core) (k : Nat) (x : Port) : (c.setPort k x).hosts = c.hosts := rfl
@[simp] theorem Core.setPort_homes (c : Core) (k : Nat) (x : Port) : (c.setPort k x).homes = c.homes := rfl
@[simp] theorem Core.setPort_mem (c : Core) (k : Nat) (x : Port) : (c.setPort k x).mem = c.mem := rfl
@[simp] theorem Core.setPort_lineFlags (c : Core) (k : Nat) (x : Port) : (c.setPort k x).lineFlags = c.lineFlags := rfl
@[simp] theorem Core.setPort_hbmcs (c : Core) (k : Nat) (x : Port) : (c.setPort k x).hbmcs = c.hbmcs := rfl
@[simp] theorem Core.setPort_edges (c : Core) (k : Nat) (x : Port) : (c.setPort k x).edges = c.edges := rfl
@[simp] theorem Core.setPort_objs (c : Core) (k : Nat) (x : Port) : (c.setPort k x).objs = c.objs := rfl
@[simp] theorem Core.setPort_gateWait (c : Core) (k : Nat) (x : Port) : (c.setPort k x).gateWait = c.gateWait := rfl
@[simp] theorem Core.setPort_regions (c : Core) (k : Nat) (x : Port) : (c.setPort k x).regions = c.regions := rfl
@[simp] theorem Core.setPort_tmgr (c : Core) (k : Nat) (x : Port) : (c.setPort k x).tmgr = c.tmgr := rfl
@[simp] theorem Core.setPort_routers (c : Core) (k : Nat) (x : Port) : (c.setPort k x).routers = c.routers := rfl
@[simp] theorem Core.setPort_mesh (c : Core) (k : Nat) (x : Port) : (c.setPort k x).mesh = c.mesh := rfl
@[simp] theorem Core.setPort_mirrs (c : Core) (k : Nat) (x : Port) : (c.setPort k x).mirrs = c.mirrs := rfl
@[simp] theorem Core.setPort_mirrG (c : Core) (k : Nat) (x : Port) : (c.setPort k x).mirrG = c.mirrG := rfl
@[simp] theorem Core.setPort_tiles (c : Core) (k : Nat) (x : Port) : (c.setPort k x).tiles = c.tiles := rfl
@[simp] theorem Core.setPort_get_mb (c : Core) (k : Nat) (x : Port) (j : Nat) : (c.setPort k x).mb j = c.mb j := rfl
@[simp] theorem Core.setPort_get_ptn (c : Core) (k : Nat) (x : Port) (j : Nat) : (c.setPort k x).ptn j = c.ptn j := rfl
@[simp] theorem Core.setPort_get_host (c : Core) (k : Nat) (x : Port) (j : Nat) : (c.setPort k x).host j = c.host j := rfl
@[simp] theorem Core.setPort_get_home (c : Core) (k : Nat) (x : Port) (j : Nat) : (c.setPort k x).home j = c.home j := rfl
@[simp] theorem Core.setPort_get_hbmc (c : Core) (k : Nat) (x : Port) (j : Nat) : (c.setPort k x).hbmc j = c.hbmc j := rfl
@[simp] theorem Core.setPort_get_edge (c : Core) (k : Nat) (x : Port) (j : Nat) : (c.setPort k x).edge j = c.edge j := rfl
@[simp] theorem Core.setPort_get_obj (c : Core) (k : Nat) (x : Port) (j : Nat) : (c.setPort k x).obj j = c.obj j := rfl
@[simp] theorem Core.setPort_get_region (c : Core) (k : Nat) (x : Port) (j : Nat) : (c.setPort k x).region j = c.region j := rfl
@[simp] theorem Core.setPort_get_router (c : Core) (k : Nat) (x : Port) (j : Nat) : (c.setPort k x).router j = c.router j := rfl
@[simp] theorem Core.setPort_get_mirr (c : Core) (k : Nat) (x : Port) (j : Nat) : (c.setPort k x).mirr j = c.mirr j := rfl
@[simp] theorem Core.setPort_get_tile (c : Core) (k : Nat) (x : Port) (j : Nat) : (c.setPort k x).tile j = c.tile j := rfl
@[simp] theorem Core.setPort_get_keys (c : Core) (k : Nat) (x : Port) (j : Nat) : (c.setPort k x).keys j = c.keys j := rfl
@[simp] theorem Core.setPort_get_mgr (c : Core) (k : Nat) (x : Port) (j : Nat) : (c.setPort k x).mgr j = c.mgr j := rfl
@[simp] theorem Core.setPort_get_unit (c : Core) (k : Nat) (x : Port) (a b : Nat) : (c.setPort k x).unit a b = c.unit a b := rfl
@[simp] theorem Core.setPort_get_ust (c : Core) (k : Nat) (x : Port) (a b : Nat) : (c.setPort k x).ust a b = c.ust a b := rfl
@[simp] theorem Core.setPort_same (c : Core) (k : Nat) (x : Port) : (c.setPort k x).port k = x := by simp [Core.setPort, Core.port]
theorem Core.setPort_get (c : Core) (k : Nat) (x : Port) (j : Nat) : (c.setPort k x).port j = if j = k then x else c.port j := by simp [Core.setPort, Core.port, tget_tput]
@[simp] theorem Core.setPort_ne (c : Core) (k : Nat) (x : Port) {j : Nat} (h : j ≠ k) : (c.setPort k x).port j = c.port j := by simp [Core.setPort, Core.port, h]

/-! ### setRouter -/

@[simp] theorem Core.setRouter_pins (c : Core) (k : Nat) (x : Router) : (c.setRouter k x).pins = c.pins := rfl
@[simp] theorem Core.setRouter_fresh (c : Core) (k : Nat) (x : Router) : (c.setRouter k x).fresh = c.fresh := rfl
@[simp] theorem Core.setRouter_out (c : Core) (k : Nat) (x : Router) : (c.setRouter k x).out = c.out := rfl
@[simp] theorem Core.setRouter_evc (c : Core) (k : Nat) (x : Router) : (c.setRouter k x).evc = c.evc := rfl
@[simp] theorem Core.setRouter_erl (c : Core) (k : Nat) (x : Router) : (c.setRouter k x).erl = c.erl := rfl
@[simp] theorem Core.setRouter_plog (c : Core) (k : Nat) (x : Router) : (c.setRouter k x).plog = c.plog := rfl
@[simp] theorem Core.setRouter_sec (c : Core) (k : Nat) (x : Router) : (c.setRouter k x).sec = c.sec := rfl
@[simp] theorem Core.setRouter_glb (c : Core) (k : Nat) (x : Router) : (c.setRouter k x).glb = c.glb := rfl
@[simp] theorem Core.setRouter_cfg (c : Core) (k : Nat) (x : Router) : (c.setRouter k x).cfg = c.cfg := rfl
@[simp] theorem Core.setRouter_pwr (c : Core) (k : Nat) (x : Router) : (c.setRouter k x).pwr = c.pwr := rfl
@[simp] theorem Core.setRouter_rst (c : Core) (k : Nat) (x : Router) : (c.setRouter k x).rst = c.rst := rfl
@[simp] theorem Core.setRouter_rot (c : Core) (k : Nat) (x : Router) : (c.setRouter k x).rot = c.rot := rfl
@[simp] theorem Core.setRouter_mbx (c : Core) (k : Nat) (x : Router) : (c.setRouter k x).mbx = c.mbx := rfl
@[simp] theorem Core.setRouter_ptns (c : Core) (k : Nat) (x : Router) : (c.setRouter k x).ptns = c.ptns := rfl
@[simp] theorem Core.setRouter_hosts (c : Core) (k : Nat) (x : Router) : (c.setRouter k x).hosts = c.hosts := rfl
@[simp] theorem Core.setRouter_homes (c : Core) (k : Nat) (x : Router) : (c.setRouter k x).homes = c.homes := rfl
@[simp] theorem Core.setRouter_mem (c : Core) (k : Nat) (x : Router) : (c.setRouter k x).mem = c.mem := rfl
@[simp] theorem Core.setRouter_lineFlags (c : Core) (k : Nat) (x : Router) : (c.setRouter k x).lineFlags = c.lineFlags := rfl
@[simp] theorem Core.setRouter_hbmcs (c : Core) (k : Nat) (x : Router) : (c.setRouter k x).hbmcs = c.hbmcs := rfl
@[simp] theorem Core.setRouter_edges (c : Core) (k : Nat) (x : Router) : (c.setRouter k x).edges = c.edges := rfl
@[simp] theorem Core.setRouter_objs (c : Core) (k : Nat) (x : Router) : (c.setRouter k x).objs = c.objs := rfl
@[simp] theorem Core.setRouter_gateWait (c : Core) (k : Nat) (x : Router) : (c.setRouter k x).gateWait = c.gateWait := rfl
@[simp] theorem Core.setRouter_regions (c : Core) (k : Nat) (x : Router) : (c.setRouter k x).regions = c.regions := rfl
@[simp] theorem Core.setRouter_ports (c : Core) (k : Nat) (x : Router) : (c.setRouter k x).ports = c.ports := rfl
@[simp] theorem Core.setRouter_tmgr (c : Core) (k : Nat) (x : Router) : (c.setRouter k x).tmgr = c.tmgr := rfl
@[simp] theorem Core.setRouter_mesh (c : Core) (k : Nat) (x : Router) : (c.setRouter k x).mesh = c.mesh := rfl
@[simp] theorem Core.setRouter_mirrs (c : Core) (k : Nat) (x : Router) : (c.setRouter k x).mirrs = c.mirrs := rfl
@[simp] theorem Core.setRouter_mirrG (c : Core) (k : Nat) (x : Router) : (c.setRouter k x).mirrG = c.mirrG := rfl
@[simp] theorem Core.setRouter_tiles (c : Core) (k : Nat) (x : Router) : (c.setRouter k x).tiles = c.tiles := rfl
@[simp] theorem Core.setRouter_get_mb (c : Core) (k : Nat) (x : Router) (j : Nat) : (c.setRouter k x).mb j = c.mb j := rfl
@[simp] theorem Core.setRouter_get_ptn (c : Core) (k : Nat) (x : Router) (j : Nat) : (c.setRouter k x).ptn j = c.ptn j := rfl
@[simp] theorem Core.setRouter_get_host (c : Core) (k : Nat) (x : Router) (j : Nat) : (c.setRouter k x).host j = c.host j := rfl
@[simp] theorem Core.setRouter_get_home (c : Core) (k : Nat) (x : Router) (j : Nat) : (c.setRouter k x).home j = c.home j := rfl
@[simp] theorem Core.setRouter_get_hbmc (c : Core) (k : Nat) (x : Router) (j : Nat) : (c.setRouter k x).hbmc j = c.hbmc j := rfl
@[simp] theorem Core.setRouter_get_edge (c : Core) (k : Nat) (x : Router) (j : Nat) : (c.setRouter k x).edge j = c.edge j := rfl
@[simp] theorem Core.setRouter_get_obj (c : Core) (k : Nat) (x : Router) (j : Nat) : (c.setRouter k x).obj j = c.obj j := rfl
@[simp] theorem Core.setRouter_get_region (c : Core) (k : Nat) (x : Router) (j : Nat) : (c.setRouter k x).region j = c.region j := rfl
@[simp] theorem Core.setRouter_get_port (c : Core) (k : Nat) (x : Router) (j : Nat) : (c.setRouter k x).port j = c.port j := rfl
@[simp] theorem Core.setRouter_get_mirr (c : Core) (k : Nat) (x : Router) (j : Nat) : (c.setRouter k x).mirr j = c.mirr j := rfl
@[simp] theorem Core.setRouter_get_tile (c : Core) (k : Nat) (x : Router) (j : Nat) : (c.setRouter k x).tile j = c.tile j := rfl
@[simp] theorem Core.setRouter_get_keys (c : Core) (k : Nat) (x : Router) (j : Nat) : (c.setRouter k x).keys j = c.keys j := rfl
@[simp] theorem Core.setRouter_get_mgr (c : Core) (k : Nat) (x : Router) (j : Nat) : (c.setRouter k x).mgr j = c.mgr j := rfl
@[simp] theorem Core.setRouter_get_unit (c : Core) (k : Nat) (x : Router) (a b : Nat) : (c.setRouter k x).unit a b = c.unit a b := rfl
@[simp] theorem Core.setRouter_get_ust (c : Core) (k : Nat) (x : Router) (a b : Nat) : (c.setRouter k x).ust a b = c.ust a b := rfl
@[simp] theorem Core.setRouter_same (c : Core) (k : Nat) (x : Router) : (c.setRouter k x).router k = x := by simp [Core.setRouter, Core.router]
theorem Core.setRouter_get (c : Core) (k : Nat) (x : Router) (j : Nat) : (c.setRouter k x).router j = if j = k then x else c.router j := by simp [Core.setRouter, Core.router, tget_tput]
@[simp] theorem Core.setRouter_ne (c : Core) (k : Nat) (x : Router) {j : Nat} (h : j ≠ k) : (c.setRouter k x).router j = c.router j := by simp [Core.setRouter, Core.router, h]

/-! ### setMirr -/

@[simp] theorem Core.setMirr_pins (c : Core) (k : Nat) (x : Mirr) : (c.setMirr k x).pins = c.pins := rfl
@[simp] theorem Core.setMirr_fresh (c : Core) (k : Nat) (x : Mirr) : (c.setMirr k x).fresh = c.fresh := rfl
@[simp] theorem Core.setMirr_out (c : Core) (k : Nat) (x : Mirr) : (c.setMirr k x).out = c.out := rfl
@[simp] theorem Core.setMirr_evc (c : Core) (k : Nat) (x : Mirr) : (c.setMirr k x).evc = c.evc := rfl
@[simp] theorem Core.setMirr_erl (c : Core) (k : Nat) (x : Mirr) : (c.setMirr k x).erl = c.erl := rfl
@[simp] theorem Core.setMirr_plog (c : Core) (k : Nat) (x : Mirr) : (c.setMirr k x).plog = c.plog := rfl
@[simp] theorem Core.setMirr_sec (c : Core) (k : Nat) (x : Mirr) : (c.setMirr k x).sec = c.sec := rfl
@[simp] theorem Core.setMirr_glb (c : Core) (k : Nat) (x : Mirr) : (c.setMirr k x).glb = c.glb := rfl
@[simp] theorem Core.setMirr_cfg (c : Core) (k : Nat) (x : Mirr) : (c.setMirr k x).cfg = c.cfg := rfl
@[simp] theorem Core.setMirr_pwr (c : Core) (k : Nat) (x : Mirr) : (c.setMirr k x).pwr = c.pwr := rfl
@[simp] theorem Core.setMirr_rst (c : Core) (k : Nat) (x : Mirr) : (c.setMirr k x).rst = c.rst := rfl
@[simp] theorem Core.setMirr_rot (c : Core) (k : Nat) (x : Mirr) : (c.setMirr k x).rot = c.rot := rfl
@[simp] theorem Core.setMirr_mbx (c : Core) (k : Nat) (x : Mirr) : (c.setMirr k x).mbx = c.mbx := rfl
@[simp] theorem Core.setMirr_ptns (c : Core) (k : Nat) (x : Mirr) : (c.setMirr k x).ptns = c.ptns := rfl
@[simp] theorem Core.setMirr_hosts (c : Core) (k : Nat) (x : Mirr) : (c.setMirr k x).hosts = c.hosts := rfl
@[simp] theorem Core.setMirr_homes (c : Core) (k : Nat) (x : Mirr) : (c.setMirr k x).homes = c.homes := rfl
@[simp] theorem Core.setMirr_mem (c : Core) (k : Nat) (x : Mirr) : (c.setMirr k x).mem = c.mem := rfl
@[simp] theorem Core.setMirr_lineFlags (c : Core) (k : Nat) (x : Mirr) : (c.setMirr k x).lineFlags = c.lineFlags := rfl
@[simp] theorem Core.setMirr_hbmcs (c : Core) (k : Nat) (x : Mirr) : (c.setMirr k x).hbmcs = c.hbmcs := rfl
@[simp] theorem Core.setMirr_edges (c : Core) (k : Nat) (x : Mirr) : (c.setMirr k x).edges = c.edges := rfl
@[simp] theorem Core.setMirr_objs (c : Core) (k : Nat) (x : Mirr) : (c.setMirr k x).objs = c.objs := rfl
@[simp] theorem Core.setMirr_gateWait (c : Core) (k : Nat) (x : Mirr) : (c.setMirr k x).gateWait = c.gateWait := rfl
@[simp] theorem Core.setMirr_regions (c : Core) (k : Nat) (x : Mirr) : (c.setMirr k x).regions = c.regions := rfl
@[simp] theorem Core.setMirr_ports (c : Core) (k : Nat) (x : Mirr) : (c.setMirr k x).ports = c.ports := rfl
@[simp] theorem Core.setMirr_tmgr (c : Core) (k : Nat) (x : Mirr) : (c.setMirr k x).tmgr = c.tmgr := rfl
@[simp] theorem Core.setMirr_routers (c : Core) (k : Nat) (x : Mirr) : (c.setMirr k x).routers = c.routers := rfl
@[simp] theorem Core.setMirr_mesh (c : Core) (k : Nat) (x : Mirr) : (c.setMirr k x).mesh = c.mesh := rfl
@[simp] theorem Core.setMirr_mirrG (c : Core) (k : Nat) (x : Mirr) : (c.setMirr k x).mirrG = c.mirrG := rfl
@[simp] theorem Core.setMirr_tiles (c : Core) (k : Nat) (x : Mirr) : (c.setMirr k x).tiles = c.tiles := rfl
@[simp] theorem Core.setMirr_get_mb (c : Core) (k : Nat) (x : Mirr) (j : Nat) : (c.setMirr k x).mb j = c.mb j := rfl
@[simp] theorem Core.setMirr_get_ptn (c : Core) (k : Nat) (x : Mirr) (j : Nat) : (c.setMirr k x).ptn j = c.ptn j := rfl
@[simp] theorem Core.setMirr_get_host (c : Core) (k : Nat) (x : Mirr) (j : Nat) : (c.setMirr k x).host j = c.host j := rfl
@[simp] theorem Core.setMirr_get_home (c : Core) (k : Nat) (x : Mirr) (j : Nat) : (c.setMirr k x).home j = c.home j := rfl
@[simp] theorem Core.setMirr_get_hbmc (c : Core) (k : Nat) (x : Mirr) (j : Nat) : (c.setMirr k x).hbmc j = c.hbmc j := rfl
@[simp] theorem Core.setMirr_get_edge (c : Core) (k : Nat) (x : Mirr) (j : Nat) : (c.setMirr k x).edge j = c.edge j := rfl
@[simp] theorem Core.setMirr_get_obj (c : Core) (k : Nat) (x : Mirr) (j : Nat) : (c.setMirr k x).obj j = c.obj j := rfl
@[simp] theorem Core.setMirr_get_region (c : Core) (k : Nat) (x : Mirr) (j : Nat) : (c.setMirr k x).region j = c.region j := rfl
@[simp] theorem Core.setMirr_get_port (c : Core) (k : Nat) (x : Mirr) (j : Nat) : (c.setMirr k x).port j = c.port j := rfl
@[simp] theorem Core.setMirr_get_router (c : Core) (k : Nat) (x : Mirr) (j : Nat) : (c.setMirr k x).router j = c.router j := rfl
@[simp] theorem Core.setMirr_get_tile (c : Core) (k : Nat) (x : Mirr) (j : Nat) : (c.setMirr k x).tile j = c.tile j := rfl
@[simp] theorem Core.setMirr_get_keys (c : Core) (k : Nat) (x : Mirr) (j : Nat) : (c.setMirr k x).keys j = c.keys j := rfl
@[simp] theorem Core.setMirr_get_mgr (c : Core) (k : Nat) (x : Mirr) (j : Nat) : (c.setMirr k x).mgr j = c.mgr j := rfl
@[simp] theorem Core.setMirr_get_unit (c : Core) (k : Nat) (x : Mirr) (a b : Nat) : (c.setMirr k x).unit a b = c.unit a b := rfl
@[simp] theorem Core.setMirr_get_ust (c : Core) (k : Nat) (x : Mirr) (a b : Nat) : (c.setMirr k x).ust a b = c.ust a b := rfl
@[simp] theorem Core.setMirr_same (c : Core) (k : Nat) (x : Mirr) : (c.setMirr k x).mirr k = x := by simp [Core.setMirr, Core.mirr]
theorem Core.setMirr_get (c : Core) (k : Nat) (x : Mirr) (j : Nat) : (c.setMirr k x).mirr j = if j = k then x else c.mirr j := by simp [Core.setMirr, Core.mirr, tget_tput]
@[simp] theorem Core.setMirr_ne (c : Core) (k : Nat) (x : Mirr) {j : Nat} (h : j ≠ k) : (c.setMirr k x).mirr j = c.mirr j := by simp [Core.setMirr, Core.mirr, h]

/-! ### setTile -/

@[simp] theorem Core.setTile_pins (c : Core) (k : Nat) (x : Tile) : (c.setTile k x).pins = c.pins := rfl
@[simp] theorem Core.setTile_fresh (c : Core) (k : Nat) (x : Tile) : (c.setTile k x).fresh = c.fresh := rfl
@[simp] theorem Core.setTile_out (c : Core) (k : Nat) (x : Tile) : (c.setTile k x).out = c.out := rfl
@[simp] theorem Core.setTile_evc (c : Core) (k : Nat) (x : Tile) : (c.setTile k x).evc = c.evc := rfl
@[simp] theorem Core.setTile_erl (c : Core) (k : Nat) (x : Tile) : (c.setTile k x).erl = c.erl := rfl
@[simp] theorem Core.setTile_plog (c : Core) (k : Nat) (x : Tile) : (c.setTile k x).plog = c.plog := rfl
@[simp] theorem Core.setTile_sec (c : Core) (k : Nat) (x : Tile) : (c.setTile k x).sec = c.sec := rfl
@[simp] theorem Core.setTile_glb (c : Core) (k : Nat) (x : Tile) : (c.setTile k x).glb = c.glb := rfl
@[simp] theorem Core.setTile_cfg (c : Core) (k : Nat) (x : Tile) : (c.setTile k x).cfg = c.cfg := rfl
@[simp] theorem Core.setTile_pwr (c : Core) (k : Nat) (x : Tile) : (c.setTile k x).pwr = c.pwr := rfl
@[simp] theorem Core.setTile_rst (c : Core) (k : Nat) (x : Tile) : (c.setTile k x).rst = c.rst := rfl
@[simp] theorem Core.setTile_rot (c : Core) (k : Nat) (x : Tile) : (c.setTile k x).rot = c.rot := rfl
@[simp] theorem Core.setTile_mbx (c : Core) (k : Nat) (x : Tile) : (c.setTile k x).mbx = c.mbx := rfl
@[simp] theorem Core.setTile_ptns (c : Core) (k : Nat) (x : Tile) : (c.setTile k x).ptns = c.ptns := rfl
@[simp] theorem Core.setTile_hosts (c : Core) (k : Nat) (x : Tile) : (c.setTile k x).hosts = c.hosts := rfl
@[simp] theorem Core.setTile_homes (c : Core) (k : Nat) (x : Tile) : (c.setTile k x).homes = c.homes := rfl
@[simp] theorem Core.setTile_mem (c : Core) (k : Nat) (x : Tile) : (c.setTile k x).mem = c.mem := rfl
@[simp] theorem Core.setTile_lineFlags (c : Core) (k : Nat) (x : Tile) : (c.setTile k x).lineFlags = c.lineFlags := rfl
@[simp] theorem Core.setTile_hbmcs (c : Core) (k : Nat) (x : Tile) : (c.setTile k x).hbmcs = c.hbmcs := rfl
@[simp] theorem Core.setTile_edges (c : Core) (k : Nat) (x : Tile) : (c.setTile k x).edges = c.edges := rfl
@[simp] theorem Core.setTile_objs (c : Core) (k : Nat) (x : Tile) : (c.setTile k x).objs = c.objs := rfl
@[simp] theorem Core.setTile_gateWait (c : Core) (k : Nat) (x : Tile) : (c.setTile k x).gateWait = c.gateWait := rfl
@[simp] theorem Core.setTile_regions (c : Core) (k : Nat) (x : Tile) : (c.setTile k x).regions = c.regions := rfl
@[simp] theorem Core.setTile_ports (c : Core) (k : Nat) (x : Tile) : (c.setTile k x).ports = c.ports := rfl
@[simp] theorem Core.setTile_tmgr (c : Core) (k : Nat) (x : Tile) : (c.setTile k x).tmgr = c.tmgr := rfl
@[simp] theorem Core.setTile_routers (c : Core) (k : Nat) (x : Tile) : (c.setTile k x).routers = c.routers := rfl
@[simp] theorem Core.setTile_mesh (c : Core) (k : Nat) (x : Tile) : (c.setTile k x).mesh = c.mesh := rfl
@[simp] theorem Core.setTile_mirrs (c : Core) (k : Nat) (x : Tile) : (c.setTile k x).mirrs = c.mirrs := rfl
@[simp] theorem Core.setTile_mirrG (c : Core) (k : Nat) (x : Tile) : (c.setTile k x).mirrG = c.mirrG := rfl
@[simp] theorem Core.setTile_get_mb (c : Core) (k : Nat) (x : Tile) (j : Nat) : (c.setTile k x).mb j = c.mb j := rfl
@[simp] theorem Core.setTile_get_ptn (c : Core) (k : Nat) (x : Tile) (j : Nat) : (c.setTile k x).ptn j = c.ptn j := rfl
@[simp] theorem Core.setTile_get_host (c : Core) (k : Nat) (x : Tile) (j : Nat) : (c.setTile k x).host j = c.host j := rfl
@[simp] theorem Core.setTile_get_home (c : Core) (k : Nat) (x : Tile) (j : Nat) : (c.setTile k x).home j = c.home j := rfl
@[simp] theorem Core.setTile_get_hbmc (c : Core) (k : Nat) (x : Tile) (j : Nat) : (c.setTile k x).hbmc j = c.hbmc j := rfl
@[simp] theorem Core.setTile_get_edge (c : Core) (k : Nat) (x : Tile) (j : Nat) : (c.setTile k x).edge j = c.edge j := rfl
@[simp] theorem Core.setTile_get_obj (c : Core) (k : Nat) (x : Tile) (j : Nat) : (c.setTile k x).obj j = c.obj j := rfl
@[simp] theorem Core.setTile_get_region (c : Core) (k : Nat) (x : Tile) (j : Nat) : (c.setTile k x).region j = c.region j := rfl
@[simp] theorem Core.setTile_get_port (c : Core) (k : Nat) (x : Tile) (j : Nat) : (c.setTile k x).port j = c.port j := rfl
@[simp] theorem Core.setTile_get_router (c : Core) (k : Nat) (x : Tile) (j : Nat) : (c.setTile k x).router j = c.router j := rfl
@[simp] theorem Core.setTile_get_mirr (c : Core) (k : Nat) (x : Tile) (j : Nat) : (c.setTile k x).mirr j = c.mirr j := rfl
@[simp] theorem Core.setTile_get_keys (c : Core) (k : Nat) (x : Tile) (j : Nat) : (c.setTile k x).keys j = c.keys j := rfl
@[simp] theorem Core.setTile_get_mgr (c : Core) (k : Nat) (x : Tile) (j : Nat) : (c.setTile k x).mgr j = c.mgr j := rfl
@[simp] theorem Core.setTile_get_unit (c : Core) (k : Nat) (x : Tile) (a b : Nat) : (c.setTile k x).unit a b = c.unit a b := rfl
@[simp] theorem Core.setTile_get_ust (c : Core) (k : Nat) (x : Tile) (a b : Nat) : (c.setTile k x).ust a b = c.ust a b := rfl
@[simp] theorem Core.setTile_same (c : Core) (k : Nat) (x : Tile) : (c.setTile k x).tile k = x := by simp [Core.setTile, Core.tile]
theorem Core.setTile_get (c : Core) (k : Nat) (x : Tile) (j : Nat) : (c.setTile k x).tile j = if j = k then x else c.tile j := by simp [Core.setTile, Core.tile, tget_tput]
@[simp] theorem Core.setTile_ne (c : Core) (k : Nat) (x : Tile) {j : Nat} (h : j ≠ k) : (c.setTile k x).tile j = c.tile j := by simp [Core.setTile, Core.tile, h]

/-! ### setKeys -/

@[simp] theorem Core.setKeys_pins (c : Core) (k : Nat) (x : Keys) : (c.setKeys k x).pins = c.pins := rfl
@[simp] theorem Core.setKeys_fresh (c : Core) (k : Nat) (x : Keys) : (c.setKeys k x).fresh = c.fresh := rfl
@[simp] theorem Core.setKeys_out (c : Core) (k : Nat) (x : Keys) : (c.setKeys k x).out = c.out := rfl
@[simp] theorem Core.setKeys_evc (c : Core) (k : Nat) (x : Keys) : (c.setKeys k x).evc = c.evc := rfl
@[simp] theorem Core.setKeys_erl (c : Core) (k : Nat) (x : Keys) : (c.setKeys k x).erl = c.erl := rfl
@[simp] theorem Core.setKeys_plog (c : Core) (k : Nat) (x : Keys) : (c.setKeys k x).plog = c.plog := rfl
@[simp] theorem Core.setKeys_glb (c : Core) (k : Nat) (x : Keys) : (c.setKeys k x).glb = c.glb := rfl
@[simp] theorem Core.setKeys_cfg (c : Core) (k : Nat) (x : Keys) : (c.setKeys k x).cfg = c.cfg := rfl
@[simp] theorem Core.setKeys_pwr (c : Core) (k : Nat) (x : Keys) : (c.setKeys k x).pwr = c.pwr := rfl
@[simp] theorem Core.setKeys_rst (c : Core) (k : Nat) (x : Keys) : (c.setKeys k x).rst = c.rst := rfl
@[simp] theorem Core.setKeys_rot (c : Core) (k : Nat) (x : Keys) : (c.setKeys k x).rot = c.rot := rfl
@[simp] theorem Core.setKeys_mbx (c : Core) (k : Nat) (x : Keys) : (c.setKeys k x).mbx = c.mbx := rfl
@[simp] theorem Core.setKeys_ptns (c : Core) (k : Nat) (x : Keys) : (c.setKeys k x).ptns = c.ptns := rfl
@[simp] theorem Core.setKeys_hosts (c : Core) (k : Nat) (x : Keys) : (c.setKeys k x).hosts = c.hosts := rfl
@[simp] theorem Core.setKeys_homes (c : Core) (k : Nat) (x : Keys) : (c.setKeys k x).homes = c.homes := rfl
@[simp] theorem Core.setKeys_mem (c : Core) (k : Nat) (x : Keys) : (c.setKeys k x).mem = c.mem := rfl
@[simp] theorem Core.setKeys_lineFlags (c : Core) (k : Nat) (x : Keys) : (c.setKeys k x).lineFlags = c.lineFlags := rfl
@[simp] theorem Core.setKeys_hbmcs (c : Core) (k : Nat) (x : Keys) : (c.setKeys k x).hbmcs = c.hbmcs := rfl
@[simp] theorem Core.setKeys_edges (c : Core) (k : Nat) (x : Keys) : (c.setKeys k x).edges = c.edges := rfl
@[simp] theorem Core.setKeys_objs (c : Core) (k : Nat) (x : Keys) : (c.setKeys k x).objs = c.objs := rfl
@[simp] theorem Core.setKeys_gateWait (c : Core) (k : Nat) (x : Keys) : (c.setKeys k x).gateWait = c.gateWait := rfl
@[simp] theorem Core.setKeys_regions (c : Core) (k : Nat) (x : Keys) : (c.setKeys k x).regions = c.regions := rfl
@[simp] theorem Core.setKeys_ports (c : Core) (k : Nat) (x : Keys) : (c.setKeys k x).ports = c.ports := rfl
@[simp] theorem Core.setKeys_tmgr (c : Core) (k : Nat) (x : Keys) : (c.setKeys k x).tmgr = c.tmgr := rfl
@[simp] theorem Core.setKeys_routers (c : Core) (k : Nat) (x : Keys) : (c.setKeys k x).routers = c.routers := rfl
@[simp] theorem Core.setKeys_mesh (c : Core) (k : Nat) (x : Keys) : (c.setKeys k x).mesh = c.mesh := rfl
@[simp] theorem Core.setKeys_mirrs (c : Core) (k : Nat) (x : Keys) : (c.setKeys k x).mirrs = c.mirrs := rfl
@[simp] theorem Core.setKeys_mirrG (c : Core) (k : Nat) (x : Keys) : (c.setKeys k x).mirrG = c.mirrG := rfl
@[simp] theorem Core.setKeys_tiles (c : Core) (k : Nat) (x : Keys) : (c.setKeys k x).tiles = c.tiles := rfl
@[simp] theorem Core.setKeys_get_mb (c : Core) (k : Nat) (x : Keys) (j : Nat) : (c.setKeys k x).mb j = c.mb j := rfl
@[simp] theorem Core.setKeys_get_ptn (c : Core) (k : Nat) (x : Keys) (j : Nat) : (c.setKeys k x).ptn j = c.ptn j := rfl
@[simp] theorem Core.setKeys_get_host (c : Core) (k : Nat) (x : Keys) (j : Nat) : (c.setKeys k x).host j = c.host j := rfl
@[simp] theorem Core.setKeys_get_home (c : Core) (k : Nat) (x : Keys) (j : Nat) : (c.setKeys k x).home j = c.home j := rfl
@[simp] theorem Core.setKeys_get_hbmc (c : Core) (k : Nat) (x : Keys) (j : Nat) : (c.setKeys k x).hbmc j = c.hbmc j := rfl
@[simp] theorem Core.setKeys_get_edge (c : Core) (k : Nat) (x : Keys) (j : Nat) : (c.setKeys k x).edge j = c.edge j := rfl
@[simp] theorem Core.setKeys_get_obj (c : Core) (k : Nat) (x : Keys) (j : Nat) : (c.setKeys k x).obj j = c.obj j := rfl
@[simp] theorem Core.setKeys_get_region (c : Core) (k : Nat) (x : Keys) (j : Nat) : (c.setKeys k x).region j = c.region j := rfl
@[simp] theorem Core.setKeys_get_port (c : Core) (k : Nat) (x : Keys) (j : Nat) : (c.setKeys k x).port j = c.port j := rfl
@[simp] theorem Core.setKeys_get_router (c : Core) (k : Nat) (x : Keys) (j : Nat) : (c.setKeys k x).router j = c.router j := rfl
@[simp] theorem Core.setKeys_get_mirr (c : Core) (k : Nat) (x : Keys) (j : Nat) : (c.setKeys k x).mirr j = c.mirr j := rfl
@[simp] theorem Core.setKeys_get_tile (c : Core) (k : Nat) (x : Keys) (j : Nat) : (c.setKeys k x).tile j = c.tile j := rfl
@[simp] theorem Core.setKeys_get_mgr (c : Core) (k : Nat) (x : Keys) (j : Nat) : (c.setKeys k x).mgr j = c.mgr j := rfl
@[simp] theorem Core.setKeys_get_unit (c : Core) (k : Nat) (x : Keys) (a b : Nat) : (c.setKeys k x).unit a b = c.unit a b := rfl
@[simp] theorem Core.setKeys_get_ust (c : Core) (k : Nat) (x : Keys) (a b : Nat) : (c.setKeys k x).ust a b = c.ust a b := rfl
@[simp] theorem Core.setKeys_same (c : Core) (k : Nat) (x : Keys) : (c.setKeys k x).keys k = x := by simp [Core.setKeys, Core.keys]
theorem Core.setKeys_get (c : Core) (k : Nat) (x : Keys) (j : Nat) : (c.setKeys k x).keys j = if j = k then x else c.keys j := by simp [Core.setKeys, Core.keys, tget_tput]
@[simp] theorem Core.setKeys_ne (c : Core) (k : Nat) (x : Keys) {j : Nat} (h : j ≠ k) : (c.setKeys k x).keys j = c.keys j := by simp [Core.setKeys, Core.keys, h]

/-! ### setMgr -/

@[simp] theorem Core.setMgr_pins (c : Core) (k : Nat) (x : Mgr) : (c.setMgr k x).pins = c.pins := rfl
@[simp] theorem Core.setMgr_fresh (c : Core) (k : Nat) (x : Mgr) : (c.setMgr k x).fresh = c.fresh := rfl
@[simp] theorem Core.setMgr_out (c : Core) (k : Nat) (x : Mgr) : (c.setMgr k x).out = c.out := rfl
@[simp] theorem Core.setMgr_evc (c : Core) (k : Nat) (x : Mgr) : (c.setMgr k x).evc = c.evc := rfl
@[simp] theorem Core.setMgr_erl (c : Core) (k : Nat) (x : Mgr) : (c.setMgr k x).erl = c.erl := rfl
@[simp] theorem Core.setMgr_plog (c : Core) (k : Nat) (x : Mgr) : (c.setMgr k x).plog = c.plog := rfl
@[simp] theorem Core.setMgr_sec (c : Core) (k : Nat) (x : Mgr) : (c.setMgr k x).sec = c.sec := rfl
@[simp] theorem Core.setMgr_glb (c : Core) (k : Nat) (x : Mgr) : (c.setMgr k x).glb = c.glb := rfl
@[simp] theorem Core.setMgr_cfg (c : Core) (k : Nat) (x : Mgr) : (c.setMgr k x).cfg = c.cfg := rfl
@[simp] theorem Core.setMgr_pwr (c : Core) (k : Nat) (x : Mgr) : (c.setMgr k x).pwr = c.pwr := rfl
@[simp] theorem Core.setMgr_rst (c : Core) (k : Nat) (x : Mgr) : (c.setMgr k x).rst = c.rst := rfl
@[simp] theorem Core.setMgr_mbx (c : Core) (k : Nat) (x : Mgr) : (c.setMgr k x).mbx = c.mbx := rfl
@[simp] theorem Core.setMgr_ptns (c : Core) (k : Nat) (x : Mgr) : (c.setMgr k x).ptns = c.ptns := rfl
@[simp] theorem Core.setMgr_hosts (c : Core) (k : Nat) (x : Mgr) : (c.setMgr k x).hosts = c.hosts := rfl
@[simp] theorem Core.setMgr_homes (c : Core) (k : Nat) (x : Mgr) : (c.setMgr k x).homes = c.homes := rfl
@[simp] theorem Core.setMgr_mem (c : Core) (k : Nat) (x : Mgr) : (c.setMgr k x).mem = c.mem := rfl
@[simp] theorem Core.setMgr_lineFlags (c : Core) (k : Nat) (x : Mgr) : (c.setMgr k x).lineFlags = c.lineFlags := rfl
@[simp] theorem Core.setMgr_hbmcs (c : Core) (k : Nat) (x : Mgr) : (c.setMgr k x).hbmcs = c.hbmcs := rfl
@[simp] theorem Core.setMgr_edges (c : Core) (k : Nat) (x : Mgr) : (c.setMgr k x).edges = c.edges := rfl
@[simp] theorem Core.setMgr_objs (c : Core) (k : Nat) (x : Mgr) : (c.setMgr k x).objs = c.objs := rfl
@[simp] theorem Core.setMgr_gateWait (c : Core) (k : Nat) (x : Mgr) : (c.setMgr k x).gateWait = c.gateWait := rfl
@[simp] theorem Core.setMgr_regions (c : Core) (k : Nat) (x : Mgr) : (c.setMgr k x).regions = c.regions := rfl
@[simp] theorem Core.setMgr_ports (c : Core) (k : Nat) (x : Mgr) : (c.setMgr k x).ports = c.ports := rfl
@[simp] theorem Core.setMgr_tmgr (c : Core) (k : Nat) (x : Mgr) : (c.setMgr k x).tmgr = c.tmgr := rfl
@[simp] theorem Core.setMgr_routers (c : Core) (k : Nat) (x : Mgr) : (c.setMgr k x).routers = c.routers := rfl
@[simp] theorem Core.setMgr_mesh (c : Core) (k : Nat) (x : Mgr) : (c.setMgr k x).mesh = c.mesh := rfl
@[simp] theorem Core.setMgr_mirrs (c : Core) (k : Nat) (x : Mgr) : (c.setMgr k x).mirrs = c.mirrs := rfl
@[simp] theorem Core.setMgr_mirrG (c : Core) (k : Nat) (x : Mgr) : (c.setMgr k x).mirrG = c.mirrG := rfl
@[simp] theorem Core.setMgr_tiles (c : Core) (k : Nat) (x : Mgr) : (c.setMgr k x).tiles = c.tiles := rfl
@[simp] theorem Core.setMgr_get_mb (c : Core) (k : Nat) (x : Mgr) (j : Nat) : (c.setMgr k x).mb j = c.mb j := rfl
@[simp] theorem Core.setMgr_get_ptn (c : Core) (k : Nat) (x : Mgr) (j : Nat) : (c.setMgr k x).ptn j = c.ptn j := rfl
@[simp] theorem Core.setMgr_get_host (c : Core) (k : Nat) (x : Mgr) (j : Nat) : (c.setMgr k x).host j = c.host j := rfl
@[simp] theorem Core.setMgr_get_home (c : Core) (k : Nat) (x : Mgr) (j : Nat) : (c.setMgr k x).home j = c.home j := rfl
@[simp] theorem Core.setMgr_get_hbmc (c : Core) (k : Nat) (x : Mgr) (j : Nat) : (c.setMgr k x).hbmc j = c.hbmc j := rfl
@[simp] theorem Core.setMgr_get_edge (c : Core) (k : Nat) (x : Mgr) (j : Nat) : (c.setMgr k x).edge j = c.edge j := rfl
@[simp] theorem Core.setMgr_get_obj (c : Core) (k : Nat) (x : Mgr) (j : Nat) : (c.setMgr k x).obj j = c.obj j := rfl
@[simp] theorem Core.setMgr_get_region (c : Core) (k : Nat) (x : Mgr) (j : Nat) : (c.setMgr k x).region j = c.region j := rfl
@[simp] theorem Core.setMgr_get_port (c : Core) (k : Nat) (x : Mgr) (j : Nat) : (c.setMgr k x).port j = c.port j := rfl
@[simp] theorem Core.setMgr_get_router (c : Core) (k : Nat) (x : Mgr) (j : Nat) : (c.setMgr k x).router j = c.router j := rfl
@[simp] theorem Core.setMgr_get_mirr (c : Core) (k : Nat) (x : Mgr) (j : Nat) : (c.setMgr k x).mirr j = c.mirr j := rfl
@[simp] theorem Core.setMgr_get_tile (c : Core) (k : Nat) (x : Mgr) (j : Nat) : (c.setMgr k x).tile j = c.tile j := rfl
@[simp] theorem Core.setMgr_get_keys (c : Core) (k : Nat) (x : Mgr) (j : Nat) : (c.setMgr k x).keys j = c.keys j := rfl
@[simp] theorem Core.setMgr_same (c : Core) (k : Nat) (x : Mgr) : (c.setMgr k x).mgr k = x := by simp [Core.setMgr, Core.mgr]
theorem Core.setMgr_get (c : Core) (k : Nat) (x : Mgr) (j : Nat) : (c.setMgr k x).mgr j = if j = k then x else c.mgr j := by simp [Core.setMgr, Core.mgr, tget_tput]
@[simp] theorem Core.setMgr_ne (c : Core) (k : Nat) (x : Mgr) {j : Nat} (h : j ≠ k) : (c.setMgr k x).mgr j = c.mgr j := by simp [Core.setMgr, Core.mgr, h]

/-! ### setUnit -/

@[simp] theorem Core.setUnit_pins (c : Core) (a i : Nat) (x : UnitRec) : (c.setUnit a i x).pins = c.pins := rfl
@[simp] theorem Core.setUnit_fresh (c : Core) (a i : Nat) (x : UnitRec) : (c.setUnit a i x).fresh = c.fresh := rfl
@[simp] theorem Core.setUnit_out (c : Core) (a i : Nat) (x : UnitRec) : (c.setUnit a i x).out = c.out := rfl
@[simp] theorem Core.setUnit_evc (c : Core) (a i : Nat) (x : UnitRec) : (c.setUnit a i x).evc = c.evc := rfl
@[simp] theorem Core.setUnit_erl (c : Core) (a i : Nat) (x : UnitRec) : (c.setUnit a i x).erl = c.erl := rfl
@[simp] theorem Core.setUnit_plog (c : Core) (a i : Nat) (x : UnitRec) : (c.setUnit a i x).plog = c.plog := rfl
@[simp] theorem Core.setUnit_sec (c : Core) (a i : Nat) (x : UnitRec) : (c.setUnit a i x).sec = c.sec := rfl
@[simp] theorem Core.setUnit_glb (c : Core) (a i : Nat) (x : UnitRec) : (c.setUnit a i x).glb = c.glb := rfl
@[simp] theorem Core.setUnit_cfg (c : Core) (a i : Nat) (x : UnitRec) : (c.setUnit a i x).cfg = c.cfg := rfl
@[simp] theorem Core.setUnit_pwr (c : Core) (a i : Nat) (x : UnitRec) : (c.setUnit a i x).pwr = c.pwr := rfl
@[simp] theorem Core.setUnit_rst (c : Core) (a i : Nat) (x : UnitRec) : (c.setUnit a i x).rst = c.rst := rfl
@[simp] theorem Core.setUnit_mbx (c : Core) (a i : Nat) (x : UnitRec) : (c.setUnit a i x).mbx = c.mbx := rfl
@[simp] theorem Core.setUnit_ptns (c : Core) (a i : Nat) (x : UnitRec) : (c.setUnit a i x).ptns = c.ptns := rfl
@[simp] theorem Core.setUnit_hosts (c : Core) (a i : Nat) (x : UnitRec) : (c.setUnit a i x).hosts = c.hosts := rfl
@[simp] theorem Core.setUnit_homes (c : Core) (a i : Nat) (x : UnitRec) : (c.setUnit a i x).homes = c.homes := rfl
@[simp] theorem Core.setUnit_mem (c : Core) (a i : Nat) (x : UnitRec) : (c.setUnit a i x).mem = c.mem := rfl
@[simp] theorem Core.setUnit_lineFlags (c : Core) (a i : Nat) (x : UnitRec) : (c.setUnit a i x).lineFlags = c.lineFlags := rfl
@[simp] theorem Core.setUnit_hbmcs (c : Core) (a i : Nat) (x : UnitRec) : (c.setUnit a i x).hbmcs = c.hbmcs := rfl
@[simp] theorem Core.setUnit_edges (c : Core) (a i : Nat) (x : UnitRec) : (c.setUnit a i x).edges = c.edges := rfl
@[simp] theorem Core.setUnit_objs (c : Core) (a i : Nat) (x : UnitRec) : (c.setUnit a i x).objs = c.objs := rfl
@[simp] theorem Core.setUnit_gateWait (c : Core) (a i : Nat) (x : UnitRec) : (c.setUnit a i x).gateWait = c.gateWait := rfl
@[simp] theorem Core.setUnit_regions (c : Core) (a i : Nat) (x : UnitRec) : (c.setUnit a i x).regions = c.regions := rfl
@[simp] theorem Core.setUnit_ports (c : Core) (a i : Nat) (x : UnitRec) : (c.setUnit a i x).ports = c.ports := rfl
@[simp] theorem Core.setUnit_tmgr (c : Core) (a i : Nat) (x : UnitRec) : (c.setUnit a i x).tmgr = c.tmgr := rfl
@[simp] theorem Core.setUnit_routers (c : Core) (a i : Nat) (x : UnitRec) : (c.setUnit a i x).routers = c.routers := rfl
@[simp] theorem Core.setUnit_mesh (c : Core) (a i : Nat) (x : UnitRec) : (c.setUnit a i x).mesh = c.mesh := rfl
@[simp] theorem Core.setUnit_mirrs (c : Core) (a i : Nat) (x : UnitRec) : (c.setUnit a i x).mirrs = c.mirrs := rfl
@[simp] theorem Core.setUnit_mirrG (c : Core) (a i : Nat) (x : UnitRec) : (c.setUnit a i x).mirrG = c.mirrG := rfl
@[simp] theorem Core.setUnit_tiles (c : Core) (a i : Nat) (x : UnitRec) : (c.setUnit a i x).tiles = c.tiles := rfl
@[simp] theorem Core.setUnit_get_mb (c : Core) (a i : Nat) (x : UnitRec) (j : Nat) : (c.setUnit a i x).mb j = c.mb j := rfl
@[simp] theorem Core.setUnit_get_ptn (c : Core) (a i : Nat) (x : UnitRec) (j : Nat) : (c.setUnit a i x).ptn j = c.ptn j := rfl
@[simp] theorem Core.setUnit_get_host (c : Core) (a i : Nat) (x : UnitRec) (j : Nat) : (c.setUnit a i x).host j = c.host j := rfl
@[simp] theorem Core.setUnit_get_home (c : Core) (a i : Nat) (x : UnitRec) (j : Nat) : (c.setUnit a i x).home j = c.home j := rfl
@[simp] theorem Core.setUnit_get_hbmc (c : Core) (a i : Nat) (x : UnitRec) (j : Nat) : (c.setUnit a i x).hbmc j = c.hbmc j := rfl
@[simp] theorem Core.setUnit_get_edge (c : Core) (a i : Nat) (x : UnitRec) (j : Nat) : (c.setUnit a i x).edge j = c.edge j := rfl
@[simp] theorem Core.setUnit_get_obj (c : Core) (a i : Nat) (x : UnitRec) (j : Nat) : (c.setUnit a i x).obj j = c.obj j := rfl
@[simp] theorem Core.setUnit_get_region (c : Core) (a i : Nat) (x : UnitRec) (j : Nat) : (c.setUnit a i x).region j = c.region j := rfl
@[simp] theorem Core.setUnit_get_port (c : Core) (a i : Nat) (x : UnitRec) (j : Nat) : (c.setUnit a i x).port j = c.port j := rfl
@[simp] theorem Core.setUnit_get_router (c : Core) (a i : Nat) (x : UnitRec) (j : Nat) : (c.setUnit a i x).router j = c.router j := rfl
@[simp] theorem Core.setUnit_get_mirr (c : Core) (a i : Nat) (x : UnitRec) (j : Nat) : (c.setUnit a i x).mirr j = c.mirr j := rfl
@[simp] theorem Core.setUnit_get_tile (c : Core) (a i : Nat) (x : UnitRec) (j : Nat) : (c.setUnit a i x).tile j = c.tile j := rfl
@[simp] theorem Core.setUnit_get_keys (c : Core) (a i : Nat) (x : UnitRec) (j : Nat) : (c.setUnit a i x).keys j = c.keys j := rfl
@[simp] theorem Core.setUnit_same (c : Core) (a i : Nat) (x : UnitRec) : (c.setUnit a i x).unit a i = x := by simp [Core.setUnit, Core.unit]
@[simp] theorem Core.setUnit_ust (c : Core) (a i : Nat) (x : UnitRec) : (c.setUnit a i x).ust a i = x.st := by simp [Core.ust]
@[simp] theorem Core.setUnit_get_mgr (c : Core) (a i : Nat) (x : UnitRec) (j : Nat) : (c.setUnit a i x).mgr j = c.mgr j := rfl

/-! ### A message sent -/

@[simp] theorem Core.send_pins (c : Core) (m : Msg) : (c.send m).pins = c.pins := rfl
@[simp] theorem Core.send_fresh (c : Core) (m : Msg) : (c.send m).fresh = c.fresh := rfl
@[simp] theorem Core.send_evc (c : Core) (m : Msg) : (c.send m).evc = c.evc := rfl
@[simp] theorem Core.send_erl (c : Core) (m : Msg) : (c.send m).erl = c.erl := rfl
@[simp] theorem Core.send_plog (c : Core) (m : Msg) : (c.send m).plog = c.plog := rfl
@[simp] theorem Core.send_sec (c : Core) (m : Msg) : (c.send m).sec = c.sec := rfl
@[simp] theorem Core.send_glb (c : Core) (m : Msg) : (c.send m).glb = c.glb := rfl
@[simp] theorem Core.send_cfg (c : Core) (m : Msg) : (c.send m).cfg = c.cfg := rfl
@[simp] theorem Core.send_pwr (c : Core) (m : Msg) : (c.send m).pwr = c.pwr := rfl
@[simp] theorem Core.send_rst (c : Core) (m : Msg) : (c.send m).rst = c.rst := rfl
@[simp] theorem Core.send_rot (c : Core) (m : Msg) : (c.send m).rot = c.rot := rfl
@[simp] theorem Core.send_mbx (c : Core) (m : Msg) : (c.send m).mbx = c.mbx := rfl
@[simp] theorem Core.send_ptns (c : Core) (m : Msg) : (c.send m).ptns = c.ptns := rfl
@[simp] theorem Core.send_hosts (c : Core) (m : Msg) : (c.send m).hosts = c.hosts := rfl
@[simp] theorem Core.send_homes (c : Core) (m : Msg) : (c.send m).homes = c.homes := rfl
@[simp] theorem Core.send_mem (c : Core) (m : Msg) : (c.send m).mem = c.mem := rfl
@[simp] theorem Core.send_lineFlags (c : Core) (m : Msg) : (c.send m).lineFlags = c.lineFlags := rfl
@[simp] theorem Core.send_hbmcs (c : Core) (m : Msg) : (c.send m).hbmcs = c.hbmcs := rfl
@[simp] theorem Core.send_edges (c : Core) (m : Msg) : (c.send m).edges = c.edges := rfl
@[simp] theorem Core.send_objs (c : Core) (m : Msg) : (c.send m).objs = c.objs := rfl
@[simp] theorem Core.send_gateWait (c : Core) (m : Msg) : (c.send m).gateWait = c.gateWait := rfl
@[simp] theorem Core.send_regions (c : Core) (m : Msg) : (c.send m).regions = c.regions := rfl
@[simp] theorem Core.send_ports (c : Core) (m : Msg) : (c.send m).ports = c.ports := rfl
@[simp] theorem Core.send_tmgr (c : Core) (m : Msg) : (c.send m).tmgr = c.tmgr := rfl
@[simp] theorem Core.send_routers (c : Core) (m : Msg) : (c.send m).routers = c.routers := rfl
@[simp] theorem Core.send_mesh (c : Core) (m : Msg) : (c.send m).mesh = c.mesh := rfl
@[simp] theorem Core.send_mirrs (c : Core) (m : Msg) : (c.send m).mirrs = c.mirrs := rfl
@[simp] theorem Core.send_mirrG (c : Core) (m : Msg) : (c.send m).mirrG = c.mirrG := rfl
@[simp] theorem Core.send_tiles (c : Core) (m : Msg) : (c.send m).tiles = c.tiles := rfl
@[simp] theorem Core.send_get_mb (c : Core) (m : Msg) (j : Nat) : (c.send m).mb j = c.mb j := rfl
@[simp] theorem Core.send_get_ptn (c : Core) (m : Msg) (j : Nat) : (c.send m).ptn j = c.ptn j := rfl
@[simp] theorem Core.send_get_host (c : Core) (m : Msg) (j : Nat) : (c.send m).host j = c.host j := rfl
@[simp] theorem Core.send_get_home (c : Core) (m : Msg) (j : Nat) : (c.send m).home j = c.home j := rfl
@[simp] theorem Core.send_get_hbmc (c : Core) (m : Msg) (j : Nat) : (c.send m).hbmc j = c.hbmc j := rfl
@[simp] theorem Core.send_get_edge (c : Core) (m : Msg) (j : Nat) : (c.send m).edge j = c.edge j := rfl
@[simp] theorem Core.send_get_obj (c : Core) (m : Msg) (j : Nat) : (c.send m).obj j = c.obj j := rfl
@[simp] theorem Core.send_get_region (c : Core) (m : Msg) (j : Nat) : (c.send m).region j = c.region j := rfl
@[simp] theorem Core.send_get_port (c : Core) (m : Msg) (j : Nat) : (c.send m).port j = c.port j := rfl
@[simp] theorem Core.send_get_router (c : Core) (m : Msg) (j : Nat) : (c.send m).router j = c.router j := rfl
@[simp] theorem Core.send_get_mirr (c : Core) (m : Msg) (j : Nat) : (c.send m).mirr j = c.mirr j := rfl
@[simp] theorem Core.send_get_tile (c : Core) (m : Msg) (j : Nat) : (c.send m).tile j = c.tile j := rfl
@[simp] theorem Core.send_get_keys (c : Core) (m : Msg) (j : Nat) : (c.send m).keys j = c.keys j := rfl
@[simp] theorem Core.send_get_mgr (c : Core) (m : Msg) (j : Nat) : (c.send m).mgr j = c.mgr j := rfl
@[simp] theorem Core.send_get_unit (c : Core) (m : Msg) (a b : Nat) : (c.send m).unit a b = c.unit a b := rfl
@[simp] theorem Core.send_get_ust (c : Core) (m : Msg) (a b : Nat) : (c.send m).ust a b = c.ust a b := rfl
@[simp] theorem Core.send_out (c : Core) (m : Msg) : (c.send m).out = c.out ++ [m] := rfl

end Sys2Proof.Machine
end

