-- ==== Sys2Proof/Laws/Ops.lean ====
section
/-! SUPPORT. What the shared operations can do: the shape of a meaning, the error log, interrupts and event counters. -/

namespace Sys2Proof.Machine
open Sys2Proof

/-! ### The shape of a meaning -/

theorem act_next {s : State} (h : s.dev.core.pins.railFault = false) (f : Dev → Dev) : act s f = .next { s with dev := f s.dev } := by
  simp [act, h]

theorem act_fault {s : State} (h : s.dev.core.pins.railFault = true) (f : Dev → Dev) : act s f = .fault .behaviourNotDefined := by
  simp [act, h]

/-- All that a meaning can answer. -/
theorem act_cases (s : State) (f : Dev → Dev) :
    (s.dev.core.pins.railFault = true ∧ act s f = .fault .behaviourNotDefined) ∨
    (s.dev.core.pins.railFault = false ∧ act s f = .next { s with dev := f s.dev }) := by
  cases h : s.dev.core.pins.railFault
  · exact Or.inr ⟨rfl, act_next h f⟩
  · exact Or.inl ⟨rfl, act_fault h f⟩

theorem actCore_next {s : State} (h : s.dev.core.pins.railFault = false) (f : Core → Core) :
    actCore s f = .next { s with dev := { s.dev with core := f s.dev.core } } := act_next h _

/-- The queue is left alone, and so is what survives a chip reset. -/
theorem actCore_inv {s t : State} {f : Core → Core} (h : actCore s f = .next t) :
    t.pending = s.pending ∧ t.dev.perm = s.dev.perm ∧ t.dev.core = f s.dev.core ∧ s.dev.core.pins.railFault = false := by
  rcases act_cases s (fun d => { d with core := f d.core }) with ⟨_, h'⟩ | ⟨h0, h'⟩
  · rw [actCore, h'] at h; cases h
  · rw [actCore, h'] at h; cases h; exact ⟨rfl, rfl, rfl, h0⟩

theorem act_inv {s t : State} {f : Dev → Dev} (h : act s f = .next t) :
    t.pending = s.pending ∧ t.dev = f s.dev ∧ s.dev.core.pins.railFault = false := by
  rcases act_cases s f with ⟨_, h'⟩ | ⟨h0, h'⟩
  · rw [h'] at h; cases h
  · rw [h'] at h; cases h; exact ⟨rfl, rfl, h0⟩

/-! ### Updates of one unit in sequence -/

theorem tdel_tdel {α : Type} (k : Nat) (t : Table α) : tdel k (tdel k t) = tdel k t := by
  induction t with
  | nil => rfl
  | cons e r ih => obtain ⟨i, a⟩ := e; by_cases h : i = k <;> simp [tdel, h, ih]

theorem tdel_tins {α : Type} (k : Nat) (v : α) (t : Table α) : tdel k (tins k v t) = tdel k t := by
  induction t with
  | nil => simp [tins, tdel]
  | cons e r ih =>
    obtain ⟨i, a⟩ := e
    by_cases hk : k < i
    · simp [tins, hk, tdel]
    · by_cases hi : i = k
      · subst hi; simp [tins, tdel, ih]
      · simp [tins, hk, tdel, hi, ih]

/-- The last of two writes of one record stands. -/
@[simp] theorem tput_tput {α : Type} [DecidableEq α] (d : α) (k : Nat) (v w : α) (t : Table α) : tput d k v (tput d k w t) = tput d k v t := by
  have h : tdel k (tput d k w t) = tdel k t := by
    unfold tput; split
    · exact tdel_tdel k t
    · rw [tdel_tins, tdel_tdel]
  unfold tput at h ⊢
  split
  · exact h
  · rw [h]

@[simp] theorem Core.setTile_setTile (c : Core) (k : Nat) (x y : Tile) : (c.setTile k x).setTile k y = c.setTile k y := by
  simp [Core.setTile]

theorem Core.modTile_eq (c : Core) (t : Nat) (f : Tile → Tile) : c.modTile t f = c.setTile t (f (c.tile t)) := rfl

@[simp] theorem Core.modTile_modTile (c : Core) (t : Nat) (f g : Tile → Tile) : (c.modTile t f).modTile t g = c.modTile t (fun x => g (f x)) := by
  simp [Core.modTile]

/-! ### The error log, interrupts and counters change nothing else -/

@[simp] theorem send_rest (m : Msg) (c : Core) : (c.send m).rest = c.rest := rfl

@[simp] theorem raiseInt_rest (v : Nat) (c : Core) : (raiseInt v c).rest = c.rest := by
  unfold raiseInt; dsimp only; split
  · rfl
  · split
    · rfl
    · split <;> rfl

@[simp] theorem ibi_rest (k : Nat) (c : Core) : (ibi k c).rest = c.rest := by
  unfold ibi; split <;> rfl

@[simp] theorem raiseService_rest (b : Nat) (c : Core) : (raiseService b c).rest = c.rest := by
  unfold raiseService; split
  · rfl
  · rw [ibi_rest, raiseInt_rest]; rfl

@[simp] theorem clearService_rest (b : Nat) (c : Core) : (clearService b c).rest = c.rest := rfl

theorem foldl_rest {α : Type} (f : Core → α → Core) (h : ∀ c a, (f c a).rest = c.rest) (l : List α) (c : Core) : (l.foldl f c).rest = c.rest := by
  induction l generalizing c with
  | nil => rfl
  | cons a r ih => rw [List.foldl_cons, ih, h]

theorem plog_rest (c : Core) (z : Table (List (BitVec 512))) : ({ c with plog := z } : Core).rest = c.rest := rfl

@[simp] theorem persist_rest (x : LogEntry) (c : Core) : (persist x c).rest = c.rest := by
  unfold persist; split
  · exact plog_rest c _
  · rfl

@[simp] theorem writeEntries_rest (l : List LogEntry) (c : Core) : (writeEntries l c).rest = c.rest := by
  unfold writeEntries; split
  · rfl
  · apply foldl_rest; intro c a; dsimp only; split
    · rw [persist_rest]; rfl
    · rfl

@[simp] theorem logInterrupt_rest (v : Nat) (c : Core) : (logInterrupt v c).rest = c.rest := by
  unfold logInterrupt; split
  · rw [ibi_rest, raiseInt_rest]
  · rfl

@[simp] theorem recordEvent_rest (es : List LogEntry) (c : Core) : (recordEvent es c).rest = c.rest := by
  have opened : ∀ (w : List LogWin) (c' c : Core), c'.rest = c.rest → ({ c' with erl := { c'.erl with logWins := w } } : Core).rest = c.rest :=
    fun _ _ _ h => h
  unfold recordEvent; dsimp only
  split
  · split
    · split
      · rfl
      · split
        · exact writeEntries_rest _ _
        · rw [logInterrupt_rest]; exact opened _ _ _ (writeEntries_rest _ _)
    · split
      · exact writeEntries_rest _ _
      · rw [logInterrupt_rest]; exact opened _ _ _ (writeEntries_rest _ _)
  · split
    · exact writeEntries_rest _ _
    · rw [logInterrupt_rest]; exact writeEntries_rest _ _

@[simp] theorem logRaw_rest (code a i : Nat) (p : Option Nat) (fs : List (Nat × Nat)) (c : Core) : (logRaw code a i p fs c).rest = c.rest := by
  unfold logRaw; dsimp only; split
  · split <;> rfl
  · exact recordEvent_rest _ _

theorem forEach_rest (l : List Nat) (f : Nat → Core → Core) (h : ∀ i c, (f i c).rest = c.rest) (c : Core) : (forEach l f c).rest = c.rest :=
  foldl_rest _ (fun c i => h i c) l c

theorem setUnit_rest (c : Core) (a i : Nat) (u : UnitRec) : (c.setUnit a i u).rest = c.rest := rfl

/-- Clearing the waiter records drops whatever an edge unit has lost of them before. -/
theorem clear_edges (f : Edge → Edge) (h : ∀ x : Edge, ({ f x with waiters := [] } : Edge) = { x with waiters := [] }) (l : List (Nat × Edge)) :
    ((((l.map (fun e => (e.1, f e.2))).filter (fun e => decide (e.2 ≠ {}))).map (fun e => (e.1, ({ e.2 with waiters := [] } : Edge)))).filter
      (fun e => decide (e.2 ≠ {}))) = (l.map (fun e => (e.1, ({ e.2 with waiters := [] } : Edge)))).filter (fun e => decide (e.2 ≠ {})) := by
  induction l with
  | nil => rfl
  | cons a r ih =>
    by_cases k : f a.2 = {}
    · have z : ({ a.2 with waiters := [] } : Edge) = {} := by rw [← h, k]
      simpa [k, z] using ih
    · simp only [List.map_cons, List.filter_cons, k, ne_eq, not_false_eq_true, decide_true, if_true, h] at ih ⊢
      rw [ih]

@[simp] theorem dropAllWaiters_rest (ls : List Nat) (c : Core) : (dropAllWaiters ls c).rest = c.rest := by
  have h := clear_edges (fun e => { e with waiters := e.waiters.filter (fun w => !(ls.contains w.c)) }) (fun _ => rfl) c.edges
  exact congrArg (fun e => { c.rest with edges := e }) h

@[simp] theorem modHbmc_rest (e : Nat) (f : Hbmc → Hbmc) (c : Core) : (c.modHbmc e f).rest = c.rest := rfl

@[simp] theorem sendOp_rest (e pc : Nat) (o : HbmOp) (b : Bool) (c : Core) : (sendOp e pc o b c).rest = c.rest := by
  unfold sendOp modPc; rw [send_rest, modHbmc_rest]

@[simp] theorem issueOp_rest (e pc : Nat) (o : HbmOp) (c : Core) : (issueOp e pc o c).rest = c.rest := by
  unfold issueOp modPc; rw [sendOp_rest, modHbmc_rest]

@[simp] theorem mdWriteBack_rest (e m : Nat) (c : Core) : (mdWriteBack e m c).rest = c.rest := by
  unfold mdWriteBack; dsimp only
  rw [foldl_rest _ (fun _ _ => issueOp_rest ..)]
  split
  · split
    · rfl
    · simp
  · simp

@[simp] theorem mdFlush_rest (e : Nat) (c : Core) : (mdFlush e c).rest = c.rest := by
  unfold mdFlush; dsimp only
  rw [modHbmc_rest]
  apply foldl_rest; intro c k; split
  · exact mdWriteBack_rest ..
  · rfl

@[simp] theorem enterSelfRefresh_rest (e : Nat) (c : Core) : (enterSelfRefresh e c).rest = c.rest := by
  unfold enterSelfRefresh; dsimp only
  rw [send_rest, modHbmc_rest, foldl_rest _ (fun _ _ => issueOp_rest ..), mdFlush_rest]

@[simp] theorem allSelfRefresh_rest (c : Core) : (allSelfRefresh c).rest = c.rest := by
  exact forEach_rest _ _ enterSelfRefresh_rest c

@[simp] theorem freeze_rest (k : BitVec 3) (chip : Bool) (c : Core) : (freeze k chip c).rest = c.rest := by
  unfold freeze; dsimp only
  split
  · rfl
  · split
    · rw [logRaw_rest, allSelfRefresh_rest]; rfl
    · split
      · rfl
      · rw [logRaw_rest]
        have h := forEach_rest (ptnTiles c (field c.evc.freezeCfg 20 16)) (fun t c =>
          let st : UnitSt := if c.ust 4 t = .failed then .failed else .fenced
          c.setUnit 4 t { c.unit 4 t with st := st, want := st }) (fun _ _ => rfl)
          (dropAllWaiters (((ptnTiles c (field c.evc.freezeCfg 20 16)).filter (fun t => decide (c.ust 4 t = .serving))).map (fun t => (c.tile t).logical)) c)
        exact congrArg (fun d : Core => { d with evc := c.rest.evc }) (h.trans (dropAllWaiters_rest _ c))

@[simp] theorem logE_rest (code a i : Nat) (p : Option Nat) (fs : List (Nat × Nat)) (c : Core) : (logE code a i p fs c).rest = c.rest := by
  unfold logE logFreeze; split
  · rw [freeze_rest, logRaw_rest]
  · exact logRaw_rest ..

@[simp] theorem bumpCounter_rest (a i k n : Nat) (c : Core) : (bumpCounter a i k n c).rest = c.rest := by
  unfold bumpCounter; dsimp only; split
  · rw [logE_rest]; rfl
  · rfl

@[simp] theorem countEvent_rest (a i ev n : Nat) (p : Option Nat) (c : Core) : (countEvent a i ev n p c).rest = c.rest := by
  unfold countEvent; split
  · rfl
  · dsimp only
    apply foldl_rest; intro c k; unfold bumpKey; split <;> exact bumpCounter_rest ..

/-- A field that `rest` keeps. -/
theorem rest_tiles {c d : Core} (h : c.rest = d.rest) : c.tiles = d.tiles := by have := congrArg Core.tiles h; exact this
theorem rest_mem {c d : Core} (h : c.rest = d.rest) : c.mem = d.mem := by have := congrArg Core.mem h; exact this
theorem rest_ptns {c d : Core} (h : c.rest = d.rest) : c.ptns = d.ptns := by have := congrArg Core.ptns h; exact this
theorem rest_ports {c d : Core} (h : c.rest = d.rest) : c.ports = d.ports := by have := congrArg Core.ports h; exact this
theorem rest_homes {c d : Core} (h : c.rest = d.rest) : c.homes = d.homes := by have := congrArg Core.homes h; exact this
theorem rest_objs {c d : Core} (h : c.rest = d.rest) : c.objs = d.objs := by have := congrArg Core.objs h; exact this
theorem rest_regions {c d : Core} (h : c.rest = d.rest) : c.regions = d.regions := by have := congrArg Core.regions h; exact this
theorem rest_mirrs {c d : Core} (h : c.rest = d.rest) : c.mirrs = d.mirrs := by have := congrArg Core.mirrs h; exact this
theorem rest_hosts {c d : Core} (h : c.rest = d.rest) : c.hosts = d.hosts := by have := congrArg Core.hosts h; exact this
theorem rest_mbx {c d : Core} (h : c.rest = d.rest) : c.mbx = d.mbx := by have := congrArg Core.mbx h; exact this
theorem rest_sec {c d : Core} (h : c.rest = d.rest) : c.sec = d.sec := by have := congrArg Core.sec h; exact this
theorem rest_pins {c d : Core} (h : c.rest = d.rest) : c.pins = d.pins := by have := congrArg Core.pins h; exact this
theorem rest_pwr {c d : Core} (h : c.rest = d.rest) : c.pwr = d.pwr := by have := congrArg Core.pwr h; exact this
theorem rest_mesh {c d : Core} (h : c.rest = d.rest) : c.mesh = d.mesh := by have := congrArg Core.mesh h; exact this
theorem rest_routers {c d : Core} (h : c.rest = d.rest) : c.routers = d.routers := by have := congrArg Core.routers h; exact this
theorem rest_lineFlags {c d : Core} (h : c.rest = d.rest) : c.lineFlags = d.lineFlags := by have := congrArg Core.lineFlags h; exact this
theorem rest_ready {c d : Core} (h : c.rest = d.rest) : c.glb.ready = d.glb.ready := by have := congrArg (fun c => c.glb.ready) h; exact this

end Sys2Proof.Machine
end

