-- ==== Sys2Proof/Laws/Yk.lean ====
section
/-! SUPPORT. What the shared operations of the kernel instructions can do: registers, lanes, the way in which a sequencer runs an
instruction, and traps. -/

namespace Sys2Proof.Machine
open Sys2Proof

/-! ### Registers and lanes -/

theorem rdX_zero (q : Seq) : rdX q 0 = 0 := rfl

theorem rdX_wrX (q : Seq) (d k : BitVec 5) (v : BitVec 64) :
    rdX (wrX q d v) k = if k = d ∧ d ≠ 0 then v else rdX q k := by
  have z : (0 : BitVec 5) = 0#5 := rfl
  unfold rdX wrX
  rw [z]
  by_cases hd : d = 0#5
  · subst hd; by_cases hk : k = 0#5 <;> simp [hk]
  · by_cases hk : k = 0#5
    · subst hk; simp [Ne.symm hd]
    · by_cases h : k = d
      · subst h; simp [hk]
      · have : k.toNat ≠ d.toNat := fun e => h (BitVec.eq_of_toNat_eq e)
        simp [hd, hk, h, this]

@[simp] theorem rdX_pc (q : Seq) (a : BitVec 64) (k : BitVec 5) : rdX { q with pc := a } k = rdX q k := rfl

theorem packLanes_shift (l : List (BitVec 32)) (i : Nat) (h : i < l.length) :
    (packLanes l >>> (32 * i)) % 2 ^ 32 = (l[i]).toNat := by
  induction l generalizing i with
  | nil => simp at h
  | cons a r ih =>
    cases i with
    | zero =>
      simp only [packLanes, Nat.mul_zero, Nat.shiftRight_zero, List.getElem_cons_zero, Nat.add_mul_mod_self_left]
      exact Nat.mod_eq_of_lt a.isLt
    | succ i =>
      have h' : i < r.length := by simpa using h
      have e : (packLanes (a :: r)) >>> (32 * (i + 1)) = packLanes r >>> (32 * i) := by
        rw [show 32 * (i + 1) = 32 + 32 * i by ring, Nat.shiftRight_add]
        congr 1
        rw [packLanes, Nat.shiftRight_eq_div_pow, Nat.add_mul_div_left _ _ (by decide), Nat.div_eq_of_lt a.isLt, Nat.zero_add]
      rw [e, List.getElem_cons_succ, ih i h']

theorem packLanes_lt (l : List (BitVec 32)) : packLanes l < 2 ^ (32 * l.length) := by
  induction l with
  | nil => simp [packLanes]
  | cons a r ih =>
    have := a.isLt
    rw [packLanes, List.length_cons, show 32 * (r.length + 1) = 32 + 32 * r.length by ring, pow_add]
    nlinarith

/-- Lane `i` of a vector given lane by lane (R158). -/
theorem lane_mkVec (f : Nat → BitVec 32) (i : Nat) (h : i < 64) : lane (mkVec f) i = f i := by
  have hl : ((List.range 64).map f).length = 64 := by simp
  have hp := packLanes_lt ((List.range 64).map f)
  rw [hl] at hp
  have hs := packLanes_shift ((List.range 64).map f) i (by simpa using h)
  unfold lane mkVec
  apply BitVec.eq_of_toNat_eq
  rw [BitVec.toNat_ofNat, BitVec.toNat_ofNat, Nat.mod_eq_of_lt (a := packLanes _) hp, hs]
  simp

theorem rdV_wrVP (u : Vec) (d k : BitVec 5) (v : VReg) (p : Bool) : rdV (wrVP u d v p) k = if k = d then v else rdV u k := by
  unfold rdV wrVP wrV
  by_cases h : k = d
  · subst h; simp
  · have : k.toNat ≠ d.toNat := fun e => h (BitVec.eq_of_toNat_eq e)
    simp [h, this]

theorem mem_setIn (l : List Nat) (k j : Nat) (on : Bool) : j ∈ setIn l k on ↔ (j ≠ k ∧ j ∈ l) ∨ (j = k ∧ on = true) := by
  unfold setIn
  cases on <;> simp [and_comm]

theorem vPoisoned_wrVP (u : Vec) (d k : BitVec 5) (v : VReg) (p : Bool) :
    vPoisoned (wrVP u d v p) k = if k = d then p else vPoisoned u k := by
  unfold vPoisoned wrVP wrV
  by_cases h : k = d
  · subst h
    rw [if_pos rfl, Bool.eq_iff_iff]
    simp [mem_setIn]
  · have h' : k.toNat ≠ d.toNat := fun e => h (BitVec.eq_of_toNat_eq e)
    rw [if_neg h, Bool.eq_iff_iff]
    simp [mem_setIn, h']

/-! ### Running an instruction -/

/-- The parts of `ykReady`. -/
theorem ykReady_iff (c : Core) (r : YkRow) (t : Nat) (f : YkF) : ykReady c r t f = true ↔
    tileIssues c t = true ∧ (asyncPending (c.tile t).seq && !(c.tile t).seq.inTrap) = false ∧ (c.tile t).seq.pc.toNat % 8 = 0 ∧
    (c.tile t).seq.pc.toNat < lsSize ∧ (c.tile t).lsPoison.contains ((c.tile t).seq.pc.toNat / 64) = false ∧ r.legal f = true ∧
    awaitsValue (c.tile t).seq r f = false ∧ vecFull (c.tile t).vec r = false := by
  unfold ykReady
  simp only [Bool.and_eq_true, Bool.not_eq_true', decide_eq_true_eq, and_assoc]

/-- What an instruction that meets no obstacle does: its own rules alone. -/
theorem ykStep_ready {c : Core} {r : YkRow} {t : Nat} {f : YkF} (body : Core → YkRes) (h : ykReady c r t f = true) :
    ykStep r t f body c = match body c with
      | .go c' => (vecIssue r t c').modTile t (fun x => { x with seq := { x.seq with pc := (c.tile t).seq.pc + 8 } })
      | .stay c' => c'
      | .trap cause info next => takeTrap t cause false info (if next then (c.tile t).seq.pc + 8 else (c.tile t).seq.pc) c
      | .jump c' a =>
        if a.toNat % 8 ≠ 0 then takeTrap t 2 false a (c.tile t).seq.pc c
        else if lsSize ≤ a.toNat then takeTrap t 3 false a (c.tile t).seq.pc c
        else c'.modTile t (fun x => { x with seq := { x.seq with pc := a } }) := by
  obtain ⟨h1, h2, h3, h4, h5, h6, h7, h8⟩ := (ykReady_iff c r t f).mp h
  unfold ykStep
  simp only [h1, h2, h3, h5, h6, h7, h8, Bool.not_true, Bool.false_eq_true, if_false, ne_eq, not_true_eq_false, not_le.mpr h4] <;>
    (cases body c <;> rfl)

theorem ykStep_go {c c' : Core} {r : YkRow} {t : Nat} {f : YkF} {body : Core → YkRes} (h : ykReady c r t f = true)
    (hb : body c = .go c') : ykStep r t f body c = (vecIssue r t c').modTile t (fun x => { x with seq := { x.seq with pc := (c.tile t).seq.pc + 8 } }) := by
  rw [ykStep_ready body h, hb]

theorem ykStep_stay {c c' : Core} {r : YkRow} {t : Nat} {f : YkF} {body : Core → YkRes} (h : ykReady c r t f = true)
    (hb : body c = .stay c') : ykStep r t f body c = c' := by
  rw [ykStep_ready body h, hb]

theorem ykStep_trap {c : Core} {r : YkRow} {t : Nat} {f : YkF} {body : Core → YkRes} {cause : Nat} {info : BitVec 64} {next : Bool}
    (h : ykReady c r t f = true) (hb : body c = .trap cause info next) :
    ykStep r t f body c = takeTrap t cause false info (if next then (c.tile t).seq.pc + 8 else (c.tile t).seq.pc) c := by
  rw [ykStep_ready body h, hb]

/-- An instruction of another unit leaves the vector queue alone. -/
theorem vecIssue_other {r : YkRow} (h : ofVecUnit r = false) (t : Nat) (c : Core) : vecIssue r t c = c := by
  simp [vecIssue, h]

/-- All that a sequencer can do when it meets an instruction: nothing, a trap, an asynchronous trap, a wait for the vector queue, or the
instruction's own result with the PC moved. -/
theorem ykStep_cases (r : YkRow) (t : Nat) (f : YkF) (body : Core → YkRes) (c : Core) :
    ykStep r t f body c = c ∨ ykStep r t f body c = takeAsync t c ∨ (∃ k i a, ykStep r t f body c = takeTrap t k false i a c) ∨
    (ykReady c r t f = true ∧ ∃ c', ((∃ d, body c = .go d ∧ c' = vecIssue r t d) ∨ ∃ a, body c = .jump c' a) ∧
      ∃ a, ykStep r t f body c = c'.modTile t (fun x => { x with seq := { x.seq with pc := a } })) ∨
    (ykReady c r t f = true ∧ ∃ c', body c = .stay c' ∧ ykStep r t f body c = c') ∨
    (vecFull (c.tile t).vec r = true ∧
      ykStep r t f body c = vecWait t c) := by
  by_cases h : ykReady c r t f = true
  · rw [ykStep_ready body h]
    cases hb : body c with
    | go c' => exact Or.inr (Or.inr (Or.inr (Or.inl ⟨h, _, Or.inl ⟨c', rfl, rfl⟩, _, rfl⟩)))
    | stay c' => exact Or.inr (Or.inr (Or.inr (Or.inr (Or.inl ⟨h, c', rfl, rfl⟩))))
    | trap k i n => exact Or.inr (Or.inr (Or.inl ⟨_, _, _, rfl⟩))
    | jump c' a =>
      dsimp only
      split
      · exact Or.inr (Or.inr (Or.inl ⟨_, _, _, rfl⟩))
      · split
        · exact Or.inr (Or.inr (Or.inl ⟨_, _, _, rfl⟩))
        · exact Or.inr (Or.inr (Or.inr (Or.inl ⟨h, c', Or.inr ⟨a, rfl⟩, _, rfl⟩)))
  · have h' := mt (ykReady_iff c r t f).mpr h
    generalize hy : ykStep r t f body c = y
    unfold ykStep at hy
    by_cases h1 : tileIssues c t = true
    · by_cases h2 : (asyncPending (c.tile t).seq && !(c.tile t).seq.inTrap) = false
      · by_cases h3 : (c.tile t).seq.pc.toNat % 8 = 0
        · by_cases h4 : (c.tile t).seq.pc.toNat < lsSize
          · by_cases h5 : (c.tile t).lsPoison.contains ((c.tile t).seq.pc.toNat / 64) = false
            · by_cases h6 : r.legal f = true
              · by_cases h7 : awaitsValue (c.tile t).seq r f = false
                · by_cases h8 : vecFull (c.tile t).vec r = false
                  · exact absurd ⟨h1, h2, h3, h4, h5, h6, h7, h8⟩ h'
                  · rw [Bool.not_eq_false] at h8
                    simp only [h1, h2, h3, not_le.mpr h4, h5, h6, h7, h8, Bool.not_true, Bool.false_eq_true, if_false, ne_eq,
                      not_true_eq_false, if_true] at hy
                    exact Or.inr (Or.inr (Or.inr (Or.inr (Or.inr ⟨h8, hy.symm⟩))))
                · simp only [h1, h2, h3, not_le.mpr h4, h5, h6, h7, Bool.not_true, Bool.false_eq_true, if_false, ne_eq, not_true_eq_false,
                    Bool.not_eq_false, if_true] at hy h7
                  exact Or.inl hy.symm
              · simp only [h1, h2, h3, not_le.mpr h4, h5, h6, Bool.not_true, Bool.false_eq_true, if_false, ne_eq, not_true_eq_false,
                  Bool.not_false, if_true] at hy
                exact Or.inr (Or.inr (Or.inl ⟨_, _, _, hy.symm⟩))
            · rw [Bool.not_eq_false] at h5
              simp only [h1, h2, h3, not_le.mpr h4, h5, Bool.not_true, Bool.false_eq_true, if_false, ne_eq, not_true_eq_false, if_true] at hy
              exact Or.inr (Or.inr (Or.inl ⟨_, _, _, hy.symm⟩))
          · simp only [h1, h2, h3, not_lt.mp h4, Bool.not_true, Bool.false_eq_true, if_false, ne_eq, not_true_eq_false, if_true] at hy
            exact Or.inr (Or.inr (Or.inl ⟨_, _, _, hy.symm⟩))
        · simp only [h1, h2, h3, Bool.not_true, Bool.false_eq_true, if_false, ne_eq, not_false_eq_true, if_true] at hy
          exact Or.inr (Or.inr (Or.inl ⟨_, _, _, hy.symm⟩))
      · rw [Bool.not_eq_false] at h2
        simp only [h1, h2, Bool.not_true, Bool.false_eq_true, if_false, if_true] at hy
        exact Or.inr (Or.inl hy.symm)
    · simp only [h1, Bool.not_false, if_true] at hy; exact Or.inl hy.symm

/-- An instruction that meets no obstacle, at the level of the command. -/
theorem actCore_ykStep {s : State} {r : YkRow} {t : Nat} {f : YkF} {body : Core → YkRes} (hs : s.ok = true) :
    actCore s (ykStep r t f body) = .next (s.withCore (ykStep r t f body s.dev.core)) :=
  actCore_next (by simpa [State.ok] using hs) _

/-- An instruction of class 0 that meets no obstacle: x[D] is written and the PC moves on. -/
theorem aluInstr_next {s : State} {r : YkRow} {t : Nat} {f : YkF} {g : BitVec 64 → BitVec 64 → BitVec 64} (hs : s.ok = true)
    (h : ykReady s.dev.core r t f = true) (hv : ofVecUnit r = false) :
    aluInstr r g t f s = .next (xDone s t f.d (g (rdX (s.dev.core.tile t).seq f.a) (opB (s.dev.core.tile t).seq f))) := by
  unfold aluInstr
  rw [actCore_ykStep hs, ykStep_ready _ h]
  dsimp only
  rw [vecIssue_other hv]
  unfold Core.modSeq
  rw [Core.modTile_modTile]
  rfl

/-- Words that an aligned access of a power of two up to 64 bytes touches: one. -/
theorem wordsOf_aligned {a n : Nat} (hn : n ∈ [1, 2, 4, 8, 16, 32, 64]) (ha : a % n = 0) : wordsOf a n = [a / 64] := by
  have : n ≠ 0 := by rintro rfl; simp at hn
  have e : (a + n - 1) / 64 - a / 64 = 0 := by
    simp only [List.mem_cons, List.not_mem_nil, or_false] at hn
    rcases hn with rfl | rfl | rfl | rfl | rfl | rfl | rfl <;> omega
  unfold wordsOf
  rw [if_neg this, e]
  simp

theorem poisonIn_aligned (x : Tile) {a n : Nat} (hn : n ∈ [1, 2, 4, 8, 16, 32, 64]) (ha : a % n = 0) :
    poisonIn x a n = if a / 64 ∈ x.lsPoison then [a / 64] else [] := by
  unfold poisonIn
  rw [wordsOf_aligned hn ha]
  by_cases h : a / 64 ∈ x.lsPoison <;> simp [h]

/-- A clean store of at most 32 bytes clears no poison. -/
theorem poisonWrite_part (x : Tile) {a n : Nat} (hn : n ∈ [1, 2, 4, 8, 16, 32]) (ha : a % n = 0) : poisonWrite x a n false = x := by
  unfold poisonWrite
  have hn' : n ∈ [1, 2, 4, 8, 16, 32, 64] := by simp only [List.mem_cons] at hn ⊢; tauto
  rw [wordsOf_aligned hn' ha]
  have : ¬(a ≤ 64 * (a / 64) ∧ 64 * (a / 64) + 64 ≤ a + n) := by
    simp only [List.mem_cons, List.not_mem_nil, or_false] at hn
    rcases hn with rfl | rfl | rfl | rfl | rfl | rfl <;> omega
  simp [this]

/-! ### Traps -/

theorem setTile_rest {d e : Core} (h : d.rest = e.rest) (t : Nat) (x : Tile) : (d.setTile t x).rest = (e.setTile t x).rest := by
  have h2 := congrArg (fun r : Core => r.setTile t x) h
  exact h2

/-- A trap changes the tile's trap frame, its state, its PC and its work item's status; beside that only the log and the counters. -/
theorem takeTrap_rest (t cause : Nat) (async : Bool) (info tpc : BitVec 64) (c : Core) :
    ∃ q w, (takeTrap t cause async info tpc c).rest = (c.setTile t { c.tile t with fTrap := true, seq := q, work := w }).rest ∧
      q.x = (c.tile t).seq.x := by
  unfold takeTrap; dsimp only
  split
  · exact ⟨_, (c.tile t).work, setTile_rest (countEvent_rest 4 t 13 1 (some (c.tile t).ptn) c) t _, rfl⟩
  · refine ⟨_, _, (logE_rest ..).trans (setTile_rest (countEvent_rest 4 t 13 1 (some (c.tile t).ptn) c) t _), ?_⟩
    rfl

end Sys2Proof.Machine
end

