-- ==== Sys2Proof/WellFormed.lean ====
section
/-! DEFINITION. Which commands name units, channels and fields that exist: the range of every operand. -/

namespace Sys2Proof

/-- A unit of a class of R316: tiles for clusters and routers, 16 homes, controllers and edge units, 8 ports. -/
def unitWf (cls i : Nat) : Bool :=
  ((cls == 4 || cls == 5) && decide (i < 840)) || ((cls == 6 || cls == 7 || cls == 8) && decide (i < 16)) || (cls == 9 && decide (i < 8))

def Origin.wf (o : Origin) : Bool := decide (o.idx < 4096) && decide (o.port < 8) && decide (o.chan < 8) && decide (o.sig.getD 0 < 4096)
def SnpResp.wf (r : SnpResp) : Bool := decide (r.h < 4096)
def EgPkt.wf (k : EgPkt) : Bool := decide (k.ptn < 32)
/-- A flit carries at most 15 slots (R367). -/
def Flit.wf (f : Flit) : Bool := decide (f.slots.length ≤ 15)
/-- A multicast tree is one of 64, and the packets that escape are unicasts (R406). -/
def MeshPkt.wf (k : MeshPkt) : Bool := decide (k.tree < 64) && decide (k.inp < 5) && !(k.esc && decide (k.kind = 3))
def ReplPkt.wf (_ : ReplPkt) : Bool := true
def RsyncPkt.wf (_ : RsyncPkt) : Bool := true
/-- A line of the data or, in the system area, of what lies behind the metadata and the spare pages, which are the controller's own (R34,
R270). -/
def HbmReq.wf (k : HbmReq) : Bool :=
  decide (k.addr % 128 = 0) && (decide (k.addr < 0xE00000000) || (decide (0xFE0000000 ≤ k.addr) && decide (k.addr < 0x1000000000)))
def HbmData.wf (k : HbmData) : Bool := decide (k.source < 4)
/-- Lanes of R290. -/
def TrnReport.wf (k : TrnReport) : Bool := k.errs.all (fun x => decide (x.1 < 2880))
def ScrubRow.wf (k : ScrubRow) : Bool := decide (k.cls < 6) && decide (k.unit < 840)
def Temps.wf (k : Temps) : Bool := decide (k.die.length ≤ 857) && decide (k.hbm.length ≤ 16) && decide (k.optics.length ≤ 8)
def RingAddr.wf (a : RingAddr) : Bool := decide (a.p < 32) && decide (a.r < 16) && a.o.wf
def RegAddr.wf (a : RegAddr) : Bool := decide (a.p < 32) && a.o.wf
def DmaResp.wf (_ : DmaResp) : Bool := true
/-- A PUSH packet stays inside the local store (R142). -/
def PushPkt.wf (k : PushPkt) : Bool := decide (k.src < 840) && decide (k.chan < 8) && decide (k.addr + k.bytes.length ≤ 0x200000)

/-- A command whose operands lie in their ranges. -/
def Instr.wf : Instr → Bool
  | .powerOn => true
  | .resetNAssert => true
  | .resetNRelease => true
  | .rstChip _ => true
  | .chipResetQuiesceDone => true
  | .firmwareStart => true
  | .katDone cls idx stage => unitWf cls idx && decide (stage < 16)
  | .systemAreaTestDone e _ _ => decide (e < 16)
  | .readiness => true
  | .readinessTimeout => true
  | .stepCompleteReport p mgr => decide (p < 32) && decide (mgr < 6)
  | .liningLine e p => decide (e < 16) && decide (p < 32)
  | .registerWrite a _ => a.wf
  | .rcRead _ _ _ => true
  | .tickLoRead _ => true
  | .evcLoRead _ _ => true
  | .evcClear _ _ => true
  | .evcHold _ => true
  | .bar0AccessTimeout _ _ => true
  | .perstN => true
  | .flr => true
  | .doeRequest _ _ _ => true
  | .i3cSetOffset _ => true
  | .i3cPrivateRead => true
  | .i3cPrivateWrite _ _ => true
  | .entdaa _ => true
  | .rstdaa => true
  | .getpid => true
  | .getbcr => true
  | .getdcr => true
  | .getstatus => true
  | .enec _ => true
  | .disec _ => true
  | .setmwl _ => true
  | .getmwl => true
  | .setmrl _ => true
  | .getmrl => true
  | .mailboxGo ch o => decide (ch < 48) && o.wf
  | .unlistedRequest ch => decide (ch < 48)
  | .extMap ch => decide (ch < 48)
  | .extGrant ch => decide (ch < 48)
  | .extRevoke ch => decide (ch < 48)
  | .extUnmap ch => decide (ch < 48)
  | .hostAdmit ch => decide (ch < 48)
  | .hostRemove ch => decide (ch < 48)
  | .hostFence ch => decide (ch < 48)
  | .snapCreate ch => decide (ch < 48)
  | .snapDestroy ch => decide (ch < 48)
  | .syncSet ch => decide (ch < 48)
  | .pageRetire ch => decide (ch < 48)
  | .retireLineCopy e _ => decide (e < 16)
  | .rotate ch => decide (ch < 48)
  | .ptnLine ch => decide (ch < 48)
  | .consent ch => decide (ch < 48)
  | .attest ch => decide (ch < 48)
  | .attestSignDone => true
  | .reportChunk ch => decide (ch < 48)
  | .svnCommit ch => decide (ch < 48)
  | .unitState ch => decide (ch < 48)
  | .flashErase ch _ => decide (ch < 48)
  | .flashWrite ch _ => decide (ch < 48)
  | .flashRead ch _ => decide (ch < 48)
  | .imageTune ch => decide (ch < 48)
  | .imageReconfig ch => decide (ch < 48)
  | .imageSelect ch => decide (ch < 48)
  | .echo ch => decide (ch < 48)
  | .grantExpiry p i => decide (p < 32) && decide (i < 896)
  | .queuedRevocationStart p => decide (p < 32)
  | .extentEntryInstall e p i => decide (e < 16) && decide (p < 32) && decide (i < 896)
  | .commitMarker n e _ _ => decide (n < 8) && decide (e < 16)
  | .requestIngress n _ _ => decide (n < 8)
  | .rdShared e o _ => decide (e < 16) && o.wf
  | .rdOwn e o _ => decide (e < 16) && o.wf
  | .rdOnce e o _ => decide (e < 16) && o.wf
  | .upgrade e o _ => decide (e < 16) && o.wf
  | .wrFull e o _ => decide (e < 16) && o.wf
  | .wrPart e o _ => decide (e < 16) && o.wf
  | .dirtyEvict e o _ => decide (e < 16) && o.wf
  | .reservedRequest e o _ => decide (e < 16) && o.wf
  | .snpAckI e r => decide (e < 16) && r.wf
  | .snpAckS e r => decide (e < 16) && r.wf
  | .snpAckData e r => decide (e < 16) && r.wf
  | .cmpAck e h _ => decide (e < 16) && decide (h < 4096)
  | .snoopTimeout e _ => decide (e < 16)
  | .salvageTimeout e _ => decide (e < 16)
  | .fenceApply cls idx h => unitWf cls idx && decide (h < 4096)
  | .fenceWalkDone h => decide (h < 4096)
  | .recallWalkDone e p => decide (e < 16) && decide (p < 32)
  | .faultEvent p cause _ => decide (p < 32) && decide (1 ≤ cause ∧ cause ≤ 5)
  | .faultEventWindow p cause => decide (p < 32) && decide (1 ≤ cause ∧ cause ≤ 5)
  | .openPleat r o slot _ => decide (r < 1024) && o.wf && decide (slot < 8)
  | .closePleat r o slot => decide (r < 1024) && o.wf && decide (slot < 8)
  | .commitPleat r o _ => decide (r < 1024) && o.wf
  | .queuedCommitStart r => decide (r < 1024)
  | .snapViewBadWrite r o _ => decide (r < 1024) && o.wf
  | .sealMarker e r => decide (e < 16) && decide (r < 1024)
  | .sealAnswer e r => decide (e < 16) && decide (r < 1024)
  | .retireMarker e r => decide (e < 16) && decide (r < 1024)
  | .retireWalkDone e r => decide (e < 16) && decide (r < 1024)
  | .retireReport e r => decide (e < 16) && decide (r < 1024)
  | .pageCopyDone e page => decide (e < 16) && decide (page < 917504)
  | .egressEnqueue n k => decide (n < 8) && k.wf
  | .flitSend n _ => decide (n < 8)
  | .payloadFlit n f => decide (n < 8) && f.wf
  | .idleFlit n f => decide (n < 8) && f.wf
  | .flitCrcError n f => decide (n < 8) && f.wf
  | .portInit n f => decide (n < 8) && f.wf
  | .initDone n f => decide (n < 8) && f.wf
  | .portRetrain n f => decide (n < 8) && f.wf
  | .portResume n f => decide (n < 8) && f.wf
  | .replayTimeout n => decide (n < 8)
  | .creditStallTimeout n vc => decide (n < 8) && decide (vc < 4)
  | .lockLoss n => decide (n < 8)
  | .laserLow n _ => decide (n < 8)
  | .linkEnable n _ => decide (n < 8)
  | .linkDisable n => decide (n < 8)
  | .linkRetrain n => decide (n < 8)
  | .linkDown n => decide (n < 8)
  | .portTrainingDone n _ _ => decide (n < 8)
  | .trainTimeout n => decide (n < 8)
  | .initTimeout n => decide (n < 8)
  | .portRetrainDone n _ => decide (n < 8)
  | .portRetrainTimeout n => decide (n < 8)
  | .downRetry n _ => decide (n < 8)
  | .capArm n => decide (n < 8)
  | .capGo n => decide (n < 8)
  | .cmapRead n _ _ => decide (n < 8)
  | .routerForward t k => decide (t < 840) && k.wf
  | .escapeThreshold t k => decide (t < 840) && k.wf
  | .aimdWindow t => decide (t < 840)
  | .congestionInterval _ => true
  | .drainMarker mgr inj => decide (mgr < 6) && unitWf (inj / 4096) (inj % 4096)
  | .drainPoll => true
  | .routeDrainTimeout _ => true
  | .meterSettingWrite _ _ _ => true
  | .replicatedRequest p o _ => decide (p < 32) && o.wf
  | .repl p k => decide (p < 32) && k.wf
  | .replAck p _ _ => decide (p < 32)
  | .rsync p k => decide (p < 32) && k.wf
  | .resyncLine p => decide (p < 32)
  | .cuffRenew p => decide (p < 32)
  | .cuffGrant p _ _ _ => decide (p < 32)
  | .leaseExpiry p => decide (p < 32)
  | .replTimeout p _ => decide (p < 32)
  | .peerTimeout p => decide (p < 32)
  | .peerStateSend p => decide (p < 32)
  | .peerState p _ _ _ _ => decide (p < 32)
  | .release p => decide (p < 32)
  | .takeCuff p => decide (p < 32)
  | .lineRead e k => decide (e < 16) && k.wf
  | .lineWrite e k => decide (e < 16) && k.wf
  | .hbmCommandIssue e pc => decide (e < 16) && decide (pc < 64)
  | .hbmReadData e k => decide (e < 16) && k.wf
  | .refreshDeadline e pc => decide (e < 16) && decide (pc < 64)
  | .openPageTimeout e pc bank => decide (e < 16) && decide (pc < 64) && decide (bank < 64)
  | .selfRefreshIdle e => decide (e < 16)
  | .selfRefreshExit e => decide (e < 16)
  | .parityAlert e c => decide (e < 16) && decide (c < 32)
  | .parityAlertClear e c => decide (e < 16) && decide (c < 32)
  | .alertRecoveryTimeout e c => decide (e < 16) && decide (c < 32)
  | .commandBufferRetire e pc => decide (e < 16) && decide (pc < 64)
  | .hbmRetrainSlice e c => decide (e < 16) && decide (c < 32)
  | .hbmRetrain e c => decide (e < 16) && decide (c < 32)
  | .hbmRetrainLimit e c => decide (e < 16) && decide (c < 32)
  | .trainingGo e _ => decide (e < 16)
  | .trainingRunDone e k => decide (e < 16) && k.wf
  | .patrolStep e _ => decide (e < 16)
  | .sramScrubRow k => k.wf
  | .sramForcedScrub k => k.wf
  | .stackFailed e => decide (e < 16)
  | .sweepLine e p _ => decide (e < 16) && decide (p < 32)
  | .sweepLapEnd e p => decide (e < 16) && decide (p < 32)
  | .erlTailWrite _ => true
  | .logCoalesceWindow code _ unit => decide (code < 65536) && decide (unit < 4096)
  | .unitFault cls idx => unitWf cls idx
  | .unitCommand cls idx _ => unitWf cls idx
  | .unitForce cls idx _ => unitWf cls idx
  | .drainComplete cls idx => unitWf cls idx
  | .unitCommandTimeout cls idx => unitWf cls idx
  | .reconcilerPass mgr => decide (mgr < 6)
  | .rotWatchdogKick => true
  | .rotWatchdogExpiry => true
  | .rotResume => true
  | .managerWatchdogExpiry mgr => decide (mgr < 6)
  | .managerRestart mgr => decide (mgr < 6)
  | .powerInterval _ => true
  | .iccLimitExceeded _ => true
  | .iccClampRelease _ => true
  | .thermalSample k => k.wf
  | .parkDelay t => decide (t < 840)
  | .sequencerReset t => decide (t < 840)
  | .sequencerResetDone t => decide (t < 840)
  | .clusterReset t => decide (t < 840)
  | .partitionReset p _ => decide (p < 32)
  | .seamTimeout p => decide (p < 32)
  | .freezeGo => true
  | .freezePin => true
  | .jtagSegmentOpen cls idx => unitWf cls idx
  | .ringCtrlWrite a _ => a.wf
  | .ringBaseWrite a _ _ => a.wf
  | .ringTailWrite a _ => a.wf
  | .ringCplAckWrite a _ => a.wf
  | .descriptorFetch p => decide (p < 32)
  | .descriptorReadRefused p => decide (p < 32)
  | .reduce p => decide (p < 32)
  | .gatherpool p => decide (p < 32)
  | .attend p => decide (p < 32)
  | .optstep p => decide (p < 32)
  | .requant p => decide (p < 32)
  | .copyOp p => decide (p < 32)
  | .fillOp p => decide (p < 32)
  | .kernel p => decide (p < 32)
  | .commandStart p => decide (p < 32)
  | .workItem t => decide (t < 840)
  | .clusterReport t => decide (t < 840)
  | .recordWriteAnswer p _ => decide (p < 32)
  | .commandTimeout p r _ => decide (p < 32) && decide (r < 16)
  | .produce obj o _ => decide (obj < 4096) && o.wf
  | .consume obj o _ => decide (obj < 4096) && o.wf
  | .arrive obj o _ _ => decide (obj < 4096) && o.wf
  | .signal obj o _ => decide (obj < 4096) && o.wf
  | .waitAvail obj c _ => decide (obj < 4096) && decide (c < 800)
  | .waitSpace obj c _ => decide (obj < 4096) && decide (c < 800)
  | .waitBarrier obj c _ => decide (obj < 4096) && decide (c < 800)
  | .cancel obj c => decide (obj < 4096) && decide (c < 800)
  | .syncRead obj c _ => decide (obj < 4096) && decide (c < 800)
  | .initObject obj o _ _ => decide (obj < 4096) && o.wf
  | .clearFault obj o => decide (obj < 4096) && o.wf
  | .syncViewBadWrite obj o _ => decide (obj < 4096) && o.wf
  | .ack t obj _ _ => decide (t < 840) && decide (obj < 4096)
  | .wake t obj => decide (t < 840) && decide (obj < 4096)
  | .value t _ => decide (t < 840)
  | .longWaitGate t => decide (t < 840)
  | .deadlockWindow p => decide (p < 32)
  | .descriptorStart t c => decide (t < 840) && decide (c < 8)
  | .dmaLineIssue t c => decide (t < 840) && decide (c < 8)
  | .dmaResponse t c r => decide (t < 840) && decide (c < 8) && r.wf
  | .dmaReissue t c _ => decide (t < 840) && decide (c < 8)
  | .dmaTimeout t c => decide (t < 840) && decide (c < 8)
  | .pushData t k => decide (t < 840) && k.wf
  | .autoGate t => decide (t < 840)
  | .clusterWakeDone t => decide (t < 840)
  | .asyncTrap t => decide (t < 840)
  | .illegal t _ => decide (t < 840)
  | .add t f => decide (t < 840) && rowAdd.legal f
  | .sub t f => decide (t < 840) && rowSub.legal f
  | .and t f => decide (t < 840) && rowAnd.legal f
  | .or t f => decide (t < 840) && rowOr.legal f
  | .xor t f => decide (t < 840) && rowXor.legal f
  | .sll t f => decide (t < 840) && rowSll.legal f
  | .srl t f => decide (t < 840) && rowSrl.legal f
  | .sra t f => decide (t < 840) && rowSra.legal f
  | .slt t f => decide (t < 840) && rowSlt.legal f
  | .sltu t f => decide (t < 840) && rowSltu.legal f
  | .min t f => decide (t < 840) && rowMin.legal f
  | .max t f => decide (t < 840) && rowMax.legal f
  | .minu t f => decide (t < 840) && rowMinu.legal f
  | .maxu t f => decide (t < 840) && rowMaxu.legal f
  | .mul t f => decide (t < 840) && rowMul.legal f
  | .mulh t f => decide (t < 840) && rowMulh.legal f
  | .mulhu t f => decide (t < 840) && rowMulhu.legal f
  | .div t f => decide (t < 840) && rowDiv.legal f
  | .divu t f => decide (t < 840) && rowDivu.legal f
  | .rem t f => decide (t < 840) && rowRem.legal f
  | .remu t f => decide (t < 840) && rowRemu.legal f
  | .li t f => decide (t < 840) && rowLi.legal f
  | .lih t f => decide (t < 840) && rowLih.legal f
  | .lb t f => decide (t < 840) && rowLb.legal f
  | .lh t f => decide (t < 840) && rowLh.legal f
  | .lw t f => decide (t < 840) && rowLw.legal f
  | .ld t f => decide (t < 840) && rowLd.legal f
  | .lbu t f => decide (t < 840) && rowLbu.legal f
  | .lhu t f => decide (t < 840) && rowLhu.legal f
  | .lwu t f => decide (t < 840) && rowLwu.legal f
  | .sb t f => decide (t < 840) && rowSb.legal f
  | .sh t f => decide (t < 840) && rowSh.legal f
  | .sw t f => decide (t < 840) && rowSw.legal f
  | .sd t f => decide (t < 840) && rowSd.legal f
  | .beq t f => decide (t < 840) && rowBeq.legal f
  | .bne t f => decide (t < 840) && rowBne.legal f
  | .blt t f => decide (t < 840) && rowBlt.legal f
  | .bge t f => decide (t < 840) && rowBge.legal f
  | .bltu t f => decide (t < 840) && rowBltu.legal f
  | .bgeu t f => decide (t < 840) && rowBgeu.legal f
  | .jal t f => decide (t < 840) && rowJal.legal f
  | .jalr t f => decide (t < 840) && rowJalr.legal f
  | .halt t f => decide (t < 840) && rowHalt.legal f
  | .nop t f => decide (t < 840) && rowNop.legal f
  | .trapi t f => decide (t < 840) && rowTrapi.legal f
  | .tret t f => decide (t < 840) && rowTret.legal f
  | .fence t f => decide (t < 840) && rowFence.legal f
  | .srr t f => decide (t < 840) && rowSrr.legal f
  | .srw t f => decide (t < 840) && rowSrw.legal f
  | .vadd t f => decide (t < 840) && rowVadd.legal f
  | .vsub t f => decide (t < 840) && rowVsub.legal f
  | .vmul t f => decide (t < 840) && rowVmul.legal f
  | .vfma t f => decide (t < 840) && rowVfma.legal f
  | .vmax t f => decide (t < 840) && rowVmax.legal f
  | .vmin t f => decide (t < 840) && rowVmin.legal f
  | .vabs t f => decide (t < 840) && rowVabs.legal f
  | .vneg t f => decide (t < 840) && rowVneg.legal f
  | .vexp2 t f => decide (t < 840) && rowVexp2.legal f
  | .vrcp t f => decide (t < 840) && rowVrcp.legal f
  | .vrsqrt t f => decide (t < 840) && rowVrsqrt.legal f
  | .vclt t f => decide (t < 840) && rowVclt.legal f
  | .vcle t f => decide (t < 840) && rowVcle.legal f
  | .vceq t f => decide (t < 840) && rowVceq.legal f
  | .viadd t f => decide (t < 840) && rowViadd.legal f
  | .visub t f => decide (t < 840) && rowVisub.legal f
  | .vimul t f => decide (t < 840) && rowVimul.legal f
  | .vand t f => decide (t < 840) && rowVand.legal f
  | .vor t f => decide (t < 840) && rowVor.legal f
  | .vxor t f => decide (t < 840) && rowVxor.legal f
  | .vshl t f => decide (t < 840) && rowVshl.legal f
  | .vshr t f => decide (t < 840) && rowVshr.legal f
  | .vsra t f => decide (t < 840) && rowVsra.legal f
  | .viclt t f => decide (t < 840) && rowViclt.legal f
  | .vsel t f => decide (t < 840) && rowVsel.legal f
  | .vbcast t f => decide (t < 840) && rowVbcast.legal f
  | .viota t f => decide (t < 840) && rowViota.legal f
  | .vext t f => decide (t < 840) && rowVext.legal f
  | .vins t f => decide (t < 840) && rowVins.legal f
  | .vrsum t f => decide (t < 840) && rowVrsum.legal f
  | .vrmax t f => decide (t < 840) && rowVrmax.legal f
  | .vrmin t f => decide (t < 840) && rowVrmin.legal f
  | .vld t f => decide (t < 840) && rowVld.legal f
  | .vlds t f => decide (t < 840) && rowVlds.legal f
  | .vldg t f => decide (t < 840) && rowVldg.legal f
  | .vst t f => decide (t < 840) && rowVst.legal f
  | .vsts t f => decide (t < 840) && rowVsts.legal f
  | .vstg t f => decide (t < 840) && rowVstg.legal f
  | .vrda t f => decide (t < 840) && rowVrda.legal f
  | .vwra t f => decide (t < 840) && rowVwra.legal f
  | .vq t f => decide (t < 840) && rowVq.legal f
  | .vdq t f => decide (t < 840) && rowVdq.legal f
  | .vcvti t f => decide (t < 840) && rowVcvti.legal f
  | .vcvtf t f => decide (t < 840) && rowVcvtf.legal f
  | .tldd t f => decide (t < 840) && rowTldd.legal f
  | .tadd t f => decide (t < 840) && rowTadd.legal f
  | .tload t f => decide (t < 840) && rowTload.legal f
  | .tmul t f => decide (t < 840) && rowTmul.legal f
  | .azero t f => decide (t < 840) && rowAzero.legal f
  | .dmaq t f => decide (t < 840) && rowDmaq.legal f
  | .dmawait t f => decide (t < 840) && rowDmawait.legal f
  | .dmares t f => decide (t < 840) && rowDmares.legal f
  | .dmastat t f => decide (t < 840) && rowDmastat.legal f
  | .sprod t f => decide (t < 840) && rowSprod.legal f
  | .scons t f => decide (t < 840) && rowScons.legal f
  | .swaita t f => decide (t < 840) && rowSwaita.legal f
  | .swaits t f => decide (t < 840) && rowSwaits.legal f
  | .sarr t f => decide (t < 840) && rowSarr.legal f
  | .swaitb t f => decide (t < 840) && rowSwaitb.legal f
  | .sread t f => decide (t < 840) && rowSread.legal f
  | .powerDown _ => true

end Sys2Proof
end

