-- ==== Sys2Proof/Tests/Slice0.lean ====
section
/-! SUPPORT. Tests: ill-formed operands that the check refuses, words decoded, worked examples of the manual, one or two results of
commands, and for every statement a concrete state and operands that meet its hypotheses. -/

open Sys2Proof Sys2Proof.Machine

namespace Sys2Proof.Tests

set_option maxRecDepth 20000
set_option Elab.async false

/-- A device with a core, out of reset. -/
def mk (c : Core) : State := ⟨[], ⟨{}, { c with pins := { c.pins with resetN := true } }⟩⟩

/-- What `g` reads from the next state; nothing where the step stops. -/
def out (r : Host.Outcome State Fault Refusal) (g : Core → α) : Option α :=
  match r with
  | .next u => some (g u.dev.core)
  | _ => none

def fld (d a b : BitVec 5) (imm : BitVec 32) : YkF := ⟨false, d, a, b, 0, imm⟩
def fldI (d a : BitVec 5) (imm : BitVec 32) : YkF := ⟨true, d, a, 0, 0, imm⟩

/-- Tile 0 Active in a Serving cluster, its sequencer running at PC 0, changed by `g`. -/
def tS (g : Tile → Tile) : State :=
  mk { rot := { units := [(16384, { st := .serving })] }, tiles := [(0, g { power := .active, seq := { st := .running } })] }

/-- Scalar registers. -/
def tX (l : List (Nat × BitVec 64)) (x : Tile) : Tile := { x with seq := { x.seq with x := l } }

/-- x[k] of tile 0. -/
def xr (k : BitVec 5) (c : Core) : BitVec 64 := rdX (c.tile 0).seq k

/-! ### Ill-formed operands -/

theorem test_wf_ok : (Instr.add 839 (fld 31 31 31 0)).wf = true := by decide
theorem test_wf_tile : (Instr.add 840 (fld 0 0 0 0)).wf = false := by decide
theorem test_wf_field : (Instr.halt 0 (fld 1 0 0 0)).wf = false := by decide
theorem test_wf_channel : (Instr.echo 48).wf = false := by decide
theorem test_wf_home : (Instr.sweepLapEnd 16 0).wf = false := by decide
theorem test_wf_partition : (Instr.sweepLapEnd 0 32).wf = false := by decide
theorem test_wf_port : (Instr.linkDisable 8).wf = false := by decide
theorem test_wf_vc : (Instr.creditStallTimeout 0 4).wf = false := by decide
theorem test_wf_unit : unitWf 9 8 = false ∧ unitWf 4 840 = false ∧ unitWf 6 16 = false ∧ unitWf 3 0 = false := by decide
theorem test_wf_extent : (Instr.grantExpiry 0 896).wf = false := by decide
theorem test_wf_host : (Instr.cmpAck 0 4096 0).wf = false := by decide
theorem test_wf_region : (Instr.queuedCommitStart 1024).wf = false := by decide
theorem test_wf_slot : (Instr.closePleat 0 ⟨1, 0, 0, 0, 0, none, 0⟩ 8).wf = false := by decide
theorem test_wf_flit : Flit.wf { blankFlit with slots := List.replicate 16 0 } = false := by decide
theorem test_wf_fault_cause : (Instr.faultEvent 0 6 0).wf = false ∧ (Instr.faultEvent 0 0 0).wf = false := by decide
theorem test_wf_origin : Origin.wf ⟨1, 4096, 0, 0, 0, none, 0⟩ = false ∧ Origin.wf ⟨1, 0, 0, 8, 0, none, 0⟩ = false ∧
    Origin.wf ⟨0, 0, 0, 0, 8, none, 0⟩ = false ∧ Origin.wf ⟨0, 0, 0, 0, 0, some 4096, 0⟩ = false := by decide
theorem test_wf_snoop : SnpResp.wf ⟨4096, 0, false, false, 0⟩ = false := by decide
theorem test_wf_egress : EgPkt.wf ⟨32, .mgt 0 0 0 []⟩ = false := by decide
theorem test_wf_mesh : MeshPkt.wf ⟨.request, 0, 1, 0, false, false, 64, false, 0, 0, 0, false, none⟩ = false ∧
    MeshPkt.wf ⟨.request, 0, 1, 0, false, false, 0, false, 0, 0, 5, false, none⟩ = false := by decide
theorem test_wf_hbm : HbmData.wf ⟨0, 0, 4⟩ = false ∧ TrnReport.wf ⟨[(2880, 1)], false, 0, false⟩ = false ∧ HbmReq.wf ⟨64, 0⟩ = false ∧
    HbmReq.wf ⟨0xF00000000, 0⟩ = false := by decide
theorem test_wf_scrub : ScrubRow.wf ⟨6, 0, 0, 0, 0, false, none⟩ = false ∧ ScrubRow.wf ⟨0, 840, 0, 0, 0, false, none⟩ = false := by decide
theorem test_wf_temps : Temps.wf ⟨[], List.replicate 17 0, []⟩ = false ∧ Temps.wf ⟨[], [], List.replicate 9 0⟩ = false := by decide
theorem test_wf_ring : RingAddr.wf ⟨32, 0, ⟨1, 0, 0, 0, 0, none, 0⟩, true⟩ = false ∧ RingAddr.wf ⟨0, 16, ⟨1, 0, 0, 0, 0, none, 0⟩, true⟩ = false := by decide
theorem test_wf_reg : RegAddr.wf ⟨0, 0, 32, ⟨3, 0, 0, 0, 0, none, 0⟩, true⟩ = false := by decide
theorem test_wf_push : PushPkt.wf ⟨0, 0, 0, 0x1FFFFF, [0, 0], false, false, none, none⟩ = false := by decide
theorem test_wf_kat : (Instr.katDone 4 0 16).wf = false := by decide

/-! ### Words of kernel instructions, written out from R162 and the tables of R164 to R183: CLASS [3:0], OP [11:4], D [16:12],
A [21:17], B [26:22], C [31:27], IMM [63:32] -/

/-- A word from its fields as bits, most significant first. -/
def w64 (imm : BitVec 32) (c b a d : BitVec 5) (op : BitVec 8) (cls : BitVec 4) : BitVec 64 := imm ++ c ++ b ++ a ++ d ++ op ++ cls

theorem test_dec_tmul : ykDecode 0x0001000000041037 = some (rowTmul, ⟨false, 1, 2, 0, 0, 0x10000⟩) := by decide
theorem test_dec_sub : ykDecode (w64 0 0 0b00011 0b00010 0b00001 0b00000001 0b0000) = some (rowSub, fld 1 2 3 0) := by decide
theorem test_dec_addi : ykDecode (w64 0xFFFFFFFF 0 0 0b11111 0b11110 0b10000000 0b0000) = some (rowAdd, fldI 30 31 0xFFFFFFFF) := by decide
theorem test_dec_li : ykDecode (w64 0x80000000 0 0 0 0b00101 0b10100000 0b0000) = some (rowLi, fld 5 0 0 0x80000000) := by decide
theorem test_dec_lw : ykDecode (w64 0xFFFFFFFC 0 0 0b00010 0b00111 0b00000010 0b0001) = some (rowLw, fld 7 2 0 0xFFFFFFFC) := by decide
theorem test_dec_sb : ykDecode (w64 1 0 0 0b00010 0b00111 0b00001000 0b0001) = some (rowSb, fld 7 2 0 1) := by decide
theorem test_dec_bne : ykDecode (w64 0xFFFFFFF8 0 0b00100 0b00011 0 0b00000001 0b0010) = some (rowBne, fld 0 3 4 0xFFFFFFF8) := by decide
theorem test_dec_jalr : ykDecode (w64 0 0 0 0b00001 0 0b00001001 0b0010) = some (rowJalr, fld 0 1 0 0) := by decide
theorem test_dec_srr : ykDecode (w64 0x030 0 0 0 0b00110 0 0b0011) = some (rowSrr, fld 6 0 0 0x30) := by decide
theorem test_dec_vfma : ykDecode (w64 0 0b00100 0b00011 0b00010 0b00001 0b00000011 0b0100) = some (rowVfma, ⟨false, 1, 2, 3, 4, 0⟩) := by decide
theorem test_dec_vaddb : ykDecode (w64 0 0 0b00011 0b00010 0b00001 0b10000000 0b0100) = some (rowVadd, ⟨true, 1, 2, 3, 0, 0⟩) := by decide
theorem test_dec_vstg : ykDecode (w64 0x07E00000 0 0b00011 0b00010 0b00001 0b00000110 0b0101) = some (rowVstg, fld 1 2 3 0x07E00000) := by decide
theorem test_dec_vq : ykDecode (w64 0x13 0 0 0b00010 0b00001 0 0b0110) = some (rowVq, fld 1 2 0 0x13) := by decide
theorem test_dec_tload : ykDecode (w64 2 0 0 0 0b00111 0b00000010 0b0111) = some (rowTload, fld 7 0 0 2) := by decide
theorem test_dec_dmastat : ykDecode (w64 0 0 0 0b01010 0b00011 0b00000011 0b1000) = some (rowDmastat, fld 3 10 0 0) := by decide
theorem test_dec_sarr : ykDecode (w64 0 0 0b00010 0b00001 0 0b00000100 0b1001) = some (rowSarr, fld 0 1 2 0) := by decide
theorem test_dec_illegal : ykDecode (w64 0 0 0 0 0 0 0b1010) = none ∧ ykDecode (w64 0 0 0 0 0 0b00011000 0) = none ∧
    ykDecode (w64 0 0b00001 0 0 0 0 0) = none ∧ ykDecode (w64 0x1000 0 0 0 0 0 0b0011) = none := by decide

/-! ### Kernel instructions: the hypotheses of the statements, and results -/

/-- The rows meet no obstacle on tile 0 with the fields given. -/
def ready (s : State) (f : YkF) (l : List YkRow) : Bool := s.ok && l.all (fun r => ykReady s.dev.core r 0 f)

def rows0 : List YkRow := [rowAdd, rowSub, rowAnd, rowOr, rowXor, rowSll, rowSrl, rowSra, rowSlt, rowSltu, rowMin, rowMax, rowMinu, rowMaxu]

theorem test_hyp_scalar : ready (tS id) (fld 1 2 3 0) (rows0 ++ [rowMul, rowMulh, rowMulhu, rowDiv, rowDivu, rowRem, rowRemu]) = true ∧
    ready (tS id) (fldI 31 31 0xFFFFFFFF) rows0 = true ∧ ready (tS id) (fld 0 31 31 0) rows0 = true ∧
    ready (tS id) (fld 1 0 0 0x80000000) [rowLi, rowLih] = true := by decide +kernel
theorem test_add_wraps : out (exec (.add 0 (fldI 1 2 2)) (tS (tX [(2, 0xFFFFFFFFFFFFFFFF)]))) (xr 1) = some 1 := by decide
theorem test_sub_b_minus : out (exec (.sub 0 (fld 1 2 3 0)) (tS (tX [(2, 5), (3, 7)]))) (xr 1) = some (-2) := by decide
theorem test_sra_sign : out (exec (.sra 0 (fldI 1 2 68)) (tS (tX [(2, -32)]))) (xr 1) = some (-2) := by decide
theorem test_srl_zero : out (exec (.srl 0 (fldI 1 2 60)) (tS (tX [(2, -1)]))) (xr 1) = some 15 := by decide
theorem test_slt_signed : out (exec (.slt 0 (fldI 1 2 0)) (tS (tX [(2, -1)]))) (xr 1) = some 1 ∧
    out (exec (.sltu 0 (fldI 1 2 0)) (tS (tX [(2, -1)]))) (xr 1) = some 0 := by decide
theorem test_min_max : out (exec (.min 0 (fld 1 2 3 0)) (tS (tX [(2, -1), (3, 1)]))) (xr 1) = some (-1) ∧
    out (exec (.minu 0 (fld 1 2 3 0)) (tS (tX [(2, -1), (3, 1)]))) (xr 1) = some 1 := by decide
theorem test_mulh : out (exec (.mulh 0 (fld 1 2 3 0)) (tS (tX [(2, -1), (3, 1)]))) (xr 1) = some (-1) ∧
    out (exec (.mulhu 0 (fld 1 2 3 0)) (tS (tX [(2, -1), (3, 2)]))) (xr 1) = some 1 := by decide
theorem test_div_corners : out (exec (.div 0 (fld 1 2 3 0)) (tS (tX [(2, 7)]))) (xr 1) = some (-1) ∧
    out (exec (.div 0 (fldI 1 2 0xFFFFFFFF)) (tS (tX [(2, 0x8000000000000000)]))) (xr 1) = some 0x8000000000000000 := by decide
theorem test_rem_sign : out (exec (.rem 0 (fldI 1 2 2)) (tS (tX [(2, -7)]))) (xr 1) = some (-1) ∧
    out (exec (.rem 0 (fld 1 2 3 0)) (tS (tX [(2, 7)]))) (xr 1) = some 7 := by decide
theorem test_lih_keeps : out (exec (.lih 0 (fld 1 0 0 0x12345678)) (tS (tX [(1, 0xAABBCCDD11223344)]))) (xr 1) = some 0x1234567811223344 := by decide
theorem test_x0 : out (exec (.li 0 (fld 0 0 0 5)) (tS id)) (xr 0) = some 0 := by decide

/-- Local-store bytes and poisoned words. -/
def tL (l : Mem) (z : List Nat) (x : Tile) : Tile := { x with ls := l, lsPoison := z }

theorem test_hyp_loads : ready (tS (tX [(2, 64)])) (fld 1 2 0 8) [rowLb, rowLh, rowLw, rowLd, rowLbu, rowLhu, rowLwu] = true ∧
    (64 + 8) % 8 = 0 ∧ 72 < lsSize ∧ (72 / 64) ∉ (tS (tX [(2, 64)]) |>.dev.core.tile 0).lsPoison ∧
    (72 / 64) ∈ (tS (tL [] [1]) |>.dev.core.tile 0).lsPoison ∧ ready (tS (tL [] [1])) (fld 1 2 0 72) [rowLb, rowLd] = true ∧
    (0x1FFFF8 % 8 = 0 ∧ 0x1FFFF8 < lsSize) ∧ (0x200000 % 8 = 0 ∧ lsSize ≤ 0x200000) ∧ 0x200001 % 2 ≠ 0 := by decide
theorem test_lb_sign : out (exec (.lb 0 (fld 1 2 0 1)) (tS (tL [(1, 0x80)] []))) (xr 1) = some (-128) ∧
    out (exec (.lbu 0 (fld 1 2 0 1)) (tS (tL [(1, 0x80)] []))) (xr 1) = some 0x80 := by decide
theorem test_lw_order : out (exec (.lwu 0 (fld 1 2 0 4)) (tS (tL [(4, 0x11), (7, 0x44)] []))) (xr 1) = some 0x44000011 := by decide
theorem test_ld_align : out (exec (.ld 0 (fld 1 2 0 4)) (tS id)) (fun c => ((c.tile 0).seq.tcause, (c.tile 0).seq.tinfo)) = some (4, 4) := by decide
theorem test_lb_range : out (exec (.lb 0 (fld 1 2 0 0x200000)) (tS id)) (fun c => (c.tile 0).seq.tcause) = some 5 := by decide
theorem test_lb_poison : out (exec (.lb 0 (fld 1 2 0 72)) (tS (tL [] [1]))) (fun c => (xr 1 c, (c.tile 0).seq.pendLs)) =
    some (0, some 0x4000000000000048) := by decide
theorem test_hyp_stores : ready (tS (tX [(2, 64), (1, 5)])) (fld 1 2 0 8) [rowSb, rowSh, rowSw, rowSd] = true := by decide
theorem test_sh_low : out (exec (.sh 0 (fld 1 2 0 2)) (tS (tX [(1, 0xAABBCC)]))) (fun c => (c.tile 0).ls) = some [(2, 0xCC), (3, 0xBB)] := by decide
theorem test_sd_range : out (exec (.sd 0 (fld 1 2 0 0x200000)) (tS id)) (fun c => ((c.tile 0).seq.tcause, (c.tile 0).ls)) = some (5, []) := by decide

/-- The PC, a trap vector and what else a sequencer holds. -/
def tQ (g : Seq → Seq) (x : Tile) : Tile := { x with seq := g x.seq }
def tAt (a : BitVec 64) : Tile → Tile := tQ (fun q => { q with pc := a })

theorem test_hyp_branches : ready (tS (tAt 16)) (fld 0 1 2 0xFFFFFFF8) [rowBeq, rowBne, rowBlt, rowBge, rowBltu, rowBgeu] = true ∧
    ready (tS (tAt 16)) (fld 1 0 0 8) [rowJal] = true ∧ ready (tS (tAt 16)) (fld 1 2 0 8) [rowJalr] = true ∧
    ready (tS (tAt 16)) (fld 0 0 0 0) [rowTret, rowNop] = true ∧ ready (tS (tAt 0x1FFFF8)) (fld 0 0 0 0) [rowNop] = true ∧
    ((16 : BitVec 64) + 0xFFFFFFFFFFFFFFF8).toNat % 8 = 0 ∧ ((16 : BitVec 64) + 4).toNat % 8 ≠ 0 ∧ lsSize ≤ ((16 : BitVec 64) + 0x1FFFF0).toNat ∧
    ((16 : BitVec 64) + 0x1FFFF0).toNat % 8 = 0 := by decide
theorem test_hyp_fetch_range : tileIssues (tS (tAt 0x200000)).dev.core 0 = true ∧
    (asyncPending ((tS (tAt 0x200000)).dev.core.tile 0).seq && !((tS (tAt 0x200000)).dev.core.tile 0).seq.inTrap) = false := by decide
theorem test_beq_taken : out (exec (.beq 0 (fld 0 1 2 0xFFFFFFF8)) (tS (tAt 16))) (fun c => (c.tile 0).seq.pc) = some 8 ∧
    out (exec (.bne 0 (fld 0 1 2 0xFFFFFFF8)) (tS (tAt 16))) (fun c => (c.tile 0).seq.pc) = some 24 := by decide
theorem test_jalr_links : out (exec (.jalr 0 (fld 1 1 0 9)) (tS (tQ (fun q => { q with pc := 16, x := [(1, 64)] }))))
    (fun c => ((c.tile 0).seq.pc, xr 1 c)) = some (72, 24) := by decide
theorem test_jal_align : out (exec (.jal 0 (fld 1 0 0 4)) (tS (tAt 16))) (fun c => ((c.tile 0).seq.tcause, (c.tile 0).seq.tpc, (c.tile 0).seq.tinfo, xr 1 c)) =
    some (2, 16, 20, 0) := by decide
theorem test_fetch_range : out (exec (.nop 0 (fld 0 0 0 0)) (tS (tAt 0x200000))) (fun c => ((c.tile 0).seq.tcause, (c.tile 0).seq.tinfo)) =
    some (3, 0x200000) := by decide

theorem test_hyp_traps : ready (tS id) (fld 0 0 0 7) [rowTrapi] = true ∧ ykDecode 10 = none ∧ ready (tS id) (fld 0 0 0 0) [rowNop] = true ∧
    ((tS (tQ (fun q => { q with tvec := 64 }))).dev.core.tile 0).seq.tvec ≠ 0 := by decide
theorem test_trapi_handler : out (exec (.trapi 0 (fld 0 0 0 7)) (tS (tQ (fun q => { q with tvec := 64 }))))
    (fun c => let q := (c.tile 0).seq; (q.tcause, q.tinfo, q.tpc, q.pc, q.inTrap)) = some (11, 7, 8, 64, true) := by decide
theorem test_illegal_traps : out (exec (.illegal 0 10) (tS id)) (fun c => let q := (c.tile 0).seq; (q.tcause, q.tinfo, q.tpc, q.st)) =
    some (1, 10, 0, .trapped) := by decide
theorem test_illegal_field : out (exec (.halt 0 (fld 1 0 0 0)) (tS id)) (fun c => let q := (c.tile 0).seq; (q.tcause, q.tinfo)) = some (1, 0x1102) := by decide

/-- A work item of cluster index 0. -/
def tW (x : Tile) : Tile := { x with work := some { p := 0, r := 0, idx := 0, ci := 0, count := 1, kernel := true, desc := 0 } }

theorem test_hyp_halt_fence : ready (tS tW) (fld 0 0 0 0) [rowHalt, rowFence] = true ∧
    ((tS tW).dev.core.tile 0).vec.arrayQ = [] ∧ ((tS tW).dev.core.tile 0).seq.unacked = [] ∧ ((tS tW).dev.core.tile 0).seq.sread = none := by decide
theorem test_hyp_waits : ready (tS (tQ (fun q => { q with unacked := [1, 2] }))) (fld 0 0 0 0x0108) [rowFence] = true ∧
    ready (tS (tQ (fun q => { q with unacked := [1] }))) (fld 0 0 0 0) [rowHalt] = true := by decide
theorem test_fence_left : out (exec (.fence 0 (fld 0 0 0 0x0108)) (tS (tQ (fun q => { q with unacked := [1] })))) (fun c => (c.tile 0).seq.pc) = some 8 ∧
    out (exec (.fence 0 (fld 0 0 0 0x0108)) (tS (tQ (fun q => { q with unacked := [1, 2] })))) (fun c => (c.tile 0).seq.pc) = some 0 := by decide

theorem test_hyp_system : ready (tS id) (fld 1 0 0 0) [rowSrr] = true ∧ ready (tS id) (fld 1 0 0 0xFFF) [rowSrr] = true ∧
    ready (tS id) (fld 0 1 0 0x10) [rowSrw] = true ∧ ready (tS id) (fld 0 1 0 0x21) [rowSrw] = true ∧
    (∀ n ∈ [0x000, 0x001, 0x002, 0x010, 0x011, 0x020, 0x021, 0x022, 0x023, 0x024, 0x030], (BitVec.ofNat 32 n).toNat % 2 ^ 12 = n) := by decide
theorem test_srw_fflags : out (exec (.srw 0 (fld 0 1 0 0x10)) (tS (tX [(1, 0xFF)]))) (fun c => (c.tile 0).seq.fflags) = some 0x1F := by decide
theorem test_srw_readonly : out (exec (.srw 0 (fld 0 1 0 0x21)) (tS id)) (fun c => (c.tile 0).seq.tcause) = some 1 := by decide
theorem test_srr_tvec : out (exec (.srr 0 (fld 1 0 0 0x20)) (tS (tQ (fun q => { q with tvec := 64 })))) (xr 1) = some 64 := by decide

/-- Vector registers. -/
def tV (l : Table VReg) (x : Tile) : Tile := { x with vec := { x.vec with v := l } }
def vr (k : BitVec 5) (i : Nat) (c : Core) : BitVec 32 := lane (rdV (c.tile 0).vec k) i

theorem test_hyp_vector : ready (tS id) (fld 1 2 3 0) [rowVadd, rowVsub, rowVmul, rowVfma, rowVmax, rowVmin, rowVclt, rowVcle, rowVceq, rowViadd,
      rowVisub, rowVimul, rowVand, rowVor, rowVxor, rowVshl, rowVshr, rowVsra, rowViclt, rowVsel] = true ∧
    ready (tS id) ⟨true, 1, 2, 3, 0, 0⟩ [rowVadd, rowViclt, rowVsel] = true ∧
    ready (tS id) (fld 1 2 0 0) [rowVabs, rowVneg, rowVexp2, rowVrcp, rowVrsqrt, rowVbcast, rowVext, rowVins, rowVrsum, rowVrmax, rowVrmin] = true ∧
    ready (tS id) (fld 1 0 0 0) [rowViota] = true ∧ ready (tS id) (fld 1 2 0 0x3F) [rowVext, rowVins] = true ∧
    (decode32 0x7F800001).isNaN = true := by decide
theorem test_vadd : out (exec (.vadd 0 (fld 1 2 3 0)) (tS (tV [(2, 0x3F800000), (3, 0x40000000)]))) (vr 1 0) = some 0x40400000 := by decide +kernel
theorem test_vmax_zero : out (exec (.vmax 0 (fld 1 2 3 0)) (tS (tV [(2, 0x80000000)]))) (vr 1 0) = some 0 ∧
    out (exec (.vmin 0 (fld 1 2 3 0)) (tS (tV [(3, 0x80000000)]))) (vr 1 0) = some 0x80000000 := by decide +kernel
theorem test_vmul_lane1 : out (exec (.vmul 0 (fld 1 2 3 0)) (tS (tV [(2, 0x4000000000000000), (3, 0xC040000000000000)]))) (vr 1 1) = some 0xC0C00000 := by decide +kernel
theorem test_visub : out (exec (.visub 0 ⟨true, 1, 2, 3, 0, 0⟩) (tS (tX [(3, 0x1FFFFFFFF)]))) (vr 1 63) = some 1 := by decide +kernel
theorem test_vsel : out (exec (.vsel 0 ⟨false, 1, 2, 3, 4, 0⟩) (tS (tV [(2, 0xAAAA), (3, 0x5555), (4, 0xFF00)]))) (vr 1 0) = some 0xAA55 := by decide +kernel
theorem test_vext_top : out (exec (.vext 0 (fld 1 2 0 0x3F)) (tS (tV [(2, 0x12345678 <<< 2016)]))) (xr 1) = some 0x12345678 := by decide +kernel
theorem test_viota : out (exec (.viota 0 (fld 1 0 0 0)) (tS id)) (vr 1 63) = some 63 := by decide +kernel

theorem test_hyp_vload : ready (tS (tX [(2, 64), (3, 8)])) (fld 1 2 3 0) [rowVlds, rowVldg, rowVsts, rowVstg] = true ∧
    ready (tS (tX [(2, 64)])) (fld 1 2 0 0x07E00000) [rowVld, rowVst] = true ∧ (0x07E00000 / 2 ^ 21 % 64 + 1 = 64) ∧
    (∀ k, k < 64 → (64 + 4 * k) % 4 = 0 ∧ 64 + 4 * k < lsSize) ∧ (0x1FFFFC % 4 = 0 ∧ 0x1FFFFC < lsSize) ∧ lsSize ≤ 0x200000 := by decide
theorem test_vlds : out (exec (.vlds 0 (fld 1 2 3 0x00200000)) (tS (fun x => tL [(64, 1), (72, 2)] [] (tX [(2, 64), (3, 8)] x))))
    (fun c => (vr 1 0 c, vr 1 1 c, vr 1 2 c)) = some (1, 2, 0) := by decide +kernel
theorem test_vstg_highest : out (exec (.vstg 0 (fld 1 2 3 0x00200000)) (tS (fun x => tV [(1, 0x0000000700000005)] (tX [(2, 64)] x))))
    (fun c => rdLE (c.tile 0).ls 64 4) = some 7 := by decide +kernel
theorem test_vst_range : out (exec (.vst 0 (fld 1 2 0 0x00200000)) (tS (tX [(2, 0x1FFFFC)]))) (fun c => ((c.tile 0).seq.tcause, (c.tile 0).seq.tinfo, (c.tile 0).ls)) =
    some (5, 0x200000, []) := by decide

theorem test_hyp_accumulator : ready (tS (tX [(2, 255)])) (fld 1 2 0 3) [rowVrda, rowVwra] = true ∧
    ready (tS id) (fld 1 2 0 0xFF00) [rowVrda, rowVwra] = true ∧ ready (tS id) (fld 1 2 0 6) [rowVq, rowVdq] = true ∧
    ready (tS id) (fld 1 2 0 7) [rowVq, rowVdq] = true ∧ ready (tS id) (fld 1 2 0 0) [rowVcvti, rowVcvtf] = true ∧ (0xFF0000000000 / 2 ^ (64 * 4 + 8 * 0) % 256 = 0) ∧
    (0xFF * 2 ^ 256 / 2 ^ (64 * fmtBits 0 + 8 * (0 / 32)) % 256 = 255) := by decide
theorem test_vrda_range : out (exec (.vrda 0 (fld 1 2 0 0x100)) (tS (tX [(2, 255)]))) (fun c => ((c.tile 0).seq.tcause, (c.tile 0).seq.tinfo)) =
    some (9, 256) := by decide
theorem test_vcvti : out (exec (.vcvti 0 (fld 1 2 0 0)) (tS (tV [(2, 0x40200000)]))) (vr 1 0) = some 2 ∧
    out (exec (.vcvti 0 (fld 1 2 0 0)) (tS (tV [(2, 0xCF800000)]))) (vr 1 0) = some 0x80000000 := by decide +kernel
/-- R175: a block whose largest magnitude is 6 takes scale 127 in MXFP4, and 6.0 is code 7. -/
theorem test_vq_mxfp4 : (quantize 0 true (0x40C00000 :: List.replicate 63 0)).1 = 7 + (127 + 127 * 256) * 2 ^ 256 := by decide +kernel
/-- R175: MXINT4 limits 2.0 × 2^0 with emax 0 to 1.75 and counts it. -/
theorem test_to_format : toFormat 1 true (decode32 0x40000000) = (7, true, (toFormat 1 true (decode32 0x40000000)).2.2) := by decide

/-- R130's example: scales 2^−1 and 2^2 and block sum 13.5 contribute 27.0. -/
theorem test_block_contribution : (toFp32 ((decode32 0x41580000).shift ((0x7E : Int) - 127 + ((0x81 : Int) - 127)))).1 = 0x41D80000 ∧
    (fpAdd 0x41D80000 0xC0D00000).1 = 0x41A40000 := by decide

def td0 : BitVec 128 := BitVec.ofNat 128 (0 * 2 ^ 24 + 64 * 2 ^ 96)

theorem test_hyp_descriptors : ready (tS (tX [(2, 64)])) (fld 1 2 0 0) [rowTldd] = true ∧ ready (tS (tX [(2, 64)])) (fld 1 2 3 0) [rowTadd] = true ∧
    64 % 16 = 0 ∧ 64 < lsSize ∧ (0x1FFFF0 % 16 = 0 ∧ 0x1FFFF0 < lsSize) ∧ (0x200000 % 16 = 0 ∧ lsSize ≤ 0x200000) ∧ 72 % 16 ≠ 0 := by decide
theorem test_tadd_wraps : out (exec (.tadd 0 (fld 1 2 3 0)) (tS (fun x => { tX [(2, 0x20), (3, 2)] x with
      vec := { x.vec with td := [(1, BitVec.ofNat 128 (0x1FFFF0 + 5 * 2 ^ 24 + 4 * 2 ^ 32))] } })))
    (fun c => tget 0 1 (c.tile 0).vec.td) = some (BitVec.ofNat 128 (0x10 + 5 * 2 ^ 24 + 6 * 2 ^ 32)) := by decide

/-- Tile descriptors, and tiles in the array. -/
def tD (d : BitVec 128) (sh ac : Option StatTile) (q : List ArrOp) (x : Tile) : Tile :=
  { x with vec := { x.vec with td := [(1, d)], shadow := sh, active := ac, arrayQ := q } }
def st0 : StatTile := ⟨0, 0, List.replicate 64 (0, 0x7F7F), false⟩

theorem test_hyp_array : ready (tS (tD td0 none none [])) (fld 1 0 0 0) [rowTload] = true ∧ ready (tS (tD td0 (some st0) none [])) (fld 0 1 0 0x10000) [rowTmul] = true ∧
    ready (tS id) (fld 3 0 0 0x40FF) [rowAzero] = true ∧
    tdFmt td0 ≤ 6 ∧ 1 ≤ tdRows td0 ∧ tdRows td0 ≤ 256 ∧ tdBase td0 % 16 = 0 ∧ tdRowStride td0 % 16 = 0 ∧ tdScale td0 % 2 = 0 ∧
    tdScaleStride td0 % 2 = 0 ∧ tdBase td0 + (tdRows td0 - 1) * tdRowStride td0 + rowBytes (tdFmt td0) ≤ lsSize ∧
    tdScale td0 + (tdRows td0 - 1) * tdScaleStride td0 + 2 ≤ lsSize ∧ fmtClass (tdFmt td0) ≤ 0 ∧ tdRows td0 = tileN 0 ∧
    st0.shape = max (fmtClass (tdFmt td0)) (fmtClass st0.fmt) ∧ st0.cols.length = tileN st0.shape ∧ 0 + tdRows td0 ≤ 256 ∧ 0 + tileN st0.shape ≤ 64 ∧
    ¬(tdRows td0 = tileN 1) := by decide
theorem test_tload_second_waits : out (exec (.tload 0 (fld 1 0 0 0)) (tS (tD td0 (some st0) none []))) (fun c => (c.tile 0).vec.arrayQ) =
    some [.tload td0 0] := by decide
theorem test_tmul_no_tile : out (exec (.tmul 0 (fld 0 1 0 0)) (tS (tD td0 none none []))) (fun c => (c.tile 0).seq.tcause) = some 8 := by decide

/-- DMA channel 3. -/
def tC (g : DmaChan → DmaChan) (x : Tile) : Tile := setChan x 3 (g (chanOf x 3))
def d0 : DmaDesc := ⟨0, 0, 0, 0, 0, false, false⟩

theorem test_hyp_dma : ready (tS (tX [(2, 0x1FFFE0)])) (fld 3 2 0 0) [rowDmaq, rowDmawait, rowDmastat] = true ∧ ready (tS id) (fld 3 0 0 0) [rowDmares] = true ∧
    0x1FFFE0 + 32 ≤ lsSize ∧ lsSize < 0x1FFFE1 + 32 ∧ (chanOf ((tS (tC id)).dev.core.tile 0) 3).queue.length < 4 ∧
    (chanOf ((tS (tC (fun h => { h with queue := [d0, d0, d0, d0] }))).dev.core.tile 0) 3).queue.length = 4 ∧
    (chanOf ((tS (tC (fun h => { h with halted := true }))).dev.core.tile 0) 3).halted = true ∧
    ((chanOf ((tS id).dev.core.tile 0) 3).done.toNat + 2 ^ 32 - 1 % 2 ^ 32) % 2 ^ 32 ≥ 2 ^ 31 := by decide
theorem test_dmawait : out (exec (.dmawait 0 (fld 3 2 0 0)) (tS (fun x => tX [(2, 5)] (tC (fun h => { h with done := 5 }) x)))) (fun c => (c.tile 0).seq.pc) = some 8 ∧
    out (exec (.dmawait 0 (fld 3 2 0 0)) (tS (fun x => tX [(2, 6)] (tC (fun h => { h with done := 5 }) x)))) (fun c => (c.tile 0).seq.pc) = some 0 := by decide
theorem test_dmastat : out (exec (.dmastat 0 (fld 3 2 0 0)) (tS (tC (fun h => { h with done := 9, halted := true })))) (xr 2) = some (9 * 2 ^ 32 + 2) := by decide

/-- Tile 0 in partition 0, which owns objects 10 to 19. -/
def yS (g : Tile → Tile) : State := mk { (tS g).dev.core with ptns := [(0, { en := true, syncBase := 10, syncCount := 10 })] }

theorem test_hyp_sync : ready (yS (tX [(2, 19)])) (fld 0 2 3 0) [rowSprod, rowScons, rowSwaita, rowSwaits, rowSarr] = true ∧
    ready (yS (tX [(2, 10)])) (fld 5 2 0 1) [rowSread] = true ∧ ready (yS (tQ (fun q => { q with lastArr := some (10, 1) }))) (fld 0 2 0 0) [rowSwaitb] = true ∧
    ((yS id).dev.core.ptn 0).syncBase ≤ 10 ∧ 19 < ((yS id).dev.core.ptn 0).syncBase + ((yS id).dev.core.ptn 0).syncCount ∧
    ¬(20 < ((yS id).dev.core.ptn 0).syncBase + ((yS id).dev.core.ptn 0).syncCount) ∧ ¬(((yS id).dev.core.ptn 0).syncBase ≤ 9) := by decide
theorem test_sarr_sends : out (exec (.sarr 0 (fld 0 2 3 0)) (yS (tX [(2, 12), (3, 0x30007)]))) (fun c => (c.out, (c.tile 0).seq.unacked)) =
    some ([.sync ⟨3, 12, 0, 3, false, false, 7, 0⟩], [12]) := by decide
theorem test_sprod_range : out (exec (.sprod 0 (fld 0 2 3 0)) (yS (tX [(2, 20)]))) (fun c => ((c.tile 0).seq.tcause, (c.tile 0).seq.tinfo)) = some (10, 20) := by decide
theorem test_swaita_waits : out (exec (.swaita 0 (fld 0 2 3 0)) (yS (tX [(2, 12), (3, 4)]))) (fun c => ((c.tile 0).seq.st, (c.tile 0).seq.pc)) =
    some (.waiting, 0) := by decide

theorem test_hyp_async : (tS (tQ (fun q => { q with pendLs := some 1, pendDma := [(2, some 3)], pendSync := some 4 }))).ok = true ∧
    frozenChip (tS id).dev.core = false ∧ (tS id).dev.core.stopped 0 = false ∧ (tS id).dev.core.ust 4 0 = .serving ∧
    ((tS id).dev.core.tile 0).power = .active ∧ ((tS id).dev.core.tile 0).resetting = false := by decide
theorem test_async_order : out (exec (.asyncTrap 0) (tS (tQ (fun q => { q with pendDma := [(2, some 3)], pendSync := some 4 }))))
    (fun c => let q := (c.tile 0).seq; (q.tcause, q.tinfo, q.pendDma.length, q.pendSync)) = some (256 + 14, 3, 0, some 4) := by decide

/-- A tile whose vector queue holds `n` operations, and whose array is busy with bank 2. -/
def tB (n : Nat) (x : Tile) : Tile := { x with vec := { x.vec with vecQ := List.replicate n 0, arrayQ := [.azero 2 0 4] } }
theorem test_hyp_queues : ready (tS (tB 3)) (fld 0 0 0 0x0201) [rowFence] = true ∧ ready (tS (tB 3)) (fld 0 0 0 0) [rowHalt] = true ∧ ready (tS (tB 3)) (fld 1 2 0 2) [rowVrda, rowVwra] = true ∧
    ((tS (tB 3)).dev.core.tile 0).vec.vecQ ≠ [] ∧ (0x0201 : BitVec 32).toNat / 256 % 32 < 3 ∧ bankBusy ((tS (tB 3)).dev.core.tile 0).vec 2 = true ∧
    bankBusy ((tS (tB 3)).dev.core.tile 0).vec 1 = false ∧ dmaWaitMet ((tS id).dev.core.tile 0) 3 0 = true ∧
    ((tS (tQ (fun q => { q with dmaWait := some (3, 0) }))).dev.core.tile 0).seq.dmaWait = some (3, 0) := by decide +kernel
theorem test_vrda_waits : out (exec (.vrda 0 (fld 1 0 0 2)) (tS (tB 0))) (fun c => (c.tile 0).seq.pc) = some 0 ∧
    out (exec (.vrda 0 (fld 1 0 0 1)) (tS (tB 0))) (fun c => (c.tile 0).seq.pc) = some 8 := by decide +kernel

/-! ### Power, boot, sideband, registers, units: the hypotheses of the statements, and results -/

/-- A device in service, changed by `g`. -/
def dv (g : Core → Core) : State :=
  mk (g { glb := { idValid := true, ready := .ready, mapFixed := true }, sec := { attestReady := true } })

/-- Unit `i` of class `k` alone, in state `st` and with desired state `w`. -/
def oneUnit (k i : Nat) (st w : UnitSt) (c : Core) : Core := c.modRot (fun r => { r with units := [(k * 4096 + i, { st := st, want := w })] })

theorem test_hyp_power : (mk { pins := { powered := false } }).dev.core.pins.powered = false ∧ (dv id).dev.core.pins.powered = true ∧
    chipUp (dv id).dev.core = true ∧ twf {} (dv id).dev.core.hbmcs = true ∧ (dv id).ok = true ∧
    State.reset.dev.core.pins.powered = true ∧ State.reset.dev.core.pins.resetN = false ∧ State.reset.ok = true ∧
    chipUp (mk {}).dev.core = true ∧ (mk {}).dev.core.glb.idValid = false ∧ (0 : BitVec 32) ≠ 0x52535443 := by decide
theorem test_reset_cause : (match exec .resetNAssert (dv (fun c => { c with pins := { c.pins with thermTrip := true } })) with
    | .next u => some (u.dev.perm.rstCause, u.dev.core.glb.idValid)
    | _ => none) = some (3, false) := by decide
theorem test_rail_fault : (match exec (.powerDown false) (dv id) with
    | .next u => completes (exec (.echo 0) u)
    | _ => true) = false ∧ completes (exec (.powerDown false) (dv id)) = true := by decide

def img0 : Image := ⟨false, 0, 5, 5, 0, [], [], 0, 0, [], true, true, true, [], none, [], [], 9⟩

/-- A device whose firmware has started, in bring-up. -/
def bootSt (g : Core → Core) : State := dv (fun c => g (c.modGlb (fun x => { x with ready := .bringUp, mapFixed := false })))

/-- Fuses of a part with no usable cluster and no router: few known-answer runs. -/
def bareFuse : Fuses := { tileBad := BitVec.allOnes 840, routerBad := BitVec.allOnes 840 }

theorem test_hyp_boot : let s0 := mk { glb := { idValid := true } }
    chipUp s0.dev.core = true ∧ s0.dev.core.sec.attestReady = false ∧ s0.dev.core.sec.error = 0 ∧ s0.dev.core.glb.ready ≠ .fuseError ∧
    (mk { glb := { idValid := true, ready := .fuseError } }).dev.core.glb.ready = .fuseError ∧
    rotUp (bootSt id).dev.core = true ∧ (bootSt id).dev.core.glb.ready = .bringUp ∧ (bootSt id).dev.core.glb.mapFixed = false ∧
    (bootSt id).dev.core.hasUnit 7 15 = true ∧ ((bootSt (fun c => c.setHbmc 15 { trained := true })).dev.core.hbmc 15).trained = true ∧
    (bootSt id).dev.core.glb.sysTested.getLsbD 15 = false ∧
    portsMissing (bootSt (fun c => { c.modGlb (fun g => { g with required := 1 }) with cfg := { loaded := true } })).dev.core ≠ [] ∧
    readyNow (bootSt (fun c => { c.modGlb (fun g => { g with mapFixed := true, unused := 0xFFFF }) with
      cfg := { loaded := true, image := some img0 } })).dev.core = true := by decide
theorem test_hyp_kat : 9 * 4096 + 7 ∈ katUnits bareFuse ∧ rotUp (bootSt (fun c => c.modGlb (fun g => { g with fuse := bareFuse }))).dev.core = true := by
  decide +kernel
theorem test_hyp_firmware : let s := mk { glb := { idValid := true } }
    slotFail s.dev.core.glb.fuse s.dev.perm.flash false = some 0 ∧ slotFail s.dev.core.glb.fuse s.dev.perm.flash true = some 0 := by decide
/-- R331: with both firmware slots refused the RoT stays in the mask ROM with error 1. -/
theorem test_no_firmware : out (exec .firmwareStart (mk { glb := { idValid := true } })) (fun c => (c.sec.error, c.sec.fallback,
    c.sec.attestReady)) = some (1, true, false) := by decide
/-- R326, R327: the first check that an object fails. -/
theorem test_object_checks : let o : SignedObj := ⟨0x534C4E4B, 1, 0, 3, 0, [], [], [], [], []⟩
    let f : Fuses := { rootHash := 1 }
    objFail f 1 8191 o = some 0 ∧ objFail f 2 8192 o = some 0 ∧ objFail f 1 8192 { o with signer := 1 } = some 1 ∧ objFail f 1 8192 o = some 2 := by
  decide +kernel

theorem test_hyp_sideband : let at' (o : BitVec 32) : Core := (dv (fun c => c.modGlb (fun g => { g with i3cOff := o }))).dev.core
    i3cWord (at' 0x20000) (0x20000) ≠ none ∧ i3cWord (at' 0x30000) 0x30000 = none ∧ i3cChan (at' 0x80040008) 0x40008 = some 4 ∧
    (0x50004 : BitVec 32).toNat = 0x50004 ∧ (0x80040004 : BitVec 32).getLsbD 31 = true ∧ 0x40004 % 0x10000 = 4 ∧ 0x40008 % 0x10000 ≠ 4 := by decide
theorem test_i3c_read : out (exec .i3cPrivateRead (dv (fun c => c.modGlb (fun g => { g with i3cOff := 0x2000C })))) (fun c => (c.out, c.glb.i3cOff)) =
    some ([.i3c 0x898], 0x20010) := by decide +kernel
theorem test_i3c_refused : out (exec (.i3cPrivateWrite 0x20008 1) (dv id)) (fun c => c.glb.i3cRefused) = some 1 := by decide

theorem test_hyp_registers : let c := (dv (fun c => { c with
      ptns := [(1, { en := true })], hosts := [(7, { valid := true, p := 1 })], rot := { units := [(8 * 4096, { st := .serving })] } })).dev.core
    chipUp c = true ∧ frozenChip c = false ∧ c.hasUnit 6 15 = true ∧ c.hasUnit 9 7 = true ∧ chanBus c 3 ≠ 1 ∧ windowEdge 1 (0x1000 * 15 + 4) = some 0 ∧
    c.works 8 0 = true ∧ windowUser c 1 ⟨1, 7, 0, 0, 0, none, 0⟩ = true ∧ ringMayWrite c (tget {} 15 (c.ptn 1).rings) ⟨1, 7, 0, 0, 0, none, 0⟩ = true := by decide
theorem test_clamped : out (exec (.registerWrite ⟨0, 0x2000C, 0, ⟨3, 0, 0, 0, 0, none, 0⟩, true⟩ 0xFFF) (dv id)) (fun c => c.pwr.iccLimit) = some 2200 ∧
    out (exec (.registerWrite ⟨0, 0x28, 0, ⟨3, 0, 0, 0, 0, none, 0⟩, true⟩ 0) (dv id)) (fun c => c.glb.readyTmo) = some 100 := by decide
theorem test_write_one_to_clear : out (exec (.registerWrite ⟨0, 0x120, 0, ⟨3, 0, 0, 0, 0, none, 0⟩, true⟩ 0x5) 
    (dv (fun c => c.modGlb (fun g => { g with intStatus := 0x10000000F })))) (fun c => c.glb.intStatus) = some 0x10000000A := by decide

theorem test_hyp_reads : let c := (dv id).dev.core
    c.hasUnit 6 0 = true ∧ c.hasUnit 9 0 = true ∧ counterAt c 0x40100 = some (0, 0) ∧ counterAt c 0x40128 = some (1, 8) ∧
    counterAt c 0x200210 = some (ctrKey 6 0 1, 0) ∧ counterAt c 0x300408 = some (ctrKey 7 0 0, 8) ∧ c.evc.hold = false ∧
    unitBlock 0x20008 = false ∧ counterPlace 0x20008 = none ∧ 0x20008 % 4 = 0 ∧ 0x20009 % 4 ≠ 0 := by decide
theorem test_counter_masked : out (exec (.evcLoRead 0x40100 true) (dv (fun c => { c with ptns := [(0, { en := true })], evc := { c.evc with counters :=
    [(0, { value := 5, sel := 0x2001, src := 0x10004 })] } }))) (fun c => c.out) = some [.readData (2 ^ 62)] := by decide
theorem test_evc_clear : out (exec (.evcClear 0x40108 2) (dv (fun c => { c with evc := { c.evc with counters := [(0, { value := 9, ovf := true })] } })))
    (fun c => ((c.counter 0).value, (c.counter 0).ovf)) = some (2, false) := by decide

theorem test_hyp_units : let c := (dv (oneUnit 6 3 .held .held)).dev.core
    let d := (dv (fun c => (oneUnit 6 3 .held .serving c).modUnit 6 3 (fun u => { u with cmd := some .serving, ch := some 2 }))).dev.core
    c.evc.freezeCfg.getLsbD 3 = false ∧ frozenChip c = false ∧ c.hasUnit 6 3 = true ∧ c.ust 6 3 = .held ∧ stricter .fenced (c.ust 6 3) = true ∧ unitStOf 5 = some .fenced ∧
    (d.unit 6 3).cmd = some .serving ∧ unitStOf 2 = some .ready ∧ stricter (d.unit 6 3).st .ready = true ∧
    stricter ((dv (oneUnit 6 3 .ready .serving)).dev.core.unit 6 3).st .serving = true ∧
    (hbmcCheck 3 (dv (fun c => (oneUnit 7 3 .held .serving c).setHbmc 3 { trained := true })).dev.core).isNone = true ∧
    drained (dv (oneUnit 6 3 .draining .ready)).dev.core 6 3 = true ∧ mgrUp c 5 = true ∧ inService c = true ∧ managerOf 6 3 = 5 ∧
    underReset c 6 3 = false ∧ (dv (oneUnit 6 3 .serving .held)).dev.core.ust 6 3 ≠ .held ∧
    ((dv (oneUnit 6 3 .failed .failed)).dev.core.home 3).failTold = false ∧ ((dv (oneUnit 4 0 .off .held)).dev.core.tile 0).resetting = false := by decide
theorem test_hyp_off : let f (a : Bool) : Core := (dv (fun c => ((oneUnit 4 0 .off .serving c).modUnit 4 0 (fun u => { u with cmd := some .serving })).setTile 0
      { assigned := a })).dev.core
    ((f true).unit 4 0).cmd = some .serving ∧ ((f true).unit 4 0).st = .off ∧ (f true).hasUnit 4 0 = true ∧ ((f true).tile 0).resetting = false ∧
    ((f true).tile 0).assigned = true ∧ ((f false).tile 0).assigned = false ∧
    ((dv (oneUnit 6 3 .off .held)).dev.core.unit 6 3).st = .off ∧ stricter .failed .off = true := by decide
/-- R122: a cluster that no partition has stays Off. -/
theorem test_off_stays : out (exec (.unitCommand 4 0 1) (dv (fun c => (oneUnit 4 0 .off .serving c).modUnit 4 0 (fun u => { u with cmd := some .serving }))))
    (fun c => (c.tile 0).waking) = some false := by decide
/-- R458: the more restrictive of the two states wins. -/
theorem test_reconciler : out (exec (.reconcilerPass 5) (dv (oneUnit 6 3 .serving .ready))) (fun c => (c.ust 6 3, c.glb.discrepancy)) = some (.ready, 1) ∧
    out (exec (.reconcilerPass 5) (dv (oneUnit 6 3 .fenced .ready))) (fun c => (c.ust 6 3, (c.unit 6 3).want)) = some (.fenced, .fenced) := by decide
theorem test_fault_keeps_off : out (exec (.unitFault 6 3) (dv (oneUnit 6 3 .off .held))) (fun c => c.ust 6 3) = some .off := by decide

theorem test_hyp_watchdogs : rotUp (dv id).dev.core = true ∧ (dv (fun c => c.modGlb (fun g => { g with restarting := true }))).dev.core.glb.restarting = true ∧
    ((dv id).dev.core.mgr 5).stopped = false ∧ ((dv (fun c => c.setMgr 5 { restarting := true })).dev.core.mgr 5).restarting = true ∧
    3 ≤ ((dv (fun c => c.setMgr 5 { restarts := [0, 0, 0] })).dev.core.mgr 5).restarts.length := by decide
theorem test_manager_stops : out (exec (.managerWatchdogExpiry 4) (dv (fun c => c.setMgr 4 { restarts := [0, 0, 0] }))) (fun c => ((c.mgr 4).stopped,
    c.glb.service)) = some (true, 0x200) := by decide

/-- Tile 0 of partition 0 at a level, with a budget. -/
def pwrSt (watts : BitVec 12) (lvl : Nat) : State := dv (fun c => { c with
  tiles := [(0, { power := .active, assigned := true, en := true, level := lvl })], ptns := [(0, { en := true })]
  rot := { units := [(16384, { st := .serving })] }, pwr := { c.pwr with ctrl := 0x0061A801, ptns := [(0, { budget := watts })] } })

theorem test_hyp_power_rules : let c := (pwrSt 5 3).dev.core
    frozenChip c = false ∧ c.pwr.ctrl.getLsbD 1 = false ∧ twf {} c.tiles = true ∧ runsPower c 0 = true ∧ (c.ptn 0).en = true ∧ (c.tile 0).ptn < 32 ∧
    iccAmps c < 2201 ∧ 2000 * 100 < iccAmps c * 95 ∧ ((dv (fun c => c.setTile 3 { power := .gated })).dev.core.tile 3).power = .gated ∧
    field (dv id).dev.core.pwr.ctrl 23 8 ≠ 0 := by decide
theorem test_thermal_trip : (match exec (.thermalSample ⟨[0, 110], [], []⟩) (dv id) with
    | .next u => some (u.dev.perm.rstCause, u.dev.core.pins.thermTrip, u.dev.core.pwr.dieMax)
    | _ => none) = some (3, true, 110) := by decide +kernel
theorem test_parked : out (exec (.parkDelay 3) (dv (fun c => c.setTile 3 { power := .gated }))) (fun c => (c.tile 3).power) = some .parked := by decide

theorem test_hyp_freeze : let f (w : BitVec 32) : Core := (dv (fun c => { c with evc := { c.evc with freezeCfg := w } })).dev.core
    (f 2).evc.freezeCfg.getLsbD 1 = true ∧ (f 2).evc.fzState ≠ 3 ∧ (f 2).evc.freezeCfg.getLsbD 0 = false ∧ (f 0x30003).evc.freezeCfg.getLsbD 0 = true ∧
    actionOf (f 0x30003) 3 = none ∧ inService (f 4) = true ∧ (f 4).evc.freezeCfg.getLsbD 2 = true ∧
    unitFrozen (dv (fun c => { c with evc := { c.evc with fzState := 3 } })).dev.core 6 0 = true ∧ unitFrozen (f 0) 6 0 = false := by decide
theorem test_jtag_refused : out (exec (.jtagSegmentOpen 6 2) (dv id)) (fun c => (c.out, c.evc.opened)) = some ([.jtag 0x10026 .closed], 0) := by decide

/-- Tile 1 mapped as logical cluster 4 of partition 0, selected for a reset. -/
def rstSt (g : Tile → Tile) : State := dv (fun c => { c with
  tiles := [(1, g { power := .active, assigned := true, en := true, logical := 4 })], ptns := [(0, { en := true })], rst := { tileSel := 1 }
  glb := { c.glb with l2p := [(4, some (1, false))] }, rot := { units := [(16385, { st := .serving })] } })

theorem test_hyp_resets : let c := (rstSt id).dev.core
    frozenChip c = false ∧ c.rst.tileSel.toNat = 1 ∧ c.rst.st ≠ 1 ∧ (c.tile 1).resetting = false ∧ (c.tile 1).en = true ∧ c.tileOf (c.tile 1).logical = some 1 ∧
    (c.ptn 0).resetStep = 0 ∧ stricter .draining (c.ust 4 1) = true ∧ twf {} (c.tile 1).chans = true ∧
    ((rstSt (fun x => { x with resetting := true, resetCluster := true })).dev.core.tile 1).resetting = true ∧ linesOut (c.tile 1) = 0 ∧ rotUp c = true ∧
    (c.ptn 0).en = true ∧ ptnBusy c 0 = false ∧ (c.ptn 1).en = false ∧ (c.ptn 1).resetBusy = false ∧
    ptnBusy (dv (fun c => { c with ptns := [(0, { en := true })], rot := { queued := [(0, 0, [])] } })).dev.core 0 = true ∧
    3 ∈ (dv (fun c => { c with rot := { seam := [3] } })).dev.core.rot.seam := by decide
theorem test_cluster_reset_done : out (exec (.sequencerResetDone 1) (rstSt (fun x =>
    { x with resetting := true, resetCluster := true, winGen := 7, ls := [(0, 1)] }))) (fun c => ((c.tile 1).winGen, (c.tile 1).ls, c.ust 4 1)) = some (0, [(0, 1)], .held) := by decide

/-! ### Mailbox requests and actions -/

/-- A device that holds the request `cmd` with its data words in channel `ch`, changed by `g`. -/
def rq (ch : Nat) (cmd : BitVec 32) (data : List (BitVec 32)) (g : Core → Core) : State :=
  dv (fun c => g { c with mbx := [(ch, { cmd := cmd, st := .accepted, full := true, data := data.zipIdx.map (fun x => (x.2, x.1)) })] })

/-- Partition 0 as an image sets it, with extent entries. -/
def p0 (ext : Table Ext) (g : Ptn → Ptn) (c : Core) : Core := { c with ptns := [(0, g { en := true, quota := 2, groupCount := 4, ext := ext })] }

def edge0 (c : Core) : Core := { c with rot := { c.rot with units := [(8 * 4096, { st := .serving })] } }
def host0 (g : HostEnt → HostEnt) (c : Core) : Core := { c with hosts := [(0, g { valid := true })] }

/-- A field of a data word. -/
def fd (w : BitVec 32) (hi lo : Nat) : Nat := field w hi lo

/-- An image in force with k spread extents (R35). -/
def kImg (k : Nat) (c : Core) : Core := { c with cfg := { c.cfg with image := some { img0 with k := k } } }

theorem test_hyp_mailbox : let c := (dv (fun c => edge0 (host0 id (p0 [] id c)))).dev.core
    chipUp c = true ∧ (c.mb 3).st = .idle ∧ ((rq 3 0x070 [] id).dev.core.mb 3).st = .accepted ∧ (c.mb 16).st = .idle ∧ (c.host 0).valid = true ∧
    (c.host 0).p = 16 - 16 ∧ tenantEdgeUp c 0 = true ∧ ((rq 16 0x070 [] id).dev.core.mb 16).st = .accepted ∧
    reqCode (rq 3 0x0FF [] id).dev.core 3 ∉ listedCodes ∧ taken (rq 3 0x0FF [] id).dev.core 3 0x0FF 7 = true ∧
    taken (rq 16 0x070 [] id).dev.core 16 0x070 7 = true ∧ taken (rq 3 0x044 [0] id).dev.core 3 0x044 7 = true ∧
    4 * (tget [] 3 (rq 3 0x044 [0] id).dev.core.sec.reports).length ≤ 0 * 0x8000 ∧
    0 * 0x8000 < 4 * (tget [] 3 (rq 3 0x044 [0] (fun c => c.modSec (fun x => { x with reports := [(3, [5])] }))).dev.core.sec.reports).length := by
  decide
theorem test_echo : out (exec (.echo 3) (rq 3 0x42000070 [7] id)) (fun c => ((c.mb 3).st, (c.mb 3).result, (c.mb 3).tag, reqData c 3 0)) =
    some (.done, 0, 0x42, 7) := by decide
theorem test_go_ignored : out (exec (.mailboxGo 3 ⟨3, 0, 0, 0, 0, none, 0⟩) (rq 3 0x070 [] id)) (fun c => (c.mb 3).ignored) = some 1 := by decide

def extA : Ext := { valid := true, typ := 0, ppa := 3, slots := [(1, 2), (0, 0), (0, 0), (0, 0)] }

theorem test_hyp_extents : let m (w0 w1 : BitVec 32) (e : Table Ext) : Core := (rq 0 0x001 [w0, w1] (fun c => kImg 48 (p0 e id c))).dev.core
    let g (w1 w2 : BitVec 32) (e : Table Ext) : Core := (rq 0 0x002 [5, w1, w2] (p0 e id)).dev.core
    let r (w1 : BitVec 32) (e : Table Ext) : Core := (rq 0 0x003 [5, w1] (p0 e id)).dev.core
    let u (e : Table Ext) : Core := (rq 0 0x004 [5, 0] (p0 e id)).dev.core
    ptnBusy (m 0 0 []) 0 = false ∧ taken (m 895 0 []) 0 0x001 7 = true ∧ reservedClear 0x00410005 0x007303FF = true ∧ fd 0x00410005 22 20 ≤ 4 ∧
    ((m 5 0 [(5, extA)]).masterExt 0 5).valid = true ∧ ((m 5 0 []).masterExt 0 5).valid = false ∧ (m 5 0 []).ptns.length = 1 ∧
    (m 0x10005 0 []).regionOwner 0 = none ∧ (rq 0 1 [] (p0 [] (fun x => { x with snapCount := 1 }))).dev.core.regionOwner 0 = some 0 ∧
    mappedCount (m 5 0 []) 0 < 2 ∧ lowestFree (m 5 0 []) 0 = some 0 ∧ 2 ≤ mappedCount (m 5 0 [(1, extA), (2, extA)]) 0 ∧
    taken (g 0x20002 0 [(5, extA)]) 0 0x002 7 = true ∧ reservedClear 0x20002 0x000301FF = true ∧ ownsGroup (g 0 0 []) 0 2 = true ∧
    grantExpired (g 0 0 []) 0 5 2 = false ∧
    extA.slots.all (fun t => !decide (t.1 = 2 ∧ t.2 ≠ 0)) = true ∧ extA.slots.findIdx? (fun t => decide (t.2 = 0)) = some 1 ∧
    fd 0x20100 8 0 = 256 ∧ BitVec.ofNat 2 (fd 0x20100 17 16) = 2 ∧
    taken (r 1 [(5, extA)]) 0 0x003 7 = true ∧ reservedClear 0x10100 0x000101FF = true ∧ hasGrant extA = true ∧ hasGrant { extA with slots := [] } = false ∧
    ownsGroup (r 1 []) 0 1 = true ∧ extA.slots.any (fun t => decide (t.1 = 1 ∧ t.2 ≠ 0)) = true ∧ ownsGroup (r 1 []) 0 9 = false ∧
    taken (u [(5, extA)]) 0 0x004 7 = true ∧ extA.typ ≠ 1 := by decide
theorem test_ext_map : out (exec (.extMap 0) (rq 0 0x001 [5, 0] (fun c => kImg 48 (p0 [] id c)))) (fun c => (c.rot.taken, (actionOf c 0).map (fun a => (a.kind, a.step)))) =
    some ([0], some (4, 3)) := by decide +kernel
theorem test_ext_grant : out (exec (.extGrant 0) (rq 0 0x002 [5, 0x10002, 0] (p0 [(5, extA)] id))) (fun c => (c.masterExt 0 5).slots) =
    some [(1, 2), (2, 1), (0, 0), (0, 0)] := by decide +kernel
theorem test_ext_revoke_all : out (exec (.extRevoke 0) (rq 0 0x003 [5, 0x100] (p0 [(5, extA)] id))) (fun c => ((c.masterExt 0 5).life, hasGrant (c.masterExt 0 5))) =
    some (1, false) := by decide +kernel

theorem test_hyp_hosts : let a : Core := (rq 0 0x005 [0x123, 0x701] (p0 [] id)).dev.core
    let d (code : BitVec 32) (h : HostEnt → HostEnt) : Core := (rq 0 code [0, 0] (fun c => host0 h (p0 [] id c))).dev.core
    taken a 0 0x005 7 = true ∧ ptnHeld a 0 = false ∧ ptnBusy a 0 = false ∧ reservedClear 0x123 0x3FFFF = true ∧ reservedClear 0x701 0x7FF = true ∧
    fd 0x701 10 8 ∈ presentPorts a ∧ (a.port 7).cfg.getLsbD 4 = false ∧ ownsGroup a 0 (fd 0x701 7 0) = true ∧ (a.host 0).valid = false ∧
    (d 5 (fun h => { h with ep := 0x123 })).hosts.any (fun k => k.2.valid && decide (k.2.ep = 0x123 ∧ k.2.p = 0)) = true ∧
    taken (d 6 id) 0 0x006 7 = true ∧ ((d 6 id).host 0).st ≠ 1 ∧ ((d 6 (fun h => { h with st := 1 })).host 0).st = 1 ∧ taken (d 7 id) 0 0x007 3 = true := by
  decide
theorem test_hyp_expiry : let x : Ext := { extA with ms := 4, msSlots := 1 }
    let c := (dv (p0 [(5, x)] id)).dev.core
    let q := (dv (fun c => p0 [(5, extA)] id { c with rot := { c.rot with queued := [(0, 5, [1])] } })).dev.core
    rotUp c = true ∧ (c.masterExt 0 5).valid = true ∧ (c.masterExt 0 5).ms ≠ 0 ∧ ptnBusy q 0 = true ∧ ptnBusy c 0 = false ∧ coveredGroups x = [1] ∧
    x.msAll = false ∧ ({ x with msAll := true, allGrp := true } : Ext).allGrp = true ∧ actionOf q 0 = none ∧
    q.rot.queued.find? (fun k => decide (k.1 = 0)) = some (0, 5, [1]) ∧
    (q.masterExt 0 5).slots.any (fun t => [1].contains t.1 && decide (t.2 ≠ 0)) = true := by decide
theorem test_host_admit : out (exec (.hostAdmit 0) (rq 0 0x005 [0x123, 0x701] (p0 [] id))) (fun c => ((c.host 0).ep, (c.host 0).port, reqData c 0 0)) =
    some (0x123, 7, 0) := by decide
theorem test_host_fence : out (exec (.hostFence 0) (rq 0 0x007 [0, 0] (fun c => host0 id (p0 [] id c)))) (fun c => ((c.host 0).st, c.rot.walks.length)) =
    some (1, 1) := by decide

def actA : Action := ⟨4, 0, some 0, 4, [5], [], 5, extA, [], false, false, false, 1, 0, 0, none⟩
/-- An action of partition 0 that runs. -/
def acts (a : Action) (g : Core → Core) : State := dv (fun c => g (p0 [(5, a.ent)] id { c with rot := { c.rot with actions := [a] } }))
/-- Homes and HBM controller of stack 0 serving. -/
def stack0 (c : Core) : Core := { c with rot := { c.rot with units := [(6 * 4096, { st := .serving }), (7 * 4096, { st := .serving })] } }

theorem test_hyp_steps : let c := (acts actA id).dev.core
    let v := { actA with kind := 6, step := 6, groups := [1] }
    let d := (acts { v with step := 7 } (fun c => c.setHome 0 { ext := [(5, extA)] })).dev.core
    actionOf c 0 = some actA ∧ 0 ∈ liveHomes c ∧ c.homeExt 0 0 5 ≠ actA.ent ∧ mgrUp c 5 = true ∧ (acts v id).dev.core.homeExt 0 0 5 ≠ v.ent ∧
    (d.rot.actions.find? (fun a => decide (a.seq = 1) && (decide (a.step = 6) || decide (a.step = 7)))).isSome = true ∧ 7 ∈ presentPorts d ∧
    d.homeExt 0 0 5 = extA ∧ (0, false, (1 : BitVec 32)) ∉ (d.port 7).markers ∧ allMarkers (d.modPort 7 (fun x => { x with markers := [(0, false, 1)] })) 7 1 = false ∧
    allMarkers (d.modPort 7 (fun x => { x with markers := (liveHomes d).flatMap (fun e => [(e, false, 1), (e, true, 1)]) })) 7 1 = true := by decide
theorem test_hyp_walks : let c := (dv (fun c => stack0 (c.setHome 0 { passes := [⟨0, 0, [(0, 2)], 0⟩], walking := [0], fence := [9] }))).dev.core
    let w := (dv (fun c => { c with rot := { c.rot with walks := [(9, [], 0, 0)] },
                                    glb := { c.glb with fuse := { c.glb.fuse with stackPresent := 0 } } })).dev.core
    let a := { actA with step := 1, kind := 2, await := [4, 5] }
    c.works 6 0 = true ∧ (c.home 0).passes.find? (fun k => decide (k.what = 0 ∧ k.p = 0)) = some ⟨0, 0, [(0, 2)], 0⟩ ∧ 0 ∈ (c.home 0).walking ∧
    recalling c 0 0 = false ∧ w.rot.walks.find? (fun w => decide (w.1 = 9)) = some (9, [], 0, 0) ∧
    (liveHomes w).all (fun e => (w.home e).fence.contains 9 && !walkOwed (w.home e) 9) = true ∧
    (liveHomes c).all (fun e => e ≠ 0 || (c.home e).fence.contains 9 && !walkOwed (c.home e) 9) = true ∧
    actionOf (acts a id).dev.core 0 = some a ∧ 4 ∈ a.await ∧ a.await.erase 4 ≠ [] ∧ stepDone (acts a id).dev.core a 4 = true ∧
    (acts a id).dev.core.glb.restarting = false ∧ stepArrived (acts a id).dev.core 4 = true ∧
    (stepHomes c).all (fun e => e ≠ 0 || !walkOwed (c.home e) 9) = true := by decide
theorem test_step_report : out (exec (.stepCompleteReport 0 4) (acts { actA with step := 1, kind := 2, await := [4, 5] } id))
    (fun c => (actionOf c 0).map (fun a => a.await)) = some (some [5]) := by decide
theorem test_lining_line : out (exec (.liningLine 0 0) (dv (fun c => stack0 { c.setHome 0 { passes := [⟨0, 0, [(0, 2)], 0⟩] } with mem := [(3, 9), (128, 7)] })))
    (fun c => (c.mem, (c.home 0).passes.map (fun k => k.pos))) = some ([(128, 7)], [1]) := by decide +kernel

theorem test_hyp_regions : let own (c : Core) : Core := p0 [(0, { extA with typ := 1 }), (1, { extA with typ := 1, ppa := 4 })] (fun x => { x with snapCount := 4 }) c
    let a := (rq 0 0x010 [0, 0x00000400] own).dev.core
    let b := (rq 0 0x010 [0, 0x00000400] (fun c => (own c).setRegion 0 { created := true })).dev.core
    let d := (rq 0 0x011 [0, 0x10000] (fun c => (own c).setRegion 0 { created := true })).dev.core
    taken a 0 0x010 7 = true ∧ reservedClear 0x400 0x3FFFFFFF = true ∧ a.regionOwner 0 = some 0 ∧ (a.region 0).created = false ∧ (b.region 0).created = true ∧
    fd 0x400 19 10 = 1 ∧ layoutOk a 0 0 0 1 = true ∧ taken d 0 0x011 7 = true ∧ (d.region 0).destroy = none ∧ (d.region 0).commit = none ∧
    (0x10000 : BitVec 32).getLsbD 16 = true ∧ (d.edge 0).opens.all (fun k => decide (k.2.1 ≠ 0)) = true := by decide
theorem test_hyp_keys : let y := (rq 0 0x020 [0x10003, 9, 0, 4, 0] (fun c => c.setObj 3 { mode := .counter, param := 16 })).dev.core
    let k := (rq 0 0x040 [] (p0 [] id)).dev.core
    let n := (rq 16 0x042 [1] (fun c => host0 id (p0 [] id c))).dev.core
    taken y 0 0x020 3 = true ∧ reservedClear 0x10003 0xC0130FFF = true ∧ fd 0x10003 17 16 = 1 ∧ y.objOwner 3 = none ∧ (y.obj 3).mode = .counter ∧
    ({ y.obj 3 with produced := 9, consumed := 4 } : SyncObj).avail ≤ (y.obj 3).lim ∧
    taken k 0 0x040 7 = true ∧ ptnBusy k 0 = false ∧ (k.keys 0).sweep = false ∧ ((dv (fun c => c.setKeys 0 { sweep := true })).dev.core.keys 0).sweep = true ∧
    taken (rq 0 0x041 [] (p0 [] id)).dev.core 0 0x041 3 = true ∧
    ptnBusy (rq 0 0x041 [] (fun c => p0 [] id { c with rot := { c.rot with queued := [(0, 5, [1])] } })).dev.core 0 = true ∧
    taken n 16 0x042 4 = true ∧ (n.ptn 0).en = true ∧ (n.host (n.mb 16).goHost).group = (n.ptn 0).groupBase ∧
    ((rq 16 0x042 [1] (fun c => host0 (fun h => { h with group := 2 }) (p0 [] id c))).dev.core.host 0).group ≠ (n.ptn 0).groupBase := by decide
theorem test_hyp_pages : let c := (rq 0 0x030 [0x10000, 0] (fun c => kImg 48 (stack0 c))).dev.core
    let m := (dv (fun c => stack0 (c.setHbmc 0 { moving := some (0, 0, 511) }))).dev.core
    taken c 0 0x030 3 = true ∧ reservedClear 0 0xFF = true ∧ 0x10000 % 65536 = 0 ∧ 1 % 65536 ≠ 0 ∧ 0x10000 / 2 ^ 30 < c.glb.fuse.stacks.length * 56 ∧
    c.ust 6 (c.place 0x10000).1 ≠ .failed ∧ (c.hbmc (c.place 0x10000).1).moving = none ∧
    (List.range 8192).find? (fun j => !(sparesTaken (c.hbmc 1)).contains j) = some 0 ∧ (m.hbmc 0).moving = some (0, 0, 511) ∧ m.works 6 0 = true ∧
    lineBlocked (m.home 0) 511 = false ∧ (511 ≤ 511) ∧ (510 < 511) := by decide +kernel
theorem test_page_retired : (match exec (.retireLineCopy 0 0) (dv (fun c => stack0 (c.setHbmc 0 { moving := some (6, 0, 511) }))) with
    | .next u => some (rdLE u.dev.perm.flash (areaAddr 0 0) 16 = (retireRecord (some 6)).toNat, (u.dev.core.hbmc 0).moving)
    | _ => none) = some (true, none) := by decide +kernel
theorem test_consent : out (exec (.consent 16) (rq 16 0x042 [1] (fun c => host0 id (p0 [] id c)))) (fun c => c.sec.consent) = some 1 := by decide

theorem test_hyp_security : let a := (rq 0 0x043 [] id).dev.core
    let s (w : BitVec 7) : State := ⟨[], ⟨{ fuses := { svn := 2 } }, (rq 0 0x045 [] (fun c => c.modSec (fun x => { x with fused := 2, running := w }))).dev.core⟩⟩
    let g (l : Nat) : Core := (dv (fun c => c.modSec (fun x => { x with signing := some (⟨0, 0⟩, [1]), attQueue := List.replicate l ⟨0, 0⟩ }))).dev.core
    taken a 0 0x043 7 = true ∧ a.sec.signing = none ∧ (g 7).sec.signing.isSome = true ∧ (g 7).sec.attQueue.length < 8 ∧ 8 ≤ (g 8).sec.attQueue.length ∧
    rotUp a = true ∧ (g 0).rot.detached = [] ∧ taken (s 3).dev.core 0 0x045 1 = true ∧ (s 1).dev.core.sec.running.toNat < (s 1).dev.core.sec.fused.toNat ∧
    (s 3).dev.core.sec.fused.toNat ≤ (s 3).dev.core.sec.running.toNat ∧
    (s 3).dev.core.sec.fused.toNat ≤ (s 3).dev.perm.fuses.svn := by decide
theorem test_hyp_flash : let f (code w n : BitVec 32) : Core := (rq 0 code [w, n] id).dev.core
    taken (f 0x060 0x900000 0x10000) 0 0x060 1 = true ∧ flashStatus (f 0x060 0x900000 0x10000) 0 true true false = 0 ∧
    taken (f 0x061 0x900010 3) 0 0x061 1 = true ∧ flashStatus (f 0x061 0x900010 3) 0 false true false = 0 ∧ taken (f 0x062 0x100000 4) 0 0x062 3 = true ∧
    flashStatus (f 0x062 0x100000 4) 0 false false false = 0 ∧ taken (f 0x065 1 0) 0 0x065 1 = true ∧ reservedClear 1 1 = true := by decide
theorem test_hyp_images : let t := (rq 0 0x063 [0] id).dev.core
    let r := (rq 0 0x064 [0] (kImg 0)).dev.core
    let u (st : UnitSt) : Core := (rq 0 0x050 [0x00030036] (oneUnit 6 3 st st)).dev.core
    taken t 0 0x063 1 = true ∧ imageCheck t [] true false = some (1, stImageInvalid) ∧ taken r 0 0x064 1 = true ∧
    imageFits t true { img0 with tuning := true, baseId := 0, parts := 1 } = none ∧ imageFits r false { img0 with parts := 1 } = none ∧
    r.cfg.image = some img0 ∧ sameRest img0 img0 = true ∧ changedPtns img0 img0 = [] ∧ taken (u .held) 0 0x050 3 = true ∧
    reservedClear 0x00030036 0x0007FFFF = true ∧ unitStOf (fd 0x00030036 18 16) = some .serving ∧ (u .held).hasUnit 6 3 = true ∧
    stricter .serving ((u .held).unit 6 3).st = false ∧ ((u .serving).unit 6 3).st = .serving ∧ ((u .held).unit 6 3).ch = none ∧
    frozenChip (u .held) = false := by decide
theorem test_svn_commit : (match exec (.svnCommit 0) (rq 0 0x045 [] (fun c => c.modSec (fun x => { x with running := 3 }))) with
    | .next u => some (u.dev.perm.fuses.svn, u.dev.core.sec.fused)
    | _ => none) = some (3, 3) := by decide
theorem test_flash_write : (match exec (.flashWrite 0 false) (rq 0 0x061 [0x900010, 2] (fun c => c.modMb 0 (fun m => { m with buf := [(0, 5), (1, 6), (2, 7)] }))) with
    | .next u => some u.dev.perm.flash
    | _ => none) = some [(0x900010, 5), (0x900011, 6)] := by decide
theorem test_flash_running : out (exec (.flashWrite 0 false) (rq 0 0x061 [0x100000, 2] id)) (fun c => (c.mb 0).result) = some 0x31 := by decide

/-! ### Snapshots and synchronization objects -/

/-- Region 0 of partition 0 with host 0 of group 1, both edge unit 0 and home 0 at work. -/
def rg (x : Region) (g : Core → Core) : State := dv (fun c =>
  let c := host0 (fun h => { h with group := 1 }) (p0 [(0, { extA with typ := 1, slots := [(1, 2)] })] (fun x => { x with snapCount := 4, syncCount := 20 }) c)
  g ({ c with rot := { c.rot with units := [(6 * 4096, { st := .serving }), (8 * 4096, { st := .serving })] } }.setRegion 0 { x with created := true, v := 1 }))

def host9 : Origin := ⟨1, 0, 0, 0, 9, none, 0⟩
def commit0 (await sealed : List Nat) : Commit := ⟨host9, 5, 0, 1, await, sealed, false⟩

theorem test_hyp_snap_ops : let pub : Region := { slots := [(2, ⟨.published, 4, none⟩)], newest := some 3, newestVer := 4 }
    let c := (rg pub (fun c => c.setEdge 0 { opens := [(0, 0, 2)] })).dev.core
    let d := (rg {} (fun c => { c with regions := [] })).dev.core
    let n := (rg pub (fun c => c.modPtn 0 (fun x => { x with ext := [(0, { extA with typ := 1, slots := [(1, 1)] })] }))).dev.core
    let full := (rg pub (fun c => c.setEdge 0 { opens := List.replicate 4096 (1, 0, 2) })).dev.core
    let q := (rg { pub with queue := [⟨host9, 5, 0, 0, [], [], false⟩] } id).dev.core
    c.works 8 0 = true ∧ host9.kind = 1 ∧ c.originPtn host9 = 0 ∧ c.regionOwner 0 = some 0 ∧ c.regionOwner (0 ^^^ 1) = some 0 ∧ c.regionOwner 5 ≠ some 0 ∧
    (c.region 0).created = true ∧ (d.region 0).created = false ∧ d.regionOwner 0 = some 0 ∧
    mayUse c (c.region 0) host9 true = true ∧ mayUse c (c.region 0) host9 false = true ∧ mayUse n (n.region 0) host9 true = false ∧
    mayUse (p0 [] id c) (c.region 0) host9 false = false ∧
    (tget {} 2 (c.region 0).slots).st = .published ∧ (tget {} 2 (c.region 0).slots).ver = 4 ∧ (tget {} 1 (c.region 0).slots).st ≠ .published ∧
    (0, 0, 2) ∉ ((rg pub id).dev.core.edge 0).opens ∧ (0, 0, 2) ∈ (c.edge 0).opens ∧ ((rg pub id).dev.core.edge 0).opens.length < 4096 ∧
    (full.edge 0).opens.length = 4096 ∧ (full.edge 0).opens.head? = some (1, 0, 2) ∧
    (c.region 0).newest ≠ some 2 ∧ (c.edge 0).opens.erase (0, 0, 2) = [] ∧ newer 5 (c.region 0).newestVer = true ∧ newer 4 (c.region 0).newestVer = false ∧
    (tget {} 1 (c.region 0).slots).st = .free ∧ (c.region 0).working = 0 ∧
    (tget {} 1 ((rg { slots := [(1, ⟨.retiring, 3, none⟩)] } id).dev.core.region 0).slots).st = .retiring ∧
    ((List.range 8).all fun k => k = 0 || decide ((tget {} k (List.range 8 |>.map fun k => (k, (⟨.published, 4, none⟩ : Slot)))).st ≠ .free)) = true ∧
    ((rg { commit := some (commit0 [0] []) } id).dev.core.region 0).commit.isSome = true ∧ (c.region 0).commit = none ∧
    (q.region 0).commit = none ∧ (q.region 0).queue = [⟨host9, 5, 0, 0, [], [], false⟩] := by decide +kernel
theorem test_open_version : out (exec (.openPleat 0 host9 2 5) (rg { slots := [(2, ⟨.published, 4, none⟩)] } id)) (fun c => (c.region 0).refusal) = some 1 ∧
    out (exec (.openPleat 0 host9 2 4) (rg { slots := [(2, ⟨.published, 4, none⟩)] } id)) (fun c => (c.edge 0).opens) = some [(0, 0, 2)] := by decide
theorem test_commit_slot : out (exec (.commitPleat 0 host9 5) (rg { slots := [(1, ⟨.published, 4, none⟩)], newest := some 1, newestVer := 4 } id))
    (fun c => (c.region 0).commit.map (fun k => (k.old, k.new, k.ver))) = some (some (0, 2, 5)) := by decide
theorem test_hyp_snap_markers : let c (x : Region) : Core := (rg x id).dev.core
    let k : Copy := ⟨0, 3, 1, 4, 9⟩
    let m := (rg {} (fun c => c.setHome 0 { copies := [k] })).dev.core
    (c { commit := some (commit0 [0] []) }).works 6 0 = true ∧ ({ commit := some (commit0 [0] []) } : Region).sealing = some (commit0 [0] []) ∧
    (commit0 [0] [0]).await.erase 0 = [] ∧ (commit0 [0, 1] [0]).await.erase 0 ≠ [] ∧ (commit0 [0] []).old ≠ (commit0 [0] []).new ∧
    0 ∈ (commit0 [0] []).await ∧ 0 ∉ (commit0 [0] []).sealed ∧ 0 ∈ (commit0 [0] [0]).sealed ∧ (c {}).works 8 0 = true ∧ ({} : Region).destroy = none ∧
    (tget 0 0 ({ retire := some (2, [0]) } : Region).retireAt) = 0 ∧ tget 0 0 ({ retire := some (2, [0]), retireAt := [(0, 1)] } : Region).retireAt = 1 ∧
    tget 0 0 ({ retire := some (2, [0]), retireAt := [(0, 2)] } : Region).retireAt = 2 ∧ [0].erase 0 = ([] : List Nat) ∧ [0, 1].erase 0 ≠ ([] : List Nat) ∧
    homeQuiet m 0 = true ∧ m.works 6 0 = true ∧ (m.home 0).copies.find? (fun k => decide (k.page = 3)) = some k ∧
    k.slot < 8 ∧ k.src ≠ k.dst ∧ k.src < 917504 ∧ k.dst < 917504 := by decide +kernel
theorem test_seal_publishes : out (exec (.sealAnswer 0 0) (rg { commit := some (commit0 [0] [0]), slots := [(0, ⟨.working, 0, none⟩)] } id))
    (fun c => ((c.region 0).newest, (c.region 0).working, tget {} 1 (c.region 0).slots)) = some (some 0, 1, ⟨.working, 0, some 0⟩) := by decide
theorem test_retire_parent : out (exec (.retireReport 0 0) (rg { retire := some (0, [0]), retireAt := [(0, 2)], slots := [(0, ⟨.retiring, 4, none⟩),
    (1, ⟨.published, 5, some 0⟩)] } id)) (fun c => (c.region 0).slots) = some [(1, ⟨.published, 5, none⟩)] := by decide

/-- Object 3 of partition 0, at edge unit 0. -/
def ob (x : SyncObj) (g : Core → Core) : State := rg {} (fun c => g (c.setObj 3 x))
def host1 : Origin := ⟨1, 0, 0, 0, 0, none, 0⟩

theorem test_hyp_sync_ops : let ct : SyncObj := { mode := .counter, param := 16, produced := 4 }
    let ba : SyncObj := { mode := .barrier, param := 2, arr0 := 1, bm0 := 1 }
    edgeTakes (ob ct id).dev.core 3 = true ∧ hostMay (ob ct id).dev.core 3 host1 = true ∧ hostMay (ob ct id).dev.core (3 ^^^ 1) host1 = true ∧ ct.avail + 12 ≤ ct.lim ∧ ct.lim < ct.avail + 13 ∧ 4 ≤ ct.avail ∧
    ct.avail < 5 ∧ ({} : SyncObj).mode ≠ .counter ∧ ({ ct with produced := 16 } : SyncObj).lim < 16 + 1 ∧ ba.parts = 2 ∧ 0 = ba.round.toNat % 4 ∧ ba.bm0.getLsbD 0 = true ∧
    ba.bm0.getLsbD 1 = false ∧ ba.arr0.toNat + 1 = ba.parts ∧ ba.arr1.toNat < ba.parts ∧ ({ ba with param := 3 } : SyncObj).parts > ba.arr0.toNat + 1 ∧
    hasWaiter (ob ct id).dev.core 3 = false ∧ hasWaiter (ob ct (fun c => c.setEdge 0 { waiters := [⟨3, 0, 0, 1⟩] })).dev.core 3 = true ∧
    (0x20003 : BitVec 32).toNat % 2 ^ 16 ≠ 0 ∧ (0x20000 : BitVec 32).toNat % 2 ^ 16 = 0 := by decide
/-- R243's example: BOUND 16, PRODUCED 2^64 − 2, CONSUMED 2^64 − 8: producing 4 leaves PRODUCED 2; consuming 11 is refused with UNDERFLOW. -/
theorem test_counter_example : let s (n : BitVec 64) : State := ob { mode := .counter, param := 16, produced := n, consumed := 0xFFFFFFFFFFFFFFF8 } id
    out (exec (.produce 3 host1 4) (s 0xFFFFFFFFFFFFFFFE)) (fun c => ((c.obj 3).produced, (c.obj 3).lastFault)) = some (2, 0) ∧
    out (exec (.consume 3 host1 11) (s 2)) (fun c => ((c.obj 3).consumed, (c.obj 3).lastFault, (c.obj 3).faults)) = some (0xFFFFFFFFFFFFFFF8, 1, 1) := by decide +kernel
theorem test_barrier_release : out (exec (.arrive 3 host1 1 0) (ob { mode := .barrier, param := 2, arr0 := 1, bm0 := 1 } id)) (fun c => (c.obj 3).round) = some 1 ∧
    out (exec (.arrive 3 host1 0 0) (ob { mode := .barrier, param := 2, arr0 := 1, bm0 := 1 } id)) (fun c => (c.obj 3).lastFault) = some 4 := by decide +kernel
theorem test_wait_recorded : out (exec (.waitAvail 3 7 5) (ob { mode := .counter, param := 16, produced := 4 } id)) (fun c => (c.edge 0).waiters) =
    some [⟨3, 7, 0, 5⟩] := by decide

theorem test_hyp_sync_tile : let w (q : Seq) (p : PowerSt) : Core := (yS (fun x => { x with power := p, seq := q })).dev.core
    frozenChip (w {} .active) = false ∧ tileTakes (w {} .active) 0 = true ∧ ((w { st := .waiting } .active).tile 0).seq.st = .waiting ∧
    ((w { st := .waiting, wait := some (12, 0, 4) } .active).tile 0).seq.wait.map (fun w => w.1) = some 12 ∧
    ((w { sread := some 5 } .active).tile 0).seq.sread = some 5 ∧ ((w {} .parked).tile 0).power = .parked ∧ tileTakes (w {} .parked) 0 = true ∧
    (w { st := .waiting } .active).gateWait.getLsbD 16 = true ∧ tileQuiet ((w { st := .waiting } .active).tile 0) = true ∧
    ((w {} .active).ptn 0).dlkCfg.getLsbD 16 = true ∧ ((w {} .active).ptn 0).blocked = false ∧ ((w {} .active).tile 0).seq.pendSync = none := by decide
theorem test_hyp_blocked : let c := (yS (fun x => { x with assigned := true, seq := { st := .waiting, wait := some (12, 0, 4) } })).dev.core
    ptnBlocked c 0 = true ∧ (c.ptn 0).dlkCfg.getLsbD 16 = true ∧ (c.ptn 0).blocked = false ∧ 0 ∈ ptnTiles c 0 := by decide +kernel
theorem test_ack_fault : out (exec (.ack 0 12 6 false) (yS (tQ (fun q => { q with unacked := [12] })))) (fun c => (c.tile 0).seq.pendSync) =
    some (some 0x6000C) := by decide
theorem test_wake_parked : out (exec (.wake 0 12) (yS (fun x => { x with power := .parked }))) (fun c => ((c.tile 0).inbox, (c.tile 0).waking)) =
    some ([.wake 12], true) := by decide

/-! ### DMA, gating, coherence -/

/-- Tile 0 of partition 0 at work, window entry 0 at PPA extent 3, channel 3 as `g` makes it. -/
def dm (g : DmaChan → DmaChan) (h : Tile → Tile) : State := rg {} (fun c => kImg 48 { c with
  tiles := [(0, h (tC g { power := .active, assigned := true, win := [(0, some (3, 0))] }))], rot := { units := [(16384, { st := .serving })] } })

/-- READ of `rows` rows of 128 B from PLA 0x80 to local-store address 0x40. -/
def rdDesc (rows : Nat) : DmaDesc :=
  ⟨BitVec.ofNat 256 (1 + 0x40 * 2 ^ 32 + 0x80 * 2 ^ 64 + 128 * 2 ^ 128 + rows * 2 ^ 160 + 128 * 2 ^ 192 + 128 * 2 ^ 224), 0, 0, 0, 0, false, false⟩
/-- WRITE of one row of 128 B, and a READ beyond the pool's last PLA. -/
def wrDesc : DmaDesc := ⟨BitVec.ofNat 256 (2 + 0x40 * 2 ^ 32 + 0x80 * 2 ^ 64 + 128 * 2 ^ 128 + 2 ^ 160 + 128 * 2 ^ 192 + 128 * 2 ^ 224), 0, 0, 0, 0, false, false⟩
def farDesc : DmaDesc := ⟨BitVec.ofNat 256 (1 + 896 * 2 ^ 94 + 128 * 2 ^ 128 + 2 ^ 160 + 128 * 2 ^ 192 + 128 * 2 ^ 224), 0, 0, 0, 0, false, false⟩
def ln0 (retry : Bool) : DmaLine := ⟨0x80, false, retry, 0x40, 0, 128, 0, 0, false, { nullReq with tag := 0x300 }⟩
def pk0 : PushPkt := ⟨5, 2, 0x21, 0x20, [1, 2], false, false, none, none⟩

theorem test_hyp_dma_channel : let q := (dm (fun h => { h with queue := [rdDesc 2] }) id).dev.core
    let r := (dm (fun h => { h with run := [rdDesc 2] }) id).dev.core
    let l (b : Bool) : Core := (dm (fun h => { h with lines := [ln0 b] }) id).dev.core
    let w := (dm (fun h => { h with run := [wrDesc], lines := [{ ln0 false with write := true }] }) id).dev.core
    let ch : DmaDesc := { rdDesc 2 with addr := 0x1FFFF0, unread := true }
    dmaRuns q 0 3 = true ∧ (chanOf (q.tile 0) 3).queue = [rdDesc 2] ∧ (rdDesc 2).addr + 32 ≤ lsSize ∧ descFault q (q.tile 0) (rdDesc 2) = none ∧
    (chanOf (q.tile 0) 3).run.all (fun e => e.issued) = true ∧ (dOrder (rdDesc 2).w = true → (chanOf (q.tile 0) 3).run = []) ∧
    lsSize < ch.addr + 32 ∧
    descFault q (q.tile 0) (rdDesc 0) = some 0x0501 ∧ (chanOf (r.tile 0) 3).lines.length < 64 ∧ linesOut (r.tile 0) < 512 ∧ ownLines (r.tile 0) = false ∧
    dmaRuns r 0 3 = true ∧ (chanOf (r.tile 0) 3).run.find? (fun d => !d.issued) = some (rdDesc 2) ∧ dPool (rdDesc 2).w = true ∧ dSig (rdDesc 2).w = false ∧
    dOp (rdDesc 2).w = 1 ∧ dmaRuns w 0 3 = true ∧ (chanOf (w.tile 0) 3).run.find? (fun d => !d.issued) = some wrDesc ∧ dOp wrDesc.w = 2 ∧ dPool wrDesc.w = true ∧
    (chanOf (w.tile 0) 3).lines.any (fun l => l.write && decide (l.pla.toNat = (nextChunk wrDesc).addr - (nextChunk wrDesc).off)) = true ∧
    (chanOf (r.tile 0) 3).lines.any (fun l => l.write) = false ∧ poisonIn (w.tile 0) (nextChunk wrDesc).ls (nextChunk wrDesc).len = [] ∧
    (nextChunk (rdDesc 2)).addr / 2 ^ 30 < 896 ∧ (tget none ((nextChunk (rdDesc 2)).addr / 2 ^ 30) (r.tile 0).win).map (fun y => y.1) = some 3 ∧
    896 ≤ (nextChunk farDesc).addr / 2 ^ 30 ∧ tget none ((nextChunk (rdDesc 2)).addr / 2 ^ 30) ({ r.tile 0 with win := [] } : Tile).win = none ∧
    (r.tile 0).stackFailed.getLsbD (r.place (3 * 2 ^ 30 + 0x80)).1 = false ∧
    (chanOf ((l false).tile 0) 3).lines.find? (fun l => decide (l.q.tag = 0x300) && decide (l.pla = 0x80) && !l.retry) = some (ln0 false) ∧
    (chanOf ((l true).tile 0) 3).lines.find? (fun l => decide (l.q.tag = 0x300) && l.retry) = some (ln0 true) ∧
    (chanOf ((l false).tile 0) 3).lines.find? (fun l => !l.retry) = some (ln0 false) ∧ (((l false).modPtn 0 (fun x => { x with ueTrap := true })).ptn 0).ueTrap = true ∧
    ((l true).tile 0).stackFailed.getLsbD (ln0 true).home = false ∧ frozenChip r = false ∧ (r.ust 4 0 = .serving) ∧ r.ust 4 9 ≠ .serving ∧
    pk0.part = none ∧ pk0.poison = false ∧ pk0.sig = none := by decide +kernel
theorem test_read_line : out (exec (.dmaLineIssue 0 3) (dm (fun h => { h with run := [rdDesc 2] }) id)) (fun c => (c.out.length,
    (chanOf (c.tile 0) 3).lines.map (fun l => (l.pla, l.lsAddr, l.len)), (chanOf (c.tile 0) 3).run.map (fun d => (d.row, d.col)))) =
    some (1, [(0x80, 0x40, 128)], [(1, 0)]) := by decide +kernel
theorem test_read_data : out (exec (.dmaResponse 0 3 ⟨opCmpData, 0x300, 0x80, 0x0201, false, false, 0, 0⟩) (dm (fun h => { h with
      lines := [ln0 false], run := [{ rdDesc 2 with row := 1 }] }) id)) (fun c => ((c.tile 0).ls, (chanOf (c.tile 0) 3).lines.length)) =
    some ([(0x40, 1), (0x41, 2)], 0) := by decide +kernel
theorem test_bad_desc : out (exec (.descriptorStart 0 3) (dm (fun h => { h with queue := [rdDesc 0] }) id)) (fun c => ((c.tile 0).fcCode, (chanOf (c.tile 0) 3).halted)) =
    some (0x0501, true) := by decide
theorem test_push_refused : out (exec (.pushData 9 pk0) (dm id id)) (fun c => c.out) = some [.toCluster 0 2 ⟨opNackFenced, 0x21, 0, 0, false, false, 0x0509, 0⟩] := by decide

theorem test_hyp_gating : let x (p : PowerSt) : Tile := (dm id (fun x => { x with power := p, waking := true })).dev.core.tile 0
    (x .active).pwr.getLsbD 16 = true ∧ (x .active).seq.st = .halted ∧ (x .active).work = none ∧ tileQuiet (x .active) = true ∧ (x .active).inbox = [] ∧
    (x .gated).power = .gated ∧ (x .off).power = .off ∧ (x .off).waking = true := by decide
theorem test_wakes_held : out (exec (.clusterWakeDone 0) (dm id (fun x => { x with power := .off, waking := true }))) (fun c => (c.ust 4 0, (c.tile 0).power)) =
    some (.held, .active) := by decide

/-- Home 0 at work, its entry 0 of partition 0 as given, hosts 0 and 1 of group 1. -/
def hm (x : Ext) (g : Home → Home) : State := rg {} (fun c => kImg 48 ({ c with
  hosts := [(0, { valid := true, group := 1 }), (1, { valid := true, group := 1, ep := 9, port := 2 })] }.setHome 0 (g { ext := [(0, x)] })))
def req1 (op : BitVec 6) : Req := ⟨op, 0, 0, 0, 0, 0, 0, false, 0x80, 3, 0x0707, false⟩
def own1 : DirEnt := dirX 1

theorem test_hyp_requests : let c (x : Ext) (g : Home → Home) : Core := (hm x g).dev.core
    (∀ op ∈ [1, 2, 3, 4, 8, 9, 10], homeAccepts (c extA id) 0 host1 (req1 op) 0 = true) ∧ (c extA id).dirEnt 0 (reqLine (c extA id) 0 host1 (req1 1)) = none ∧
    (setOf ((c extA id).home 0) (reqLine (c extA id) 0 host1 (req1 1))).length < 16 ∧ ((c extA id).home 0).dirCfg.getLsbD 0 = true ∧
    ((c extA (fun h => { h with dirCfg := 0x4002 })).home 0).dirCfg.getLsbD 0 = false ∧ (req1 9).mask ≠ fullMask ∧ (req1 9).poison = false ∧
    twf {} (c extA id).ptns = true ∧ ((c extA id).home 0).fence.contains 0 = false ∧ ((c extA id).home 0).nackQ < 256 ∧
    256 ≤ ((c extA (fun h => { h with nackQ := 256 })).home 0).nackQ ∧ inWindow (req1 1).pla = false ∧
    ((c extA (fun h => { h with fence := [0] })).home 0).fence.contains 0 = true ∧
    homeRefusal (c { extA with valid := false } id) 0 ((c extA id).originPtn host1) host1 { req1 1 with op := 1 } ≠ none ∧
    (let d := c extA (fun h => { h with dir := [(reqLine (c extA id) 0 host1 (req1 1), some own1)] })
     homeAccepts d 0 host1 (req1 2) 0 = true ∧ d.dirEnt 0 (reqLine d 0 host1 (req1 2)) = some own1 ∧ own1.st = .x ∧ own1.owner ≠ 0) ∧
    reservedOp 5 = true ∧ (c extA id).works 6 0 = true ∧ homeAccepts (c { extA with typ := 2 } id) 0 host1 (req1 8) 2 = true := by decide +kernel
theorem test_hyp_snapshot_write : let c := (hm { extA with typ := 1, region := 0 } id).dev.core
    let c := c.setPageWord 0 (reqLine c 0 host1 (req1 8) / 512) 0 9 true
    homeAccepts c 0 host1 (req1 8) 1 = true ∧ (c.home 0).copies = [] ∧ (c.pageWords 0 (reqLine c 0 host1 (req1 8) / 512))[(req1 8).pleat.toNat]? = some (9, true) := by decide +kernel
theorem test_rd_own : out (exec (.rdOwn 0 host1 (req1 2)) (hm extA id)) (fun c => (c.home 0).dir.map (fun d => d.2.map (fun x => (x.st, x.owner)))) =
    some [some (.x, 0)] := by decide +kernel
theorem test_wr_part : out (exec (.wrPart 0 host1 (req1 9)) (hm extA id)) (fun c => c.mem.map (fun b => b.2)) = some [7, 7] := by decide +kernel
theorem test_snoops_owner : out (exec (.rdShared 0 host1 (req1 1)) (hm extA (fun h => { h with dir := [(3072 * 512 + 1, some own1)] }))) (fun c => c.out) =
    some [.snoop 0 1 2 false false 0x80 0] := by decide +kernel

/-- The transaction of host 0's RDSHARED that waits for host 1. -/
def trk1 (op : BitVec 6) (phase : Nat) (sn : List Snoop) (kind : TrkKind) (sal : Bool) : Trk :=
  ⟨0, 0, kind, host1, req1 op, 3072 * 512 + 1, 0, phase, sn, [], sal, none, 0, [], false, 0, false, false, 0x4003, 0x020030D4, false⟩
def sn1 (sal : Bool) (tries : Nat) : Snoop := ⟨1, sal, sal, tries⟩
def waits (t : Trk) (d : DirEnt) : State := hm extA (fun h => { h with trks := [t], dir := [(3072 * 512 + 1, some d)] })

theorem test_hyp_snoops : let t := trk1 1 1 [sn1 false 0] .request false
    let c := (waits t own1).dev.core
    c.works 6 0 = true ∧ (c.home 0).trks = [t] ∧ (c.home 0).recallQ = [] ∧ ((c.mirr t.p).pendOf t.o).isNone = true ∧ c.dirEnt 0 t.line = some own1 ∧
    own1.owner = (sn1 false 0).h ∧ own1.owner ≠ t.o.idx ∧ (c.home 0).fence.contains 1 = false ∧ trkOfTag c 0 0x1000 = none ∧
    (trk1 1 2 [] .request false).phase = 2 ∧ (sn1 false 0).tries < field t.tmo 26 24 ∧
    field t.tmo 26 24 ≤ (sn1 false 2).tries ∧ (trk1 1 1 [sn1 true 0] (.walk 5) true).kind = .walk 5 ∧
    ({ valid := true, st := 1 } : HostEnt).st = 1 := by decide
theorem test_data_retained : out (exec (.snpAckData 0 ⟨1, 0, true, true, 5⟩) (waits (trk1 1 1 [sn1 false 0] .request false) own1))
    (fun c => ((c.dirEnt 0 (3072 * 512 + 1)).map (fun d => (d.st, d.owner, d.ptrs.filterMap (fun x => x))), c.mem.length)) = some (some (.o, 1, [0]), 0) := by decide +kernel
theorem test_data_given : out (exec (.snpAckData 0 ⟨1, 0, true, false, 5⟩) (waits (trk1 1 1 [sn1 false 0] .request false) own1))
    (fun c => ((c.dirEnt 0 (3072 * 512 + 1)).map (fun d => d.st), c.mem.map (fun b => b.2))) = some (some .s, [5]) := by decide +kernel
theorem test_snoop_fences : out (exec (.snoopTimeout 0 0) (waits (trk1 1 1 [sn1 false 2] .request false) own1)) (fun c => (c.host 1).st) = some 1 := by decide +kernel
theorem test_ack_ends : out (exec (.cmpAck 0 0 0) (waits (trk1 1 2 [] .request false) own1)) (fun c => (c.home 0).trks.length) = some 0 ∧
    out (exec (.cmpAck 0 0 7) (waits (trk1 1 2 [] .request false) own1)) (fun c => (c.home 0).cohProto) = some 1 := by decide +kernel
/-- R36's example: k = 48, PPA 0x25_4012_3480 lies in stack 2 at offset 0x2_5401_3480. -/
theorem test_place_example : place {} 48 0x2540123480 = (2, 0x254013480) := by decide

/-! ### Ports, mesh, ingress, mirror -/

/-- Port 2 changed by `g`, of a device in service. -/
def pt (g : Port → Port) : State := dv (fun c => { c with rot := { units := [(9 * 4096 + 2, { st := .serving })] } }.setPort 2 (g {}))
def pkA : EgPkt := ⟨2, .snoop 9 0x10 false false 0x80 0⟩
/-- A flit with the CRC of its bytes. -/
def good (f : Flit) : Flit := { f with crc := crc64 (flitBytes f) }
def ctl (w0 w3 : BitVec 32) : Flit := { blankFlit with kind := 2, slots := [w3 ++ (0 : BitVec 64) ++ w0] }
/-- A port whose link is Up at full width. -/
def upP (p : Port) : Port := { p with link := .up, groups := 15, width := 64, laser := 0xFF }

theorem test_hyp_links : let c (g : Port → Port) : Core := (pt g).dev.core
    let q : Port := upP { snoops := [pkA] }
    portRuns (c id) 2 = true ∧ (pt id).ok = true ∧ ((c id).port 2).mirrorRole = false ∧ ((c id).port 2).link = .disabled ∧ (c id).ust 9 2 ≠ .failed ∧
    (dv (oneUnit 9 2 .failed .failed)).dev.core.ust 9 2 = .failed ∧ litGroups 0x3 = 1 ∧ litGroups 0x5 = 0 ∧ ((c id).port 2).minWidth = 16 ∧
    16 * groupCount (0x0 : BitVec 4) < 16 ∧ (16 ≤ 16 * groupCount (0x8 : BitVec 4)) ∧ ((c upP).port 2).link = .up ∧
    nextHead q 1 = some pkA ∧ q.avail 1 < slotCost (egLen pkA.body) ∧ (upP {}).laser &&& ~~~(0xFE : BitVec 8) ≠ 0 ∧
    (upP {}).laser &&& ~~~(0xFF : BitVec 8) = 0 ∧ (upP {}).buf = [] ∧ ({ upP {} with buf := [(blankFlit, 0)], replayCount := 3 } : Port).replayCount < 4 ∧
    4 ≤ ({ upP {} with buf := [(blankFlit, 0)], replayCount := 4 } : Port).replayCount ∧ ({ en := true, link := .down } : Port).en = true := by decide +kernel
theorem test_enable_trains : out (exec (.linkEnable 2 0x0C) (pt id)) (fun c => ((c.port 2).link, (c.port 2).groups)) = some (.train, 2) ∧
    out (exec (.linkEnable 2 0) (pt id)) (fun c => ((c.port 2).link, (c.port 2).lastDown)) = some (.down, 1) := by decide
theorem test_train_narrow : out (exec (.portTrainingDone 2 0xF 0x6) (pt (fun p => { p with link := .train, groups := 0xE }))) (fun c => ((c.port 2).link,
    (c.port 2).groups, (c.port 2).width)) = some (.init, 6, 32) := by decide

theorem test_hyp_flits : let i : Port := { upP {} with link := .init }
    let f : Flit := good { ctl 0x11 0xF with slots := [0x0000000F000000000000000000000011] }
    let cm : Cmp := ⟨2, 0, 9, 0x10, 2, opCmp, 0, false, false, 0, 5, 0, 0, 1, 0⟩
    crcGood f = true ∧ crcGood { f with crc := f.crc ^^^ 1 } = false ∧ f.kind = 2 ∧ ctlOf f = 1 ∧ sameLink i f = true ∧ sameLink { i with groups := 3 } f = false ∧
    crcGood (good (ctl 0x12 0)) = true ∧ ctlOf (good (ctl 0x12 0)) = 2 ∧ ctlOf (ctl 0x13 0) = 3 ∧ ctlOf (ctl 0x14 0xF) = 4 ∧
    sameLink { i with link := .retrain, resuming := true } (ctl 0x14 0xF) = true ∧ i.doneSent = false ∧ i.initGot = false ∧
    blankFlit.kind ≠ 2 ∧ (1 : BitVec 16) ≠ (upP {}).expected ∧ ((1 : BitVec 16) - 0).toNat ≤ 32767 ∧ 32767 < ((0 : BitVec 16) - 1).toNat ∧
    ((0 : BitVec 16) - (upP {}).oldest).toNat ≤ ((upP {}).next - (upP {}).oldest).toNat ∧ ((upP {}).next - (upP {}).oldest).toNat < ((1 : BitVec 16) - (upP {}).oldest).toNat ∧
    slotCost (egLen pkA.body) ≤ ({ upP {} with vcs := [(1, { limit := 4 })] } : Port).avail 1 ∧ (egWords pkA.body).length ≤ 15 ∧ ((upP {}).next - (upP {}).oldest).toNat < 16384 ∧
    16384 ≤ (({ upP {} with next := 0x4000 } : Port).next - (upP {}).oldest).toNat ∧ (upP {}).heads = [] ∧ (upP {}).linked = true ∧ ({} : Port).linked = false ∧
    (upP {}).mgt = [] ∧ (upP {}).answers = [] ∧ (upP {}).reqs = [] ∧ (∀ v, v < 4 → (tget {} v (upP {}).vcs).rest = []) ∧
    (upP {}).mirrorRole = false ∧ ({ upP {} with cfg := 0x110 } : Port).mirrorRole = true ∧ (⟨2, .cmp cm⟩ : EgPkt).body = .cmp cm ∧
    (⟨2, .mgt 3 9 0 []⟩ : EgPkt).body = .mgt 3 9 0 [] ∧ (tget ({} : FairQ) 9 (upP {}).queues).pkts.length < 512 ∧
    ({ upP {} with replaying := [(blankFlit, 0)] } : Port).replaying = [(blankFlit, 0)] ∧ field ({} : Cap).cfg 25 16 ≤ 1023 ∧
    ({ upP {} with cap := { st := 1 } } : Port).cap.st = 1 := by decide +kernel
/-- An UPGRADE request's slot: opcode 4 on channel REQ. -/
def upgSlot : BitVec 128 := BitVec.ofNat 128 (4 * 2 ^ 18)
theorem test_hyp_payload : let f : Flit := good { blankFlit with kind := 0, slots := [upgSlot] }
    crcGood f = true ∧ f.seq = (upP {}).expected ∧ forwards (pt upP).dev.core 2 f.vc.toNat (packetOf f.vc.toNat [upgSlot]) = true ∧
    (tget {} f.vc.toNat (upP {}).vcs).need = 0 ∧ slots15 f = upgSlot :: List.replicate 14 0 ∧ slotWord ((List.replicate 14 (0 : BitVec 128)).headD 0) 0 = 0 ∧ packetLen false f.vc.toNat upgSlot = some 1 ∧
    1 ≤ (tget {} f.vc.toNat ({ upP {} with vcs := [(0, { room := 1 })] } : Port).vcs).room ∧ startViolations false f.vc.toNat upgSlot = [] ∧ f.first = 0 ∧
    f.replayReq = false := by decide +kernel
theorem test_snoop_sent : out (exec (.flitSend 2 0) (pt (fun p => { upP p with snoops := [pkA], vcs := [(1, { limit := 4 })] })))
    (fun c => ((c.port 2).next, (c.port 2).buf.length, (tget {} 1 (c.port 2).vcs).consumed)) = some (1, 1, 1) := by decide +kernel
theorem test_window_closed : out (exec (.flitSend 2 0) (pt (fun p => { upP p with next := 0x4000, snoops := [pkA], vcs := [(1, { limit := 4 })] })))
    (fun c => ((c.port 2).next, (c.port 2).snoops.length)) = some (0x4000, 1) := by decide +kernel

/-- Routers at work. -/
def rt (l : List Nat) (g : Core → Core) : State := dv (fun c => g { c with rot := { c.rot with units := l.map (fun t => (5 * 4096 + t, { st := .serving })) } })
def mp (dst inp : Nat) : MeshPkt := ⟨.request, dst, 0, 0, false, false, 0, false, 0, 0, inp, false, none⟩

theorem test_hyp_mesh : let c := (rt [0, 1] id).dev.core
    (c.mesh.routes false).detours = [] ∧ routeOf c.mesh 0 (mp 5 4) = some 1 ∧ routeOf c.mesh 7 (mp 5 4) = some 3 ∧ routeOf c.mesh 5 (mp 45 4) = some 0 ∧
    routeOf c.mesh 85 (mp 45 4) = some 2 ∧ routeOf c.mesh 5 (mp 5 4) = some 4 ∧ c.works 5 0 = true ∧ deadRouter c 0 = false ∧ nextRouter 0 1 = some 1 ∧
    inputUse (c.router 1) (mp 5 4) 3 < bufCap 0 ∧ (rt [0] id).dev.core.works 5 1 = false ∧
    deadRouter (dv (fun c => { c with rot := { c.rot with units := [(20481, { st := .failed })] } })).dev.core 1 = true ∧
    c.hasUnit 4 0 = true ∧ frozenChip c = false ∧ mgrUp c 4 = true ∧ routeDrained c = false ∧ portIn (pt upP).dev.core 2 [.up] = true := by decide
/-- Router 0 with a waiting packet `k`, and a route change whose markers have come. -/
def rtq (k : MeshPkt) : Core := (rt [0, 1] (fun c => c.setRouter 0 { bufs := [k] })).dev.core
def chg (img : Option Image) : Core := (rt [0] (fun c => c.modMesh (fun m => { m with change := some ⟨none, injPoints c, img⟩ }))).dev.core
theorem test_hyp_mesh_packets : let v : MeshPkt := { mp 5 4 with esc := true }
    atHead ((rtq (mp 5 4)).router 0) (mp 5 4) = true ∧ routeOf (rtq (mp 5 4)).mesh 0 (mp 5 4) = some 1 ∧
    routeOf (rtq (mp 0 4)).mesh 0 (mp 0 4) = some 4 ∧ (mp 5 4).kind ≠ 3 ∧ (mp 0 4).leaf = none ∧ (mp 5 4).esc = false ∧
    inputUse ((rtq (mp 5 4)).router 0) v 4 < 4 ∧ 4 ≤ inputUse ({ bufs := [mp 5 4, v, v, v, v] } : Router) v 4 ∧
    bufCap 0 ≤ inputUse ({ bufs := List.replicate 8 (mp 5 3) } : Router) (mp 5 4) 3 ∧
    mp 0 4 ∉ ((rtq (mp 5 4)).router 0).bufs ∧ injectable (rtq (mp 5 4)) 0 (mp 0 4) = true ∧ injectable (rtq (mp 5 4)) 0 v = false ∧
    (rtq (mp 5 4)).hasUnit 5 0 = true := by decide +kernel
theorem test_hyp_route_change : let c := chg none
    c.mesh.change = some ⟨none, injPoints c, none⟩ ∧ routeDrained c = true ∧ rotUp c = true ∧ c.rot.actions.all (fun a => decide (a.step ≠ 22)) = true ∧
    routeDrained (chg (some img0)) = true ∧ img0.traffic = [] ∧ img0.settings = [] ∧ img0.tuning = false ∧
    ({ img0 with tuning := true } : Image).tuning = true ∧ [((3 : Nat), (5 : Nat))].map Prod.fst = [3] ∧
    ({ c.mesh with fmEp := 0x80000009 } : Mesh).fmEp.getLsbD 31 = true ∧ field (0x80000009 : BitVec 32) 17 0 = (9 : BitVec 18).toNat := by decide +kernel
theorem test_hyp_multicast : let r : Routes := ⟨[], [], [], [(0, false, 3, 0x10)], [(false, 3, [⟨0, 0, []⟩])], 0⟩
    let k : MeshPkt := { mp 0 4 with kind := 3, tree := 3 }
    treeOuts r 0 (meshPlaneB k) 3 = [4] ∧ leavesAt r k 0 = [⟨0, 0, []⟩] ∧ atHead ((rtq k).router 0) k = true ∧
    ((rtq k).router 0).mc.find? (fun x => decide (x.1 = k)) = none ∧ leafFenced (rt [0] (oneUnit 4 0 .fenced .fenced)).dev.core ⟨0, 0, []⟩ = true ∧
    leafFenced (rt [0] (oneUnit 4 0 .serving .serving)).dev.core ⟨0, 0, []⟩ = false ∧ ({ k with ackReq := true } : MeshPkt).ackReq = true := by decide +kernel
theorem test_forward : out (exec (.routerForward 0 (mp 5 4)) (rt [0, 1] (fun c => c.setRouter 0 { bufs := [mp 5 4] }))) (fun c => ((c.router 0).bufs.length,
    (c.router 1).bufs.map (fun k => k.inp))) = some (0, [3]) := by decide +kernel
theorem test_escape : out (exec (.escapeThreshold 0 (mp 5 4)) (rt [0] (fun c => c.setRouter 0 { bufs := [mp 5 4] }))) (fun c => ((c.router 0).escapes,
    (c.router 0).bufs.map meshChan)) = some (1, [2]) := by decide +kernel
/-- R411's example: two windows with marks take 256 GB/s to 128 and 64 GB/s, each window without marks adds 8 GB/s. -/
theorem test_aimd_example : let s (r m : Nat) : State := dv (fun c => c.setTile 0 { rate := r, marks := m })
    out (exec (.aimdWindow 0) (s 65536 1)) (fun c => (c.tile 0).rate) = some (128 * 256) ∧
    out (exec (.aimdWindow 0) (s (128 * 256) 3)) (fun c => (c.tile 0).rate) = some (64 * 256) ∧
    out (exec (.aimdWindow 0) (s (64 * 256) 0)) (fun c => (c.tile 0).rate) = some (72 * 256) := by decide

/-- Port 2 Up with the extent copy of partition 0, whose endpoint is 0x10; host 0 of endpoint 9. -/
def ig (x : Ext) (m : Table Meter) : State := dv (fun c =>
  let c := host0 (fun h => { h with group := 1, ep := 9 }) (p0 [(0, x)] (fun p => { p with endpoint := 0x10 }) (kImg 48 c))
  { c with rot := { units := [(9 * 4096 + 2, { st := .serving })] } }.setPort 2 (upP { ext := [(0, x)], meters := m }))
def inReq (op : BitVec 6) : Req := { req1 op with dst := 0x10, src := 9 }

theorem test_hyp_ingress : let c := (ig extA []).dev.core
    portRuns c 2 = true ∧ (c.port 2).linked = true ∧ (c.port 2).answers.length < 64 ∧ requestOp 1 = true ∧ c.ust 9 2 = .serving ∧ ptnOfEp c 0x10 = some 0 ∧
    ptnOfEp c 0x11 = none ∧ c.mirrored 0 = false ∧ (c.ptn 0).hostsFenced = false ∧ hostOfEp c 0 9 = some 0 ∧ hostOfEp c 0 8 = none ∧ (c.host 0).st = 0 ∧ 0 ∉ (c.port 2).fence ∧
    plaExt 0x80 ≤ 895 ∧ grants extA (c.host 0).group (needsWrite 2) = true ∧ grants { extA with slots := [(1, 1)] } 1 (needsWrite 2) = false ∧
    (c.port 2).stackFailed.getLsbD 0 = false ∧ ({} : Meter).en = false ∧ ({ cir := 0x80000000 } : Meter).en = true ∧
    (({ cir := 0x80000000 } : Meter).accrue 5).p.tok < meterBytes ∧ meterBytes ≤ (({ cir := 0x80000000, p := ⟨meterBytes, 0⟩, pbs := 2 } : Meter).accrue 0).p.tok ∧
    holderServes {} = false ∧ (0x710000 + 2 * 0x4000 + 511 * 32 + 8 < 2 ^ 26) ∧ loadCond { c with tmgr := 1 } 2 none = true ∧
    loadCond { c with tmgr := 0 } 2 none = false := by decide
theorem test_red_retry : out (exec (.requestIngress 2 (inReq 1) 0) (ig extA [(meterOf 1 1, { cir := 0x80000000 })])) (fun c =>
    (c.port 2).meters.map (fun m => m.2.red)) = some [1] := by decide +kernel
theorem test_ingress_home : out (exec (.requestIngress 2 (inReq 1) 0) (ig extA [])) (fun c => c.out) =
    some [.toHome 0 ⟨1, 0, 0, 2, 0, none, 0⟩ (inReq 1)] := by decide +kernel
theorem test_no_right : out (exec (.requestIngress 2 (inReq 8) 0) (ig { extA with slots := [(1, 1), (0, 0), (0, 0), (0, 0)] } [])) (fun c => ((c.ptn 0).nackRevoked, c.out.length)) =
    some (1, 1) := by decide +kernel

/-- Partition 0 mirrored, its mirror as given. -/
def mr (m : Mirr) : State := dv (fun c => (host0 id (p0 [(0, extA)] (fun p => { p with mirrored := true }) (kImg 48 c))).setMirr 0 m)
def pend1 : MirrPend := ⟨5, host1, nullReq, 0x31, 0, false⟩

theorem test_hyp_mirror : let c (m : Mirr) : Core := (mr m).dev.core
    (c {}).mirrored 0 = true ∧ holderServes {} = false ∧ holderServes { st := .active } = true ∧ (c {}).homes = [] ∧
    ([⟨0, 4, 0x31, true⟩] : List Dedupe).find? (fun d => decide (d.tag = host1.tag)) = some ⟨0, 4, 0x31, true⟩ ∧
    ((c {}).mirrs.map (fun x => (x.2.pend.filter (fun k => !k.dead)).length)).sum < 4096 ∧ plaExt nullReq.pla ≤ 895 ∧
    [pend1].find? (fun k => decide (k.order = 5) && decide (k.op ≠ 0)) = some pend1 ∧ (0x31 = pend1.op) ∧ (0x39 ≠ pend1.op) ∧
    ([] : List MirrPend).find? (fun k => decide (k.order = 5) && decide (k.op ≠ 0)) = none ∧ 1 < ({ rsOn := true, rsOut := 2 } : Mirr).rsOut ∧
    ([(1, 100, true)] : List (BitVec 32 × Nat × Bool)).find? (fun k => decide (k.1 = 1)) = some (1, 100, true) ∧
    (c {}).evc.tick.toNat < max 0 (100 + 20 * 24990 - 25000) ∧ max 0 (1 + 1 * 24990 - 25000) ≤ (c {}).evc.tick.toNat ∧ mirrLinkUp (c {}) 0 = false ∧
    mirrLinkUp ({ c {} with rot := { units := [(9 * 4096 + 2, { st := .serving })] } }.setPort 2 (upP { cfg := 0x110 }) |>.setMirr 0 { port := 2 }) 0 = true ∧
    ([⟨0, 4, 0x31, false⟩] : List Dedupe).find? (fun d => decide (d.tag = host1.tag)) = some ⟨0, 4, 0x31, false⟩ ∧
    4096 ≤ ((c { pend := List.replicate 4096 pend1 }).mirrs.map (fun x => (x.2.pend.filter (fun k => !k.dead)).length)).sum ∧
    hostOfEp (c {}) 0 0 = some 0 ∧ ((c {}).host 0).st = 0 ∧ hostOfEp (c {}) 0 9 = none ∧
    [pend1].all (fun k => k.dead) = false ∧ [{ pend1 with dead := true }].all (fun k => k.dead) = true ∧ [{ pend1 with op := 0 }].all (fun k => decide (k.op = 0)) = true ∧
    [{ pend1 with order := 0 }].all (fun k => decide (k.order = 0)) = true ∧ pend1 ∈ [pend1] ∧ pend1.order ≠ 0 := by decide +kernel
theorem test_hyp_resync : let c := (dv (fun c => stack0 ((host0 id (p0 [(0, extA)] (fun p => { p with mirrored := true }) (kImg 48 c))).setMirr 0 { st := .active, rsOn := true }))).dev.core
    ((validExts c 0).mergeSort (fun a b => decide (a ≤ b))).find? (fun i => decide ((c.mirr 0).rsEnt ≤ i)) = some 0 ∧ c.works 6 (plaLine c 0 0).1 = true ∧
    lineBlocked (c.home 0) (plaLine c 0 0).2 = false ∧ (c.masterExt 0 0).typ ≠ 1 ∧ (c.masterExt 0 0).valid = true ∧ (plaLine c 0 0).2 < 2 ^ 29 ∧
    ((validExts c 0).mergeSort (fun a b => decide (a ≤ b))).find? (fun i => decide (1 ≤ i)) = none := by decide +kernel
theorem test_hyp_resync_region : let c := ((rg { slots := [(0, ⟨.working, 0, none⟩)] } (fun c => kImg 48 (stack0 (c.setMirr 0 { st := .active, rsOn := true })))).dev.core).setPageWord 0 3072 0 9 true
    let e := (plaLine c 0 0).1
    let line := (plaLine c 0 0).2
    ((validExts c 0).mergeSort (fun a b => decide (a ≤ b))).find? (fun i => decide ((c.mirr 0).rsEnt ≤ i)) = some 0 ∧ (c.masterExt 0 0).typ = 1 ∧
    (c.region (c.masterExt 0 0).region).created = true ∧ (c.region (c.masterExt 0 0).region).base ≤ 0 ∧ 0 < (c.region (c.masterExt 0 0).region).base + (c.region (c.masterExt 0 0).region).v ∧
    c.works 6 e = true ∧ lineBlocked (c.home e) line = false ∧ (c.pageWords e (line / 512))[0]? = some (9, true) ∧
    (tget {} 0 (c.region (c.masterExt 0 0).region).slots).st ≠ .free := by decide +kernel
/-- R445's example: a grant of d = 20 ms lets the lease run 474,800 ticks from the request it answers. -/
theorem test_lease_example : out (exec (.cuffGrant 0 1 7 20) (mr { st := .standby, peer := 2, sends := [(1, 1000, false)] })) (fun c => ((c.mirr 0).leaseEnd, (c.mirr 0).st)) =
    some (some (1000 + 474800), .active) := by decide +kernel
theorem test_not_holder : out (exec (.replicatedRequest 0 host1 (req1 8)) (mr {})) (fun c => ((c.mirr 0).notHolder, c.out.length)) = some (1, 1) := by decide +kernel
theorem test_ack_differs : out (exec (.replAck 0 5 0x39) (mr { st := .active, pend := [pend1] })) (fun c => ((c.mirr 0).st, (c.mirr 0).peerLost)) =
    some (.soloPending, true) := by decide +kernel
theorem test_release : out (exec (.release 0) (mr { st := .active, leaseEnd := some 9 })) (fun c => ((c.mirr 0).st, (c.mirr 0).leaseEnd)) = some (.standby, none) := by decide +kernel

/-! ### HBM controllers, integrity and the log -/

/-- Controller and home of stack 0 at work. -/
def hb (x : Hbmc) (g : Core → Core) : State := dv (fun c => g ((kImg 48 (stack0 c)).setHbmc 0 { x with trained := true }))
def rdAt (a : Nat) : HbmReq := ⟨a, 0⟩
def qr : QReq := ⟨0, 0, 0, 0, 4⟩

theorem test_hyp_hbm : let c (x : Hbmc) : Core := (hb x id).dev.core
    let p (y : Pc) : Core := c { pcs := [(0, y)] }
    let own : Access := ⟨false, caOf ((c {}).hbmc 0) 0 0, 0, 0⟩
    let full : Hbmc := { pcs := [(caPc {} 0, { rq := List.replicate 32 qr })] }
    (hb {} id).ok = true ∧ (c {}).steady = true ∧ (c {}).ust 7 0 = .serving ∧ frozenChip (c {}) = false ∧ (0 : Nat) < saMeta ∧
    (enqueueAll ((c {}).hbmc 0) (own :: mdNeeds (c {}) 0 (mdLine 0))).isSome = true ∧ (enqueueAll ((c {}).hbmc 0) [own]).isSome = true ∧
    enqueueAll ((c full).hbmc 0) [own] = none ∧ (c {}).ust 7 1 ≠ .serving ∧
    ((c {}).hbmc 0).md.any (fun y => decide (y.1 = mdLine 0)) = false ∧ ((c { md := [(mdLine 0, true)] }).hbmc 0).md.any (fun y => decide (y.1 = mdLine 0)) = true ∧
    pcIssues (c {}) 0 0 = true ∧ begun (pcOf ((p { due := [3] }).hbmc 0) 0) = none ∧ (pcOf ((p { allDue := true }).hbmc 0) 0).allDue = true ∧
    (pcOf ((p { rows := [(3, some (1, 3))] }).hbmc 0) 0).rows ≠ [] ∧ (pcOf ((p { due := [3] }).hbmc 0) 0).due = [3] ∧
    (tget none 3 (pcOf ((p { due := [3], rows := [(3, some (1, 3))] }).hbmc 0) 0).rows).isSome = true ∧ pcIssues (p { due := [3] }) 0 0 = true ∧
    rfmBankOf 0 ((p {}).hbmc 0) {} = none ∧ (c {}).works 7 0 = true ∧ (pcOf ((p { rq := [qr] }).hbmc 0) 0).rq = [qr] ∧
    begun { rq := [qr] } = none ∧ rfmBankOf 0 ({ cfg := 0 } : Hbmc) { rq := [qr] } = none ∧ ({ cfg := 0 } : Hbmc).cfg.getLsbD 13 = false ∧
    1 ≤ qr.left ∧ qr.left ≤ 4 ∧ tget none (caBank {} qr.ca) [(caBank {} qr.ca, some (caRow qr.ca, (3 : BitVec 2)))] = some (caRow qr.ca, 3) ∧
    tget none (caBank {} qr.ca) [(caBank {} qr.ca, some (caRow qr.ca + 1, (3 : BitVec 2)))] = some (caRow qr.ca + 1, 3) := by decide +kernel
/-- RFM: a bank whose activates have passed the limit, whatever the limit is. -/
theorem test_hyp_rfm : rfmBankOf 0 ({ cfg := 0x2000 } : Hbmc) { acts := [(0, Config.rfmMax 0 + 1)], rq := [qr] } = some 0 ∧
    begun { acts := [(0, Config.rfmMax 0 + 1)], rq := [qr] } = none := by
  constructor
  · simp [rfmBankOf]
  · decide
theorem test_hyp_hbm_rest : let c (x : Hbmc) : Core := (hb x id).dev.core
    let ch (h : Chan) : Hbmc := { chans := [(0, h)] }
    let tr : Core := (dv (fun c => oneUnit 7 0 .held .held (c.setHbmc 0 { trnBusy := true, trnRun := 2 }))).dev.core
    (c {}).hasUnit 7 0 = true ∧ ((c {}).hbmc 0).selfRefresh = false ∧ ((c {}).hbmc 0).trained = true ∧ (c {}).ust 7 0 ≠ .off ∧ (c {}).ust 7 0 ≠ .failed ∧
    (pcOf ((c {}).hbmc 0) 0).allDue = false ∧ (pcOf ((c {}).hbmc 0) 0).due.length < 8 ∧
    8 ≤ (pcOf ((c { pcs := [(0, { due := [0, 1, 2, 4, 5, 6, 7, 8] })] }).hbmc 0) 0).due.length ∧ ((c {}).hbmc 0).pwr.getLsbD 0 = true ∧
    queuesEmpty ((c {}).hbmc 0) = true ∧ ptnsOnStack (c {}) 0 = [] ∧ ((c {}).hbmc 0).chans = [] ∧
    queuesEmpty ({ selfRefresh := true, pcs := [(0, { rq := [qr] })] } : Hbmc) = false ∧
    ((c {}).hbmc 0).cfg.getLsbD 14 = true ∧ (chanOfHbm ((c {}).hbmc 0) 0).step = 0 ∧ (chanOfHbm ((c (ch { step := 1, replays := 2 })).hbmc 0) 0).step = 1 ∧
    (chanOfHbm ((c (ch { step := 1, replays := 2 })).hbmc 0) 0).replays < 3 ∧ (c {}).ust 7 0 ≠ .held ∧
    3 ≤ (chanOfHbm ((c (ch { step := 1, replays := 3 })).hbmc 0) 0).replays ∧ (chanOfHbm ((c (ch { step := 6 })).hbmc 0) 0).step = 6 ∧
    (pcOf ((c { pcs := [(0, { replay := [.refresh 0] })] }).hbmc 0) 0).replay = [.refresh 0] ∧ ((c {}).hbmc 0).trnBusy = false ∧
    (chanOfHbm ((c (ch { step := 4 })).hbmc 0) 0).step = 4 ∧ (pcOf ((c (ch { step := 4 })).hbmc 0) 0).ahead = 0 ∧
    tr.ust 7 0 = .held ∧ tr.hasUnit 7 0 = true ∧ (tr.hbmc 0).trnBusy = true ∧ field (tr.hbmc 0).trnRun 3 1 = 1 ∧
    ((dv (oneUnit 7 0 .held .held)).dev.core.hbmc 0).trnBusy = false := by decide +kernel
theorem test_hyp_training : let k : TrnReport := ⟨[(2304, 1)], false, 0, true⟩
    trainFail (runDone { trnBusy := true } k 0) ≠ none ∧ inService (dv (fun c => { c with glb := { c.glb with ready := .boot } })).dev.core = false := by decide +kernel
theorem test_line_read : out (exec (.lineRead 0 (rdAt 0)) (hb {} id)) (fun c => ((c.hbmc 0).mdMiss, (c.hbmc 0).md.length)) = some (1, 1) := by decide +kernel
theorem test_refresh_first : out (exec (.hbmCommandIssue 0 0) (hb { pcs := [(0, { due := [3], rq := [qr] })] } id)) (fun c => c.out) = some [.hbm 0 0 (.refresh 3) false] := by
  decide +kernel
/-- R272's example: stack address 0x2_5401_3480 lies in channel 19, pseudo-channel 1, bank group 0, bank 2, row 0x950. -/
theorem test_hash_example : (caPc {} 0x254013480, caBank {} 0x254013480, caRow 0x254013480) = (19 * 2 + 1, 2, 0x950) := by decide
theorem test_alert : out (exec (.parityAlert 0 4) (hb {} id)) (fun c => ((chanOfHbm (c.hbmc 0) 4).step, (c.hbmc 0).parityAlert)) = some (1, 1) := by decide +kernel
theorem test_training_go : out (exec (.trainingGo 0 0x3) (dv (oneUnit 7 0 .held .held))) (fun c => ((c.hbmc 0).trnBusy, (c.hbmc 0).trnCtrl)) = some (true, 2) ∧
    out (exec (.trainingGo 0 0x3) (hb {} id)) (fun c => (c.hbmc 0).trnRefused) = some true := by decide

theorem test_hyp_integrity : let c := (hb {} (fun c => (p0 [(0, { extA with ppa := 0 })] id c).setHome 0 { passes := [⟨1, 0, [(4, 2)], 1⟩] })).dev.core
    c.works 6 0 = true ∧ c.place 0x80 = (0, 0x80) ∧ 0x80 / 128 < 2 ^ 29 ∧ (c.home 0).patrolCfg.getLsbD 0 = true ∧
    (c.home 0).passes.find? (fun k => decide (k.what = 1 ∧ k.p = 0)) = some ⟨1, 0, [(4, 2)], 1⟩ ∧ lineBlocked (c.home 0) 5 = false ∧
    ((dv (fun c => c.setKeys 0 { sweep := true })).dev.core.keys 0).sweep = true ∧ (liveHomes c).all (fun e => e = 0 || !((c.home e).passes.any (fun k => decide (k.what = 1 ∧ k.p = 0)))) = true ∧
    (c.home 0).passes.any (fun k => decide (k.what = 1 ∧ k.p = 0)) = true ∧
    (tS (fun x => { x with en := true })).dev.core.hasUnit 4 0 = true ∧ (tS (fun x => { x with en := true })).dev.core.ust 4 0 ≠ .off ∧
    ((tS (fun x => { x with en := true })).dev.core.tile 0).en = true ∧ c.hasUnit 6 0 = true ∧ c.ust 6 0 ≠ .off ∧ ((pt upP).dev.core.port 2).link ≠ .disabled ∧
    (c.ptn 0).en = true ∧ c.erl.faultWins.find? (fun w => decide (w.p = 0 ∧ w.cause = 2)) = none ∧
    ([⟨0, 2, 1, 5⟩] : List FaultWin).find? (fun w => decide (w.p = 0 ∧ w.cause = 2)) = some ⟨0, 2, 1, 5⟩ := by decide
theorem test_hyp_patrol : let c := (hb {} (p0 [(0, { extA with ppa := 0 })] id)).dev.core
    (lineFrom (assigned c 0) (c.home 0).patrolPos).or (lineFrom (assigned c 0) 0) = some 0 ∧ lineFrom (assigned c 0) 1 = some 1 ∧ lineBlocked (c.home 0) 0 = false := by
  decide +kernel
/-- The codeword of line 1 of home 0, all zeros under the zero keys, and the same with wrong symbols. -/
def lineC : Core := (hb {} (p0 [(0, { extA with ppa := 0 })] id)).dev.core
def cleanWord : Codeword := BitVec.ofNat 1152 0x57c607e95e9000008fba5ce7127a4e27152e7f9f3f3968f995ffe1ed2e0a56b09024351314d09f25a78fd7103e440765c17e53ead127522bb64e0d4ddba55a5a0006ec32e99f253a0dec5e9898bd156d29dd8bf643d3839d32dd2db02231c063f4f13343bf4254f3f3b4c2ae2748b0975e94e999fc8b972b10653203f95ae0c8a810dd4ab806b92f617a5a7f6cac189f
def word1 (bad : Nat) : Codeword := cleanWord ^^^ BitVec.ofNat 1152 bad
theorem test_hyp_line : lineC.works 6 0 = true ∧ lineC.place 0x80 = (0, 0x80) ∧ 0x80 < saMeta ∧ lineC.lineOwner 0 1 = some (0, 0x80) ∧ lineC.lineOwner 0 2 ≠ none ∧
    lineC.lineOwner 0 0x1000000 = none := by decide +kernel
theorem test_hyp_line_good : lineC.readLine 0 1 0x80 (word1 0) = .good 0 {} 0 := by decide +kernel
theorem test_hyp_line_fixed : lineC.readLine 0 1 0x80 (word1 0x7000005) = .good 0 {} 2 := by decide +kernel
theorem test_hyp_line_lost : lineC.readLine 0 1 0x80 (word1 0x01020304) = .uncorrectable := by decide +kernel
theorem test_hyp_line_mac : lineC.readLine 0 2 0x100 (word1 0) = .macFail := by decide +kernel
theorem test_poisoned : out (exec (.hbmReadData 0 ⟨0x80, word1 0x01020304, 0⟩) (hb {} (p0 [(0, { extA with ppa := 0 })] id))) (fun c => ((c.home 0).ue, (c.lmeta 0 1).poison,
    c.erl.faultWins.map (fun w => w.cause))) = some (1, true, [2]) := by decide +kernel
theorem test_fault_window : out (exec (.faultEventWindow 0 2) (dv (fun c => p0 [] id { c with erl := { faultWins := [⟨0, 2, 3, 7⟩] } }))) (fun c =>
    (tget 0 0 c.erl.evSeq, tget 0 0 c.erl.evLast)) = some (1, 0x30002) := by decide

/-! ### Rings, commands and built-in operations -/

/-- Words of a descriptor. -/
def desc (l : List (Nat × Nat)) : Line := BitVec.ofNat 1024 (l.map (fun x => x.2 * 2 ^ (32 * x.1))).sum

/-- Partition 0 with an uncached extent 0 at PPA extent 0, its ring 3, commands, memory; dispatcher, home 0 and the clusters given at work. -/
def po (x : Ring) (cmds : List Cmd) (mem : Mem) (tiles : Table Tile) (g : Ptn → Ptn) : State := dv (fun c =>
  let e : Table Ext := [(0, { extA with typ := 2, ppa := 0 })]
  let d := kImg 48 (host0 id c)
  { d with
    ptns := [(0, g { en := true, ext := e, rings := [(3, x)], cmds := cmds, syncCount := 20 })], mem := mem, tiles := tiles
    homes := [(0, { ext := e })]
    rot := { units := [(4 * 4096, { st := .serving }), (6 * 4096, { st := .serving }), (8 * 4096, { st := .serving })] } })

def ra0 : RingAddr := ⟨0, 3, host1, true⟩
/-- A running ring of 16 entries with one descriptor to fetch. -/
def run3 : Ring := { ctrl := 0x41, st := .running, tail := 1, cmdBase := 0, cplBase := 0x1000 }

theorem test_hyp_rings : let c (x : Ring) : Core := (po x [] [] [] id).dev.core
    (c {}).works 8 0 = true ∧ ((c {}).host 0).valid = true ∧ ringMayWrite (c {}) ((c {}).ringOf 0 3) host1 = true ∧
    ringMayWrite (c { ctrl := 0x50041 }) ((c { ctrl := 0x50041 }).ringOf 0 3) host1 = false ∧ inUncached (c {}) 0 0 (16 * 128) = true ∧
    inUncached (c {}) 0 0x3FFFFF80 (16 * 32) = false ∧ nextRing (c {}) 0 = none ∧ nextRing (c run3) 0 = some 3 := by
  decide
theorem test_hyp_fetch : let c := (po run3 [] [(0, 7)] [] id).dev.core
    (match dispAccess c 0 (readReq ((c.ringOf 0 3).slotPla) 0 0 0) with
     | some (.ok (e, l)) => decide (e = 0 ∧ l = 0 ∧ (c.rdPool e l).2 = false ∧ cType (c.rdPool e l).1 = 7)
     | _ => false) = true ∧
    (match dispAccess (po run3 [] [] [] (fun p => { p with ext := [] })).dev.core 0 (readReq 0 0 0 0) with
     | some (.error _) => true
     | _ => false) = true := by decide +kernel
theorem test_fetch : out (exec (.descriptorFetch 0) (po run3 [] [(0, 7)] [] id)) (fun c => ((c.ringOf 0 3).head, (c.ptn 0).cmds.map (fun k => (k.r, k.phase, cType k.desc)))) =
    some (1, [(3, 0, 7)]) := by decide +kernel
theorem test_hyp_records : let k : Cmd := { r := 3, idx := 0, desc := desc [(0, 7)], phase := 3 }
    let c (g : Ptn → Ptn) : Core := (po { run3 with inFlight := 1, head := 1 } [k] [] [] (fun p => g { p with ended := [(3, 0)] })).dev.core
    let s := (po { run3 with st := .stopped } [{ r := 3, idx := 0, desc := desc [(0, 1)] }] [] [] id).dev.core
    dispatches (c id) 0 = true ∧ nextRecord (c id) 0 = some k ∧ ((c id).ringOf 0 3).cplBase.toNat % 128 = 0 ∧
    (match dispAccess (c id) 0 (recordReq ((c id).ringOf 0 3) k) with
     | some (.ok (e, l)) => decide (e = 0 ∧ l = 0x1000 / 128)
     | _ => false) = true ∧
    (match dispAccess (c (fun p => { p with ext := [] })) 0 (recordReq ((c id).ringOf 0 3) k) with
     | some (.error _) => true
     | _ => false) = true ∧
    nextRing (c id) 0 = none ∧ dispatches s 0 = true ∧ awaiting s 0 1 = some { r := 3, idx := 0, desc := desc [(0, 1)] } ∧
    (specReduce (desc [(0, 1)])).check (s.ptn 0) (desc [(0, 1)]) ≠ none ∧ (s.ringOf 0 3).st = .stopped ∧ cSigEn (desc [(0, 0x17)]) = true ∧
    cObj (desc [(0, 0x17)]) < 0 + 20 := by decide +kernel
theorem test_bad_type : out (exec (.descriptorFetch 0) (po run3 [] [(0, 9)] [] id)) (fun c => (c.ptn 0).cmds.map (fun k => (k.status, k.phase))) = some [(0x10, 3)] := by
  decide +kernel
theorem test_tail_backward : out (exec (.ringTailWrite ra0 0) (po { run3 with tail := 1 } [] [] [] id)) (fun c => ((c.ringOf 0 3).tail, (c.ringOf 0 3).refused)) =
    some (1, 1) := by decide
theorem test_enable_region : out (exec (.ringCtrlWrite ra0 0x41) (po { cmdBase := 0, cplBase := 0x3FFFFF80 } [] [] [] id)) (fun c => ((c.ringOf 0 3).st, (c.ringOf 0 3).stop)) =
    some (.disabled, 1) := by decide

/-- FILL of one row of 32 bytes at PLA 0x40. -/
def fill0 : Line := desc [(0, 7), (4, 32), (5, 1), (6, 0x40), (7, 2 ^ 31), (8, 32), (10, 0x04030201), (11, 0x08070605)]
def cmd0 (d : Line) (ph : Nat) : Cmd := { r := 3, idx := 0, desc := d, phase := ph }
def work0 (d : Line) (k : Bool) : Work := { p := 0, r := 3, idx := 0, ci := 0, count := 1, kernel := k, desc := d }
def tile0 (w : Option Work) : Table Tile := [(0, { power := .active, assigned := true, en := true, work := w, win := [(0, some (0, 0))] })]

theorem test_hyp_commands : let c (k : Cmd) (t : Table Tile) : Core := (po run3 [k] [] t id).dev.core
    dispatches (c (cmd0 fill0 0) []) 0 = true ∧ awaiting (c (cmd0 fill0 0) []) 0 7 = some (cmd0 fill0 0) ∧ awaiting (c (cmd0 fill0 0) []) 0 6 = none ∧
    (specFill fill0).check ((c (cmd0 fill0 0) []).ptn 0) fill0 = none ∧ (specFill (desc [(0, 7)])).check ((c (cmd0 fill0 0) []).ptn 0) (desc [(0, 7)]) ≠ none ∧
    dword (desc [(0, 0x1000007)]) 0 &&& 0xFF000000 ≠ 0 ∧ ((c (cmd0 fill0 1) []).ptn 0).cmds.find? (fun k => decide (k.phase ≤ 1)) = some (cmd0 fill0 1) ∧
    availTiles (c (cmd0 fill0 1) []) 0 fill0 = [] ∧ (cmd0 fill0 1).n = none ∧ cOrder fill0 = false ∧ cType fill0 ≠ 3 := by decide +kernel
theorem test_hyp_starts : let c (t : Table Tile) : Core := (po run3 [cmd0 fill0 1] [] t id).dev.core
    availTiles (c (tile0 none)) 0 fill0 = [0] ∧ idleTile (c (tile0 none)) 0 = true ∧ idleTile (c (tile0 (some (work0 fill0 true)))) 0 = false ∧
    clusterCount fill0 [] 0 1 = 1 ∧ cType (desc [(0, 8)]) = 8 := by decide +kernel
theorem test_check_fill : out (exec (.fillOp 0) (po run3 [cmd0 fill0 0] [] [] id)) (fun c => (c.ptn 0).cmds.map (fun k => (k.phase, k.status))) = some [(1, 0)] := by
  decide +kernel
theorem test_start : out (exec (.commandStart 0) (po run3 [cmd0 fill0 1] [] (tile0 none) id)) (fun c => ((c.ptn 0).cmds.map (fun k => (k.phase, k.clusters)),
    (c.tile 0).work.map (fun w => (w.ci, w.count)))) = some ([(2, [0])], some (0, 1)) := by decide +kernel
theorem test_no_clusters : out (exec (.commandStart 0) (po run3 [cmd0 fill0 1] [] [] id)) (fun c => (c.ptn 0).cmds.map (fun k => (k.phase, k.status))) = some [(3, 0x18)] := by
  decide +kernel

/-- A KERNEL descriptor whose binary lies at PLA 0, and its header's first line, with LOAD sections of no bytes. -/
def kern0 : Line := desc [(0, 8), (4, 0), (5, 2 ^ 31)]
/-- The first line of a header whose sections are 16 bytes of text at 0x100 of the file for address 0x40, no data and 8 bytes of BSS. -/
def hdr0 : Line := desc [(2, 0x40), (4, 0x100), (5, 16), (6, 0x40), (10, 0x2000), (11, 16), (12, 0x3000), (14, 1)]
/-- A KERNEL command's tile with the work item `w`, its channel 0 with lines `l`. -/
def kc (w : Work) (l : List DmaLine) : Core := (po run3 [{ cmd0 kern0 2 with clusters := [0] }] [] ((tile0 (some w)).map (fun y => (y.1, setChan y.2 0 { lines := l }))) id).dev.core
def ln40 : DmaLine := ⟨0x100, false, false, 0x40, 0, 16, 0, 0, false, { nullReq with tag := 9 }⟩
theorem test_hyp_work : let w : Work := { work0 kern0 true with hdr := hdr0 }
    let v : Work := { w with started := true, loading := true, toLoad := [(0x100, 0x40, 16)] }
    let c := kc w []
    (c.tile 0).work = some w ∧ (c.tile 0).power = .active ∧ (c.tile 0).resetting = false ∧ c.ust 4 0 = .serving ∧ c.stopped 0 = false ∧ frozenChip c = false ∧
    (kc v []).ust 4 0 = .serving ∧ dmaRuns (kc v []) 0 0 = true ∧ (chanOf ((kc v []).tile 0) 0).lines.length < 64 ∧ linesOut ((kc v []).tile 0) < 512 ∧
    tget none (0x100 / 2 ^ 30) ((kc v []).tile 0).win = some (0, 0) ∧ tget none (0x40000000 / 2 ^ 30) ((kc v []).tile 0).win = none ∧
    ((kc v []).tile 0).stackFailed.getLsbD (((kc v []).place (0 * 2 ^ 30 + 0x100 / 128 * 128 % 2 ^ 30)).1) = false ∧
    (chanOf ((kc { v with toLoad := [] } [ln40]).tile 0) 0).lines = [ln40] ∧ binLayoutOk hdr0 = true ∧ ln40.lsAddr + ln40.len ≤ 0x1FF000 ∧
    ln40.retry = false ∧ ln40.write = false := by decide +kernel
theorem test_hyp_reports : let w : Work := work0 kern0 true
    let c := kc { w with status := some (0, 0, 0) } []
    let d := (po run3 [{ cmd0 kern0 2 with clusters := [0] }] [] (tile0 (some w)) id).dev.core
    let d := { d with rot := { d.rot with units := tput {} 16384 { st := .fenced } d.rot.units } }
    c.works 8 0 = true ∧ (c.cmdOf w).map (fun k => (k.clusters, k.reported, k.failed, k.kpoison, k.poisonedOut + w.poisonedOut)) = some ([0], [], false, false, 0) ∧
    workIdle (c.tile 0) = true ∧ (c.ringOf 0 3).st ≠ .stopped ∧ c.steady = true ∧ w.told = false ∧ cType kern0 = 8 ∧
    d.ust 4 0 = .fenced ∧ (d.tile 0).work = some w ∧ w.gotPoison = false := by decide +kernel
/-- A binary of one HALT, with the CRC of its bytes (R191). -/
def file0 : List (BitVec 8) :=
  let bytes (crc : Nat) : List (BitVec 8) := [0x4B594C59, 1, 0x40, 0, 64, 8, 0x40, 0, 0, 0, 0, 0, 0x3000, 0, 1, crc, 0x102, 0].flatMap (fun w => bytesLE 4 w)
  bytes (crc32 (bytes 0)).toNat
theorem test_hyp_kernel_good : let c := (po run3 [cmd0 kern0 0] (file0.zipIdx.filterMap (fun x => if x.1 = 0 then none else some (x.2, x.1))) [] id).dev.core
    kernelCheck c 0 kern0 = none ∧ (binLine c 0 0 kern0).map (fun x => x.2) = some false ∧ memWf c.mem = true := by decide +kernel
theorem test_hyp_kernel : let c := (po run3 [cmd0 kern0 0] [] [] id).dev.core
    (awaiting c 0 8).isSome = true ∧ (specKernel kern0).check (c.ptn 0) kern0 = none ∧ (c.masterExt 0 0).typ = 2 ∧ (c.masterExt 0 0).valid = true ∧
    (c.masterExt 0 1).valid = false ∧ (kernelCheck c 0 kern0).isSome = true ∧
    (specKernel (desc [(0, 8), (4, 1), (5, 2 ^ 31)])).check (c.ptn 0) (desc [(0, 8), (4, 1), (5, 2 ^ 31)]) ≠ none := by decide +kernel
theorem test_command_timeout : out (exec (.commandTimeout 0 3 0) (po run3 [{ cmd0 kern0 2 with tmo := 5 }] [] [] id)) (fun c => (c.ptn 0).cmds.map (fun k => (k.status, k.failed))) =
    some [(0x41, true)] := by decide +kernel

/-- COPY and REDUCE descriptors, an ATTEND over three sequences that two clusters share. -/
def copy0 : Line := desc [(0, 6), (4, 32), (5, 1), (6, 0x40), (7, 2 ^ 31), (8, 32), (9, 32), (10, 0x400), (11, 2 ^ 31)]
def sh (w : Work) (l : List DmaLine) : Core := (po run3 [cmd0 fill0 2] [] ((tile0 (some w)).map (fun y => (y.1, setChan y.2 0 { lines := l }))) id).dev.core
theorem test_hyp_shares : let w : Work := { work0 fill0 false with started := true }
    let c := sh w []
    dmaRuns c 0 0 = true ∧ linesOut (c.tile 0) < 512 ∧ (chanOf (c.tile 0) 0).lines = [] ∧ (c.tile 0).work = some w ∧ w.push = [] ∧ byLine fill0 = true ∧
    (match nextPiece w with
     | .ok (some (k, _)) => decide (k.pla.toNat / 2 ^ 30 = 0)
     | _ => false) = true ∧
    (match nextPiece { w with cursor := 2 } with
     | .ok none => true
     | _ => false) = true ∧
    (match nextPiece { w with desc := copy0 } with
     | .error (.need k) => decide (k % 2 ^ 33 * 128 / 2 ^ 30 < 896)
     | _ => false) = true ∧
    tget none 0 (c.tile 0).win = some (0, 0) ∧ (c.tile 0).stackFailed.getLsbD 0 = false ∧
    (chanOf ((sh w [ln40]).tile 0) 0).lines.find? (fun l => decide (l.q.tag = 9) && decide (l.pla = 0x100) && !l.retry) = some ln40 ∧
    frozenChip c = false ∧ (c.tile 0).power = .active ∧ c.ust 4 0 = .serving := by decide +kernel
/-- REDUCE of one FP32 vector of 32 elements at 0x80 into 0x400; ATTEND over one sequence. -/
def red0 : Line := desc [(0, 1), (4, 1 + 8 * 2 ^ 12 + 8 * 2 ^ 16), (5, 32), (6, 0x400), (7, 2 ^ 31), (8, 0x80), (9, 2 ^ 31)]
def att0 : Line := desc [(0, 3), (4, 0x55500101), (5, 0x10006), (8, 0), (9, 2 ^ 31), (10, 0x800), (11, 2 ^ 31), (12, 0x1000), (13, 2 ^ 31)]
def part1 : AttPart := ⟨1, [0], [0], [[0]], false⟩
theorem test_hyp_share_plans : let w (d : Line) : Work := { work0 d false with started := true }
    (match planShare (w red0) with
     | .error (.need k) => decide (k = lineNo 0 1)
     | _ => false) = true ∧
    (match planShare { w red0 with rd := [(lineNo 0 1, some (0x3F800000, false))] } with
     | .ok o => decide (o.wr.map (fun k => (k.pla, decide (k.mask = fullMask), k.data)) = [(0x400, true, 0x3F800000)])
     | _ => false) = true ∧ byLine red0 = false ∧ cType red0 ≠ 3 ∧ cType att0 = 3 ∧ byLine att0 = false ∧
    (match planShare { w att0 with lens := [1], posted := true } with
     | .error .wait => true
     | _ => false) = true ∧
    (match planParts [] att0 [1] 0 1 with
     | .error (.need _) => true
     | _ => false) = true ∧
    (match planParts [] att0 [0] 0 1 with
     | .ok l => decide (l = [])
     | _ => false) = true ∧
    ({ w att0 with push := [(1, part1)], peers := [0, 1] } : Work).push = [(1, part1)] ∧ ({ w red0 with wr := some [] } : Work).wr = some [] := by decide +kernel
/-- R218, R225: the two lines of the shares of 3 clusters over 5 units. -/
theorem test_shares : (List.range 3).map (fun i => shareOf 5 i 3) = [(0, 1), (1, 3), (3, 5)] := by decide
theorem test_fill : (match fillPiece fill0 0 1 0 with
    | .ok (some (k, _, n)) => some (k.pla, k.mask, lineByte k.data 0x40, lineByte k.data 0x41, lineByte k.data 0x5F, n)
    | _ => none) = some (0, 0x00000000FFFFFFFF0000000000000000, 1, 2, 0, 2) := by decide +kernel

/-! ### The queue -/

theorem test_hyp_queue : (⟨[.echo 0], (dv id).dev⟩ : State).pending = [.echo 0] ∧ (dv id).pending = [] ∧ (dv id).ok = true ∧
    ((dv id).dev.core.evc.tick + 1).toNat % 25000 ≠ 0 ∧ (dv (fun c => { c with pins := { railFault := true } })).ok = false ∧ memWf (dv id).dev.perm.flash = true ∧
    rowAdd ∈ ykRows ∧ rowAdd.legal (fld 1 2 3 0) = true ∧ (ykRow (.add 0 (fld 1 2 3 0))).isSome = true ∧ portRuns (pt upP).dev.core 2 = true := by decide
theorem test_step_front : (match step ⟨[.i3cSetOffset 9, .flr], (dv id).dev⟩ with
    | .next u => some (u.pending, u.dev.core.glb.i3cOff)
    | _ => none) = some ([.flr], 9) := by decide
theorem test_tick : (match step (dv id) with
    | .next u => some u.dev.core.evc.tick
    | _ => none) = some 1 := by decide

end Sys2Proof.Tests
end

section
/-! SUPPORT. What a register write does at each bus and in each block. -/

namespace Sys2Proof.Machine
open Sys2Proof

/-! ### Commands in a state whose rails are in tolerance -/

/-- A command on the core answers the state with its new core. -/
theorem actCore_of_ok {s : State} (h : s.ok = true) (f : Core → Core) : actCore s f = .next (s.withCore (f s.dev.core)) :=
  actCore_next (by simpa [State.ok] using h) f

theorem exec_registerWrite_of_ok {s : State} (h : s.ok = true) (a : RegAddr) (w : BitVec 32) :
    exec (.registerWrite a w) s = .next (s.withCore (fxRegisterWrite a w s.dev.core)) := actCore_of_ok h _

/-! ### Fields of a written word -/

theorem clampBits_at_zero (w : BitVec 32) (hi a b : Nat) :
    clampBits w hi 0 a b = BitVec.ofNat 32 (clampNat a b (w.toNat % 2 ^ (hi + 1))) := by
  simp [clampBits, field]

theorem and_lowMask16 (w : BitVec 32) : w &&& 0xFFFF = BitVec.ofNat 32 (w.toNat % 2 ^ 16) := by
  apply BitVec.eq_of_toNat_eq
  calc (w &&& 0xFFFF).toNat = w.toNat &&& 2 ^ 16 - 1 := BitVec.toNat_and ..
    _ = w.toNat % 2 ^ 16 := Nat.and_two_pow_sub_one_eq_mod ..
    _ = (BitVec.ofNat 32 (w.toNat % 2 ^ 16)).toNat := by rw [BitVec.toNat_ofNat]; omega

theorem and_highMask32 (x : BitVec 64) : x &&& 0xFFFFFFFF00000000 = (x >>> 32) <<< 32 :=
  (BitVec.shiftLeft_ushiftRight (x := x) (n := 32)).symm

/-! ### Offsets that hold no counter -/

theorem counterAt_of_counterPlace_none {off : Nat} (h : counterPlace off = none) (c : Core) : counterAt c off = none := by
  simp [counterAt, h]

/-- Below the EVC block, and between it and the blocks of the units, no register is a counter. -/
theorem counterPlace_served {off : Nat} (h : off < 0x40000 ∨ 0x50000 ≤ off ∧ off < 0x100000) : counterPlace off = none := by
  unfold counterPlace
  dsimp only
  repeat rw [if_neg (by omega)]

theorem counterPlace_port {n r : Nat} (hn : n < 8) (hr : r < 0x200) : counterPlace (0x100000 + 0x20000 * n + r) = none := by
  unfold counterPlace
  dsimp only
  rw [if_neg (by omega), if_pos (by omega), if_pos (by omega), if_neg (by omega)]

theorem counterPlace_home {e r : Nat} (he : e < 16) (hr : r < 0x200) : counterPlace (0x200000 + 0x10000 * e + r) = none := by
  unfold counterPlace
  dsimp only
  rw [if_neg (by omega), if_neg (by omega), if_pos (by omega), if_neg (by omega)]

/-! ### A write to BAR0 reaches the block of its offset -/

section
variable {off : Nat} (w : BitVec 32) (c : Core)

theorem setReg_glb (h4 : off % 4 = 0) (h : off < 0x10000) : setReg off w c = glbWrite off w c := by
  have hc := counterAt_of_counterPlace_none (counterPlace_served (off := off) (by omega)) c
  simp (disch := omega) only [setReg, hc, if_neg, if_pos]

theorem setReg_pwr {r : Nat} (h4 : r % 4 = 0) (h : r < 0x10000) : setReg (0x20000 + r) w c = pwrWrite r w c := by
  have hc := counterAt_of_counterPlace_none (counterPlace_served (off := 0x20000 + r) (by omega)) c
  simp (disch := omega) only [setReg, hc, if_neg, if_pos, Nat.add_sub_cancel_left]

theorem setReg_home {e r : Nat} (hf : frozenChip c = false) (he : e < 16) (hr : r < 0x200) (h4 : r % 4 = 0) :
    setReg (0x200000 + 0x10000 * e + r) w c = homeWrite e r w c := by
  have hc := counterAt_of_counterPlace_none (counterPlace_home he hr) c
  have he' : (0x200000 + 0x10000 * e + r - 0x200000) / 0x10000 = e := by omega
  have hr' : (0x200000 + 0x10000 * e + r) % 0x10000 = r := by omega
  simp (disch := omega) only [setReg, hc, hf, Bool.not_false, Bool.not_true, Bool.false_eq_true, if_false, if_neg, if_pos, he', hr']

theorem setReg_port {n r : Nat} (hf : frozenChip c = false) (hn : n < 8) (hr : r < 0x200) (h4 : r % 4 = 0) :
    setReg (0x100000 + 0x20000 * n + r) w c = portWrite n r w c := by
  have hc := counterAt_of_counterPlace_none (counterPlace_port hn hr) c
  have hn' : (0x100000 + 0x20000 * n + r - 0x100000) / 0x20000 = n := by omega
  have hr' : (0x100000 + 0x20000 * n + r) % 0x20000 = r := by omega
  simp (disch := omega) only [setReg, hc, hf, Bool.not_false, Bool.not_true, Bool.false_eq_true, if_false, if_neg, if_pos, hn', hr']

end

/-! ### What a write to one register keeps (R8, R511, R529) -/

section
variable (w : BitVec 32) (c : Core)

theorem setReg_l2pSel : setReg 0x18 w c = c.modGlb (fun g => { g with l2pSel := BitVec.ofNat 10 w.toNat }) := by
  rw [setReg_glb w c (by decide) (by decide)]
  rfl

theorem setReg_readyTmo :
    setReg 0x28 w c = c.modGlb (fun g => { g with readyTmo := BitVec.ofNat 32 (clampNat 100 10000 (w.toNat % 2 ^ 14)) }) := by
  rw [setReg_glb w c (by decide) (by decide), ← clampBits_at_zero w 13]
  rfl

theorem setReg_unitSel : setReg 0x104 w c = c.modGlb (fun g => { g with unitSel := BitVec.ofNat 32 (w.toNat % 2 ^ 16) }) := by
  rw [setReg_glb w c (by decide) (by decide), ← and_lowMask16]
  rfl

theorem setReg_intStatus :
    setReg 0x120 w c = c.modGlb (fun g => { g with intStatus := g.intStatus &&& ~~~(w.setWidth 64) }) := by
  rw [setReg_glb w c (by decide) (by decide)]
  rfl

theorem setReg_intEn :
    setReg 0x128 w c = c.modGlb (fun g => { g with intEn := (g.intEn >>> 32) <<< 32 ||| w.setWidth 64 }) := by
  rw [setReg_glb w c (by decide) (by decide)]
  simp only [← and_highMask32]
  rfl

theorem setReg_tileSel : setReg 0x30010 w c = { c with rst := { c.rst with tileSel := BitVec.ofNat 10 w.toNat } } := by
  have hc := counterAt_of_counterPlace_none (counterPlace_served (off := 0x30010) (by omega)) c
  simp [setReg, hc]

theorem setReg_intCfg : setReg 0x5000C w c = c.modErl (fun l => { l with intCfg := w &&& 0x10003 }) := by
  have hc := counterAt_of_counterPlace_none (counterPlace_served (off := 0x5000C) (by omega)) c
  simp [setReg, hc]

theorem setReg_liningRate :
    setReg 0x70010 w c = c.modSec (fun x => { x with liningRate := BitVec.ofNat 32 (clampNat 10 20000 (w.toNat % 2 ^ 15)) }) := by
  have hc := counterAt_of_counterPlace_none (counterPlace_served (off := 0x70010) (by omega)) c
  simp [setReg, hc, clampBits_at_zero]

theorem setReg_sweepRate :
    setReg 0x70014 w c = c.modSec (fun x => { x with sweepRate := BitVec.ofNat 32 (clampNat 10 20000 (w.toNat % 2 ^ 15)) }) := by
  have hc := counterAt_of_counterPlace_none (counterPlace_served (off := 0x70014) (by omega)) c
  simp [setReg, hc, clampBits_at_zero]

theorem setReg_iccLimit :
    setReg 0x2000C w c = c.modPwr (fun x => { x with iccLimit := BitVec.ofNat 32 (clampNat 500 2200 (w.toNat % 2 ^ 12)) }) := by
  rw [setReg_pwr w c (r := 0xC) (by decide) (by decide), ← clampBits_at_zero w 11]
  rfl

theorem setReg_pwrCtrl : setReg 0x20008 w c = c.modPwr (fun x => { x with ctrl := w &&& 0x00FFFF03 }) := by
  rw [setReg_pwr w c (r := 8) (by decide) (by decide)]
  rfl

theorem setReg_dirCfg {e : Nat} (hf : frozenChip c = false) (he : e < 16) (hu : c.hasUnit 6 e = true) :
    setReg (0x200000 + 0x10000 * e) w c = c.modHome e (fun h => { h with dirCfg := w &&& 0x7F03 }) := by
  have h := setReg_home w c (r := 0) hf he (by decide) (by decide)
  simpa [homeWrite, hu] using h

theorem setReg_stallTmo {n : Nat} (hf : frozenChip c = false) (hn : n < 8) (hu : c.hasUnit 9 n = true) :
    setReg (0x100018 + 0x20000 * n) w c =
      c.modPort n (fun x => { x with stallTmo := BitVec.ofNat 32 (clampNat 250 2500000 (w.toNat % 2 ^ 22)) }) := by
  have h := setReg_port w c (r := 0x18) hf hn (by decide) (by decide)
  rw [show 0x100000 + 0x20000 * n + 0x18 = 0x100018 + 0x20000 * n by omega] at h
  simpa [portWrite, hu, clampBits_at_zero] using h
end

/-! ### REGISTER_WRITE, bus by bus -/

theorem toNat_offset {off : Nat} (h : off < 0x4000000) : (BitVec.ofNat 26 off).toNat = off := by
  rw [BitVec.toNat_ofNat]; exact Nat.mod_eq_of_lt h

section
variable {c : Core} (hup : chipUp c = true) (w : BitVec 32) (p : Nat) (o : Origin)
include hup

theorem fxRegisterWrite_bar0 {off : Nat} (h4 : off % 4 = 0) (h : off < 0x4000000) :
    fxRegisterWrite ⟨0, BitVec.ofNat 26 off, p, o, true⟩ w c = setReg off w c := by
  simp [fxRegisterWrite, hup, toNat_offset h, h4, -BitVec.toNat_ofNat]

theorem fxRegisterWrite_bar2 {ch r : Nat} (hch : ch < 16) (hr : r < 0x10000) (h4 : r % 4 = 0) (hb : chanBus c ch ≠ 1) :
    fxRegisterWrite ⟨1, BitVec.ofNat 26 (0x10000 * ch + r), p, o, true⟩ w c = mbxWrite ch 0x8000 r w c := by
  have hoff : (BitVec.ofNat 26 (0x10000 * ch + r)).toNat = 0x10000 * ch + r := toNat_offset (by omega)
  have h4' : (0x10000 * ch + r) % 4 = 0 := by omega
  have hlt : 0x10000 * ch + r < 0x100000 := by omega
  have hdiv : (0x10000 * ch + r) / 0x10000 = ch := by omega
  have hmod : (0x10000 * ch + r) % 0x10000 = r := by omega
  have hb' : ¬ chanBus c ch = 1#2 := hb
  simp [fxRegisterWrite, hup, hoff, h4', hlt, hdiv, hmod, hb']

theorem fxRegisterWrite_i3c {off : BitVec 26} (wh : Bool) (h : off ≠ 0x50004) :
    fxRegisterWrite ⟨2, off, p, o, wh⟩ w c = i3cRefuse c := by
  have h' : off.toNat ≠ 0x50004 := fun e => h (BitVec.eq_of_toNat_eq e)
  simp [fxRegisterWrite, hup, i3cStore, h']

theorem fxRegisterWrite_window (off : BitVec 26) (wh : Bool) :
    fxRegisterWrite ⟨3, off, p, o, wh⟩ w c = windowWrite p off.toNat o wh w c := by
  simp [fxRegisterWrite, hup]
end

/-! ### One word of the window (R47, R203, R551) -/

/-- The word of a line that a whole write of word `j` enables. -/
theorem maskBits_wordWrite : ∀ j < 32, ∀ i < 32, maskBits (chunkMask (4 * j) 4) (4 * i) 4 = if i = j then 15 else 0 := by
  decide +kernel

theorem dword_eq_shift (d : Line) (i : Nat) : dword d i = (d >>> (32 * i)).setWidth 32 := by
  apply BitVec.eq_of_toNat_eq
  simp [dword]

theorem dword_wordWrite {off j : Nat} (w : BitVec 32) (h : off % 128 = 4 * j) :
    dword (wordWrite off true w).data j = w := by
  rw [dword_eq_shift]
  apply BitVec.eq_of_getLsbD_eq
  intro i hi
  have hin : 32 * j + i < 1024 := by omega
  have hsub : 32 * j + i - 8 * (4 * j) = i := by omega
  have hge : 8 * (4 * j) ≤ 32 * j + i := by omega
  simp [wordWrite, h, hi, hin, hsub, hge]

/-- A whole write of word `j` of a line touches that word alone. -/
theorem writtenWords_wordWrite {off j : Nat} (base : Nat) (w : BitVec 32) (hj : j < 32) (h : off % 128 = 4 * j) :
    writtenWords base (wordWrite off true w) = [(base + 4 * j, w, true)] := by
  have only : ∀ k : Nat × BitVec 32 × Bool, (List.range 32).filterMap (fun i => if i = j then some k else none) = [k] := by
    intro k
    interval_cases j <;> rfl
  rw [← only]
  refine List.filterMap_congr (fun i hi => ?_)
  have hm : (wordWrite off true w).mask = chunkMask (4 * j) 4 := by rw [← h]; rfl
  simp only [hm, maskBits_wordWrite j hj i (List.mem_range.1 hi)]
  by_cases e : i = j
  · subst e; simp [dword_wordWrite w h]
  · simp [e]

/-- A register of a ring page that takes the word of a host that may write the page: the page changes and the answer is Cmp. -/
theorem ringRegs_taken {c : Core} {p r s : Nat} {o : Origin} {w : BitVec 32} {y : Ring} (hs : isRingReg s = true)
    (hm : ringMayWrite c (c.ringOf p r) o = true) (hy : ringReg c p s w (c.ringOf p r) = some y) :
    ringRegs p r o [(s, w, true)] c = (modRing p r (fun _ => y.settled) c).answer o p 0 { op := opCmp } := by
  simp [ringRegs, hs, hm, ringTake, hy]

/-- A whole write of RINGr_TMO by a host that may write the page keeps 16 bits and is answered Cmp. -/
theorem windowWrite_ringTmo {c : Core} {p e r : Nat} {o : Origin} (w : BitVec 32) (hr : r < 16)
    (he : windowEdge p (0x1000 * r + 4) = some e) (hw : c.works 8 e = true) (hu : windowUser c p o = true)
    (hm : ringMayWrite c (tget {} r (c.ptn p).rings) o = true) :
    windowWrite p (0x1000 * r + 4) o true w c =
      (modRing p r (fun x => Ring.settled { x with tmo := BitVec.ofNat 32 (w.toNat % 2 ^ 16) }) c).answer o p 0 { op := opCmp } := by
  have hline : (0x1000 * r + 4) / 128 * 128 = 0x1000 * r := by omega
  have hlt : 0x1000 * r < 0x10000 := by omega
  have hdiv : 0x1000 * r / 0x1000 = r := by omega
  have hmod : 0x1000 * r % 0x1000 = 0 := by omega
  have hws := writtenWords_wordWrite (off := 0x1000 * r + 4) (j := 1) 0 w (by decide) (by omega)
  have htake : ringReg c p 4 w (c.ringOf p r) = some { c.ringOf p r with tmo := BitVec.ofNat 32 (w.toNat % 2 ^ 16) } := by
    rw [← and_lowMask16]; rfl
  simp only [windowWrite, he, hw, hu, hline, windowStore, hlt, hdiv, hmod, hws, Bool.not_true, Bool.false_eq_true, or_self, if_false, if_true]
  exact ringRegs_taken (by decide) hm htake

/-! ### The statement on register writes -/

theorem exec_registerWrite_bar0 {s : State} (h : s.ok = true) (hup : chipUp s.dev.core = true) (w : BitVec 32) (p : Nat) (o : Origin)
    {off : Nat} {d : Core} (h4 : off % 4 = 0) (hlt : off < 0x4000000) (hd : setReg off w s.dev.core = d) :
    exec (.registerWrite ⟨0, BitVec.ofNat 26 off, p, o, true⟩ w) s = .next (s.withCore d) := by
  rw [exec_registerWrite_of_ok h, fxRegisterWrite_bar0 hup w p o h4 hlt, hd]

/-- Settles O22: each bus hands the write to its registers, and each register keeps what its rule says. -/
theorem registerWrites : Obligations.RegisterWrites := by
  unfold Obligations.RegisterWrites
  intro s w p o hok hup hf
  have bar0 {off : Nat} {d : Core} := exec_registerWrite_bar0 hok hup w p o (off := off) (d := d)
  refine ⟨bar0 (by decide) (by decide) (setReg_l2pSel w _), bar0 (by decide) (by decide) (setReg_readyTmo w _),
    bar0 (by decide) (by decide) (setReg_unitSel w _), bar0 (by decide) (by decide) (setReg_intStatus w _),
    bar0 (by decide) (by decide) (setReg_intEn w _), bar0 (by decide) (by decide) (setReg_tileSel w _),
    bar0 (by decide) (by decide) (setReg_intCfg w _), bar0 (by decide) (by decide) (setReg_liningRate w _),
    bar0 (by decide) (by decide) (setReg_sweepRate w _), bar0 (by decide) (by decide) (setReg_iccLimit w _),
    bar0 (by decide) (by decide) (setReg_pwrCtrl w _), ?dirCfg, ?stallTmo, ?i3c, ?bar2, ?ringTmo⟩
  case dirCfg =>
    intro e he hu
    exact bar0 (by omega) (by omega) (setReg_dirCfg w _ hf he hu)
  case stallTmo =>
    intro n hn hu
    exact bar0 (by omega) (by omega) (setReg_stallTmo w _ hf hn hu)
  case i3c =>
    intro off wh hoff
    rw [exec_registerWrite_of_ok hok, fxRegisterWrite_i3c hup w p o wh hoff]
    rfl
  case bar2 =>
    intro ch r hch hr h4 hb
    rw [exec_registerWrite_of_ok hok, fxRegisterWrite_bar2 hup w p o hch hr h4 hb]
  case ringTmo =>
    intro e r hr he hw hu hm
    rw [exec_registerWrite_of_ok hok, fxRegisterWrite_window hup, toNat_offset (by omega), windowWrite_ringTmo w hr he hw hu hm]

end Sys2Proof.Machine
end
section
/-! SUPPORT. What a read by PCIe returns and clears, event counters, BAR0 timeouts and function resets. -/

namespace Sys2Proof.Machine
open Sys2Proof

/-! ### RC_READ (R6, R481, R550) -/

/-- The answer to a read of 4 B. -/
theorem halves_narrow (lo hi : Nat) : halves false lo hi = BitVec.ofNat 64 (lo % 2 ^ 32) := rfl

section
variable {s : State} (hok : s.ok = true) {off : Nat} (hlt : off < 0x4000000)
include hok hlt

theorem exec_rcRead_of_ok (b : Bool) : exec (.rcRead b (BitVec.ofNat 26 off) false) s =
    .next { s with dev := fxRcRead b off false s.dev } := by
  have hr : s.dev.core.pins.railFault = false := by simpa [State.ok] using hok
  calc exec (.rcRead b (BitVec.ofNat 26 off) false) s
      _ = act s (fxRcRead b (BitVec.ofNat 26 off).toNat false) := rfl
      _ = act s (fxRcRead b off false) := by rw [toNat_offset hlt]
      _ = .next { s with dev := fxRcRead b off false s.dev } := act_next hr _

variable (hup : chipUp s.dev.core = true)
include hup

theorem exec_rcRead_unaligned (b : Bool) (h4 : off % 4 ≠ 0) : exec (.rcRead b (BitVec.ofNat 26 off) false) s =
    .next (s.withCore (s.dev.core.modGlb (fun g => { g with aer := g.aer ||| 0x100000 }))) := by
  rw [exec_rcRead_of_ok hok hlt]
  simp [fxRcRead, hup, h4, State.withCore]

theorem exec_rcRead_bar2 (h4 : off % 4 = 0) : exec (.rcRead true (BitVec.ofNat 26 off) false) s =
    .next (s.withCore (s.dev.core.send (.readData (BitVec.ofNat 64 (bar2Word s.dev.core off % 2 ^ 32))))) := by
  rw [exec_rcRead_of_ok hok hlt]
  simp [fxRcRead, hup, h4, State.withCore, halves_narrow]

/-- A read of a word of BAR0 that is no counter and not TICK_LO, in a chip whose clocks run. -/
theorem exec_rcRead_bar0 (hf : frozenChip s.dev.core = false) (h4 : off % 4 = 0) (ht : off ≠ 0x40000) (hc : counterPlace off = none) :
    exec (.rcRead false (BitVec.ofNat 26 off) false) s =
      .next (s.withCore ((readClears off s.dev.core).send (.readData (BitVec.ofNat 64 (bar0Word s.dev off % 2 ^ 32))))) := by
  rw [exec_rcRead_of_ok hok hlt]
  simp [fxRcRead, hup, h4, hf, ht, hc, State.withCore, halves_narrow]
end

theorem readClears_served {off : Nat} (h : unitBlock off = false) (c : Core) : readClears off c = c := by
  have h' : off < 0x100000 := by simpa [unitBlock] using h
  simp (disch := omega) only [readClears, if_neg]

section
variable (c : Core) (d : Dev)

/-! HOMEe_TRACKERS -/

theorem counterPlace_trackers {e : Nat} (he : e < 16) : counterPlace (0x20000C + 0x10000 * e) = none := by
  rw [show 0x20000C + 0x10000 * e = 0x200000 + 0x10000 * e + 0xC by omega]
  exact counterPlace_home he (by decide)

theorem readClears_trackers {e : Nat} (he : e < 16) (hu : c.hasUnit 6 e = true) :
    readClears (0x20000C + 0x10000 * e) c = c.modHome e (fun h => { h with peak := 0 }) := by
  have he' : (0x20000C + 0x10000 * e - 0x200000) / 0x10000 = e := by omega
  simp (disch := omega) only [readClears, if_pos, he', hu, if_true]

theorem bar0Word_trackers {e : Nat} (he : e < 16) (hu : d.core.hasUnit 6 e = true) :
    bar0Word d (0x20000C + 0x10000 * e) = (d.core.home e).trks.length + (d.core.home e).peak.toNat * 2 ^ 16 := by
  have he' : (0x20000C + 0x10000 * e - 0x200000) / 0x10000 = e := by omega
  have hr : (0x20000C + 0x10000 * e) % 0x10000 = 0xC := by omega
  simp (disch := omega) only [bar0Word, counterAt_of_counterPlace_none (counterPlace_trackers he), if_neg, if_pos, he', hr]
  simp [homeWord, hu]

/-! TMGR_Pn_BUF -/

theorem counterPlace_tmgrBuf {n : Nat} (hn : n < 8) : counterPlace (0x770004 + 16 * n) = none := by
  simp (disch := omega) only [counterPlace, if_neg]

theorem readClears_tmgrBuf {n : Nat} (hn : n < 8) (hu : c.hasUnit 9 n = true) :
    readClears (0x770004 + 16 * n) c = c.modPort n (fun p => { p with bufPeak := 0 }) := by
  have hn' : (0x770004 + 16 * n - 0x770000) / 16 = n := by omega
  simp (disch := omega) only [readClears, if_neg, if_pos, hn', hu, if_true]

theorem bar0Word_tmgrBuf {n : Nat} (hn : n < 8) (hu : d.core.hasUnit 9 n = true) :
    bar0Word d (0x770004 + 16 * n) = (d.core.port n).buffered + (d.core.port n).bufPeak.toNat * 2 ^ 16 := by
  have hr : 0x770004 + 16 * n - 0x700000 = 0x70004 + 16 * n := by omega
  have hn' : (0x70004 + 16 * n - 0x70000) / 16 = n := by omega
  simp (disch := omega) only [bar0Word, counterAt_of_counterPlace_none (counterPlace_tmgrBuf hn), if_neg, if_pos, hr, tmgrWord, hn', hu,
    Bool.not_true, Bool.false_eq_true, if_false, Nat.reducePow]
end

/-! ### Event counters (R538, R539) -/

theorem putCounter_counter (key k : Nat) (x : Counter) (c : Core) : (putCounter key x c).counter k = if k = key then x else c.counter k :=
  tget_tput ..

@[simp] theorem putCounter_same (key : Nat) (x : Counter) (c : Core) : (putCounter key x c).counter key = x := tget_tput_same ..

theorem putCounter_putCounter (key : Nat) (x y : Counter) (c : Core) : putCounter key x (putCounter key y c) = putCounter key x c := by
  simp [putCounter, Core.modEvc]

theorem putCounter_rest (key : Nat) (x : Counter) (c : Core) : (putCounter key x c).rest = c.rest := rfl

/-- A bump that does not wrap adds to the counter and logs nothing. -/
theorem bumpKey_of_lt {key n : Nat} {c : Core} (h : (c.counter key).value.toNat + n < 2 ^ 48) :
    bumpKey key n c = putCounter key { c.counter key with value := BitVec.ofNat 48 ((c.counter key).value.toNat + n) } c := by
  have bump {a i k : Nat} (e : ctrKey a i k = key) : bumpCounter a i k n c =
      putCounter key { c.counter key with value := BitVec.ofNat 48 ((c.counter key).value.toNat + n) } c := by
    have h' : ¬ 2 ^ 48 ≤ (tget ({} : Counter) key c.evc.counters).value.toNat + n := Nat.not_le.2 h
    simp only [bumpCounter, e, h', decide_false, Bool.or_false, Bool.false_and, Bool.false_eq_true, if_false]
    rfl
  unfold bumpKey
  split
  · exact bump (by simp [ctrKey])
  · exact bump (by unfold ctrKey; omega)

/-- EVC_CLEAR in a running chip, with no HOLD: the counter holds the events of its own cycle and OVF is clear. -/
theorem fxEvcClear_counted {c : Core} {off key n : Nat} (hup : chipUp c = true) (hf : frozenChip c = false)
    (hc : counterAt c off = some (key, 8)) (hn : n < 2 ^ 48) (hh : c.evc.hold = false) :
    fxEvcClear off n c = putCounter key { c.counter key with value := BitVec.ofNat 48 n, ovf := false } c := by
  have hh' : ∀ x, (putCounter key x c).evc.hold = false := fun _ => hh
  by_cases h0 : n = 0
  · simp [fxEvcClear, hc, hup, hf, h0]
  · have hb := bumpKey_of_lt (key := key) (n := n) (c := putCounter key { c.counter key with value := 0, ovf := false } c) (by simpa using hn)
    simp only [putCounter_same, putCounter_putCounter] at hb
    simpa [fxEvcClear, hc, hup, hf, h0, hh'] using hb

/-- What BAR0 shows of a counter: its value, or 0 when masked (R539). -/
def shownValue (c : Core) (key : Nat) : Nat := if counterMasked c key then 0 else (c.counter key).value.toNat

/-- MASKED and OVF above the upper half of a counter, as a read of 8 B shows them. -/
def counterFlags (c : Core) (key : Nat) : Nat :=
  if counterMasked c key then 2 ^ 30 else if (c.counter key).ovf then 2 ^ 31 else 0

/-- What a read of a counter returns. -/
def counterData (c : Core) (key : Nat) (wide : Bool) : BitVec 64 :=
  BitVec.ofNat 64 (shownValue c key % 2 ^ 32 + (if wide then shownValue c key / 2 ^ 32 + counterFlags c key else 0) * 2 ^ 32)

/-- EVC_LO_READ in a running chip: LO is sent, HI and MASKED are latched. -/
theorem fxEvcLoRead_latched {c : Core} {off key : Nat} (wide : Bool) (hup : chipUp c = true) (hf : frozenChip c = false)
    (hc : counterAt c off = some (key, 0)) :
    fxEvcLoRead off wide c =
      (putCounter key { c.counter key with hi := BitVec.ofNat 16 (shownValue c key / 2 ^ 32), masked := counterMasked c key } c).send
        (.readData (counterData c key wide)) := by
  simp [fxEvcLoRead, hc, hup, hf, counterData, shownValue, counterFlags]

section
variable (c : Core) (key : Nat)

theorem shownValue_lt : shownValue c key < 2 ^ 48 := by
  unfold shownValue
  split
  · decide
  · exact (c.counter key).value.isLt

theorem toNat_counterData_narrow : (counterData c key false).toNat = shownValue c key % 2 ^ 32 := by
  simp only [counterData, BitVec.toNat_ofNat, Bool.false_eq_true, if_false]
  omega

/-- The two halves of a read of 8 B: 48 bits of value, and the flags in the places of MASKED and OVF. -/
theorem toNat_counterData_wide :
    (counterData c key true).toNat =
      shownValue c key + ((counterMasked c key).toNat + 2 * ((c.counter key).ovf && !counterMasked c key).toNat) * 2 ^ 62 := by
  have h := shownValue_lt c key
  simp only [counterData, counterFlags, BitVec.toNat_ofNat, if_true]
  cases counterMasked c key <;> cases (c.counter key).ovf <;> simp <;> omega

theorem counterData_value (wide : Bool) : (counterData c key wide).toNat % 2 ^ 32 = shownValue c key % 2 ^ 32 := by
  cases wide
  · rw [toNat_counterData_narrow]; omega
  · rw [toNat_counterData_wide]; omega

theorem counterData_count : (counterData c key true).toNat % 2 ^ 48 = shownValue c key := by
  have h := shownValue_lt c key
  rw [toNat_counterData_wide]
  omega

theorem counterData_masked : (counterData c key true).getLsbD 62 = counterMasked c key := by
  have h := shownValue_lt c key
  rw [BitVec.getLsbD, toNat_counterData_wide, Nat.testBit_eq_decide_div_mod_eq]
  cases counterMasked c key <;> simp <;> omega

theorem counterData_ovf : (counterData c key true).getLsbD 63 = ((c.counter key).ovf && !counterMasked c key) := by
  have h := shownValue_lt c key
  rw [BitVec.getLsbD, toNat_counterData_wide, Nat.testBit_eq_decide_div_mod_eq]
  cases counterMasked c key <;> cases (c.counter key).ovf <;> simp <;> omega
end

/-! ### TICK_LO (R531) -/

/-- What a read of TICK_LO returns. -/
def tickData (c : Core) (wide : Bool) : BitVec 64 := if wide then c.evc.tick else c.evc.tick &&& 0xFFFFFFFF

theorem toNat_tickData (c : Core) (wide : Bool) :
    (tickData c wide).toNat = if wide then c.evc.tick.toNat else c.evc.tick.toNat % 2 ^ 32 := by
  cases wide
  · calc (c.evc.tick &&& 0xFFFFFFFF).toNat = c.evc.tick.toNat &&& 2 ^ 32 - 1 := BitVec.toNat_and ..
      _ = c.evc.tick.toNat % 2 ^ 32 := Nat.and_two_pow_sub_one_eq_mod ..
  · rfl

theorem fxTickLoRead_latched {c : Core} (wide : Bool) (hup : chipUp c = true) :
    fxTickLoRead wide c =
      (c.modEvc (fun e => { e with tickHi := BitVec.ofNat 32 (c.evc.tick.toNat / 2 ^ 32) })).send (.readData (tickData c wide)) := by
  simp [fxTickLoRead, hup, tickData]

/-! ### A BAR0 timeout (R482, R483) -/

/-- But for the log, the timeout records the address alone. -/
theorem fxBusTimeout_rest {c : Core} (off : BitVec 26) (wr : Bool) (hup : chipUp c = true) :
    (fxBusTimeout off wr c).rest = (c.modGlb (fun g => { g with busErr := off, busErrValid := true })).rest := by
  cases wr <;> simp [fxBusTimeout, hup]

theorem fxBusTimeout_answer {c : Core} (off : BitVec 26) (hup : chipUp c = true) :
    (fxBusTimeout off false c).out.getLast? = some (.readData 0xFFFFFFFF) := by
  simp [fxBusTimeout, hup]

/-! ### The statement on reads, counters and the bus -/

/-- Settles O23: each read, clear, timeout and reset by its own rule above. -/
theorem readEffectsCountersAndBus : Obligations.ReadEffectsCountersAndBus := by
  unfold Obligations.ReadEffectsCountersAndBus
  intro s hok hup hf
  refine ⟨?trackers, ?tmgrBuf, ?bar0, ?bar2, ?unaligned, ?tickLo, ?evcLo, ?evcClear, ?evcHold, ?timeout, ?perst, ?flr⟩
  case trackers =>
    intro e he hu
    have hc : counterPlace (0x20000C + 0x10000 * e) = none := counterPlace_trackers he
    rw [exec_rcRead_bar0 hok (by omega) hup hf (by omega) (by omega) hc, readClears_trackers _ he hu, bar0Word_trackers _ he hu]
  case tmgrBuf =>
    intro n hn hu
    rw [exec_rcRead_bar0 hok (by omega) hup hf (by omega) (by omega) (counterPlace_tmgrBuf hn), readClears_tmgrBuf _ hn hu,
      bar0Word_tmgrBuf _ hn hu]
  case bar0 =>
    intro off h4 hlt hb ht hc
    rw [exec_rcRead_bar0 hok hlt hup hf h4 ht hc, readClears_served hb]
  case bar2 =>
    intro off h4 hlt
    exact exec_rcRead_bar2 hok hlt hup h4
  case unaligned =>
    intro b off h4 hlt
    exact exec_rcRead_unaligned hok hlt hup b h4
  case tickLo =>
    intro wide
    refine ⟨tickData s.dev.core wide, ?_, toNat_tickData _ wide⟩
    calc exec (.tickLoRead wide) s = _ := actCore_of_ok hok _
      _ = _ := by rw [fxTickLoRead_latched wide hup]
  case evcLo =>
    intro off key wide hc
    refine ⟨counterData s.dev.core key wide, ?_, counterData_value _ key wide, ?_, ?_⟩
    · calc exec (.evcLoRead off wide) s = _ := actCore_of_ok hok _
        _ = _ := by rw [fxEvcLoRead_latched wide hup hf hc]; rfl
    · rintro rfl
      rw [toNat_counterData_narrow]
      omega
    · rintro rfl
      exact ⟨counterData_count _ key, counterData_masked _ key, counterData_ovf _ key⟩
  case evcClear =>
    intro off key n hc hn hh
    have run : exec (.evcClear off n) s = _ := actCore_of_ok hok _
    rw [fxEvcClear_counted hup hf hc hn hh] at run
    refine ⟨_, run, ⟨rfl, rfl⟩, ?value, ?ovf, putCounter_rest .., fun k hk => ?others⟩
    case value => simpa [State.withCore] using hn
    case ovf => simp [State.withCore]
    case others => exact (putCounter_counter ..).trans (if_neg hk)
  case evcHold =>
    intro on
    calc exec (.evcHold on) s = _ := actCore_of_ok hok _
      _ = _ := by simp [fxEvcHold, hup]
  case timeout =>
    intro off wr
    refine ⟨_, actCore_of_ok hok _, ⟨rfl, rfl⟩, fxBusTimeout_rest off wr hup, ?_⟩
    rintro rfl
    exact fxBusTimeout_answer off hup
  case perst => exact actCore_of_ok hok fxFunctionReset
  case flr => exact actCore_of_ok hok fxFunctionReset

end Sys2Proof.Machine
end

section
/-! SUPPORT. What a kernel instruction leaves alone, kept by every shared operation of the kernel instructions. -/

namespace Sys2Proof.Machine
open Sys2Proof

/-! ### Frames: what an instruction of row `r` with fields `f` may change -/

/-- Of a sequencer. -/
structure SeqFrame (r : YkRow) (f : YkF) (q q' : Seq) : Prop where
  x : ∀ k, (rowWritesX r = true → k ≠ f.d) → (r = rowDmastat → k ≠ f.a) → rdX q' k = rdX q k
  sys : r ≠ rowSrw → q'.tvec = q.tvec ∧ (r ≠ rowVq → q'.satcnt = q.satcnt) ∧ (r.cls ≠ 4 → r.cls ≠ 6 → q'.fflags = q.fflags)

/-- Of a vector unit and array. -/
structure VecFrame (r : YkRow) (f : YkF) (u u' : Vec) : Prop where
  v : ∀ k, (rowWritesV r = true → k ≠ f.d) → rdV u' k = rdV u k ∧ vPoisoned u' k = vPoisoned u k
  acc : rowWritesA r = false → u'.acc = u.acc ∧ u'.accPoison = u.accPoison
  td : r ≠ rowTldd → r ≠ rowTadd → u'.td = u.td
  array : r.cls ≠ 7 → u'.shadow = u.shadow ∧ u'.active = u.active ∧ u'.arrayQ = u.arrayQ

/-- Of a tile. -/
structure TileFrame (r : YkRow) (f : YkF) (x y : Tile) : Prop where
  beside : y.besideKernel = x.besideKernel
  ls : rowStores r = false → y.ls = x.ls ∧ y.lsPoison = x.lsPoison
  seq : SeqFrame r f x.seq y.seq
  vec : VecFrame r f x.vec y.vec
  chans : r ≠ rowDmaq → r ≠ rowDmares → y.chans = x.chans

/-- Of the core, at tile `t`. -/
structure CoreFrame (r : YkRow) (t : Nat) (f : YkF) (c d : Core) : Prop where
  beside : d.besideTiles = c.besideTiles
  others : ∀ k, k ≠ t → d.tile k = c.tile k
  tile : TileFrame r f (c.tile t) (d.tile t)

section
variable {r : YkRow} {t : Nat} {f : YkF}

/-! ### Sequencers -/

theorem SeqFrame.refl (q : Seq) : SeqFrame r f q q := ⟨fun _ _ _ => rfl, fun _ => ⟨rfl, fun _ => rfl, fun _ _ => rfl⟩⟩

theorem SeqFrame.trans {q q' q'' : Seq} (h : SeqFrame r f q q') (h' : SeqFrame r f q' q'') : SeqFrame r f q q'' where
  x k hd ha := (h'.x k hd ha).trans (h.x k hd ha)
  sys hs :=
    have ⟨tvec, sat, flags⟩ := h.sys hs
    have ⟨tvec', sat', flags'⟩ := h'.sys hs
    ⟨tvec'.trans tvec, fun hq => (sat' hq).trans (sat hq), fun h4 h6 => (flags' h4 h6).trans (flags h4 h6)⟩

/-- A change of PC, state, trap frame, pending causes or sync port. -/
theorem SeqFrame.of_kept {q q' : Seq} (hx : q'.x = q.x := by rfl) (hv : q'.tvec = q.tvec := by rfl) (hs : q'.satcnt = q.satcnt := by rfl)
    (hf : q'.fflags = q.fflags := by rfl) : SeqFrame r f q q' where
  x k _ _ := by simp only [rdX, hx]
  sys _ := ⟨hv, fun _ => hs, fun _ _ => hf⟩

theorem wrX_fields (q : Seq) (d : BitVec 5) (v : BitVec 64) :
    (wrX q d v).tvec = q.tvec ∧ (wrX q d v).satcnt = q.satcnt ∧ (wrX q d v).fflags = q.fflags := by
  unfold wrX
  split <;> exact ⟨rfl, rfl, rfl⟩

theorem SeqFrame.wrX {q : Seq} {d : BitVec 5} {v : BitVec 64}
    (hd : ∀ k, (rowWritesX r = true → k ≠ f.d) → (r = rowDmastat → k ≠ f.a) → k ≠ d) : SeqFrame r f q (wrX q d v) where
  x k h h' := by rw [rdX_wrX, if_neg (fun e => hd k h h' e.1)]
  sys _ :=
    have ⟨tvec, sat, flags⟩ := wrX_fields q d v
    ⟨tvec, fun _ => sat, fun _ _ => flags⟩

theorem SeqFrame.wrX_d {q : Seq} {v : BitVec 64} (h : rowWritesX r = true) : SeqFrame r f q (Machine.wrX q f.d v) :=
  .wrX fun _ hd _ => hd h

/-- Rows of classes 4 and 6 raise flags. -/
theorem SeqFrame.fflags {q : Seq} {fl : FFlags} (h : r.cls = 4 ∨ r.cls = 6) : SeqFrame r f q { q with fflags := fl } where
  x _ _ _ := rfl
  sys _ := ⟨rfl, fun _ => rfl, fun h4 h6 => absurd h (by simp [h4, h6])⟩

/-- SRW leaves the scalar registers alone. -/
theorem SeqFrame.sysWrite {q q' : Seq} {n : Nat} {v : BitVec 64} (h : sysWrite q n v = some q') : SeqFrame rowSrw f q q' where
  x _ _ _ := by
    have hx : q'.x = q.x := by
      unfold Machine.sysWrite at h
      split_ifs at h <;> cases h <;> rfl
    simp only [rdX, hx]
  sys hs := absurd rfl hs

/-! ### Vector units -/

theorem VecFrame.refl (u : Vec) : VecFrame r f u u :=
  ⟨fun _ _ => ⟨rfl, rfl⟩, fun _ => ⟨rfl, rfl⟩, fun _ _ => rfl, fun _ => ⟨rfl, rfl, rfl⟩⟩

theorem VecFrame.trans {u u' u'' : Vec} (h : VecFrame r f u u') (h' : VecFrame r f u' u'') : VecFrame r f u u'' where
  v k hk := ⟨(h'.v k hk).1.trans (h.v k hk).1, (h'.v k hk).2.trans (h.v k hk).2⟩
  acc ha := ⟨(h'.acc ha).1.trans (h.acc ha).1, (h'.acc ha).2.trans (h.acc ha).2⟩
  td hl ha := (h'.td hl ha).trans (h.td hl ha)
  array hc :=
    have ⟨shadow, active, queue⟩ := h.array hc
    have ⟨shadow', active', queue'⟩ := h'.array hc
    ⟨shadow'.trans shadow, active'.trans active, queue'.trans queue⟩

theorem VecFrame.vecQ {u : Vec} {l : List Nat} : VecFrame r f u { u with vecQ := l } :=
  ⟨fun _ _ => ⟨rfl, rfl⟩, fun _ => ⟨rfl, rfl⟩, fun _ _ => rfl, fun _ => ⟨rfl, rfl, rfl⟩⟩

theorem VecFrame.wrVP {u : Vec} {v : VReg} {p : Bool} (h : rowWritesV r = true) : VecFrame r f u (wrVP u f.d v p) where
  v _ hk := ⟨(rdV_wrVP ..).trans (if_neg (hk h)), (vPoisoned_wrVP ..).trans (if_neg (hk h))⟩
  acc _ := ⟨rfl, rfl⟩
  td _ _ := rfl
  array _ := ⟨rfl, rfl, rfl⟩

theorem VecFrame.wrAccP {u : Vec} {b row : Nat} {v : VReg} {p : Bool} (h : rowWritesA r = true) : VecFrame r f u (wrAccP u b row v p) where
  v _ _ := ⟨rfl, rfl⟩
  acc ha := absurd h (by simp [ha])
  td _ _ := rfl
  array _ := ⟨rfl, rfl, rfl⟩

theorem VecFrame.td_write {u : Vec} {l : Table (BitVec 128)} (h : r = rowTldd ∨ r = rowTadd) : VecFrame r f u { u with td := l } where
  v _ _ := ⟨rfl, rfl⟩
  acc _ := ⟨rfl, rfl⟩
  td hl ha := absurd h (by simp [hl, ha])
  array _ := ⟨rfl, rfl, rfl⟩

/-- Stationary tiles and queue of the array, which class 7 changes. -/
theorem VecFrame.array_write {u : Vec} {s a : Option StatTile} {l : List ArrOp} (h : r.cls = 7) :
    VecFrame r f u { u with shadow := s, active := a, arrayQ := l } where
  v _ _ := ⟨rfl, rfl⟩
  acc _ := ⟨rfl, rfl⟩
  td _ _ := rfl
  array hc := absurd h hc

theorem VecFrame.foldl {α : Type} {g : Vec → α → Vec} (h : ∀ u a, VecFrame r f u (g u a)) (l : List α) (u : Vec) : VecFrame r f u (l.foldl g u) := by
  induction l generalizing u with
  | nil => exact .refl u
  | cons a l ih => exact .trans (h u a) (ih _)

theorem VecFrame.zeroRows {u : Vec} {bank first rows : Nat} (h : rowWritesA r = true) : VecFrame r f u (zeroRows u bank first rows) :=
  .foldl (fun _ _ => .wrAccP h) _ _

/-! ### Tiles -/

theorem TileFrame.refl (x : Tile) : TileFrame r f x x := ⟨rfl, fun _ => ⟨rfl, rfl⟩, .refl _, .refl _, fun _ _ => rfl⟩

theorem TileFrame.trans {x y z : Tile} (h : TileFrame r f x y) (h' : TileFrame r f y z) : TileFrame r f x z where
  beside := h'.beside.trans h.beside
  ls hs := ⟨(h'.ls hs).1.trans (h.ls hs).1, (h'.ls hs).2.trans (h.ls hs).2⟩
  seq := h.seq.trans h'.seq
  vec := h.vec.trans h'.vec
  chans hq hr := (h'.chans hq hr).trans (h.chans hq hr)

theorem TileFrame.registers {x : Tile} {q : Seq} {u : Vec} {w : Option Work} {b : Bool} (hs : SeqFrame r f x.seq q) (hv : VecFrame r f x.vec u) :
    TileFrame r f x { x with seq := q, vec := u, work := w, fTrap := b } := ⟨rfl, fun _ => ⟨rfl, rfl⟩, hs, hv, fun _ _ => rfl⟩

/-- A change of the sequencer, the work item and FAULT.TRAP. -/
theorem TileFrame.of_seq {x : Tile} {q : Seq} {w : Option Work} {b : Bool} (hs : SeqFrame r f x.seq q) :
    TileFrame r f x { x with seq := q, work := w, fTrap := b } := .registers hs (.refl _)

theorem TileFrame.of_vec {x : Tile} {u : Vec} (hv : VecFrame r f x.vec u) : TileFrame r f x { x with vec := u } := .registers (.refl _) hv

theorem TileFrame.store {x : Tile} {m : Mem} {z : List Nat} (h : rowStores r = true) : TileFrame r f x { x with ls := m, lsPoison := z } :=
  ⟨rfl, fun hs => absurd h (by simp [hs]), .refl _, .refl _, fun _ _ => rfl⟩

theorem TileFrame.setChan {x : Tile} {k : Nat} {d : DmaChan} (h : r = rowDmaq ∨ r = rowDmares) : TileFrame r f x (setChan x k d) :=
  ⟨rfl, fun _ => ⟨rfl, rfl⟩, .refl _, .refl _, fun hq hr => absurd h (by simp [hq, hr])⟩

theorem TileFrame.pendLsUe {x : Tile} {source addr : Nat} : TileFrame r f x (pendLsUe x source addr) := .of_seq .of_kept

theorem TileFrame.foldl {α : Type} {g : Tile → α → Tile} (h : ∀ x a, TileFrame r f x (g x a)) (l : List α) (x : Tile) :
    TileFrame r f x (l.foldl g x) := by
  induction l generalizing x with
  | nil => exact .refl x
  | cons a l ih => exact .trans (h x a) (ih _)

theorem TileFrame.storeRange {x : Tile} {m : Mem} {a n : Nat} {p : Bool} (h : rowStores r = true) :
    TileFrame r f x (poisonWrite { x with ls := m } a n p) := by
  refine .trans (.store h) (.foldl (fun y w => ?_) _ _)
  split
  · exact .store h
  · split
    · exact .store h
    · exact .refl y

/-! Reads by the vector unit and the array may make LS_UE pending, and leave all else. -/

theorem TileFrame.unitRead (c : Core) (x : Tile) (a n : Nat) : TileFrame r f x (unitRead c x a n).2.1 := by
  unfold Machine.unitRead
  split
  · exact .refl x
  · dsimp only
    split
    · exact .pendLsUe
    · exact .refl x

theorem TileFrame.tdRowRead (c : Core) (x : Tile) (d : BitVec 128) (k : Nat) : TileFrame r f x (tdRowRead c x d k).2.1 := by
  unfold Machine.tdRowRead
  dsimp only
  split
  · exact .trans (.unitRead ..) (.unitRead ..)
  · exact .unitRead ..

theorem TileFrame.tdReadAll (c : Core) (d : BitVec 128) (n k : Nat) (x : Tile) : TileFrame r f x (tdReadAll c d n k x).2.1 := by
  induction n generalizing k x with
  | zero => exact .refl x
  | succ n ih => exact .trans (.tdRowRead ..) (ih ..)

theorem TileFrame.tmulRow (h : rowWritesA r = true) (c : Core) (st : StatTile) (bank : Nat) (d : BitVec 128) (accRow accCol : Nat) (zero : Bool)
    (k : Nat) (x : Tile) : TileFrame r f x (tmulRow c st bank d accRow accCol zero k x).1 :=
  .trans (.tdRowRead c x d k) (.of_vec (.wrAccP h))

theorem TileFrame.tmulRows (h : rowWritesA r = true) (c : Core) (st : StatTile) (bank : Nat) (d : BitVec 128) (accRow accCol : Nat) (zero : Bool)
    (n k : Nat) (x : Tile) : TileFrame r f x (tmulRows c st bank d accRow accCol zero n k x).1 := by
  induction n generalizing k x with
  | zero => exact .refl x
  | succ n ih => exact .trans (.tmulRow h ..) (ih ..)

/-! ### The core -/

theorem CoreFrame.refl (c : Core) : CoreFrame r t f c c := ⟨rfl, fun _ _ => rfl, .refl _⟩

theorem CoreFrame.trans {c d e : Core} (h : CoreFrame r t f c d) (h' : CoreFrame r t f d e) : CoreFrame r t f c e where
  beside := h'.beside.trans h.beside
  others k hk := (h'.others k hk).trans (h.others k hk)
  tile := h.tile.trans h'.tile

theorem tile_of_rest {c d : Core} (h : d.rest = c.rest) (k : Nat) : d.tile k = c.tile k := congrArg (tget ({} : Tile) k) (rest_tiles h)

/-- Log, interrupts, counters, freezes and messages. -/
theorem CoreFrame.of_rest {c d : Core} (h : d.rest = c.rest) : CoreFrame r t f c d where
  beside := congrArg (fun c : Core => { c with tiles := [], fresh := 0 }) h
  others k _ := tile_of_rest h k
  tile := by rw [tile_of_rest h]; exact .refl _

theorem CoreFrame.drawn (c : Core) (n : Nat) : CoreFrame r t f c { c with fresh := n } := ⟨rfl, fun _ _ => rfl, .refl _⟩

theorem CoreFrame.setTile {c : Core} {x : Tile} (h : TileFrame r f (c.tile t) x) : CoreFrame r t f c (c.setTile t x) where
  beside := rfl
  others k hk := c.setTile_ne t x hk
  tile := by rw [c.setTile_same]; exact h

/-- A tile written after a log entry, a count or a message. -/
theorem CoreFrame.setTile_of_rest {c d : Core} {x : Tile} (hd : d.rest = c.rest) (h : TileFrame r f (c.tile t) x) :
    CoreFrame r t f c (d.setTile t x) :=
  .trans (.of_rest hd) (.setTile (by rw [tile_of_rest hd]; exact h))

theorem CoreFrame.modTile {c : Core} {g : Tile → Tile} (h : TileFrame r f (c.tile t) (g (c.tile t))) : CoreFrame r t f c (c.modTile t g) := .setTile h

theorem CoreFrame.modSeq {c : Core} {g : Seq → Seq} (h : SeqFrame r f (c.tile t).seq (g (c.tile t).seq)) : CoreFrame r t f c (c.modSeq t g) :=
  .modTile (.of_seq h)

theorem CoreFrame.modVec {c : Core} {g : Vec → Vec} (h : VecFrame r f (c.tile t).vec (g (c.tile t).vec)) : CoreFrame r t f c (c.modVec t g) :=
  .modTile (.of_vec h)

theorem CoreFrame.send {c d : Core} {m : Msg} (h : CoreFrame r t f c d) : CoreFrame r t f c (d.send m) := h.trans (.of_rest (send_rest m d))

theorem CoreFrame.countEvent {c d : Core} {a i ev n : Nat} {p : Option Nat} (h : CoreFrame r t f c d) :
    CoreFrame r t f c (countEvent a i ev n p d) := h.trans (.of_rest (countEvent_rest ..))

theorem CoreFrame.logE {c d : Core} {code a i : Nat} {p : Option Nat} {fs : List (Nat × Nat)} (h : CoreFrame r t f c d) :
    CoreFrame r t f c (logE code a i p fs d) := h.trans (.of_rest (logE_rest ..))

/-! ### Traps and the vector queue -/

theorem CoreFrame.takeTrap (cause : Nat) (async : Bool) (info tpc : BitVec 64) (c : Core) :
    CoreFrame r t f c (takeTrap t cause async info tpc c) := by
  unfold Machine.takeTrap
  dsimp only
  split
  · exact .setTile_of_rest (countEvent_rest ..) (.of_seq .of_kept)
  · exact .logE (.setTile_of_rest (countEvent_rest ..) (.of_seq .of_kept))

/-- A trap of a sequencer changed but for its registers, after a message. -/
theorem CoreFrame.setSeq_takeTrap {c d : Core} {q : Seq} (hd : d.rest = c.rest) (hq : SeqFrame r f (c.tile t).seq q)
    (cause : Nat) (async : Bool) (info tpc : BitVec 64) :
    CoreFrame r t f c (Machine.takeTrap t cause async info tpc (d.setTile t { c.tile t with seq := q })) :=
  .trans (.setTile_of_rest hd (.of_seq hq)) (.takeTrap ..)

theorem CoreFrame.takeAsync (c : Core) : CoreFrame r t f c (takeAsync t c) := by
  unfold Machine.takeAsync
  dsimp only
  split
  · exact .setSeq_takeTrap (by split <;> rfl) .of_kept ..
  · exact .setSeq_takeTrap (by split <;> rfl) .of_kept ..
  · exact .setSeq_takeTrap (by split <;> rfl) .of_kept ..
  · exact .of_rest (by split <;> rfl)

theorem CoreFrame.vecIssue (c : Core) : CoreFrame r t f c (vecIssue r t c) := by
  unfold Machine.vecIssue
  split
  · exact .modTile (.of_vec .vecQ)
  · exact .refl c

theorem CoreFrame.vecWait (c : Core) : CoreFrame r t f c (vecWait t c) := .modTile (.of_vec .vecQ)

theorem CoreFrame.setPc {c d : Core} {a : BitVec 64} (h : CoreFrame r t f c d) :
    CoreFrame r t f c (d.modTile t (fun x => { x with seq := { x.seq with pc := a } })) :=
  h.trans (.modTile (.of_seq .of_kept))

/-! ### Running an instruction -/

/-- What the instruction's own rules make of the core stays in its frame; a trap discards it. -/
def YkRes.Framed (r : YkRow) (t : Nat) (f : YkF) (c : Core) : YkRes → Prop
  | .go d => CoreFrame r t f c d
  | .jump d _ => CoreFrame r t f c d
  | .stay d => CoreFrame r t f c d
  | .trap .. => True

theorem YkRes.Framed.go {c d : Core} (h : CoreFrame r t f c d) : (YkRes.go d).Framed r t f c := h

theorem CoreFrame.ykStep {body : Core → YkRes} {c : Core} (h : (body c).Framed r t f c) : CoreFrame r t f c (ykStep r t f body c) := by
  rcases ykStep_cases r t f body c with e | e | ⟨k, i, a, e⟩ | ⟨-, c', ⟨d, hb, rfl⟩ | ⟨a, hb⟩, a', e⟩ | ⟨-, d, hb, e⟩ | ⟨-, e⟩ <;> rw [e]
  · exact .refl c
  · exact .takeAsync c
  · exact .takeTrap ..
  · rw [hb] at h
    exact .setPc (.trans h (.vecIssue d))
  · rw [hb] at h
    exact .setPc h
  · rwa [hb] at h
  · exact .vecWait c

/-- A meaning that stays in the frame of its row. -/
def FramedExec (r : YkRow) (t : Nat) (f : YkF) (g : State → Host.Outcome State Fault Refusal) : Prop :=
  ∀ s u, g s = .next u → s.keeps u ∧ CoreFrame r t f s.dev.core u.dev.core

theorem framed_ykStep {body : Core → YkRes} (h : ∀ c, (body c).Framed r t f c) : FramedExec r t f (fun s => actCore s (ykStep r t f body)) := by
  intro s u hu
  obtain ⟨hq, hp, hc, -⟩ := actCore_inv hu
  exact ⟨⟨hq, hp⟩, hc ▸ .ykStep (h _)⟩

/-! ### The checks of an instruction -/

section
variable {c : Core} {ok : YkRes} (h : ok.Framed r t f c)
include h

theorem framed_scalarCheck (a n : Nat) : (scalarCheck a n ok).Framed r t f c := by
  unfold scalarCheck
  split_ifs
  · trivial
  · trivial
  · exact h

theorem framed_lanesCheck (as : List Nat) : (lanesCheck as ok).Framed r t f c := by
  unfold lanesCheck
  split
  · trivial
  · split
    · trivial
    · exact h

theorem framed_accCheck (row : Nat) : (accCheck row ok).Framed r t f c := by
  unfold accCheck
  split_ifs
  · trivial
  · exact h

theorem framed_fmtCheck (r' : YkRow) (f' : YkF) : (fmtCheck r' f' ok).Framed r t f c := by
  unfold fmtCheck
  split_ifs
  · trivial
  · exact h

theorem framed_tdCheck (d : BitVec 128) (idx : Nat) : (tdCheck d idx ok).Framed r t f c := by
  unfold tdCheck
  split
  · trivial
  · split
    · trivial
    · split
      · trivial
      · exact h

theorem framed_tmulCheck (u : Vec) (d : BitVec 128) (idx : Nat) (imm : BitVec 32) : (tmulCheck u d idx imm ok).Framed r t f c := by
  refine framed_tdCheck ?_ d idx
  split
  · trivial
  · split
    · trivial
    · dsimp only
      split
      · trivial
      · exact h

theorem framed_syncRange (x : Tile) (obj : Nat) : (syncRange c x obj ok).Framed r t f c := by
  unfold syncRange
  dsimp only
  split
  · exact h
  · trivial
end
end

end Sys2Proof.Machine
end

section
/-! SUPPORT. Every kernel instruction stays in its frame, family by family. -/

namespace Sys2Proof.Machine
open Sys2Proof

section
variable {r : YkRow} {t : Nat} {f : YkF}

/-! ### Classes 0 to 3 -/

/-- x[D] = a function of the sequencer: class 0. -/
theorem framed_writesX {g : Seq → BitVec 64} (h : rowWritesX r = true) :
    FramedExec r t f (fun s => actCore s (ykStep r t f (fun c => .go (c.modSeq t (fun q => wrX q f.d (g q)))))) :=
  framed_ykStep fun _ => .modSeq (.wrX_d h)

theorem framed_loadInstr {n : Nat} {g : Nat → BitVec 64} (h : rowWritesX r = true) : FramedExec r t f (loadInstr r n g t f) := by
  refine framed_ykStep fun c => framed_scalarCheck (.go ?_) _ _
  split
  · exact .modSeq (.wrX_d h)
  · exact .countEvent (.setTile (.trans (.of_seq (.wrX_d h)) .pendLsUe))

theorem framed_storeInstr {n : Nat} (h : rowStores r = true) : FramedExec r t f (storeInstr r n t f) :=
  framed_ykStep fun _ => framed_scalarCheck (.go <| .setTile (.storeRange h)) _ _

/-- A jump on a condition, without another effect. -/
theorem framed_branches {p : Core → Bool} {a : Core → BitVec 64} :
    FramedExec r t f (fun s => actCore s (ykStep r t f (fun c => if p c then .jump c (a c) else .go c))) := by
  refine framed_ykStep fun c => ?_
  split <;> exact CoreFrame.refl c

theorem framed_execJal : FramedExec rowJal t f (execJal t f) := framed_ykStep fun _ => .modSeq (.wrX_d rfl)

theorem framed_execJalr : FramedExec rowJalr t f (execJalr t f) := framed_ykStep fun _ => .modSeq (.wrX_d rfl)

theorem framed_execHalt : FramedExec rowHalt t f (execHalt t f) := by
  refine framed_ykStep fun c => ?_
  dsimp only
  split_ifs
  · exact CoreFrame.vecWait c
  · exact CoreFrame.setTile (.of_seq .of_kept)
  · exact CoreFrame.refl c

theorem framed_execNop : FramedExec rowNop t f (execNop t f) := framed_ykStep fun c => .refl c

theorem framed_execTrapi : FramedExec rowTrapi t f (execTrapi t f) := framed_ykStep fun _ => trivial

theorem framed_execTret : FramedExec rowTret t f (execTret t f) := framed_ykStep fun _ => .modSeq .of_kept

theorem framed_execFence : FramedExec rowFence t f (execFence t f) := by
  refine framed_ykStep fun c => ?_
  split_ifs
  · exact CoreFrame.vecWait c
  · exact CoreFrame.refl c
  · exact CoreFrame.refl c

/-- SRR may draw a free value, counts CYCLE on, and writes x[D]. -/
theorem framed_execSrr : FramedExec rowSrr t f (execSrr t f) := by
  refine framed_ykStep fun c => ?_
  have drawn : CoreFrame rowSrr t f c (if field f.imm 11 0 = 0 then c.free else (0, c)).2 := by
    split
    · exact .drawn c _
    · exact .refl c
  dsimp only
  generalize (if field f.imm 11 0 = 0 then c.free else (0, c)) = d at drawn ⊢
  obtain ⟨v, d⟩ := d
  dsimp only
  split
  · exact drawn.trans (.modSeq (.trans .of_kept (.wrX_d rfl)))
  · trivial

theorem framed_execSrw : FramedExec rowSrw t f (execSrw t f) := by
  refine framed_ykStep fun c => ?_
  dsimp only
  split
  · next q h => exact CoreFrame.modSeq (.sysWrite h)
  · trivial

/-! ### Classes 4 to 6 -/

/-- A vector result in v[D] raises flags, in classes 4 and 6. -/
theorem CoreFrame.vecDone {g : Nat → LaneRes} {p : Bool} {c : Core} (hv : rowWritesV r = true) (hc : r.cls = 4 ∨ r.cls = 6) :
    CoreFrame r t f c (vecDone t f g p c) := .countEvent (.setTile (.registers (.fflags hc) (.wrVP hv)))

theorem framed_vecDone {g : Core → Nat → LaneRes} {p : Core → Bool} (hv : rowWritesV r = true) (hc : r.cls = 4 ∨ r.cls = 6) :
    FramedExec r t f (fun s => actCore s (ykStep r t f (fun c => .go (vecDone t f (g c) (p c) c)))) := framed_ykStep fun _ => .vecDone hv hc

theorem framed_execVext : FramedExec rowVext t f (execVext t f) := by
  refine framed_ykStep fun c => ?_
  have counted := countEvent_rest 4 t 4 1 (some (c.tile t).ptn) c
  dsimp only
  split
  · exact CoreFrame.setTile_of_rest counted (.trans (.of_seq (.wrX_d rfl)) .pendLsUe)
  · exact CoreFrame.trans (.of_rest counted) (.modSeq (.wrX_d rfl))

theorem framed_vecLoad {addr : Tile → YkF → Nat → Nat} {idx : Bool} (h : rowWritesV r = true) : FramedExec r t f (vecLoad r addr idx t f) := by
  refine framed_ykStep fun c => framed_lanesCheck (.go <| .countEvent (.countEvent (.setTile ?_))) _
  refine .trans ?_ (.of_vec (.wrVP h))
  split
  · exact .refl _
  · split
    · exact .pendLsUe
    · exact .refl _

theorem framed_vecStore {addr : Tile → YkF → Nat → Nat} {idx : Bool} (h : rowStores r = true) : FramedExec r t f (vecStore r addr idx t f) :=
  framed_ykStep fun _ => framed_lanesCheck (.go <| .countEvent (.setTile (.store h))) _

theorem framed_execVrda : FramedExec rowVrda t f (execVrda t f) := by
  refine framed_ykStep fun c => framed_accCheck ?_ _
  split
  · exact CoreFrame.refl c
  · exact CoreFrame.countEvent (.setTile (.of_vec (.wrVP rfl)))

theorem framed_execVwra : FramedExec rowVwra t f (execVwra t f) := by
  refine framed_ykStep fun c => framed_accCheck ?_ _
  split
  · exact CoreFrame.refl c
  · exact CoreFrame.countEvent (.setTile (.of_vec (.wrAccP rfl)))

/-- VQ may change SATCNT and, as class 6, the flags. -/
theorem SeqFrame.vq {q : Seq} {fl : FFlags} {n : BitVec 64} : SeqFrame rowVq f q { q with fflags := fl, satcnt := n } where
  x _ _ _ := rfl
  sys _ := ⟨rfl, fun h => absurd rfl h, fun _ h => absurd rfl h⟩

theorem framed_execVq : FramedExec rowVq t f (execVq t f) :=
  framed_ykStep fun _ => framed_fmtCheck (.go <| .countEvent (.setTile (.registers .vq (.wrVP rfl)))) _ _

theorem framed_execVdq : FramedExec rowVdq t f (execVdq t f) := framed_ykStep fun _ => framed_fmtCheck (.go <| .vecDone rfl (.inr rfl)) _ _

/-! ### Class 7 -/

theorem framed_execTldd : FramedExec rowTldd t f (execTldd t f) := by
  refine framed_ykStep fun c => ?_
  dsimp only
  split_ifs
  · trivial
  · trivial
  · exact CoreFrame.modVec (.td_write (.inl rfl))
  · exact CoreFrame.countEvent (.setTile (.trans (.of_vec (.td_write (.inl rfl))) .pendLsUe))

theorem framed_execTadd : FramedExec rowTadd t f (execTadd t f) := framed_ykStep fun _ => .modVec (.td_write (.inr rfl))

theorem CoreFrame.fxTload {d : BitVec 128} {shape : Nat} {c : Core} (h : r.cls = 7) : CoreFrame r t f c (fxTload t d shape c) :=
  .countEvent (.setTile (.trans (.tdReadAll ..) (.of_vec (.array_write h))))

theorem framed_execTload : FramedExec rowTload t f (execTload t f) := by
  refine framed_ykStep fun c => framed_tdCheck ?_ _ _
  split_ifs
  · trivial
  · exact CoreFrame.refl c
  · exact CoreFrame.fxTload rfl
  · exact CoreFrame.modVec (.array_write rfl)

theorem CoreFrame.fxTmul {bank : Nat} {d : BitVec 128} {imm : BitVec 32} {c : Core} (h : r.cls = 7) (ha : rowWritesA r = true) :
    CoreFrame r t f c (fxTmul t bank d imm c) := by
  have taken : TileFrame r f (c.tile t) (if imm.getLsbD 16 then
      { c.tile t with vec := { (c.tile t).vec with active := (c.tile t).vec.shadow, shadow := none } } else c.tile t) := by
    split
    · exact .of_vec (.array_write h)
    · exact .refl _
  unfold Machine.fxTmul
  dsimp only
  split
  · exact .refl c
  · exact .countEvent (.countEvent (.setTile (taken.trans (.tmulRows ha ..))))

theorem framed_execTmul : FramedExec rowTmul t f (execTmul t f) := by
  refine framed_ykStep fun c => framed_tmulCheck ?_ _ _ _ _
  split_ifs
  · exact CoreFrame.refl c
  · exact CoreFrame.fxTmul rfl rfl
  · exact CoreFrame.modVec (.array_write rfl)

theorem framed_execAzero : FramedExec rowAzero t f (execAzero t f) := by
  refine framed_ykStep fun c => ?_
  dsimp only
  split_ifs
  · exact CoreFrame.refl c
  · exact CoreFrame.modVec (.zeroRows rfl)
  · exact CoreFrame.modVec (.array_write rfl)

/-! ### Classes 8 and 9 -/

theorem framed_execDmaq : FramedExec rowDmaq t f (execDmaq t f) := by
  refine framed_ykStep fun c => ?_
  dsimp only
  split
  · trivial
  · split
    · exact CoreFrame.refl c
    · refine CoreFrame.setTile (.trans ?_ (.setChan (.inl rfl)))
      split
      · exact .refl _
      · exact .pendLsUe

theorem framed_execDmawait : FramedExec rowDmawait t f (execDmawait t f) := by
  refine framed_ykStep fun c => ?_
  dsimp only
  split <;> exact CoreFrame.modSeq .of_kept

theorem framed_execDmares : FramedExec rowDmares t f (execDmares t f) := by
  refine framed_ykStep fun c => ?_
  dsimp only
  split
  · exact CoreFrame.setTile (.setChan (.inr rfl))
  · exact CoreFrame.refl c

theorem framed_execDmastat : FramedExec rowDmastat t f (execDmastat t f) := framed_ykStep fun _ => .modSeq (.wrX fun _ _ ha => ha rfl)

/-- An acknowledged operation joins the unacknowledged ones, and changes its sequencer by `seq`. -/
theorem framed_syncSend {msg : Tile → YkF → Nat → SyncMsg} {seq : Seq → YkF → Nat → Seq} (h : ∀ q obj, SeqFrame r f q (seq q f obj)) :
    FramedExec r t f (syncSend r msg seq t f) := by
  refine framed_ykStep fun c => framed_syncRange ?_ _ _
  dsimp only
  split
  · exact CoreFrame.refl c
  · exact CoreFrame.send (.modSeq (.trans (h ..) .of_kept))

theorem framed_execSprod : FramedExec rowSprod t f (execSprod t f) := by
  unfold execSprod
  exact framed_syncSend fun q _ => .refl q

theorem framed_execScons : FramedExec rowScons t f (execScons t f) := by
  unfold execScons
  exact framed_syncSend fun q _ => .refl q

theorem framed_execSarr : FramedExec rowSarr t f (execSarr t f) := by
  unfold execSarr
  exact framed_syncSend fun _ _ => .of_kept

theorem framed_sendWait {kind n : Nat} {m : SyncMsg} {c : Core} : (sendWait t kind m n c).Framed r t f c := CoreFrame.send (.modSeq .of_kept)

theorem framed_execSwaita : FramedExec rowSwaita t f (execSwaita t f) := framed_ykStep fun _ => framed_syncRange framed_sendWait _ _

theorem framed_execSwaits : FramedExec rowSwaits t f (execSwaits t f) := framed_ykStep fun _ => framed_syncRange framed_sendWait _ _

theorem framed_execSwaitb : FramedExec rowSwaitb t f (execSwaitb t f) := by
  refine framed_ykStep fun c => ?_
  dsimp only
  split
  · exact framed_sendWait
  · split
    · exact CoreFrame.modSeq .of_kept
    · exact CoreFrame.trans (.modSeq .of_kept) (.takeAsync _)

theorem framed_execSread : FramedExec rowSread t f (execSread t f) :=
  framed_ykStep fun _ => framed_syncRange (.go <| .send (.modSeq .of_kept)) _ _
end

/-! ### The statement on kernel instructions -/

/-- Each kernel instruction runs the meaning of its family, which keeps to the frame of its row. -/
theorem framed_exec {i : Instr} {t : Nat} {f : YkF} {r : YkRow} (h : ykRow i = some (t, f, r)) : FramedExec r t f (exec i) := by
  cases i with
  | add t f | sub t f | and t f | or t f | xor t f | sll t f | srl t f | sra t f | slt t f | sltu t f | min t f | max t f | minu t f
  | maxu t f | mul t f | mulh t f | mulhu t f | div t f | divu t f | rem t f | remu t f | li t f | lih t f => cases h; exact framed_writesX rfl
  | lb t f | lh t f | lw t f | ld t f | lbu t f | lhu t f | lwu t f => cases h; exact framed_loadInstr rfl
  | sb t f | sh t f | sw t f | sd t f => cases h; exact framed_storeInstr rfl
  | beq t f | bne t f | blt t f | bge t f | bltu t f | bgeu t f => cases h; exact framed_branches
  | jal t f => cases h; exact framed_execJal
  | jalr t f => cases h; exact framed_execJalr
  | halt t f => cases h; exact framed_execHalt
  | nop t f => cases h; exact framed_execNop
  | trapi t f => cases h; exact framed_execTrapi
  | tret t f => cases h; exact framed_execTret
  | fence t f => cases h; exact framed_execFence
  | srr t f => cases h; exact framed_execSrr
  | srw t f => cases h; exact framed_execSrw
  | vcvti t f | vcvtf t f => cases h; exact framed_vecDone rfl (.inr rfl)
  | vadd t f | vsub t f | vmul t f | vfma t f | vmax t f | vmin t f | vabs t f | vneg t f | vexp2 t f | vrcp t f | vrsqrt t f | vclt t f
  | vcle t f | vceq t f | viadd t f | visub t f | vimul t f | vand t f | vor t f | vxor t f | vshl t f | vshr t f | vsra t f | viclt t f
  | vsel t f | vbcast t f | viota t f | vins t f | vrsum t f | vrmax t f | vrmin t f => cases h; exact framed_vecDone rfl (.inl rfl)
  | vext t f => cases h; exact framed_execVext
  | vld t f | vlds t f | vldg t f => cases h; exact framed_vecLoad rfl
  | vst t f | vsts t f | vstg t f => cases h; exact framed_vecStore rfl
  | vrda t f => cases h; exact framed_execVrda
  | vwra t f => cases h; exact framed_execVwra
  | vq t f => cases h; exact framed_execVq
  | vdq t f => cases h; exact framed_execVdq
  | tldd t f => cases h; exact framed_execTldd
  | tadd t f => cases h; exact framed_execTadd
  | tload t f => cases h; exact framed_execTload
  | tmul t f => cases h; exact framed_execTmul
  | azero t f => cases h; exact framed_execAzero
  | dmaq t f => cases h; exact framed_execDmaq
  | dmawait t f => cases h; exact framed_execDmawait
  | dmares t f => cases h; exact framed_execDmares
  | dmastat t f => cases h; exact framed_execDmastat
  | sprod t f => cases h; exact framed_execSprod
  | scons t f => cases h; exact framed_execScons
  | sarr t f => cases h; exact framed_execSarr
  | swaita t f => cases h; exact framed_execSwaita
  | swaits t f => cases h; exact framed_execSwaits
  | swaitb t f => cases h; exact framed_execSwaitb
  | sread t f => cases h; exact framed_execSread
  | _ => cases h

/-- Settles O59: every shared operation of the kernel instructions, and so every instruction, stays in the frame of its row. -/
theorem kernelInstructionFrame : Obligations.KernelInstructionFrame := by
  unfold Obligations.KernelInstructionFrame
  intro s u i t f r hr hu
  obtain ⟨keeps, beside, others, tile⟩ := framed_exec hr s u hu
  obtain ⟨tileBeside, ls, seq, vec, chans⟩ := tile
  exact ⟨keeps, beside, others, tileBeside, ls, seq.x, vec.v, vec.acc, vec.td, vec.array, chans, seq.sys⟩

end Sys2Proof.Machine
end

section
/-! SUPPORT. How installs, markers, lining lines, walks and reports carry a partition-wide action forward. -/

namespace Sys2Proof.Machine
open Sys2Proof

theorem State.keeps_withCore (s : State) (d : Core) : s.keeps (s.withCore d) := ⟨rfl, rfl⟩

@[simp] theorem State.withCore_core (s : State) (d : Core) : (s.withCore d).dev.core = d := rfl

/-! ### EXTENT_ENTRY_INSTALL (R56, R57) -/

/-- The markers of home `e` for sequence number `q`, on both planes to each of some ports. -/
def markersTo (e : Nat) (q : BitVec 32) (ns : List Nat) : List Msg :=
  ns.flatMap (fun n => [.commitMarker e n q false, .commitMarker e n q true])

theorem mem_markersTo {e n : Nat} {q : BitVec 32} {ns : List Nat} (h : n ∈ ns) (b : Bool) : Msg.commitMarker e n q b ∈ markersTo e q ns :=
  List.mem_flatMap.2 ⟨n, h, by cases b <;> simp⟩

theorem forEach_markers (e : Nat) (q : BitVec 32) (ns : List Nat) (c : Core) :
    forEach ns (fun n c => (c.send (.commitMarker e n q false)).send (.commitMarker e n q true)) c = { c with out := c.out ++ markersTo e q ns } := by
  unfold forEach
  induction ns generalizing c with
  | nil => simp [markersTo]
  | cons n ns ih =>
    rw [List.foldl_cons, ih]
    simp [markersTo, Core.send]

section
variable {c : Core} {e p : Nat} {a : Action}

theorem setHomeExt_homeExt (i : Nat) (x : Ext) (c : Core) : (setHomeExt e p i x c).homeExt e p i = x := by
  simp [setHomeExt, Core.modHome, Core.homeExt]

theorem setHomeExt_out (i : Nat) (x : Ext) (c : Core) : (setHomeExt e p i x c).out = c.out := rfl

/-- The core of a home that has taken the entry of a revocation: its mode is set and its markers are sent. -/
def installed (e p : Nat) (a : Action) (c : Core) : Core :=
  let d := (setHomeExt e p a.i a.ent c).modHome e (fun h => { h with mode := tput none (p * 1024 + a.i) (some (a.forced, a.groups)) h.mode })
  { d with out := c.out ++ markersTo e a.seq (presentPorts c) }

theorem installed_homeExt : (installed e p a c).homeExt e p a.i = a.ent := by
  simp [installed, setHomeExt, Core.homeExt, Core.home, Core.modHome, Core.setHome]

theorem installed_mode : tget none (p * 1024 + a.i) ((installed e p a c).home e).mode = some (a.forced, a.groups) := by
  simp [installed, setHomeExt, Core.home, Core.modHome, Core.setHome]

theorem installed_out {n : Nat} (h : n ∈ presentPorts c) (b : Bool) : Msg.commitMarker e n a.seq b ∈ (installed e p a c).out :=
  List.mem_append_right _ (mem_markersTo h b)

/-- An install that the step asks for. -/
theorem fxEntryInstall_due (ha : actionOf c p = some a) (he : e ∈ liveHomes c) (hs : a.step = 4 ∨ a.step = 6)
    (hx : c.homeExt e p a.i ≠ a.ent) (hm : mgrUp c 5 = true) :
    fxEntryInstall e p a.i c = if a.step = 4 then setHomeExt e p a.i a.ent c else installed e p a c := by
  have he' : (liveHomes c).contains e = true := List.contains_iff_mem.2 he
  have hs' : (decide (a.step = 4) || decide (a.step = 6)) = true := by simpa using hs
  simp only [fxEntryInstall, ha, he', hs', hx, hm, forEach_markers, Bool.not_true, Bool.false_eq_true, ne_eq, not_true_eq_false, or_self, if_false]
  rfl
end

/-! ### COMMIT_MARKER (R57) -/

section
variable {c : Core} {n e : Nat} {q : BitVec 32} {b : Bool} {a : Action}

/-- A marker that the port does not hold yet: it is held, and the port looks whether it was the last. -/
theorem fxCommitMarker_held (ha : c.rot.actions.find? (fun a => decide (a.seq = q) && (decide (a.step = 6) || decide (a.step = 7))) = some a)
    (hn : n ∈ presentPorts c) (hx : c.homeExt e a.p a.i = a.ent) (hb : (e, b, q) ∉ (c.port n).markers) :
    fxCommitMarker n e q b c = portCollected a n (c.modPort n (fun x => { x with markers := x.markers ++ [(e, b, q)] })) := by
  have hn' : (presentPorts c).contains n = true := List.contains_iff_mem.2 hn
  have hb' : (c.port n).markers.contains (e, b, q) = false := by simpa using hb
  simp [fxCommitMarker, ha, hn', hx, hb', -List.contains_eq_mem]

theorem portCollected_waits {d : Core} (h : allMarkers d n a.seq = false) : portCollected a n d = d :=
  if_pos (.inl (by simp [h]))

theorem portCollected_done {d : Core} (h : tget {} (a.p * 1024 + a.i) (d.port n).ext = a.ent) : portCollected a n d = d :=
  if_pos (.inr h)

theorem portCollected_last {d : Core} (hm : allMarkers d n a.seq = true) (h : tget {} (a.p * 1024 + a.i) (d.port n).ext ≠ a.ent) :
    portCollected a n d =
      (d.modPort n (fun x => { x with ext := tput {} (a.p * 1024 + a.i) a.ent x.ext })).send (.report 9 n 1 a.p) := by
  refine if_neg ?_
  rintro (hm' | h')
  · simp [hm] at hm'
  · exact h h'
end

/-! ### LINING_LINE (R346, R348) -/

section
variable {c : Core} {e p : Nat}

theorem fxLiningLine_next {k : Pass} {r : Nat × Nat} {rs : List (Nat × Nat)} (hw : c.works 6 e = true)
    (hk : (c.home e).passes.find? (fun k => decide (k.what = 0 ∧ k.p = p)) = some k) (hr : k.ranges = r :: rs) :
    fxLiningLine e p c = replacePass e k k.next (lineZero e (r.1 + k.pos) p c) := by
  simp only [fxLiningLine, hw, hk, hr, Bool.not_true, Bool.false_eq_true, if_false]

variable (e p) (l : Nat) (k : Pass) (k' : Option Pass)

theorem liningLine_mem (a : Nat) : rdByte (replacePass e k k' (lineZero e l p c)).mem a =
    if caKey e (l * 128) ≤ a ∧ a < caKey e (l * 128) + 128 then 0 else rdByte c.mem a := rdByte_zeroRange ..

theorem liningLine_lmeta : (replacePass e k k' (lineZero e l p c)).lmeta e l =
    { c.lmeta e l with poison := false, gen := (c.keys p).gen.getLsbD 0 } := tget_tput_same ..

theorem liningLine_passes : ((replacePass e k k' (lineZero e l p c)).home e).passes =
    (c.home e).passes.flatMap (fun x => if x = k then k'.toList else [x]) := by
  simp only [replacePass, lineZero, Core.modHome, Core.setHome_same]
  rfl
end

/-! ### RECALL_WALK_DONE (R87) -/

theorem fxRecallWalkDone_ended {c : Core} {e p : Nat} (hw : c.works 6 e = true) (hp : p ∈ (c.home e).walking) (hr : recalling c e p = false) :
    fxRecallWalkDone e p c = (c.modHome e (fun h => { h with walking := h.walking.erase p })).send (.report 6 e 0 p) := by
  simp [fxRecallWalkDone, hw, hp, hr]

/-! ### Actions put and found (R26) -/

theorem actionOf_p {c : Core} {p : Nat} {a : Action} (h : actionOf c p = some a) : a.p = p := by
  simpa using List.find?_some h

theorem actionOf_putAction {c : Core} {p : Nat} {a a' : Action} (h : actionOf c p = some a) (hp : a'.p = a.p) :
    actionOf (putAction a' c) p = some a' := by
  have hp' : a'.p = p := hp.trans (actionOf_p h)
  unfold actionOf at h
  show (c.rot.actions.map (fun b => if b.p = a'.p then a' else b)).find? (fun a => decide (a.p = p)) = some a'
  generalize c.rot.actions = l at h ⊢
  induction l with
  | nil => simp at h
  | cons b l ih =>
    by_cases hb : b.p = p
    · simp [hb, hp']
    · rw [List.find?_cons_of_neg (by simpa using hb)] at h
      rw [List.map_cons, if_neg (by rwa [hp']), List.find?_cons_of_neg (by simpa using hb)]
      exact ih h

/-! ### FENCE_WALK_DONE (R88, R89): what it runs leaves the list of walks alone -/

theorem rest_walks {c d : Core} (h : c.rest = d.rest) : c.rot.walks = d.rot.walks := by
  have := congrArg (fun c : Core => c.rot.walks) h
  exact this

theorem forEach_rot (l : List Nat) {f : Nat → Core → Core} (h : ∀ i c, (f i c).rot = c.rot) (c : Core) : (forEach l f c).rot = c.rot := by
  unfold forEach
  induction l generalizing c with
  | nil => rfl
  | cons i l ih => exact (ih _).trans (h i c)

theorem startRetire_rot (r : Nat) (c : Core) : (startRetire r c).rot = c.rot := by
  unfold startRetire
  dsimp only
  split
  · exact forEach_rot _ (f := fun e c => c.send (.retire e r _)) (fun _ _ => rfl) _
  · rfl

theorem retirePleats_rot (r : Nat) (c : Core) : (retirePleats r c).rot = c.rot := startRetire_rot r _

theorem closeHostOpens_rot (h : Nat) (c : Core) : (closeHostOpens h c).rot = c.rot :=
  (forEach_rot _ retirePleats_rot _).trans (forEach_rot _ (by intros; rfl) c)

theorem clearHost_walks (h : Nat) (c : Core) : (clearHost h c).rot.walks = c.rot.walks :=
  (congrArg Rot.walks ((forEach_rot _ (by intros; rfl) _).trans (forEach_rot _ (by intros; rfl) _))).trans rfl

theorem mbReply_walks (ch : Option Nat) (st : Nat) (sk : List (BitVec 16)) (c : Core) : (mbReply ch st sk c).rot.walks = c.rot.walks := by
  cases ch with
  | none => rfl
  | some ch =>
    unfold mbReply mbDoneWith
    dsimp only
    split
    · exact (rest_walks (logE_rest ..)).trans rfl
    · split
      · exact (rest_walks (raiseInt_rest ..)).trans rfl
      · rfl

/-- The end of a host's removal. -/
theorem finishAction_removal_walks {a : Action} (h : a.kind = 10) (c : Core) : (finishAction a c).rot.walks = c.rot.walks := by
  unfold finishAction
  simp only [h, Nat.reduceEqDiff, if_false, if_true]
  rw [mbReply_walks, clearHost_walks, closeHostOpens_rot]
  rfl

/-- Recalling the lines of a removed host is the last step of its removal. -/
theorem nextStep_removal {a : Action} (hk : a.kind = 10) (hs : a.step = 20) : nextStep a = none := by
  simp [nextStep, planOf, hk, hs]

theorem advanceAction_removal_walks {c : Core} {p : Nat} {a : Action} (ha : actionOf c p = some a) (hk : a.kind = 10) (hs : a.step = 20) :
    (advanceAction p c).rot.walks = c.rot.walks := by
  unfold advanceAction advanceN
  simp only [ha, nextStep_removal hk hs, hs, Nat.reduceEqDiff, if_false]
  split
  · rfl
  · exact finishAction_removal_walks hk c

/-- After FENCE_WALK_DONE of a host whose fence is applied and whose visits have ended at every home, no walk of the host is listed. -/
theorem fxFenceWalkDone_walks {c : Core} {h : Nat} {w : Nat × List Nat × Nat × Nat} (hw : c.rot.walks.find? (fun w => decide (w.1 = h)) = some w)
    (hf : (liveHomes c).all (fun e => (c.home e).fence.contains h) = true)
    (ho : (stepHomes c).all (fun e => !walkOwed (c.home e) h) = true) :
    (fxFenceWalkDone h c).rot.walks = c.rot.walks.filter (fun k => decide (k.1 ≠ h)) := by
  have hf' : (liveHomes c).any (fun e => !(c.home e).fence.contains h) = false := by
    rw [List.all_eq_not_any_not] at hf
    simpa using hf
  have ho' : (stepHomes c).any (fun e => walkOwed (c.home e) h) = false := by
    rw [List.all_eq_not_any_not] at ho
    simpa using ho
  unfold fxFenceWalkDone
  simp only [hw, hf', ho', Bool.false_eq_true, or_self, if_false]
  generalize hd : logE 0x0306 0 0 _ _ _ = d
  have walks : d.rot.walks = c.rot.walks.filter (fun k => decide (k.1 ≠ h)) := by
    rw [← hd, rest_walks (logE_rest ..), closeHostOpens_rot]
    rfl
  split
  · next a ha =>
    split
    · next due =>
      obtain ⟨hk, -, hs, -⟩ := due
      exact (advanceAction_removal_walks (actionOf_putAction (a' := { a with await := [] }) ha rfl) hk hs).trans walks
    · exact walks
  · exact walks

/-! ### STEP_COMPLETE_REPORT (R25, R27) -/

/-- With a manager still awaited the action stays where it is. -/
theorem advanceAction_awaits {c : Core} {p : Nat} {a : Action} (ha : actionOf c p = some a) (hw : a.await ≠ []) : advanceAction p c = c := by
  simp [advanceAction, advanceN, ha, hw]

/-- The report of a step without an effect of its own. -/
theorem stepEffect_none {a : Action} {m : Nat} (hs : a.step = 1 ∨ a.step = 11 ∨ a.step = 12) (c : Core) : stepEffect a m c = c := by
  rcases hs with hs | hs | hs <;> simp [stepEffect, hs]

/-- The action without manager `m`, whose report named the units it skipped. -/
def Action.reported (a : Action) (c : Core) (m : Nat) : Action :=
  { a with await := a.await.erase m, skipped := (a.skipped ++ skippedUnits c a m).eraseDups }

/-- The report is taken: the step's message leaves the ring, and the action waits for one manager less. -/
def reportTaken (p m : Nat) (a : Action) (c : Core) : Core :=
  c.modRot (fun r => { r with ring := r.ring.filter (fun k => !decide (k = .step p m a.step)), actions := [a.reported c m] })

section
variable {c : Core} {p m : Nat} {a : Action}

theorem fxStepReport_taken (ha : actionOf c p = some a) (only : c.rot.actions = [a]) (hm : m ∈ a.await) (hw : a.await.erase m ≠ [])
    (hu : mgrUp c m = true) (hr : c.glb.restarting = false) (hv : stepArrived c m = true) (hd : stepDone c a m = true) (hf : frozenChip c = false)
    (hs : a.step = 1 ∨ a.step = 11 ∨ a.step = 12) :
    fxStepReport p m c = reportTaken p m a c := by
  have hm' : a.await.contains m = true := List.contains_iff_mem.2 hm
  have put : putAction (a.reported c m) (ringDrop (fun x => decide (x = .step p m a.step)) c) = reportTaken p m a c := by
    simp [putAction, ringDrop, reportTaken, Core.modRot, only, Action.reported]
  have found : actionOf (reportTaken p m a c) p = some (a.reported c m) := by
    rw [← put]
    exact actionOf_putAction (a := a) ha rfl
  calc fxStepReport p m c = advanceAction p (reportTaken p m a c) := by
        simp only [fxStepReport, ha, hm', hu, hr, hv, hd, hf, stepEffect_none hs, Bool.not_true, Bool.false_eq_true, or_self, if_false]
        rw [← put]
        rfl
    _ = reportTaken p m a c := advanceAction_awaits found hw

/-- No image waits for its last step. -/
theorem reconfigTails_reportTaken (hs : a.step < 22) : reconfigTails (reportTaken p m a c) = reportTaken p m a c := by
  have hs' : (a.reported c m).step ≠ 22 := Nat.ne_of_lt hs
  simp [reconfigTails, reportTaken, Core.modRot, hs']
end

/-! ### The statement on steps and reports -/

/-- Settles O32: each command by its own rule above. -/
theorem actionStepsAndReports : Obligations.ActionStepsAndReports := by
  unfold Obligations.ActionStepsAndReports
  intro s hok
  refine ⟨?install, ?marker, ?lining, ?walked, ?fence, ?report⟩
  case install =>
    intro e p a ha he hs hx hm
    have run : exec (.extentEntryInstall e p a.i) s = _ := actCore_of_ok hok _
    rw [fxEntryInstall_due ha he hs hx hm] at run
    rcases hs with hs | hs
    · rw [if_pos hs] at run
      exact ⟨_, run, s.keeps_withCore _, setHomeExt_homeExt .., fun _ => setHomeExt_out .., fun h => absurd (hs.symm.trans h) (by decide)⟩
    · have h4 : a.step ≠ 4 := by rw [hs]; decide
      rw [if_neg h4] at run
      exact ⟨_, run, s.keeps_withCore _, installed_homeExt, fun h => absurd h h4, fun _ => ⟨installed_mode, fun n hn b => installed_out hn b⟩⟩
  case marker =>
    intro n e q b a ha hn hx hb
    obtain ⟨rfl, -⟩ : a.seq = q ∧ (a.step = 6 ∨ a.step = 7) := by simpa using List.find?_some ha
    have run : exec (.commitMarker n e a.seq b) s = _ := actCore_of_ok hok _
    rw [fxCommitMarker_held ha hn hx hb] at run
    refine ⟨fun hw => ?waits, fun _ hd => ?done, fun hm hd => ?last⟩
    case waits => rwa [portCollected_waits hw] at run
    case done => rwa [portCollected_done (by simpa [Core.modPort] using hd)] at run
    case last =>
      rw [portCollected_last hm (by simpa [Core.modPort] using hd)] at run
      exact ⟨_, run, s.keeps_withCore _, by simp [Core.modPort], by simp [Core.modPort]⟩
  case lining =>
    intro e p k r rs hw hk hr
    have run : exec (.liningLine e p) s = _ := actCore_of_ok hok _
    rw [fxLiningLine_next hw hk hr] at run
    have lined := liningLine_lmeta (c := s.dev.core) e p (r.1 + k.pos) k k.next
    exact ⟨_, run, s.keeps_withCore _, liningLine_mem e p _ k k.next, congrArg LineMeta.poison lined, congrArg LineMeta.gen lined,
      liningLine_passes e p _ k k.next⟩
  case walked =>
    intro e p hw hp hr
    calc exec (.recallWalkDone e p) s = _ := actCore_of_ok hok _
      _ = _ := by rw [fxRecallWalkDone_ended hw hp hr]
  case fence =>
    intro h w hw hf ho
    refine ⟨_, actCore_of_ok hok _, s.keeps_withCore _, fun k hk => ?_⟩
    have walks := fxFenceWalkDone_walks hw hf ho
    simp only [State.withCore_core, walks, List.mem_filter] at hk
    exact of_decide_eq_true hk.2
  case report =>
    intro p m a ha only h22 hm hw hu hr hv hd hf hs
    have run : exec (.stepCompleteReport p m) s = _ := actCore_of_ok hok (fun c => reconfigTails (fxStepReport p m c))
    rw [fxStepReport_taken ha only hm hw hu hr hv hd hf hs, reconfigTails_reportTaken h22] at run
    exact run

end Sys2Proof.Machine
end

section
/-! SUPPORT. A mailbox request taken by the RoT, its answer, and the start of a partition-wide action. -/

namespace Sys2Proof.Machine
open Sys2Proof

/-! ### Taking a request and answering it (R464, R467, R526) -/

@[simp] theorem Core.setMb_setMb (c : Core) (ch : Nat) (x y : Mbx) : (c.setMb ch x).setMb ch y = c.setMb ch y := by simp [Core.setMb]

/-- The core once the RoT has taken the request of channel `ch`: FULL is clear, STATE = running. -/
def Core.running (c : Core) (ch : Nat) : Core := c.setMb ch { c.mb ch with st := .running, full := false }

section
variable (c : Core) (ch : Nat)

@[simp] theorem running_mb : (c.running ch).mb ch = { c.mb ch with st := .running, full := false } := c.setMb_same ch _
@[simp] theorem running_setMb (x : Mbx) : (c.running ch).setMb ch x = c.setMb ch x := c.setMb_setMb ch _ x
@[simp] theorem running_rot : (c.running ch).rot = c.rot := rfl
@[simp] theorem running_glb : (c.running ch).glb = c.glb := rfl
@[simp] theorem running_hosts : (c.running ch).hosts = c.hosts := rfl
@[simp] theorem running_get_ptn (p : Nat) : (c.running ch).ptn p = c.ptn p := rfl
@[simp] theorem running_get_host (h : Nat) : (c.running ch).host h = c.host h := rfl
@[simp] theorem running_get_port (n : Nat) : (c.running ch).port n = c.port n := rfl
@[simp] theorem running_get_region (r : Nat) : (c.running ch).region r = c.region r := rfl
@[simp] theorem running_masterExt (p i : Nat) : (c.running ch).masterExt p i = c.masterExt p i := rfl
@[simp] theorem running_regionOwner (r : Nat) : (c.running ch).regionOwner r = c.regionOwner r := rfl
@[simp] theorem running_presentPorts : presentPorts (c.running ch) = presentPorts c := rfl
@[simp] theorem running_mappedCount (p : Nat) : mappedCount (c.running ch) p = mappedCount c p := rfl
@[simp] theorem running_lowestFree (pl : Nat) : lowestFree (c.running ch) pl = lowestFree c pl := rfl
@[simp] theorem running_actionOf (p : Nat) : actionOf (c.running ch) p = actionOf c p := rfl
@[simp] theorem running_ptnBusy (p : Nat) : ptnBusy (c.running ch) p = ptnBusy c p := rfl
@[simp] theorem running_ptnHeld (p : Nat) : ptnHeld (c.running ch) p = ptnHeld c p := rfl
@[simp] theorem running_ownsGroup (p g : Nat) : ownsGroup (c.running ch) p g = ownsGroup c p g := rfl
@[simp] theorem running_groupsOf (p : Nat) : groupsOf (c.running ch) p = groupsOf c p := rfl
@[simp] theorem running_grantExpired (p i g : Nat) : grantExpired (c.running ch) p i g = grantExpired c p i g := rfl
@[simp] theorem running_reqPtn : reqPtn (c.running ch) ch = reqPtn c ch := by simp [reqPtn]
@[simp] theorem running_reqData (i : Nat) : reqData (c.running ch) ch i = reqData c ch i := by simp [reqData]
end

section
variable {s : State} {c : Core} {ch code chans : Nat}

theorem taken_rotUp (h : taken c ch code chans = true) : rotUp c = true := by
  simp only [taken, Bool.and_eq_true] at h
  tauto

theorem taken_not_detached (h : taken c ch code chans = true) : c.rot.detached.find? (fun d => decide (d.1 + 16 = ch)) = none := by
  simp only [taken, Bool.and_eq_true, List.all_eq_true] at h
  obtain ⟨⟨⟨⟨⟨⟨-, hd⟩, -⟩, -⟩, -⟩, -⟩, -⟩ := h
  exact List.find?_eq_none.2 (by simpa using hd)

/-- A request that meets no obstacle is handed to its own rules. -/
theorem takeRequest_taken (h : taken c ch code chans = true) (body : Core → Core) :
    takeRequest ch code chans body c = body (c.running ch) := by
  have hd := taken_not_detached h
  simp only [taken, Bool.and_eq_true, decide_eq_true_eq, Bool.or_eq_true] at h
  obtain ⟨⟨⟨⟨⟨⟨⟨hup, hch⟩, -⟩, hst⟩, hcode⟩, hok⟩, hready⟩, hptn⟩ := h
  have hptn' : (needsPtn code && !(c.ptn (reqPtn c ch)).en) = false := by
    cases hn : needsPtn code <;> simp_all
  have hready' : ¬(c.glb.ready ≠ .ready ∧ (!decide (code ∈ [0x070, 0x062, 0x043, 0x044])) = true) := by
    rcases hready with h | h <;> simp [h]
  have run : runRequest ch code chans body (c.running ch) = body (c.running ch) := by
    simp only [runRequest, hok, running_glb, running_get_ptn, running_reqPtn, hready', hptn', Bool.not_true, Bool.false_eq_true, if_false]
  simp only [takeRequest, hup, Nat.not_le.2 hch, hd, hst, hcode, Bool.not_true, Bool.false_eq_true, or_self, if_false, ne_eq, not_true_eq_false]
  exact run

theorem raiseInt_sets {v : Nat} (hv : v < 64) (c : Core) : (raiseInt v c).glb.intStatus.getLsbD v = true := by
  have set (w : BitVec 64) : (w ||| 1#64 <<< v).getLsbD v = true := by simp [hv]
  unfold raiseInt
  dsimp only
  split
  · assumption
  · split
    · exact set _
    · split <;> exact set _

/-- The answer without data words to the request of a channel that no reset has detached. -/
theorem mbDone_running (hd : c.rot.detached.find? (fun d => decide (d.1 + 16 = ch)) = none) (st : Nat) :
    mbDone ch st (c.running ch) =
      if ch < 16 then raiseInt ch (c.setMb ch (mbAnswer (c.mb ch) st)) else c.setMb ch (mbAnswer (c.mb ch) st) := by
  simp [mbDone, mbDoneWith, hd, mbAnswer]

/-- A request whose meaning comes down to an answer is answered. -/
theorem answered_of_mbDone (hok : s.ok = true) (h : taken s.dev.core ch code chans = true) {body : Core → Core} {st : Nat}
    (hb : body (s.dev.core.running ch) = mbDone ch st (s.dev.core.running ch)) :
    answered s ch st s.dev.core (actCore s (takeRequest ch code chans body)) := by
  rw [actCore_of_ok hok, takeRequest_taken h, hb, mbDone_running (taken_not_detached h)]
  refine ⟨_, rfl, s.keeps_withCore _, ?_, fun hc => ?_⟩
  · rw [State.withCore_core]
    split
    · exact raiseInt_rest ..
    · rfl
  · rw [State.withCore_core, if_pos hc]
    exact raiseInt_sets (by omega) _

end

/-! ### Free partitions -/

theorem actionOf_of_ptnBusy {c : Core} {p : Nat} (h : ptnBusy c p = false) : actionOf c p = none := by
  simp only [ptnBusy, Bool.or_eq_false_iff] at h
  simpa using h.1

end Sys2Proof.Machine
end

section
/-! SUPPORT. How a partition-wide action starts: its first step, the managers it awaits, and the entry it works on. -/

namespace Sys2Proof.Machine
open Sys2Proof

theorem forEach_keeps {α : Type} (g : Core → α) (l : List Nat) {f : Nat → Core → Core} (h : ∀ i c, g (f i c) = g c) (c : Core) :
    g (forEach l f c) = g c := by
  unfold forEach
  induction l generalizing c with
  | nil => rfl
  | cons i l ih => exact (ih _).trans (h i c)

/-! ### The master entry (R49) -/

section
variable (p i : Nat) (x : Ext) (c : Core)

theorem setMaster_rot : (setMaster p i x c).rot = c.rot := (forEach_rot _ (by intros; rfl) _).trans rfl

theorem setMaster_evc : (setMaster p i x c).evc = c.evc := (forEach_keeps Core.evc _ (by intros; rfl) _).trans rfl

theorem setMaster_glb : (setMaster p i x c).glb = c.glb := (forEach_keeps Core.glb _ (by intros; rfl) _).trans rfl

@[simp] theorem setMaster_masterExt : (setMaster p i x c).masterExt p i = x := by
  have h : (setMaster p i x c).ptns = (c.modPtn p (fun q => { q with ext := tput {} i x q.ext })).ptns :=
    forEach_keeps Core.ptns _ (by intros; rfl) _
  simp [Core.masterExt, Core.ptn, h, Core.modPtn, Core.setPtn]
end

/-! ### The first step (R25, R26) -/

/-- An action that enters step `t`: it awaits the managers that the step names. -/
def Action.atStep (a : Action) (c : Core) (t : Nat) : Action := { a with step := t, await := managersOf c a t }

/-- The action put in its place, and the messages of its step to the managers it awaits. -/
def announce (a : Action) (c : Core) : Core := forEach a.await (fun m => ringPut (.step a.p m a.step)) (putAction a c)

section
variable {c : Core} {p : Nat} {a : Action}

theorem actionOf_of_rot {d : Core} (h : d.rot = c.rot) (p : Nat) : actionOf d p = actionOf c p := by simp [actionOf, h]

theorem ptnBusy_of_rot {d : Core} (h : d.rot = c.rot) (p : Nat) : ptnBusy d p = ptnBusy c p := by simp [ptnBusy, actionOf_of_rot h, h]

theorem announce_keeps {α : Type} (g : Core → α) (h : ∀ f d, g (Core.modRot d f) = g d) : g (announce a c) = g c :=
  (forEach_keeps g _ (fun _ d => h _ d) _).trans (h _ c)

theorem announce_taken : (announce a c).rot.taken = c.rot.taken := (forEach_keeps (fun d => d.rot.taken) _ (by intros; rfl) _).trans rfl

theorem announce_queued : (announce a c).rot.queued = c.rot.queued := (forEach_keeps (fun d => d.rot.queued) _ (by intros; rfl) _).trans rfl

theorem actionOf_announce {a' : Action} (h : actionOf c p = some a) (hp : a'.p = a.p) : actionOf (announce a' c) p = some a' :=
  (forEach_keeps (fun d => actionOf d p) _ (by intros; rfl) _).trans (actionOf_putAction h hp)

theorem advanceN_awaits (h : actionOf c p = some a) (hw : a.await ≠ []) (n : Nat) : advanceN p n c = c := by
  cases n with
  | zero => rfl
  | succ n => simp [advanceN, h, hw]

/-- With nothing awaited, an action goes on to its next step. -/
theorem advanceN_next {n t : Nat} (h : actionOf c p = some a) (hw : a.await = []) (hr : c.glb.restarting = false) (h22 : a.step ≠ 22)
    (h15 : a.step ≠ 15) (hn : nextStep a = some t) :
    advanceN p (n + 1) c = advanceN p n (enterStep (a.atStep c t) (announce (a.atStep c t) c)) := by
  have hp := actionOf_p h
  subst hp
  simp only [advanceN, h, hw, hr, h22, h15, hn, ne_eq, not_true_eq_false, Bool.false_eq_true, or_self, if_false]
  rfl

/-- The core in which action `a` has been entered, before its first step. -/
def listed (a : Action) (c : Core) : Core := c.modRot (fun r => { r with actions := r.actions ++ [a] })

theorem actionOf_listed (h : actionOf c a.p = none) : actionOf (listed a c) a.p = some a := by
  have h' : c.rot.actions.find? (fun b => decide (b.p = a.p)) = none := h
  simp [actionOf, listed, Core.modRot, List.find?_append, h']

/-- An action starts on a free partition with its first step, and waits there for the managers of that step. -/
theorem startAction_first {t : Nat} (h : actionOf c a.p = none) (hr : c.glb.restarting = false) (h0 : a.step = 0) (hw : a.await = [])
    (hn : nextStep a = some t) (hm : managersOf c a t ≠ [])
    (he : (enterStep (a.atStep c t) (announce (a.atStep c t) (listed a c))).rot = (announce (a.atStep c t) (listed a c)).rot) :
    startAction a c = enterStep (a.atStep c t) (announce (a.atStep c t) (listed a c)) := by
  have found : actionOf (announce (a.atStep c t) (listed a c)) a.p = some (a.atStep c t) := actionOf_announce (actionOf_listed h) rfl
  calc startAction a c
      _ = advanceN a.p 15 (enterStep (a.atStep c t) (announce (a.atStep c t) (listed a c))) :=
        advanceN_next (actionOf_listed h) hw hr (by omega) (by omega) hn
      _ = _ := advanceN_awaits ((actionOf_of_rot he _).trans found) hm _
end

/-! ### What entering a step does, where it touches the tables -/

theorem enterStep_mapPass {a : Action} (h : a.step = 3) (c : Core) : enterStep a c = startPasses a.p [a.ent.ppa] c := by simp [enterStep, h]

theorem enterStep_install {a : Action} (h : a.step = 4) (c : Core) : enterStep a c = setMaster a.p a.i a.ent c := by simp [enterStep, h]

/-- Steps that only wait: installs with markers, and window copies to be cleared. -/
theorem enterStep_waits {a : Action} (h : a.step = 6 ∨ a.step = 21) (c : Core) : enterStep a c = c := by
  rcases h with h | h <;> simp [enterStep, h]

theorem startPasses_rot (p : Nat) (ppas : List Nat) (c : Core) : (startPasses p ppas c).rot = c.rot := by
  refine forEach_rot _ (fun e c => ?_) c
  dsimp only
  split <;> rfl

/-! ### Installs and revocations (R50, R58) -/

theorem managersOf_memory (c : Core) (a : Action) {t : Nat} (h : t = 3 ∨ t = 4 ∨ t = 6 ∨ t = 20) : managersOf c a t = [5] := by
  rcases h with h | h | h | h <;> simp [managersOf, h]

/-- The action of a map. -/
def mapping (ch : Option Nat) (p i : Nat) (ent : Ext) : Action := { noAction with kind := 4, p := p, ch := ch, i := i, ent := ent }

/-- The action of a grant. -/
def granting (ch : Option Nat) (p i : Nat) (ent : Ext) : Action := { noAction with kind := 5, p := p, ch := ch, i := i, ent := ent }

section
variable {c : Core} {p : Nat} (hfree : actionOf c p = none) (hr : c.glb.restarting = false)
include hfree hr

/-- The start of a grant: the master entry is written, and the memory manager is awaited. -/
theorem startAction_grant (ch : Option Nat) (i : Nat) (ent : Ext) :
    let a := granting ch p i ent
    (startAction a c).masterExt p i = ent ∧ actionOf (startAction a c) p = some (a.atStep c 4) := by
  intro a
  have hm : managersOf c a 4 = [5] := managersOf_memory c a (by simp)
  have enter := enterStep_install (a := a.atStep c 4) rfl (announce (a.atStep c 4) (listed a c))
  have start := startAction_first (a := a) (t := 4) hfree hr rfl rfl rfl (by simp [hm]) (by rw [enter]; exact setMaster_rot ..)
  rw [start, enter]
  exact ⟨setMaster_masterExt .., (actionOf_of_rot (setMaster_rot ..) _).trans (actionOf_announce (actionOf_listed hfree) rfl)⟩

/-- The start of a map: the map pass begins at the homes, and the memory manager is awaited. -/
theorem startAction_map (ch : Option Nat) (i : Nat) (ent : Ext) :
    let a := mapping ch p i ent
    (startAction a c).rot.taken = c.rot.taken ∧ actionOf (startAction a c) p = some (a.atStep c 3) := by
  intro a
  have hm : managersOf c a 3 = [5] := managersOf_memory c a (by simp)
  have enter := enterStep_mapPass (a := a.atStep c 3) rfl (announce (a.atStep c 3) (listed a c))
  have start := startAction_first (a := a) (t := 3) hfree hr rfl rfl rfl (by simp [hm]) (by rw [enter]; exact startPasses_rot ..)
  rw [start, enter]
  exact ⟨(congrArg Rot.taken (startPasses_rot ..)).trans announce_taken,
    (actionOf_of_rot (startPasses_rot ..) _).trans (actionOf_announce (actionOf_listed hfree) rfl)⟩
end

/-- The action of a revocation. -/
def revocation (ch : Option Nat) (p i : Nat) (ent : Ext) (gs : List Nat) (forced lower unmap : Bool) (c : Core) : Action :=
  { noAction with kind := if unmap then 7 else 6, p := p, ch := ch, i := i, ent := { ent with life := 1 }, groups := gs, forced := forced,
                  lower := lower, unmap := unmap, seq := nextSeq c.rot.lastSeq }

/-- The core of a revocation before its action starts: the entry is revoking, under the next sequence number. -/
def revoking (p i : Nat) (ent : Ext) (c : Core) : Core :=
  setMaster p i { ent with life := 1 } (c.modRot (fun r => { r with lastSeq := nextSeq c.rot.lastSeq }))

section
variable {c : Core} {p : Nat} (hfree : actionOf c p = none) (hr : c.glb.restarting = false) (ch : Option Nat) (i : Nat) (ent : Ext) (gs : List Nat)
  (forced lower : Bool)

theorem revoking_masterExt : (revoking p i ent c).masterExt p i = { ent with life := 1 } := setMaster_masterExt ..

theorem revoking_queued : (revoking p i ent c).rot.queued = c.rot.queued := (congrArg Rot.queued (setMaster_rot ..)).trans rfl

include hfree in
theorem revoking_free : actionOf (revoking p i ent c) p = none := (actionOf_of_rot (setMaster_rot ..) p).trans hfree

include hr in
theorem revoking_restarting : (revoking p i ent c).glb.restarting = false := (congrArg Glb.restarting (setMaster_glb ..)).trans hr

theorem announce_masterExt (a : Action) (c : Core) (p i : Nat) : (announce a c).masterExt p i = c.masterExt p i :=
  announce_keeps (fun d => d.masterExt p i) (by intros; rfl)

include hfree hr

/-- A revocation starts with the install of its entry at the homes. -/
theorem startRevoke_first :
    let a := revocation ch p i ent gs forced lower false c
    let d := startRevoke ch p i ent gs forced lower false c
    d.masterExt p i = { ent with life := 1 } ∧ d.rot.queued = c.rot.queued ∧ actionOf d p = some (a.atStep (revoking p i ent c) 6) := by
  intro a d
  have free : actionOf (revoking p i ent c) a.p = none := revoking_free hfree i ent
  have hm : managersOf (revoking p i ent c) a 6 = [5] := managersOf_memory _ a (by simp)
  have start : d = announce (a.atStep (revoking p i ent c) 6) (listed a (revoking p i ent c)) := by
    have enter := enterStep_waits (a := a.atStep (revoking p i ent c) 6) (.inl rfl)
    have start := startAction_first (a := a) (t := 6) free (revoking_restarting hr i ent) rfl rfl rfl (by simp [hm]) (by rw [enter])
    rwa [enter] at start
  rw [start]
  exact ⟨(announce_masterExt ..).trans (revoking_masterExt ..), announce_queued.trans (revoking_queued ..), actionOf_announce (actionOf_listed free) rfl⟩

/-- An unmap starts with the window copies of the partition's tiles; with no tile it goes on to the install at the homes at once. -/
theorem startRevoke_unmap :
    let d := startRevoke ch p i ent gs forced lower true c
    d.masterExt p i = { ent with life := 1 } ∧
      ∃ a, actionOf d p = some a ∧ a.kind = 7 ∧ a.ch = ch ∧ a.unmap = true ∧ a.groups = gs ∧ a.await ≠ [] := by
  intro d
  let e := revoking p i ent c
  let a := revocation ch p i ent gs forced lower true c
  have free : actionOf e a.p = none := revoking_free hfree i ent
  have restarting : e.glb.restarting = false := revoking_restarting hr i ent
  have waits (t : Nat) (h : t = 6 ∨ t = 21) (b : Action) (hb : b.step = t) (c : Core) : enterStep b c = c := enterStep_waits (by omega) c
  by_cases hm : managersOf e a 21 = []
  · let a1 := a.atStep e 21
    let e1 := announce a1 (listed a e)
    let a2 := a1.atStep e1 6
    have found : actionOf e1 p = some a1 := actionOf_announce (actionOf_listed free) rfl
    have restarting1 : e1.glb.restarting = false := (announce_keeps (fun d => d.glb.restarting) (by intros; rfl)).trans restarting
    have hw : a2.await ≠ [] := by
      change managersOf e1 a1 6 ≠ []
      simp [managersOf_memory]
    have found2 : actionOf (announce a2 e1) p = some a2 := actionOf_announce found rfl
    have start : d = announce a2 e1 := by
      calc d = advanceN p 15 (enterStep a1 e1) := advanceN_next (actionOf_listed free) rfl restarting (show 0 ≠ 22 by decide) (show 0 ≠ 15 by decide) rfl
        _ = advanceN p 15 e1 := by rw [waits 21 (.inr rfl) a1 rfl]
        _ = advanceN p 14 (enterStep a2 (announce a2 e1)) := advanceN_next found hm restarting1 (show 21 ≠ 22 by decide) (show 21 ≠ 15 by decide) rfl
        _ = advanceN p 14 (announce a2 e1) := by rw [waits 6 (.inl rfl) a2 rfl]
        _ = announce a2 e1 := advanceN_awaits found2 hw _
    rw [start]
    refine ⟨?_, a2, found2, rfl, rfl, rfl, rfl, hw⟩
    exact (announce_masterExt ..).trans ((announce_masterExt ..).trans (revoking_masterExt ..))
  · have enter := enterStep_waits (a := a.atStep e 21) (.inr rfl)
    have start := startAction_first (a := a) (t := 21) free restarting rfl rfl rfl hm (by rw [enter])
    rw [enter] at start
    have start' : d = announce (a.atStep e 21) (listed a e) := start
    rw [start']
    exact ⟨(announce_masterExt ..).trans (revoking_masterExt ..), a.atStep e 21, actionOf_announce (actionOf_listed free) rfl, rfl, rfl, rfl, rfl, hm⟩
end

end Sys2Proof.Machine
end

section
/-! SUPPORT. The mailbox requests on extents (R50–R53, R58, R60, R573, R574). -/

namespace Sys2Proof.Machine
open Sys2Proof

/-! ### An action that a request has started -/

theorem rotUp_restarting {c : Core} (h : rotUp c = true) : c.glb.restarting = false := by
  simp only [rotUp, Bool.and_eq_true] at h
  simpa using h.1.2

theorem answered_of_core {s : State} (hok : s.ok = true) {ch code chans st : Nat} (h : taken s.dev.core ch code chans = true) {f : Core → Core}
    (hf : f s.dev.core = mbDone ch st (s.dev.core.running ch)) : answered s ch st s.dev.core (actCore s f) := by
  have := answered_of_mbDone hok h (body := mbDone ch st) rfl
  rwa [actCore_of_ok hok, takeRequest_taken h, ← hf, ← actCore_of_ok hok] at this

/-! ### What each request comes to, once taken with legal fields on a partition on which no action runs (R61) -/

/-- A PPA extent taken for a map. -/
def withTaken (ppa : Nat) (c : Core) : Core := c.modRot (fun k => { k with taken := k.taken ++ [ppa] })

section
variable {c : Core} {ch : Nat} (hb : ptnBusy c (reqPtn c ch) = false) (hi : field (reqData c ch 0) 9 0 ≤ 895)
include hb hi

theorem fxExtMap_legal (h : taken c ch 0x001 7 = true) (h0 : reservedClear (reqData c ch 0) 0x007303FF = true)
    (h1 : reservedClear (reqData c ch 1) 0x3FF = true) (hp : field (reqData c ch 0) 22 20 ≤ 4) :
    let p := reqPtn c ch
    let i := field (reqData c ch 0) 9 0
    let typ := field (reqData c ch 0) 17 16
    let r := field (reqData c ch 1) 9 0
    fxExtMap ch c =
      if (c.masterExt p i).valid then mbDone ch stExtentMapped (c.running ch)
      else if (c.ptn p).mirrored ∧ (typ = 0 ∨ typ = 3) then mbDone ch stTypeRefused (c.running ch)
      else if typ = 1 ∧ c.regionOwner r ≠ some p then mbDone ch stTypeRefused (c.running ch)
      else if (c.ptn p).quota ≤ mappedCount c p then mbDone ch stQuotaExceeded (c.running ch)
      else match lowestFree c (field (reqData c ch 0) 22 20) with
        | none => mbDone ch stNoFreeExtent (c.running ch)
        | some ppa => startAction (mapping (some ch) p i { valid := true, typ := BitVec.ofNat 2 typ, ppa := ppa, region := if typ = 1 then r else 0 })
            (withTaken ppa (c.running ch)) := by
  simp only [fxExtMap, takeRequest_taken h, running_reqPtn, running_reqData, running_get_ptn, running_masterExt, running_regionOwner,
    running_mappedCount, running_lowestFree, running_ptnBusy, unlessBusy, hb, h0, h1, Nat.not_lt.2 hi, Nat.not_lt.2 hp, Bool.not_true,
    Bool.false_eq_true, or_self, if_false]
  rfl

theorem fxExtGrant_legal (h : taken c ch 0x002 7 = true) (h0 : reservedClear (reqData c ch 0) 0x3FF = true)
    (h1 : reservedClear (reqData c ch 1) 0x000301FF = true) (h2 : reservedClear (reqData c ch 2) 0x00FFFFFF = true) :
    let p := reqPtn c ch
    let i := field (reqData c ch 0) 9 0
    let g := field (reqData c ch 1) 8 0
    let acc := BitVec.ofNat 2 (field (reqData c ch 1) 17 16)
    let e := field (reqData c ch 2) 23 0
    let x := c.masterExt p i
    let start (ent : Ext) : Core := startAction (granting (some ch) p i ent) (c.running ch)
    g ≤ 256 → acc = 1 ∧ g ≠ 256 ∨ acc = 2 → grantExpired c p i g = false → x.valid = true → x.typ ≠ 3 →
    fxExtGrant ch c =
      if g ≠ 256 ∧ !ownsGroup c p g then mbDone ch stGroupNotOwned (c.running ch)
      else if g = 256 then start (allExpiry { x with allGrp := true, slots := noSlots } e)
      else if x.allGrp then mbDone ch stOk (c.running ch)
      else match x.slots.findIdx? (fun s => decide (s.1 = g ∧ s.2 ≠ 0)) with
        | some j =>
          if (x.slots.getD j (0, 0)).2 = 2 ∧ acc = 1 then startRevoke (some ch) p i (grantSlot x j g 1 e) [g] false true false (c.running ch)
          else start (grantSlot x j g acc e)
        | none => match x.slots.findIdx? (fun s => decide (s.2 = 0)) with
          | some j => start (grantSlot x j g acc e)
          | none => mbDone ch stSlotsFull (c.running ch) := by
  intro p i g acc e x start hg hacc hx hv ht
  have hacc' : ¬(256 < g ∨ acc = 0 ∨ acc = 3 ∨ g = 256 ∧ acc = 1) := by
    have hg' := Nat.not_lt.2 hg
    rcases hacc with ⟨ha, hg⟩ | ha <;> simp [ha, hg, hg']
  simp only [fxExtGrant, takeRequest_taken h, running_reqPtn, running_reqData, running_masterExt, running_ownsGroup, running_grantExpired,
    running_ptnBusy, unlessBusy, hb, h0, h1, h2, Nat.not_lt.2 hi, Bool.not_true, Bool.false_eq_true, false_or, if_false]
  have expired : ¬grantExpired c p i g = true := by simp [hx]
  have valid : ¬(!x.valid) = true := by simp [hv]
  rw [if_neg hacc', if_neg expired, if_neg valid, if_neg ht]
  rfl

theorem fxExtRevoke_legal (h : taken c ch 0x003 7 = true) (h0 : reservedClear (reqData c ch 0) 0x3FF = true)
    (h1 : reservedClear (reqData c ch 1) 0x000101FF = true) (hg : field (reqData c ch 1) 8 0 ≤ 256)
    (hv : (c.masterExt (reqPtn c ch) (field (reqData c ch 0) 9 0)).valid = true) :
    let p := reqPtn c ch
    let i := field (reqData c ch 0) 9 0
    let g := field (reqData c ch 1) 8 0
    let x := c.masterExt p i
    let revoke (ent : Ext) (gs : List Nat) : Core := startRevoke (some ch) p i ent gs ((reqData c ch 1).getLsbD 16) false false (c.running ch)
    let others := (groupsOf c p).filter (fun k => decide (k ≠ g))
    fxExtRevoke ch c =
      if g ≠ 256 ∧ !ownsGroup c p g then mbDone ch stGroupNotOwned (c.running ch)
      else if g = 256 then if hasGrant x then revoke (dropAll x) (groupsOf c p) else mbDone ch stOk (c.running ch)
      else if x.allGrp then
        if others = [] then revoke (dropAll x) [g]
        else if 4 < others.length then mbDone ch stSlotsFull (c.running ch)
        else revoke (splitAll x others) [g]
      else if x.slots.any (fun s => decide (s.1 = g ∧ s.2 ≠ 0)) then revoke (dropSlots x [g]) [g]
      else mbDone ch stOk (c.running ch) := by
  simp only [fxExtRevoke, takeRequest_taken h, running_reqPtn, running_reqData, running_masterExt, running_ownsGroup, running_groupsOf,
    running_ptnBusy, unlessBusy, hb, h0, h1, hv, Nat.not_lt.2 hi, Nat.not_lt.2 hg, Bool.not_true, Bool.false_eq_true, or_self, if_false]

theorem fxExtUnmap_legal (h : taken c ch 0x004 7 = true) (h0 : reservedClear (reqData c ch 0) 0x3FF = true)
    (h1 : reservedClear (reqData c ch 1) 0x00010000 = true) :
    let p := reqPtn c ch
    let i := field (reqData c ch 0) 9 0
    let x := c.masterExt p i
    let r := c.region x.region
    fxExtUnmap ch c =
      if !x.valid then mbDone ch stExtentUnmapped (c.running ch)
      else if x.typ = 1 ∧ r.created ∧ r.p = p ∧ r.base ≤ i ∧ i < r.base + r.v + r.q then mbDone ch stRegionInUse (c.running ch)
      else startRevoke (some ch) p i (dropAll x) (groupsOf c p) ((reqData c ch 1).getLsbD 16) false true (c.running ch) := by
  simp only [fxExtUnmap, takeRequest_taken h, running_reqPtn, running_reqData, running_masterExt, running_get_region, running_groupsOf,
    running_ptnBusy, unlessBusy, hb, h0, h1, Nat.not_lt.2 hi, Bool.not_true, Bool.false_eq_true, or_self, if_false]
end

/-! ### The statement on extent requests -/

section
variable {s : State} (hok : s.ok = true) {c : Core} {p : Nat} (free : actionOf c p = none) (hr : c.glb.restarting = false) {f : Core → Core}
include hok free hr

theorem started_map {ch : Option Nat} {i : Nat} {ent : Ext} (run : f s.dev.core = startAction (mapping ch p i ent) c) :
    ∃ u, actCore s f = .next u ∧ s.keeps u ∧ u.dev.core.rot.taken = c.rot.taken ∧
      acting u p 4 ch 3 (fun a => a.await = [5] ∧ a.i = i ∧ a.ent = ent) := by
  obtain ⟨taken, found⟩ := startAction_map free hr ch i ent
  rw [← run] at taken found
  exact ⟨_, actCore_of_ok hok f, s.keeps_withCore _, taken, _, found, rfl, rfl, rfl, managersOf_memory c (mapping ch p i ent) (.inl rfl), rfl, rfl⟩

theorem started_grant {ch : Option Nat} {i : Nat} {ent : Ext} (run : f s.dev.core = startAction (granting ch p i ent) c) :
    ∃ u, actCore s f = .next u ∧ s.keeps u ∧ u.dev.core.masterExt p i = ent ∧ acting u p 5 ch 4 (fun a => a.await = [5]) := by
  obtain ⟨entry, found⟩ := startAction_grant free hr ch i ent
  rw [← run] at entry found
  exact ⟨_, actCore_of_ok hok f, s.keeps_withCore _, entry, _, found, rfl, rfl, rfl, managersOf_memory c (granting ch p i ent) (.inr (.inl rfl))⟩

theorem started_revoke {ch : Option Nat} {i : Nat} {ent : Ext} {gs : List Nat} {forced lower : Bool} {ok : Action → Prop}
    (run : f s.dev.core = startRevoke ch p i ent gs forced lower false c)
    (h : ∀ a : Action, a.await = [5] → a.i = i → a.groups = gs → a.forced = forced → a.lower = lower → a.seq = nextSeq c.rot.lastSeq → ok a) :
    ∃ u, actCore s f = .next u ∧ s.keeps u ∧ u.dev.core.rot.queued = c.rot.queued ∧ u.dev.core.masterExt p i = { ent with life := 1 } ∧
      acting u p 6 ch 6 ok := by
  obtain ⟨entry, queued, found⟩ := startRevoke_first free hr ch i ent gs forced lower
  rw [← run] at entry queued found
  have await : managersOf (revoking p i ent c) (revocation ch p i ent gs forced lower false c) 6 = [5] := managersOf_memory _ _ (.inr (.inr (.inl rfl)))
  exact ⟨_, actCore_of_ok hok f, s.keeps_withCore _, queued, entry, _, found, rfl, rfl, rfl, h _ await rfl rfl rfl rfl rfl⟩

theorem started_unmap {ch : Option Nat} {i : Nat} {ent : Ext} {gs : List Nat} {forced lower : Bool}
    (run : f s.dev.core = startRevoke ch p i ent gs forced lower true c) :
    ∃ u, actCore s f = .next u ∧ s.keeps u ∧ u.dev.core.masterExt p i = { ent with life := 1 } ∧
      ∃ a, actionOf u.dev.core p = some a ∧ a.kind = 7 ∧ a.ch = ch ∧ a.unmap = true ∧ a.groups = gs ∧ a.await ≠ [] := by
  obtain ⟨entry, found⟩ := startRevoke_unmap free hr ch i ent gs forced lower
  rw [← run] at entry found
  exact ⟨_, actCore_of_ok hok f, s.keeps_withCore _, entry, found⟩
end

theorem findIdx?_eq_none_of_all {α : Type} {p : α → Bool} {l : List α} (h : l.all (fun a => !p a) = true) : l.findIdx? p = none := by
  simpa using h

/-- Settles O30: each request by its equation above, and what the action that it starts does first. -/
theorem extentRequests : Obligations.ExtentRequests := by
  unfold Obligations.ExtentRequests
  intro s ch hok
  dsimp only
  intro hb hi
  have free : actionOf (s.dev.core.running ch) (reqPtn s.dev.core ch) = none := actionOf_of_ptnBusy hb
  refine ⟨?map, ?grant, ?revoke, ?unmap⟩
  case map =>
    intro h h0 h1 hp
    have hr := rotUp_restarting (taken_rotUp h)
    have run := fxExtMap_legal hb hi h h0 h1 hp
    dsimp only at run
    refine ⟨fun hv => answered_of_core hok h (run.trans (if_pos hv)), fun hv hm ht => ?_⟩
    rw [if_neg (by simp [hv]), if_neg hm, if_neg (fun k => k.2 (ht k.1))] at run
    refine ⟨fun hq => answered_of_core hok h (run.trans (if_pos hq)), fun ppa hq hf => ?_⟩
    rw [if_neg (Nat.not_le.2 hq), hf] at run
    obtain ⟨u, hu, keeps, htaken, started⟩ := started_map (c := withTaken ppa (s.dev.core.running ch)) hok free hr run
    exact ⟨u, hu, keeps, htaken ▸ List.mem_append_right _ (List.mem_singleton_self ppa), started⟩
  case grant =>
    intro h h0 h1 h2 hx hv ht
    have hr := rotUp_restarting (taken_rotUp h)
    have run (hg hacc) := fxExtGrant_legal hb hi h h0 h1 h2 hg hacc hx hv ht
    have group {g : Nat} {acc : BitVec 2} (hg : g < 256) (ha : acc = 1 ∨ acc = 2) : acc = 1 ∧ g ≠ 256 ∨ acc = 2 :=
      ha.imp_left (fun h => ⟨h, Nat.ne_of_lt hg⟩)
    refine ⟨?new, ?renew, ?lower, ?full, ?all⟩
    case new =>
      intro j hg ho hacc ha hno hj
      refine started_grant hok free hr ((run (Nat.le_of_lt hg) (group hg hacc)).trans ?_)
      rw [if_neg (by simp [ho]), if_neg (Nat.ne_of_lt hg), if_neg (by simp [ha]), findIdx?_eq_none_of_all hno, hj]
      rfl
    case renew =>
      intro j hg ho hacc ha hj hkept
      refine started_grant hok free hr ((run (Nat.le_of_lt hg) (group hg hacc)).trans ?_)
      have kept {m n : BitVec 2} (h : m ≠ 2 ∨ n = 2) : ¬(m = 2 ∧ n = 1) := by
        rintro ⟨rfl, rfl⟩
        simp at h
      rw [if_neg (by simp [ho]), if_neg (Nat.ne_of_lt hg), if_neg (by simp [ha]), hj]
      exact if_neg (kept hkept)
    case lower =>
      intro j hg ho hacc ha hj hrw
      have lowered := (run (Nat.le_of_lt hg) (group hg (.inl hacc)))
      rw [if_neg (by simp [ho]), if_neg (Nat.ne_of_lt hg), if_neg (by simp [ha]), hj] at lowered
      obtain ⟨u, hu, keeps, -, entry, started⟩ := started_revoke hok free hr (lowered.trans (if_pos ⟨hrw, hacc⟩))
        (fun a h5 _ hgs hforced hlower _ => (⟨h5, hgs, hlower, hforced⟩ : a.await = [5] ∧ a.groups = _ ∧ a.lower = _ ∧ a.forced = _))
      exact ⟨u, hu, keeps, entry, started⟩
    case full =>
      intro hg ho hacc ha hno hfull
      refine answered_of_core hok h ((run (Nat.le_of_lt hg) (group hg hacc)).trans ?_)
      rw [if_neg (by simp [ho]), if_neg (Nat.ne_of_lt hg), if_neg (by simp [ha]), findIdx?_eq_none_of_all hno, hfull]
      rfl
    case all =>
      intro hg hacc
      refine started_grant hok free hr ((run (by omega) (.inr hacc)).trans ?_)
      rw [if_neg (by simp [hg]), if_pos hg]
      rfl
  case revoke =>
    intro h h0 h1 hv
    have hr := rotUp_restarting (taken_rotUp h)
    have run (hg) := fxExtRevoke_legal hb hi h h0 h1 hg hv
    refine ⟨?some, ?ofAll, ?nothing, ?foreign⟩
    case some =>
      intro gs ent hgs
      have revoked : fxExtRevoke ch s.dev.core = startRevoke (some ch) (reqPtn s.dev.core ch) (field (reqData s.dev.core ch 0) 9 0) ent gs
          ((reqData s.dev.core ch 1).getLsbD 16) false false (s.dev.core.running ch) := by
        rcases hgs with ⟨hg, hgrant, rfl, rfl⟩ | ⟨hg, ho, ha, hslot, rfl, rfl⟩
        · refine (run (by omega)).trans ?_
          rw [if_neg (by simp [hg]), if_pos hg, if_pos hgrant]
        · refine (run (Nat.le_of_lt hg)).trans ?_
          rw [if_neg (by simp [ho]), if_neg (Nat.ne_of_lt hg), if_neg (by simp [ha]), if_pos hslot]
      obtain ⟨u, hu, keeps, -, entry, started⟩ := started_revoke hok free hr revoked
        (fun a h5 _ hgs hforced _ hseq => (⟨h5, hgs, hforced, hseq⟩ : a.await = [5] ∧ a.groups = _ ∧ a.forced = _ ∧ a.seq = _))
      exact ⟨u, hu, keeps, entry, started⟩
    case ofAll =>
      intro hg ho ha
      have run := run (Nat.le_of_lt hg)
      dsimp only at run
      rw [if_neg (by simp [ho]), if_neg (Nat.ne_of_lt hg), if_pos ha] at run
      refine ⟨fun hne hle => ?_, fun hlt => ?_⟩
      · rw [if_neg hne, if_neg (Nat.not_lt.2 hle)] at run
        obtain ⟨u, hu, keeps, -, entry, started⟩ := started_revoke hok free hr run
          (fun a h5 _ hgs _ _ _ => (⟨h5, hgs⟩ : a.await = [5] ∧ a.groups = _))
        exact ⟨u, hu, keeps, entry, started⟩
      · have hne : (groupsOf s.dev.core (reqPtn s.dev.core ch)).filter (fun k => decide (k ≠ field (reqData s.dev.core ch 1) 8 0)) ≠ [] := by
          intro hnil
          rw [hnil] at hlt
          exact absurd hlt (by decide)
        exact answered_of_core hok h (run.trans ((if_neg hne).trans (if_pos hlt)))
    case nothing =>
      intro hg hgrant
      refine answered_of_core hok h ((run (by omega)).trans ?_)
      rw [if_neg (by simp [hg]), if_pos hg, if_neg (by simp [hgrant])]
      rfl
    case foreign =>
      intro hg ho
      exact answered_of_core hok h ((run (Nat.le_of_lt hg)).trans (if_pos ⟨Nat.ne_of_lt hg, by simp [ho]⟩))
  case unmap =>
    intro h h0 h1
    have hr := rotUp_restarting (taken_rotUp h)
    have run := fxExtUnmap_legal hb hi h h0 h1
    refine ⟨fun hv => answered_of_core hok h (run.trans (if_pos (by simp [hv]))), fun hv hu => ?_⟩
    exact started_unmap hok free hr (run.trans ((if_neg (by simp [hv])).trans (if_neg hu)))

end Sys2Proof.Machine
end

section
/-! SUPPORT. What the work of a home leaves alone: all but homes, pool memory, partitions, ports, mirror pairs, regions and the counts of
fence walks. -/

namespace Sys2Proof.Machine
open Sys2Proof

/-- The core without what the transactions of a home can change. -/
def Core.besideHomes (c : Core) : Core :=
  { c.rest with
    homes := [], mem := [], lineFlags := [], ptns := [], ports := [], mirrs := [], regions := [], fresh := 0
    rot := { c.rest.rot with walks := [] } }

theorem besideHomes_of_rest {c d : Core} (h : d.rest = c.rest) : d.besideHomes = c.besideHomes := by
  unfold Core.besideHomes
  rw [h]

section
variable {c d : Core} (h : d.besideHomes = c.besideHomes)
include h

theorem besideHomes_hosts : d.hosts = c.hosts := by have := congrArg Core.hosts h; exact this
theorem besideHomes_actions : d.rot.actions = c.rot.actions := by have := congrArg (fun x => x.rot.actions) h; exact this
theorem besideHomes_actionOf (p : Nat) : actionOf d p = actionOf c p := by simp only [actionOf, besideHomes_actions h]
end

section
variable (c : Core)

/-! ### Units -/

@[simp] theorem setHome_besideHomes (e : Nat) (x : Home) : (c.setHome e x).besideHomes = c.besideHomes := rfl
@[simp] theorem modHome_besideHomes (e : Nat) (f : Home → Home) : (c.modHome e f).besideHomes = c.besideHomes := rfl
@[simp] theorem setPtn_besideHomes (p : Nat) (x : Ptn) : (c.setPtn p x).besideHomes = c.besideHomes := rfl
@[simp] theorem modPtn_besideHomes (p : Nat) (f : Ptn → Ptn) : (c.modPtn p f).besideHomes = c.besideHomes := rfl
@[simp] theorem setPort_besideHomes (n : Nat) (x : Port) : (c.setPort n x).besideHomes = c.besideHomes := rfl
@[simp] theorem modPort_besideHomes (n : Nat) (f : Port → Port) : (c.modPort n f).besideHomes = c.besideHomes := rfl
@[simp] theorem setMirr_besideHomes (p : Nat) (x : Mirr) : (c.setMirr p x).besideHomes = c.besideHomes := rfl
@[simp] theorem modRegion_besideHomes (r : Nat) (f : Region → Region) : (c.modRegion r f).besideHomes = c.besideHomes := rfl
@[simp] theorem setLmeta_besideHomes (e l : Nat) (m : LineMeta) : (c.setLmeta e l m).besideHomes = c.besideHomes := rfl
@[simp] theorem setMem_besideHomes (m : Mem) : ({ c with mem := m } : Core).besideHomes = c.besideHomes := rfl
@[simp] theorem setFresh_besideHomes (n : Nat) : ({ c with fresh := n } : Core).besideHomes = c.besideHomes := rfl
@[simp] theorem send_besideHomes (m : Msg) : (c.send m).besideHomes = c.besideHomes := rfl
@[simp] theorem countEvent_besideHomes (k i ev n : Nat) (p : Option Nat) : (countEvent k i ev n p c).besideHomes = c.besideHomes :=
  besideHomes_of_rest (countEvent_rest ..)
@[simp] theorem logE_besideHomes (code k i : Nat) (p : Option Nat) (fs : List (Nat × Nat)) : (logE code k i p fs c).besideHomes = c.besideHomes :=
  besideHomes_of_rest (logE_rest ..)

theorem foldl_besideHomes {α : Type} (f : Core → α → Core) (h : ∀ c a, (f c a).besideHomes = c.besideHomes) (l : List α) (c : Core) :
    (l.foldl f c).besideHomes = c.besideHomes := by
  induction l generalizing c with
  | nil => rfl
  | cons a l ih => rw [List.foldl_cons, ih, h]

theorem ite_besideHomes {P : Prop} [Decidable P] {a b : Core} (ha : a.besideHomes = c.besideHomes) (hb : b.besideHomes = c.besideHomes) :
    (if P then a else b).besideHomes = c.besideHomes := by
  split
  · exact ha
  · exact hb

/-! ### Answers -/

@[simp] theorem discardEgress_besideHomes (n : Nat) (ks : List EgPkt) : (discardEgress n ks c).besideHomes = c.besideHomes :=
  (foldl_besideHomes _ (fun _ _ => countEvent_besideHomes ..) ks _).trans (modPort_besideHomes ..)

@[simp] theorem portQueue_besideHomes (n : Nat) (k : EgPkt) : (portQueue n k c).besideHomes = c.besideHomes := by
  unfold portQueue
  dsimp only
  split_ifs <;> simp

@[simp] theorem mirrSend_besideHomes (m : Msg) : (c.mirrSend m).besideHomes = c.besideHomes := by
  unfold Core.mirrSend
  split <;> simp

@[simp] theorem toEndpoint_besideHomes (o : Origin) (ep src : BitVec 18) (p : Nat) (a : Ans) :
    (c.toEndpoint o ep src p a).besideHomes = c.besideHomes := by
  unfold Core.toEndpoint
  dsimp only
  split_ifs <;> simp

@[simp] theorem toHost_besideHomes (o : Origin) (p : Nat) (a : Ans) : (c.toHost o p a).besideHomes = c.besideHomes := toEndpoint_besideHomes ..

@[simp] theorem mirrOutcome_besideHomes (k : MirrPend) (p : Nat) (a : Ans) : (c.mirrOutcome k p a).besideHomes = c.besideHomes := by
  unfold Core.mirrOutcome
  dsimp only
  split_ifs <;> simp

@[simp] theorem answer_besideHomes (o : Origin) (p : Nat) (pla : BitVec 40) (a : Ans) : (c.answer o p pla a).besideHomes = c.besideHomes := by
  unfold Core.answer
  refine ite_besideHomes c ?_ (ite_besideHomes c (send_besideHomes ..) (ite_besideHomes c (modPtn_besideHomes ..) rfl))
  split
  · exact ite_besideHomes c (mirrOutcome_besideHomes ..) (toHost_besideHomes ..)
  · exact toHost_besideHomes ..

@[simp] theorem sendNack_besideHomes (e : Nat) (o : Origin) (p : Nat) (pla : BitVec 40) (a : Ans) :
    (sendNack e o p pla a c).besideHomes = c.besideHomes := (answer_besideHomes ..).trans (modHome_besideHomes ..)

/-! ### Lines, trackers and directory entries -/

@[simp] theorem touchLine_besideHomes (e l p : Nat) (dirty : Bool) : (touchLine e l p dirty c).besideHomes = c.besideHomes :=
  (setHome_besideHomes ..).trans (countEvent_besideHomes ..)

@[simp] theorem stWhole_besideHomes (e l p : Nat) (v : Line) (poison : Bool) : (stWhole e l p v poison c).besideHomes = c.besideHomes :=
  (touchLine_besideHomes ..).trans rfl

@[simp] theorem stMasked_besideHomes (e l p : Nat) (v : Line) (mask : BitVec 128) (poison : Bool) :
    (stMasked e l p v mask poison c).besideHomes = c.besideHomes := by
  unfold stMasked
  split_ifs
  · simp
  · exact (touchLine_besideHomes ..).trans rfl

@[simp] theorem poisonLine_besideHomes (e l p : Nat) : (poisonLine e l p c).besideHomes = c.besideHomes :=
  (countEvent_besideHomes ..).trans (stWhole_besideHomes ..)

@[simp] theorem writeReq_besideHomes (e l : Nat) (t : Trk) : (writeReq e l t c).besideHomes = c.besideHomes := by
  unfold writeReq
  split_ifs <;> simp

@[simp] theorem writeBack_besideHomes (e : Nat) (t : Trk) (d : DirEnt) : (writeBack e t d c).besideHomes = c.besideHomes := by
  unfold writeBack
  split_ifs <;> simp

@[simp] theorem putTrk_besideHomes (e : Nat) (t : Trk) : (putTrk e t c).besideHomes = c.besideHomes := rfl
@[simp] theorem dropTrk_besideHomes (e i : Nat) : (dropTrk e i c).besideHomes = c.besideHomes := rfl
@[simp] theorem setDir_besideHomes (e l : Nat) (d : Option DirEnt) : (setDir e l d c).besideHomes = c.besideHomes := rfl
@[simp] theorem wakePage_besideHomes (e pg : Nat) : (wakePage e pg c).besideHomes = c.besideHomes := rfl

@[simp] theorem addTrk_besideHomes (e : Nat) (k : TrkKind) (o : Origin) (q : Req) (l p ph : Nat) :
    (addTrk e k o q l p ph c).besideHomes = c.besideHomes := by
  unfold addTrk
  dsimp only
  split <;> simp

/-! ### Snoops, losses and salvage -/

@[simp] theorem openSnoop_besideHomes (e i h : Nat) (inv salvage : Bool) : (openSnoop e i h inv salvage c).besideHomes = c.besideHomes := by
  unfold openSnoop
  split
  · rfl
  · split_ifs <;> simp

theorem openSnoops_besideHomes (e i : Nat) (inv : Bool) (hs : List Nat) (c : Core) :
    (hs.foldl (fun c h => openSnoop e i h inv false c) c).besideHomes = c.besideHomes :=
  foldl_besideHomes _ (fun c h => openSnoop_besideHomes c e i h inv false) hs c

@[simp] theorem askAll_besideHomes (e i : Nat) (hs : List Nat) (inv : Bool) : (askAll e i hs inv c).besideHomes = c.besideHomes := by
  unfold askAll
  split
  · rfl
  · rw [openSnoops_besideHomes, putTrk_besideHomes]

@[simp] theorem countWalk_besideHomes (h : Option Nat) (lost salvaged : Nat) : (countWalk h lost salvaged c).besideHomes = c.besideHomes := by
  cases h <;> rfl

@[simp] theorem loseLine_besideHomes (e l p h : Nat) : (loseLine e l p h c).besideHomes = c.besideHomes := by simp [loseLine]

@[simp] theorem cohProtocol_besideHomes (e l p h op : Nat) : (cohProtocol e l p h op c).besideHomes = c.besideHomes := logE_besideHomes ..

@[simp] theorem afterLoss_besideHomes (e i : Nat) : (afterLoss e i c).besideHomes = c.besideHomes := by
  unfold afterLoss
  split
  · rfl
  · split <;> rfl

@[simp] theorem salvageStep_besideHomes (e i : Nat) : (salvageStep e i c).besideHomes = c.besideHomes := by
  unfold salvageStep
  split
  · rfl
  · split
    · dsimp only
      split_ifs
      · split <;> simp
      · simp
    · split_ifs
      · simp
      · rw [foldl_besideHomes _ (fun c h => openSnoop_besideHomes c e i h true false), putTrk_besideHomes]

@[simp] theorem startSalvage_besideHomes (e i h : Nat) : (startSalvage e i h c).besideHomes = c.besideHomes := by
  unfold startSalvage
  split
  · dsimp only
    split_ifs <;> rfl
  · rfl

/-! ### Serving a request -/

/-- The CE of a transaction's request counted. -/
def ceCounted (e : Nat) (t : Trk) (c : Core) : Core := if t.q.ce then countEvent 6 e 7 1 (some t.p) c else c

theorem ceCounted_rest (e : Nat) (t : Trk) : (ceCounted e t c).rest = c.rest := by
  unfold ceCounted
  split
  · exact countEvent_rest ..
  · rfl

/-- The answer of a transaction: the CE of its request counted, the completion or nack, and the signal that rides on a cluster's write. -/
def answerTrk (e : Nat) (t : Trk) (a : Ans) (c : Core) : Core :=
  let c := ceCounted e t c
  let c := if a.op = opNackRevoked then sendNack e t.o t.p t.q.pla { a with ce := t.q.ce } c else c.answer t.o t.p t.q.pla { a with ce := t.q.ce }
  match t.o.sig with
  | some ob => if a.op = opCmp ∧ t.o.kind = 0 then c.send (.sync ⟨12, ob, t.o.idx, 0, false, true, 0, 0⟩) else c
  | none => c

/-- What becomes of a transaction once its answer is out. -/
def endTrk (e : Nat) (t : Trk) (a : Ans) (i : Nat) (c : Core) : Core :=
  if t.o.kind = 1 ∧ (t.q.op = 1 ∨ t.q.op = 2 ∨ t.q.op = 4) ∧ (a.op = opCmp ∨ a.op = opCmpData) then
    (if (c.home e).fence.contains t.o.idx then dropTrk e i c else putTrk e { t with phase := 2, snoops := [] } c)
  else if t.o.kind = 1 ∧ a.op = opCmp ∧ ((c.mirr t.p).pendOf t.o).isSome then putTrk e { t with phase := 5, snoops := [] } c
  else dropTrk e i c

theorem completeTrk_found {e i : Nat} {t : Trk} (h : c.trk e i = some t) (a : Ans) :
    completeTrk e i a c = endTrk e t a i (answerTrk e t a c) := by
  unfold completeTrk
  rw [h]
  rfl

@[simp] theorem answerTrk_besideHomes (e : Nat) (t : Trk) (a : Ans) : (answerTrk e t a c).besideHomes = c.besideHomes := by
  have counted := besideHomes_of_rest (ceCounted_rest c e t)
  unfold answerTrk
  dsimp only
  generalize ceCounted e t c = d at counted ⊢
  split
  · split_ifs <;> simp [counted]
  · split_ifs <;> simp [counted]

@[simp] theorem endTrk_besideHomes (e : Nat) (t : Trk) (a : Ans) (i : Nat) : (endTrk e t a i c).besideHomes = c.besideHomes := by
  unfold endTrk
  split_ifs <;> rfl

@[simp] theorem completeTrk_besideHomes (e i : Nat) (a : Ans) : (completeTrk e i a c).besideHomes = c.besideHomes := by
  cases h : c.trk e i with
  | none => simp [completeTrk, h]
  | some t => simp [completeTrk_found c h]

@[simp] theorem answerMem_besideHomes (e i l : Nat) (g : BitVec 2) : (answerMem e i l g c).besideHomes = c.besideHomes := by
  unfold answerMem
  split <;> simp

@[simp] theorem takeWay_besideHomes (e i l p : Nat) : (takeWay e i l p c).2.besideHomes = c.besideHomes := by
  unfold takeWay
  dsimp only
  split
  · rfl
  · split
    · split
      · rfl
      · simp
    · rfl
    · rfl

@[simp] theorem serveCoherent_besideHomes (e i : Nat) : (serveCoherent e i c).besideHomes = c.besideHomes := by
  unfold serveCoherent
  split
  · rfl
  · dsimp only
    split
    · refine ite_besideHomes c ?_ (ite_besideHomes c ?_ (ite_besideHomes c ?_ (ite_besideHomes c ?_ (ite_besideHomes c ?_ ?_)))) <;> simp
    · refine ite_besideHomes c (ite_besideHomes c (ite_besideHomes c ?_ ?_) ?_) (ite_besideHomes c ?_ ?_)
      · simp
      · simp
      · simp
      · simp
      · split
        · refine ite_besideHomes c ?_ (ite_besideHomes c ?_ ?_) <;> simp
        · refine ite_besideHomes c (ite_besideHomes c ?_ ?_) ?_ <;> simp
        · refine ite_besideHomes c (ite_besideHomes c ?_ ?_) (ite_besideHomes c ?_ ?_) <;> simp

/-! ### Snapshot regions -/

@[simp] theorem takePage_besideHomes (e r : Nat) : (takePage e r c).2.besideHomes = c.besideHomes := by
  unfold takePage
  dsimp only
  split <;> rfl

@[simp] theorem startCopy_besideHomes (e i r w l : Nat) : (startCopy e i r w l c).besideHomes = c.besideHomes := by
  have taken := takePage_besideHomes c e r
  unfold startCopy
  split
  · rfl
  · dsimp only
    split
    · next h _ =>
      rw [h] at taken
      exact taken
    · rw [wakePage_besideHomes, completeTrk_besideHomes]
      split_ifs <;> simp

@[simp] theorem serveSnap_besideHomes (e i r : Nat) : (serveSnap e i r c).besideHomes = c.besideHomes := by
  unfold serveSnap
  split
  · rfl
  · dsimp only
    refine ite_besideHomes c ?_ (ite_besideHomes c ?_ (ite_besideHomes c (ite_besideHomes c ?_ ?_) ?_))
    · simp
    · simp
    · simp
    · split <;> simp
    · split
      · simp
      · refine ite_besideHomes c ?_ ?_ <;> simp

/-! ### Recalls, back-invalidations and walks -/

@[simp] theorem serveRecall_besideHomes (e i : Nat) (lower : Bool) (hs : List Nat) : (serveRecall e i lower hs c).besideHomes = c.besideHomes := by
  unfold serveRecall
  split
  · dsimp only
    split_ifs <;> simp
  · rfl

@[simp] theorem serveBackInv_besideHomes (e i : Nat) : (serveBackInv e i c).besideHomes = c.besideHomes := by
  unfold serveBackInv
  split
  · split_ifs <;> simp
  · rfl

@[simp] theorem serveWalk_besideHomes (e i h : Nat) : (serveWalk e i h c).besideHomes = c.besideHomes := by
  unfold serveWalk
  split
  · split_ifs <;> simp
  · rfl

@[simp] theorem serve_besideHomes (e i : Nat) : (serve e i c).besideHomes = c.besideHomes := by
  unfold serve
  split
  · rfl
  · split
    · simp
    · simp
    · simp
    · dsimp only
      split_ifs <;> simp

/-! ### The end of a round of snoops -/

@[simp] theorem recoverLine_besideHomes (e i : Nat) (d : DirEnt) : (recoverLine e i d c).besideHomes = c.besideHomes := by
  unfold recoverLine
  split
  · rfl
  · dsimp only
    split_ifs <;> simp

@[simp] theorem resolveRequest_besideHomes (e i : Nat) (t : Trk) (d : DirEnt) : (resolveRequest e i t d c).besideHomes = c.besideHomes := by
  unfold resolveRequest
  dsimp only
  refine ite_besideHomes c ?gone (ite_besideHomes c ?evict (ite_besideHomes c ?write (ite_besideHomes c ?read ?own)))
  case gone => simp
  case evict => simp
  case write => simp
  case read =>
    refine ite_besideHomes c (ite_besideHomes c ?_ ?_) (ite_besideHomes c (ite_besideHomes c ?_ ?_)
      (ite_besideHomes c ?_ (ite_besideHomes c ?_ (ite_besideHomes c ?_ ?_))))
    all_goals simp
  case own =>
    have back : (if (decide (d.st = .o) && decide (d.owner = (requester t).getD 4096)) = true then c else writeBack e t d c).besideHomes =
        c.besideHomes := ite_besideHomes c rfl (writeBack_besideHomes ..)
    refine ite_besideHomes c ?_ ?_
    · rw [completeTrk_besideHomes, setDir_besideHomes, back]
    · rw [answerMem_besideHomes, setDir_besideHomes, back]

@[simp] theorem resolveRecall_besideHomes (e i : Nat) (t : Trk) (lower forced : Bool) (hs : List Nat) (d : DirEnt) :
    (resolveRecall e i t lower forced hs d c).besideHomes = c.besideHomes := by
  unfold resolveRecall
  dsimp only
  refine ite_besideHomes c ?_ (ite_besideHomes c ?_ (ite_besideHomes c ?_ ?_)) <;> simp

@[simp] theorem resolveBackInv_besideHomes (e i : Nat) (t : Trk) (d : DirEnt) : (resolveBackInv e i t d c).besideHomes = c.besideHomes := by
  unfold resolveBackInv
  dsimp only
  refine ite_besideHomes c ?_ (ite_besideHomes c ?_ ?_) <;> simp

@[simp] theorem resolve_besideHomes (e i : Nat) : (resolve e i c).besideHomes = c.besideHomes := by
  unfold resolve
  split
  · rfl
  · split_ifs
    · simp
    · split <;> simp

/-! ### The home's work -/

theorem homeMove_besideHomes {e : Nat} {d : Core} (h : homeMove e c = some d) : d.besideHomes = c.besideHomes := by
  unfold homeMove at h
  dsimp only at h
  split at h
  · cases h
    refine ite_besideHomes c ?_ (ite_besideHomes c ?_ (ite_besideHomes c ?_ ?_)) <;> simp
  · split at h
    · cases h
    · split at h
      · cases h
      · rw [← Option.some.inj h, addTrk_besideHomes, setHome_besideHomes]

theorem settleN_besideHomes (e n : Nat) (c : Core) : (settleN e n c).besideHomes = c.besideHomes := by
  induction n generalizing c with
  | zero => rfl
  | succ n ih =>
    unfold settleN
    split
    · rfl
    · next d h => exact (ih d).trans (homeMove_besideHomes c h)

@[simp] theorem settle_besideHomes (e : Nat) : (settle e c).besideHomes = c.besideHomes := settleN_besideHomes ..

end
end Sys2Proof.Machine
end

section
/-! SUPPORT. Hosts admitted, removed and fenced, and grants that expire (R51, R54, R55, R58, R88, R402, R573). -/

namespace Sys2Proof.Machine
open Sys2Proof

theorem host_of_hosts {c d : Core} (h : d.hosts = c.hosts) (k : Nat) : d.host k = c.host k := by simp only [Core.host, h]

theorem host_of_rest {c d : Core} (h : d.rest = c.rest) (k : Nat) : d.host k = c.host k := host_of_hosts (rest_hosts h) k

theorem mb_of_rest {c d : Core} (h : d.rest = c.rest) (ch : Nat) : d.mb ch = c.mb ch := by simp only [Core.mb, rest_mbx h]

/-! ### The removal of a host -/

/-- The action of a host's removal. -/
def removing (ch : Option Nat) (p h : Nat) : Action := { noAction with kind := 10, p := p, ch := ch, host := h }

/-- From core `c` to `d` the host table stayed, and in `d` partition `a.p` runs action `a` with some count of recalled lines. -/
def RecallRuns (a : Action) (c d : Core) : Prop := d.hosts = c.hosts ∧ ∃ n, actionOf d a.p = some { a with recalled := n }

section
variable {a : Action} {c d : Core}

theorem RecallRuns.of_besideHomes {e : Core} (h : RecallRuns a c d) (he : e.besideHomes = d.besideHomes) : RecallRuns a c e := by
  obtain ⟨hosts, n, found⟩ := h
  exact ⟨(besideHomes_hosts he).trans hosts, n, (besideHomes_actionOf he _).trans found⟩

/-- Lines to be recalled at one home leave the action of the recall running. -/
theorem RecallRuns.recalled (h : RecallRuns a c d) (n : Nat) :
    RecallRuns a c (match actionOf d a.p with
      | some b => putAction { b with recalled := b.recalled + n } d
      | none => d) := by
  obtain ⟨hosts, m, found⟩ := h
  rw [found]
  exact ⟨hosts, m + n, actionOf_putAction found rfl⟩

/-- A home that works on what it can do leaves the action of the recall running. -/
theorem RecallRuns.settled (h : RecallRuns a c d) (e : Nat) : RecallRuns a c (if d.works 6 e then settle e d else d) := by
  split
  · exact h.of_besideHomes (settle_besideHomes ..)
  · exact h

theorem recallLines_besideHomes (e p : Nat) (ext : Option Nat) (lower forced : Bool) (hs : List Nat) (c : Core) :
    (recallLines e p ext lower forced hs c).2.besideHomes = c.besideHomes := rfl

theorem startRecall_runs (ext : Option Nat) (lower forced : Bool) (hs : List Nat) (h : RecallRuns a c d) :
    RecallRuns a c (startRecall a.p ext lower forced hs d) := by
  unfold startRecall
  generalize stepHomes d = es
  induction es generalizing d with
  | nil => exact h
  | cons e es ih =>
    exact ih (((h.of_besideHomes (recallLines_besideHomes e a.p ext lower forced hs d)).recalled (recallLines e a.p ext lower forced hs d).1).settled e)
end

theorem enterStep_recallHost {a : Action} (h : a.step = 20) (c : Core) :
    enterStep a c = if (c.host a.host).st = 1 then c else startRecall a.p none false false [a.host] c := by
  simp [enterStep, h]

/-- The start of a removal: the recall of the host's lines begins at the homes, and the memory manager is awaited. -/
theorem startAction_removal {c : Core} {p h : Nat} (hfree : actionOf c p = none) (hr : c.glb.restarting = false) (ch : Option Nat) :
    (startAction (removing ch p h) c).hosts = c.hosts ∧
      ∃ a, actionOf (startAction (removing ch p h) c) p = some a ∧ a.kind = 10 ∧ a.ch = ch ∧ a.step = 20 ∧ a.host = h ∧ a.await = [5] := by
  let a := removing ch p h
  let b := a.atStep c 20
  have hm : managersOf c a 20 = [5] := managersOf_memory c a (by simp)
  have announced : RecallRuns b c (announce b (listed a c)) :=
    ⟨(announce_keeps Core.hosts (fun _ _ => rfl)).trans rfl, 0, actionOf_announce (actionOf_listed hfree) rfl⟩
  have entered : RecallRuns b c (enterStep b (announce b (listed a c))) := by
    rw [enterStep_recallHost rfl]
    split
    · exact announced
    · exact startRecall_runs none false false [h] announced
  obtain ⟨hosts, n, found⟩ := entered
  have start : startAction a c = enterStep b (announce b (listed a c)) :=
    (advanceN_next (actionOf_listed hfree) rfl hr (by simp [a, removing, noAction]) (by simp [a, removing, noAction]) rfl).trans
      (advanceN_awaits found (by simp [b, Action.atStep, hm]) 15)
  rw [← start] at hosts found
  exact ⟨hosts, _, found, rfl, rfl, rfl, rfl, hm⟩

/-- A host's entry cleared, with the RoT's registers and the other entries kept. -/
theorem clearHost_hosts (h : Nat) (c : Core) : (clearHost h c).hosts = (c.setHost h {}).hosts :=
  (forEach_keeps Core.hosts _ (by intros; rfl) _).trans ((forEach_keeps Core.hosts _ (by intros; rfl) _).trans rfl)

theorem clearHost_detached (h : Nat) (c : Core) : (clearHost h c).rot.detached = c.rot.detached :=
  (forEach_keeps (fun d => d.rot.detached) _ (by intros; rfl) _).trans ((forEach_keeps (fun d => d.rot.detached) _ (by intros; rfl) _).trans rfl)

/-! ### Answers with data words -/

/-- The answer, with data words, to the request of a channel that no reset has detached. -/
theorem mbDoneWith_eq {c : Core} {ch : Nat} (hd : c.rot.detached.find? (fun d => decide (d.1 + 16 = ch)) = none) (st : Nat)
    (ans : List (Nat × BitVec 32)) :
    mbDoneWith ch st [] ans c =
      let d := c.setMb ch { mbAnswer (c.mb ch) st with data := ans.foldl (fun t e => tput 0 e.1 e.2 t) (c.mb ch).data }
      if ch < 16 then raiseInt ch d else d := by
  simp [mbDoneWith, hd, mbAnswer]

/-- What the answer to a request keeps beside the log, interrupts, counters and units: all but the mailbox. -/
theorem mbDoneWith_rest {c : Core} {ch : Nat} (hd : c.rot.detached.find? (fun d => decide (d.1 + 16 = ch)) = none) (st : Nat)
    (ans : List (Nat × BitVec 32)) :
    (mbDoneWith ch st [] ans c).rest =
      (c.setMb ch { mbAnswer (c.mb ch) st with data := ans.foldl (fun t e => tput 0 e.1 e.2 t) (c.mb ch).data }).rest := by
  rw [mbDoneWith_eq hd]
  dsimp only
  split
  · exact raiseInt_rest ..
  · rfl

/-- The core with an admitted host's entry, and the port it is reached through. -/
def withHost (k : Nat) (x : HostEnt) (c : Core) : Core := (c.setHost k x).modMesh (fun m => { m with hostPort := tput 0 k x.port m.hostPort })

/-- The answer to an admission: the host's entry, and its index in DATA0. -/
theorem mbDoneWith_withHost {c : Core} {ch : Nat} (hd : c.rot.detached.find? (fun d => decide (d.1 + 16 = ch)) = none) (k : Nat) (x : HostEnt) :
    let d := mbDoneWith ch stOk [] [(0, BitVec.ofNat 32 k)] (withHost k x (c.running ch))
    d.host k = x ∧ (∀ j, j ≠ k → d.host j = c.host j) ∧ tget 0 k d.mesh.hostPort = x.port ∧
      d.mb ch = { mbAnswer (c.mb ch) 0 with data := tput 0 0 (BitVec.ofNat 32 k) (c.mb ch).data } := by
  have rest := mbDoneWith_rest (c := withHost k x (c.running ch)) hd stOk [(0, BitVec.ofNat 32 k)]
  have mb : (withHost k x (c.running ch)).mb ch = { c.mb ch with st := .running, full := false } := running_mb c ch
  rw [mb] at rest
  dsimp only
  generalize mbDoneWith ch stOk [] [(0, BitVec.ofNat 32 k)] (withHost k x (c.running ch)) = d at rest
  refine ⟨?_, fun j hj => ?_, ?_, ?_⟩
  · exact (host_of_rest rest k).trans (Core.setHost_same c k x)
  · exact (host_of_rest rest j).trans (Core.setHost_ne c k x hj)
  · rw [rest_mesh rest]
    exact tget_tput_same ..
  · exact (mb_of_rest rest ch).trans (Core.setMb_same ..)

/-! ### The fencing of a host (R54, R88) -/

@[simp] theorem faultEvent_rest (p cause : Nat) (detail : BitVec 32) (c : Core) : (faultEvent p cause detail c).rest = c.rest := by
  unfold faultEvent
  split
  · rfl
  · have sent : (sendFaultEvent p cause 1 detail c).rest = c.rest := by
      exact (raiseInt_rest ..).trans (foldl_rest _ (fun _ _ => send_rest ..) _ _)
    exact sent

/-- The answer to the removal of a host whose fence walk has ended. -/
theorem mbDone_clearHost {c : Core} {ch : Nat} (hd : c.rot.detached.find? (fun d => decide (d.1 + 16 = ch)) = none) (h : Nat) :
    let d := mbDone ch stOk (clearHost h (closeHostOpens h (c.running ch)))
    d.host h = {} ∧ (d.mb ch).st = .done ∧ (d.mb ch).result = 0 := by
  have attached : (clearHost h (closeHostOpens h (c.running ch))).rot.detached.find? (fun d => decide (d.1 + 16 = ch)) = none := by
    rw [clearHost_detached, closeHostOpens_rot, running_rot, hd]
  have rest := mbDoneWith_rest attached stOk []
  dsimp only [mbDone]
  generalize mbDoneWith ch stOk [] [] (clearHost h (closeHostOpens h (c.running ch))) = d at rest
  have answered := (mb_of_rest rest ch).trans (Core.setMb_same ..)
  refine ⟨?_, by rw [answered]; rfl, by rw [answered]; rfl⟩
  exact (host_of_rest rest h).trans ((host_of_hosts (clearHost_hosts ..) h).trans (Core.setHost_same ..))

/-- The core of a fence decision before its messages, log entry and fault event. -/
def fenced (h : Nat) (c : Core) : Core :=
  (c.setHost h { c.host h with st := 1 }).modRot (fun r => { r with walks := r.walks.filter (fun w => decide (w.1 ≠ h)) ++ [(h, liveHomes c, 0, 0)] })

/-- A fence decision keeps what its control messages keep of the core that `rest` sees. -/
theorem fenceDecision_keeps {α : Type} (g : Core → α) (hg : ∀ d, g d.rest = g d) (hr : ∀ m d, g (ringPut m d) = g d) (h cause reason : Nat) (c : Core) :
    g (fenceDecision h cause reason c) = g (fenced h c) := by
  unfold fenceDecision
  dsimp only
  rw [← hg, faultEvent_rest, logE_rest, hg]
  exact (forEach_keeps g _ (fun _ _ => hr _ _) _).trans (forEach_keeps g _ (fun _ _ => hr _ _) _)

/-- The answer to the fencing of a host. -/
theorem mbDone_fenceDecision {c : Core} {ch : Nat} (hd : c.rot.detached.find? (fun d => decide (d.1 + 16 = ch)) = none) (h cause reason : Nat) :
    let d := mbDone ch stOk (fenceDecision h cause reason (c.running ch))
    d.host h = { c.host h with st := 1 } ∧ (h, liveHomes c, 0, 0) ∈ d.rot.walks ∧ d.mb ch = mbAnswer (c.mb ch) 0 := by
  have keeps {α : Type} (g : Core → α) (hg : ∀ d, g d.rest = g d) (hr : ∀ m d, g (ringPut m d) = g d) :=
    fenceDecision_keeps g hg hr h cause reason (c.running ch)
  have attached : (fenceDecision h cause reason (c.running ch)).rot.detached.find? (fun d => decide (d.1 + 16 = ch)) = none := by
    rw [keeps (fun d => d.rot.detached) (fun _ => rfl) (fun _ _ => rfl)]
    exact hd
  have mb : (fenceDecision h cause reason (c.running ch)).mb ch = { c.mb ch with st := .running, full := false } :=
    (keeps (fun d => d.mb ch) (fun _ => rfl) (fun _ _ => rfl)).trans (running_mb c ch)
  have hosts := keeps Core.hosts (fun _ => rfl) (fun _ _ => rfl)
  have walks := keeps (fun d => d.rot.walks) (fun _ => rfl) (fun _ _ => rfl)
  have rest := mbDoneWith_rest attached stOk []
  rw [mb] at rest
  dsimp only [mbDone]
  generalize mbDoneWith ch stOk [] [] (fenceDecision h cause reason (c.running ch)) = d at rest
  refine ⟨?_, ?_, (mb_of_rest rest ch).trans (Core.setMb_same ..)⟩
  · exact (host_of_rest rest h).trans ((host_of_hosts hosts h).trans (Core.setHost_same (c.running ch) h _))
  · rw [rest_walks rest]
    exact walks ▸ List.mem_append_right _ (List.mem_singleton_self _)

/-! ### What each request comes to, once taken with legal fields -/

section
variable {c : Core} {ch : Nat}

theorem fxHostAdmit_legal (h : taken c ch 0x005 7 = true) (hh : ptnHeld c (reqPtn c ch) = false) (hb : ptnBusy c (reqPtn c ch) = false)
    (h0 : reservedClear (reqData c ch 0) 0x3FFFF = true) (h1 : reservedClear (reqData c ch 1) 0x7FF = true)
    (hp : field (reqData c ch 1) 10 8 ∈ presentPorts c) (hd : (c.port (field (reqData c ch 1) 10 8)).cfg.getLsbD 4 = false)
    (ho : ownsGroup c (reqPtn c ch) (field (reqData c ch 1) 7 0) = true) :
    let p := reqPtn c ch
    let ep := BitVec.ofNat 18 (field (reqData c ch 0) 17 0)
    let n := field (reqData c ch 1) 10 8
    fxHostAdmit ch c =
      if c.hosts.any (fun k => k.2.valid && decide (k.2.ep = ep ∧ k.2.p = p)) then mbDone ch stDuplicateHost (c.running ch)
      else match (List.range 4096).find? (fun h => !(c.host h).valid) with
        | none => mbDone ch stHostTableFull (c.running ch)
        | some k => mbDoneWith ch stOk [] [(0, BitVec.ofNat 32 k)]
            (withHost k { ep := ep, p := p, group := field (reqData c ch 1) 7 0, valid := true, st := 0, port := n } (c.running ch)) := by
  have present : (presentPorts c).contains (field (reqData c ch 1) 10 8) = true := by simpa using hp
  simp only [fxHostAdmit, takeRequest_taken h, running_reqPtn, running_reqData, running_ptnHeld, running_presentPorts, running_get_port,
    running_ptnBusy, running_ownsGroup, running_hosts, running_get_host, unlessBusy, hh, hb, h0, h1, hd, ho, present, Bool.not_true,
    Bool.false_eq_true, or_self, if_false]
  cases (List.range 4096).find? (fun h => !(c.host h).valid) <;> rfl

theorem fxHostRemove_legal (h : taken c ch 0x006 7 = true) (hb : ptnBusy c (reqPtn c ch) = false) (h0 : reservedClear (reqData c ch 0) 0xFFF = true)
    (hv : (c.host (field (reqData c ch 0) 11 0)).valid = true) (hp : (c.host (field (reqData c ch 0) 11 0)).p = reqPtn c ch) :
    let k := field (reqData c ch 0) 11 0
    fxHostRemove ch c =
      if (c.host k).st = 1 ∧ !c.rot.walks.any (fun w => decide (w.1 = k)) then mbDone ch stOk (clearHost k (closeHostOpens k (c.running ch)))
      else startAction (removing (some ch) (reqPtn c ch) k)
        (if (c.host k).st = 1 then c.running ch else (c.running ch).setHost k { c.host k with st := 2 }) := by
  simp only [fxHostRemove, takeRequest_taken h, running_reqPtn, running_reqData, running_get_host, running_ptnBusy, running_rot, unlessBusy, hb, h0,
    hv, hp, Bool.not_true, Bool.false_eq_true, ne_eq, not_true_eq_false, or_self, if_false]
  rfl

theorem fxHostFence_legal (h : taken c ch 0x007 3 = true) (h0 : reservedClear (reqData c ch 0) 0xFFF = true)
    (h1 : reservedClear (reqData c ch 1) 0xFF = true) (hv : (c.host (field (reqData c ch 0) 11 0)).valid = true)
    (hp : (c.host (field (reqData c ch 0) 11 0)).p = reqPtn c ch) :
    let k := field (reqData c ch 0) 11 0
    fxHostFence ch c =
      if (c.host k).st = 1 then mbDone ch stAlreadyFenced (c.running ch)
      else mbDone ch stOk (fenceDecision k 2 (field (reqData c ch 1) 7 0) (c.running ch)) := by
  simp only [fxHostFence, takeRequest_taken h, running_reqPtn, running_reqData, running_get_host, h0, h1, hv, hp, Bool.not_true, Bool.false_eq_true,
    ne_eq, not_true_eq_false, or_self, if_false]
end

/-! ### Expired grants (R51, R58) -/

/-- The core once the running count of an entry is cleared, and the expiry noted. -/
def expiring (p i : Nat) (c : Core) : Core :=
  let x := c.masterExt p i
  (setMaster p i { x with ms := 0, msSlots := 0, msAll := false } c).modRot (fun r => { r with
    expired := r.expired.filter (fun q => decide (q.2.2.2 = c.evc.tick)) ++ [(p, i, coveredGroups x, c.evc.tick)] })

section
variable {c : Core} {p i : Nat}

theorem fxGrantExpiry_counted (hup : rotUp c = true) (hv : (c.masterExt p i).valid = true) (hms : (c.masterExt p i).ms ≠ 0) :
    fxGrantExpiry p i c =
      if ptnBusy c p then (expiring p i c).modRot (fun r => { r with queued := r.queued ++ [(p, i, coveredGroups (c.masterExt p i))] })
      else revokeExpired p i (coveredGroups (c.masterExt p i)) (expiring p i c) := by
  have busy : ptnBusy (expiring p i c) p = ptnBusy c p :=
    Eq.trans rfl (ptnBusy_of_rot (setMaster_rot p i { c.masterExt p i with ms := 0, msSlots := 0, msAll := false } c) p)
  have ready : ¬((!rotUp c) = true ∨ (!(c.masterExt p i).valid) = true ∨ (c.masterExt p i).ms = 0) := by simp [hup, hv, hms]
  rw [← busy]
  unfold fxGrantExpiry
  dsimp only
  rw [if_neg ready, setMaster_evc]
  rfl

theorem expiring_actionOf (p i : Nat) (c : Core) (q : Nat) : actionOf (expiring p i c) q = actionOf c q := actionOf_of_rot (setMaster_rot ..) q

theorem expiring_glb (p i : Nat) (c : Core) : (expiring p i c).glb = c.glb := setMaster_glb ..

theorem expiring_masterExt (p i : Nat) (c : Core) :
    (expiring p i c).masterExt p i = { c.masterExt p i with ms := 0, msSlots := 0, msAll := false } := setMaster_masterExt ..

/-- A grant of all groups that has expired is revoked. -/
theorem revokeExpired_all {gs : List Nat} (hv : (c.masterExt p i).valid = true) (hg : gs.contains 256 = true) (ha : (c.masterExt p i).allGrp = true) :
    revokeExpired p i gs c = startRevoke none p i (dropAll (c.masterExt p i)) (groupsOf c p) false false false c := by
  simp only [revokeExpired, hv, hg, ha, Bool.not_true, Bool.false_eq_true, if_false, if_true]

/-- Slots whose grants have expired are revoked. -/
theorem revokeExpired_slots {gs : List Nat} (hv : (c.masterExt p i).valid = true) (hg : 256 ∉ gs)
    (hs : (c.masterExt p i).slots.any (fun s => gs.contains s.1 && decide (s.2 ≠ 0)) = true) :
    revokeExpired p i gs c = startRevoke none p i (dropSlots (c.masterExt p i) gs) gs false false false c := by
  have hg' : gs.contains 256 = false := by simpa using hg
  simp only [revokeExpired, hv, hg', hs, Bool.not_true, Bool.false_eq_true, if_false, if_true]
end

/-- A slot that the running count covers holds a grant of a covered group. -/
theorem coveredGroups_slot {x : Ext} (ha : x.msAll = false) (hc : coveredGroups x ≠ []) :
    x.slots.any (fun s => (coveredGroups x).contains s.1 && decide (s.2 ≠ 0)) = true := by
  obtain ⟨g, hg⟩ := List.exists_mem_of_ne_nil _ hc
  have hg' := hg
  simp only [coveredGroups, ha, Bool.false_eq_true, if_false, List.mem_map, List.mem_filter, Bool.and_eq_true, decide_eq_true_eq] at hg'
  obtain ⟨⟨s, j⟩, ⟨hmem, -, hne⟩, rfl⟩ := hg'
  exact List.any_eq_true.2 ⟨s, List.fst_mem_of_mem_zipIdx hmem, by simpa using ⟨hg, hne⟩⟩

theorem graceful (i : Nat) {gs : List Nat} {n : BitVec 32} (a : Action) (h5 : a.await = [5]) (hi : a.i = i) (_ : a.groups = gs)
    (hf : a.forced = false) (_ : a.lower = false) (_ : a.seq = n) : a.i = i ∧ a.forced = false ∧ a.await = [5] := ⟨hi, hf, h5⟩

/-- Settles O31: each request by its equation above, and what the action that it starts does first. -/
theorem hostRequestsAndExpiry : Obligations.HostRequestsAndExpiry := by
  unfold Obligations.HostRequestsAndExpiry
  intro s ch hok
  dsimp only
  refine ⟨?admission, ?remove, ?fence, ?expiry, ?queued⟩
  case admission =>
    intro h hh hb h0 h1 hp hd ho
    have run := fxHostAdmit_legal h hh hb h0 h1 hp hd ho
    refine ⟨fun dup => answered_of_core hok h (run.trans (if_pos dup)), fun k new hk free lower => ?_⟩
    have found : (List.range 4096).find? (fun h => !(s.dev.core.host h).valid) = some k :=
      List.find?_range_eq_some.2 ⟨by simp [free], by simpa using hk, fun j hj => by simp [lower j hj]⟩
    dsimp only at run
    rw [if_neg (Bool.eq_false_iff.1 new), found] at run
    refine ⟨_, actCore_of_ok hok _, s.keeps_withCore _, ?_⟩
    rw [State.withCore_core, run]
    exact mbDoneWith_withHost (taken_not_detached h) k _
  case remove =>
    intro h hb h0 hv hp
    have run := fxHostRemove_legal h hb h0 hv hp
    have free : actionOf (s.dev.core.running ch) (reqPtn s.dev.core ch) = none := actionOf_of_ptnBusy hb
    refine ⟨fun hst => ?_, fun hst hw => ?_⟩
    · have hr : s.dev.core.glb.restarting = false := rotUp_restarting (taken_rotUp h)
      dsimp only at run
      rw [if_neg (fun k => hst k.1), if_neg hst] at run
      obtain ⟨hosts, a, found, kind, chan, step, host, await⟩ := startAction_removal
        (c := (s.dev.core.running ch).setHost (field (reqData s.dev.core ch 0) 11 0)
          { s.dev.core.host (field (reqData s.dev.core ch 0) 11 0) with st := 2 })
        (h := field (reqData s.dev.core ch 0) 11 0) free hr (some ch)
      rw [← run] at hosts found
      refine ⟨_, actCore_of_ok hok _, s.keeps_withCore _, ?_, a, found, kind, chan, step, host, await⟩
      rw [State.withCore_core, host_of_hosts hosts]
      exact congrArg HostEnt.st (Core.setHost_same ..)
    · have ended : (s.dev.core.rot.walks.any fun w => decide (w.1 = field (reqData s.dev.core ch 0) 11 0)) = false := by
        simpa using hw
      have run := run.trans (if_pos ⟨hst, by rw [ended]; rfl⟩)
      refine ⟨_, actCore_of_ok hok _, s.keeps_withCore _, ?_⟩
      rw [State.withCore_core, run]
      exact mbDone_clearHost (taken_not_detached h) _
  case fence =>
    intro h h0 h1 hv hp
    have run := fxHostFence_legal h h0 h1 hv hp
    refine ⟨fun hst => ?_, fun hst => answered_of_core hok h (run.trans (if_pos hst))⟩
    refine ⟨_, actCore_of_ok hok _, s.keeps_withCore _, ?_⟩
    rw [State.withCore_core, run.trans (if_neg hst)]
    exact mbDone_fenceDecision (taken_not_detached h) ..
  case expiry =>
    intro q i hup hv hms
    have run := fxGrantExpiry_counted hup hv hms
    refine ⟨fun hb => ?_, fun hb hcov => ?_⟩
    · exact (actCore_of_ok hok _).trans (congrArg (fun d => Host.Outcome.next (s.withCore d)) (run.trans (if_pos hb)))
    · have free : actionOf (expiring q i s.dev.core) q = none := (expiring_actionOf ..).trans (actionOf_of_ptnBusy hb)
      have hr : (expiring q i s.dev.core).glb.restarting = false := expiring_glb q i s.dev.core ▸ rotUp_restarting hup
      have entry := expiring_masterExt q i s.dev.core
      have run := run.trans (if_neg (Bool.eq_false_iff.1 hb))
      have valid : ((expiring q i s.dev.core).masterExt q i).valid = true := by rw [entry]; exact hv
      rcases hcov with ⟨hm, ha⟩ | ⟨hm, hne, hall⟩
      · obtain ⟨u, hu, keeps, -, entry', started⟩ := started_revoke hok free hr
          (run.trans (revokeExpired_all valid (by simp [coveredGroups, hm]) (by rw [entry]; exact ha))) (graceful i)
        exact ⟨u, hu, keeps, by rw [entry'], by rw [entry']; rfl, started⟩
      · obtain ⟨u, hu, keeps, -, entry', started⟩ := started_revoke hok free hr
          (run.trans (revokeExpired_slots valid hall (by rw [entry]; exact coveredGroups_slot hm hne))) (graceful i)
        refine ⟨u, hu, keeps, by rw [entry'], ?_, started⟩
        rw [entry', entry]
        exact ite_self _
  case queued =>
    intro q i gs hup hfree hq hv hall hany
    have hr : s.dev.core.glb.restarting = false := rotUp_restarting hup
    have run : fxQueuedRevocationStart q s.dev.core = revokeExpired q i gs (s.dev.core.modRot (fun r => { r with queued := r.queued.erase (q, i, gs) })) := by
      simp only [fxQueuedRevocationStart, hup, hfree, hq, Option.isSome_none, Bool.not_true, Bool.false_eq_true, or_self, if_false]
    obtain ⟨u, hu, keeps, queue, entry, started⟩ := started_revoke
      (c := s.dev.core.modRot (fun r => { r with queued := r.queued.erase (q, i, gs) })) hok hfree hr (run.trans (revokeExpired_slots hv hall hany))
      (fun a _ hi hgs _ _ _ => (⟨hi, hgs⟩ : a.i = _ ∧ a.groups = _))
    exact ⟨u, hu, keeps, queue, entry, started⟩

end Sys2Proof.Machine
end

section
/-! SUPPORT. A request at a port's ingress, and the port's own answers (R40–R44, R88, R306, R418–R422). -/

namespace Sys2Proof.Machine
open Sys2Proof

theorem port_of_rest {c d : Core} (h : d.rest = c.rest) (n : Nat) : d.port n = c.port n := by simp only [Core.port, rest_ports h]

theorem ptn_of_rest {c d : Core} (h : d.rest = c.rest) (p : Nat) : d.ptn p = c.ptn p := by simp only [Core.ptn, rest_ptns h]

theorem mirr_of_rest {c d : Core} (h : d.rest = c.rest) (p : Nat) : d.mirr p = c.mirr p := by simp only [Core.mirr, rest_mirrs h]

/-! ### A port that takes a request -/

/-- What the taking of a request leaves alone at its port. -/
def Port.standing (x : Port) : Bool × List EgPkt × Table Ext × BitVec 16 × List Nat := (x.linked, x.answers, x.ext, x.stackFailed, x.fence)

/-- From `c` to `d` port `n` took a request and metered it: else only log, interrupts, counters and freezes differ. -/
structure TakenAt (n : Nat) (c d : Core) : Prop where
  rest : d.rest = (c.setPort n (d.port n)).rest
  port : (d.port n).standing = (c.port n).standing

section
variable {n : Nat} {c d : Core}

theorem TakenAt.linked (h : TakenAt n c d) : (d.port n).linked = (c.port n).linked := congrArg (fun x => x.1) h.port
theorem TakenAt.answers (h : TakenAt n c d) : (d.port n).answers = (c.port n).answers := congrArg (fun x => x.2.1) h.port
theorem TakenAt.ext (h : TakenAt n c d) : (d.port n).ext = (c.port n).ext := congrArg (fun x => x.2.2.1) h.port
theorem TakenAt.stackFailed (h : TakenAt n c d) : (d.port n).stackFailed = (c.port n).stackFailed := congrArg (fun x => x.2.2.2.1) h.port
theorem TakenAt.fence (h : TakenAt n c d) : (d.port n).fence = (c.port n).fence := congrArg (fun x => x.2.2.2.2) h.port

theorem TakenAt.keeps (h : TakenAt n c d) {α : Type} (g : Core → α) (hg : ∀ d, g d.rest = g d) (hs : ∀ x, g (c.setPort n x) = g c) : g d = g c := by
  rw [← hg d, h.rest, hg, hs]

theorem TakenAt.counted (h : TakenAt n c d) (cls i ev k : Nat) (p : Option Nat) : TakenAt n c (countEvent cls i ev k p d) := by
  have port : (countEvent cls i ev k p d).port n = d.port n := port_of_rest (countEvent_rest ..) n
  exact ⟨by rw [countEvent_rest, port, h.rest], by rw [port, h.port]⟩

theorem setPort_setPort (c : Core) (n : Nat) (x y : Port) : (c.setPort n x).setPort n y = c.setPort n y := by simp [Core.setPort]

theorem rest_setPort (c : Core) (n : Nat) (x : Port) : (c.setPort n x).rest = c.rest.setPort n x := rfl

theorem TakenAt.setPort (h : TakenAt n c d) {x : Port} (hx : x.standing = (d.port n).standing) : TakenAt n c (d.setPort n x) := by
  refine ⟨?_, by rw [Core.setPort_same, hx, h.port]⟩
  rw [Core.setPort_same, rest_setPort, h.rest, ← rest_setPort, setPort_setPort]

theorem TakenAt.refl (n : Nat) (c : Core) : TakenAt n c (c.setPort n (c.port n)) := ⟨by rw [Core.setPort_same], by rw [Core.setPort_same]⟩

theorem freeReqBuffer_port (n : Nat) (q : Req) (c : Core) :
    ∃ x : Port, freeReqBuffer n q c = c.setPort n x ∧ x.standing = (c.port n).standing ∧ x.meters = (c.port n).meters := by
  by_cases h : (c.port n).strays.contains q = true
  · exact ⟨_, congrArg (c.setPort n) (if_pos h), rfl, rfl⟩
  · exact ⟨_, congrArg (c.setPort n) (if_neg h), rfl, rfl⟩

theorem freeReqBuffer_taken (n : Nat) (q : Req) (c : Core) : TakenAt n c (freeReqBuffer n q c) := by
  obtain ⟨x, h, hx, -⟩ := freeReqBuffer_port n q c
  rw [h]
  exact ⟨by rw [Core.setPort_same], by rw [Core.setPort_same, hx]⟩

theorem freeReqBuffer_meters (n : Nat) (q : Req) (c : Core) : ((freeReqBuffer n q c).port n).meters = (c.port n).meters := by
  obtain ⟨x, h, -, hx⟩ := freeReqBuffer_port n q c
  rw [h, Core.setPort_same, hx]
end

/-! ### The port's own answers (R422) -/

/-- From `c` to `d` port `n` gave answer `m` of partition `p` itself: the packet is out and joined the answer queue. -/
structure PortGave (n p : Nat) (m : Cmp) (c d : Core) : Prop where
  mem : d.mem = c.mem
  homes : d.homes = c.homes
  tiles : d.tiles = c.tiles
  out : d.out.getLast? = some (.completion m)
  queue : (d.port n).answers = (c.port n).answers ++ [⟨p, .cmp m⟩]

/-- The core in which an answer's refusal has been counted. -/
def refusalCounted (o : Origin) (p : Nat) (a : Ans) (c : Core) : Core :=
  if a.op = opNackRevoked then countEvent 9 o.port 9 1 (some p) (c.modPtn p (fun x => { x with nackRevoked := x.nackRevoked + 1 }))
  else if a.op = opNackFenced then countEvent 9 o.port 10 1 (some p) c
  else c

section
variable (o : Origin) (p : Nat) (a : Ans) (c : Core)

theorem toEndpoint_eq (ep src : BitVec 18) : c.toEndpoint o ep src p a = (refusalCounted o p a c).send (.completion (cmpFor o ep src p a)) := rfl

theorem refusalCounted_keeps {α : Type} (g : Core → α) (hg : ∀ d, g d.rest = g d) (hs : ∀ q f d, g (Core.modPtn d q f) = g d) :
    g (refusalCounted o p a c) = g c := by
  unfold refusalCounted
  split
  · rw [← hg, countEvent_rest, hg, hs]
  · split
    · rw [← hg, countEvent_rest, hg]
    · rfl

theorem refusalCounted_revoked (h : a.op = opNackRevoked) : ((refusalCounted o p a c).ptn p).nackRevoked = (c.ptn p).nackRevoked + 1 := by
  unfold refusalCounted
  rw [if_pos h, ptn_of_rest (countEvent_rest ..)]
  exact congrArg Ptn.nackRevoked (Core.setPtn_same ..)

/-- The port's answer on a linked port. -/
theorem portAnswer_eq (q : Req) (h : (c.port o.port).linked = true) :
    let m := cmpFor o q.src q.dst p { a with ce := q.ce }
    portAnswer o q p a c =
      ((refusalCounted o p { a with ce := q.ce } c).send (.completion m)).setPort o.port
        { c.port o.port with answers := (c.port o.port).answers ++ [⟨p, .cmp m⟩] } := by
  have port : ((refusalCounted o p { a with ce := q.ce } c).send (.completion (cmpFor o q.src q.dst p { a with ce := q.ce }))).port o.port = c.port o.port :=
    refusalCounted_keeps o p _ c (fun d => d.port o.port) (fun _ => rfl) (fun _ _ _ => rfl)
  simp only [portAnswer, toEndpoint_eq, portQueue, port, h, egVc, Bool.not_true, Bool.false_eq_true, if_false, if_true, Nat.reduceEqDiff]

theorem portAnswer_keeps (q : Req) (h : (c.port o.port).linked = true) {α : Type} (g : Core → α) (hg : ∀ d, g d.rest = g d)
    (hp : ∀ q f d, g (Core.modPtn d q f) = g d) (hs : ∀ n x d, g (Core.setPort d n x) = g d) : g (portAnswer o q p a c) = g c := by
  rw [portAnswer_eq o p a c q h, hs, ← hg, send_rest, hg, refusalCounted_keeps o p _ c g hg hp]
end

section
variable {n : Nat} {c d : Core} (h : TakenAt n c d) (hl : (c.port n).linked = true) {o : Origin} (ho : o.port = n) (q : Req) (p : Nat) (a : Ans)
include h hl ho

theorem portAnswer_gave : PortGave n p (cmpFor o q.src q.dst p { a with ce := q.ce }) c (portAnswer o q p a d) := by
  subst ho
  have linked := h.linked.trans hl
  have keeps {α : Type} (g : Core → α) (hg : ∀ d, g d.rest = g d) (hp : ∀ q f d, g (Core.modPtn d q f) = g d) (hs : ∀ n x d, g (Core.setPort d n x) = g d) :=
    (portAnswer_keeps o p a d q linked g hg hp hs).trans (h.keeps g hg (hs _ · c))
  refine ⟨keeps Core.mem (fun _ => rfl) (fun _ _ _ => rfl) (fun _ _ _ => rfl), keeps Core.homes (fun _ => rfl) (fun _ _ _ => rfl) (fun _ _ _ => rfl),
    keeps Core.tiles (fun _ => rfl) (fun _ _ _ => rfl) (fun _ _ _ => rfl), ?_, ?_⟩
  · rw [portAnswer_eq o p a d q linked]
    exact List.getLast?_concat
  · rw [portAnswer_eq o p a d q linked, Core.setPort_same, h.answers]

theorem portAnswer_meters : ((portAnswer o q p a d).port n).meters = (d.port n).meters := by
  subst ho
  rw [portAnswer_eq o p a d q (h.linked.trans hl), Core.setPort_same]

theorem portAnswer_revoked (ha : a.op = opNackRevoked) : ((portAnswer o q p a d).ptn p).nackRevoked = (c.ptn p).nackRevoked + 1 := by
  subst ho
  rw [portAnswer_eq o p a d q (h.linked.trans hl)]
  have ptn : d.ptn p = c.ptn p := h.keeps (fun d => d.ptn p) (fun _ => rfl) (fun _ => rfl)
  rw [← ptn]
  exact refusalCounted_revoked o p _ d ha

theorem portAnswer_mirr : (portAnswer o q p a d).mirrs = c.mirrs := by
  subst ho
  exact (portAnswer_keeps o p a d q (h.linked.trans hl) Core.mirrs (fun _ => rfl) (fun _ _ _ => rfl) (fun _ _ _ => rfl)).trans
    (h.keeps Core.mirrs (fun _ => rfl) (fun _ => rfl))
end

/-! ### Steps 4 to 7 of R42, after the meter -/

/-- Port `n` answered request `q` itself, from state `s` to `u`: for host `h` of partition `pt`. -/
def portAnswered (s : State) (n : Nat) (q : Req) (u : State) (pt h : Nat) (op : BitVec 6) (reason : BitVec 4) (ce poison : Bool) (b : BitVec 16) : Prop :=
  let c := s.dev.core
  let m : Cmp := ⟨pt, h, q.src, q.dst, n, op, 0, poison, ce, reason, q.tag, b, 0, q.cls, 0⟩
  s.keeps u ∧ u.dev.core.mem = c.mem ∧ u.dev.core.homes = c.homes ∧ u.dev.core.tiles = c.tiles ∧
  u.dev.core.out.getLast? = some (.completion m) ∧ (u.dev.core.port n).answers = (c.port n).answers ++ [⟨pt, .cmp m⟩]

/-- The origin of a request at port `n`. -/
def portOrigin (n h : Nat) (q : Req) : Origin := ⟨1, h, q.tag, n, 0, none, q.cls⟩

/-- A request that its meter let pass is refused by its address, answered for a failed stack, or sent to its home, from state `s` to `u`. -/
def routed (s : State) (n : Nat) (q : Req) (pt h : Nat) (u : State) (yellow : Bool) : Prop :=
  let c := s.dev.core
  let p := c.port n
  let ce := q.ce || yellow
  let i := plaExt q.pla
  let x := tget ({} : Ext) (pt * 1024 + i) p.ext
  let e := (c.place (x.ppa * 2 ^ 30 + q.pla.toNat % 2 ^ 30)).1
  i ≤ 1022 →
    (895 < i ∨ x.valid = false → portAnswered s n q u pt h 0x39 3 ce false 0 ∧
      (u.dev.core.ptn pt).nackRevoked = (c.ptn pt).nackRevoked + 1) ∧
    (i ≤ 895 → x.valid = true → x.typ = 3 → portAnswered s n q u pt h 0x39 4 ce false 0) ∧
    (i ≤ 895 → x.valid = true → x.typ ≠ 3 → q.op ≠ 10 → grants x (c.host h).group (needsWrite q.op) = false →
      portAnswered s n q u pt h 0x39 2 ce false 0) ∧
    (i ≤ 895 → x.valid = true → x.typ ≠ 3 → q.op = 10 ∨ grants x (c.host h).group (needsWrite q.op) = true →
      (p.stackFailed.getLsbD e = true → isWrite q.op = true ∨ q.op = 10 → portAnswered s n q u pt h 0x31 0 ce false 0) ∧
      (p.stackFailed.getLsbD e = true → isWrite q.op = false → q.op ≠ 10 → portAnswered s n q u pt h 0x30 0 ce true 0) ∧
      (p.stackFailed.getLsbD e = false → c.mirrored pt = false ∨ isWrite q.op = false →
        u.dev.core.out.getLast? = some (.toHome e (portOrigin n h q) { q with ce := ce })))

theorem reservedOp_of_requestOp {op : BitVec 6} (h : requestOp op = true) : reservedOp op = false := by
  revert op
  decide

section
variable {s : State} {n : Nat} {d : Core} (h : TakenAt n s.dev.core d) (hl : (s.dev.core.port n).linked = true) (q : Req)
include h hl

theorem portAnswer_answered (p k : Nat) (op : BitVec 6) (reason : BitVec 4) (ce poison : Bool) (b : BitVec 16) :
    portAnswered s n q (s.withCore (portAnswer (portOrigin n k q) { q with ce := ce } p { op := op, reason := reason, poison := poison, backoff := b } d))
      p k op reason ce poison b := by
  obtain ⟨mem, homes, tiles, out, queue⟩ := portAnswer_gave h hl (o := portOrigin n k q) rfl { q with ce := ce } p
    { op := op, reason := reason, poison := poison, backoff := b }
  exact ⟨s.keeps_withCore _, mem, homes, tiles, out, queue⟩

theorem ingressRoute_meters (p k : Nat) : ((ingressRoute n p k (portOrigin n k q) q d).port n).meters = (d.port n).meters := by
  have answer (a : Ans) := portAnswer_meters h hl (o := portOrigin n k q) rfl q p a
  unfold ingressRoute
  dsimp only
  split
  · split
    · exact answer _
    · split
      · exact answer _
      · rfl
  · split
    · exact answer _
    · split
      · exact answer _
      · split
        · exact answer _
        · split
          · split <;> exact answer _
          · rfl

omit hl in
/-- A request outside the window, by the port's extent table. -/
theorem ingressRoute_extent (p k : Nat) (ce : Bool) (ho : requestOp q.op = true) (hi : plaExt q.pla ≤ 1022) :
    let c := s.dev.core
    let o := portOrigin n k q
    let q' := { q with ce := ce }
    let x := tget ({} : Ext) (p * 1024 + plaExt q.pla) (c.port n).ext
    let e := (c.place (x.ppa * 2 ^ 30 + q.pla.toNat % 2 ^ 30)).1
    ingressRoute n p k o q' d =
      if 895 < plaExt q.pla ∨ x.valid = false then portAnswer o q' p { op := opNackRevoked, reason := 3 } d
      else if x.typ = 3 then portAnswer o q' p { op := opNackRevoked, reason := 4 } d
      else if q.op ≠ 10 ∧ grants x (c.host k).group (needsWrite q.op) = false then portAnswer o q' p { op := opNackRevoked, reason := 2 } d
      else if (c.port n).stackFailed.getLsbD e then
        if isWrite q.op = true ∨ q.op = 10 then portAnswer o q' p { op := opCmp } d else portAnswer o q' p { op := opCmpData, poison := true } d
      else d.send (if c.mirrored p && isWrite q.op then .toMirror p o q' else .toHome e o q') := by
  have place (a : Nat) : d.place a = s.dev.core.place a := h.keeps (fun d => d.place a) (fun _ => rfl) (fun _ => rfl)
  have host : d.host k = s.dev.core.host k := h.keeps (fun d => d.host k) (fun _ => rfl) (fun _ => rfl)
  have mir : d.mirrored p = s.dev.core.mirrored p := h.keeps (fun d => d.mirrored p) (fun _ => rfl) (fun _ => rfl)
  have window : inWindow q.pla = false := by simp [inWindow]; omega
  simp only [ingressRoute, h.ext, h.stackFailed, place, host, mir, window, ho, reservedOp_of_requestOp ho, Bool.false_eq_true, if_false,
    Bool.not_eq_true', Bool.not_false, true_and, Bool.and_true, Bool.or_eq_true, decide_eq_true_eq, ne_eq]

theorem ingressRoute_routed (p k : Nat) (yellow : Bool) (ho : requestOp q.op = true) :
    routed s n q p k (s.withCore (ingressRoute n p k (portOrigin n k q) { q with ce := q.ce || yellow } d)) yellow := by
  have run := ingressRoute_extent h q p k (q.ce || yellow) ho
  have answered := portAnswer_answered h hl q p k
  unfold routed
  intro c pt ce i x e hi
  specialize run hi
  rw [State.withCore_core, run]
  refine ⟨fun hx => ?_, fun hle hv ht => ?_, fun hle hv ht hop hg => ?_, fun hle hv ht hg => ⟨fun hf hop => ?_, fun hf hw hop => ?_, fun hf hm => ?_⟩⟩
  · rw [if_pos hx]
    exact ⟨answered .., portAnswer_revoked h hl rfl _ p _ rfl⟩
  all_goals rw [if_neg (not_or.2 ⟨Nat.not_lt.2 hle, ne_false_of_eq_true hv⟩)]
  · rw [if_pos ht]
    exact answered ..
  all_goals rw [if_neg ht]
  · rw [if_pos ⟨hop, hg⟩]
    exact answered ..
  all_goals rw [if_neg (fun k => hg.elim k.1 (fun g => ne_false_of_eq_true g k.2))]
  · rw [if_pos hf, if_pos hop]
    exact answered ..
  · rw [if_pos hf, if_neg (not_or.2 ⟨ne_true_of_eq_false hw, hop⟩)]
    exact answered ..
  · have home : ¬(c.mirrored p && isWrite q.op) = true := by
      rw [Bool.and_eq_true_iff]
      exact fun k => hm.elim (fun m => ne_true_of_eq_false m k.1) (fun m => ne_true_of_eq_false m k.2)
    rw [if_neg (ne_true_of_eq_false hf), if_neg home]
    exact List.getLast?_concat
end

/-! ### The meter's colour (R418–R420) -/

section
variable {m : Meter} {el : Nat} {evict : Bool}

theorem colour_off (h : m.en = false) : m.colour el evict = (0, { m with green := m.green + 1 }) := by simp [Meter.colour, h]

section
variable (h : m.en = true)
include h

theorem colour_red (hp : (m.accrue el).p.tok < meterBytes) : m.colour el false = (2, { m.accrue el with red := (m.accrue el).red + 1 }) := by
  simp [Meter.colour, h, hp]

theorem colour_evict (hp : (m.accrue el).p.tok < meterBytes) : m.colour el true = (1, { m.accrue el with yellow := (m.accrue el).yellow + 1 }) := by
  simp [Meter.colour, h, hp]

theorem colour_yellow (hp : meterBytes ≤ (m.accrue el).p.tok) (hc : (m.accrue el).c.tok < meterBytes) :
    m.colour el evict = (1, { m.accrue el with yellow := (m.accrue el).yellow + 1,
                                               p := { (m.accrue el).p with tok := (m.accrue el).p.tok - meterBytes } }) := by
  simp [Meter.colour, h, Nat.not_lt.2 hp, hc]

theorem colour_green (hp : meterBytes ≤ (m.accrue el).p.tok) (hc : meterBytes ≤ (m.accrue el).c.tok) :
    m.colour el evict = (0, { m.accrue el with green := (m.accrue el).green + 1, p := { (m.accrue el).p with tok := (m.accrue el).p.tok - meterBytes },
                                               c := { (m.accrue el).c with tok := (m.accrue el).c.tok - meterBytes } }) := by
  simp [Meter.colour, h, Nat.not_lt.2 hp, Nat.not_lt.2 hc]
end
end

/-! ### Steps 1 to 3 of R42 -/

/-- Port `n` charged meter `k` for a request of partition `p` and counted its colour. -/
def metered (n k p col : Nat) (m : Meter) (c : Core) : Core :=
  countEvent 9 n (6 + col) 1 (some p) (c.modPort n (fun x => { x with meters := tput {} k m x.meters }))

section
variable {n : Nat} {c d : Core}

theorem TakenAt.metered (h : TakenAt n c d) (k p col : Nat) (m : Meter) : TakenAt n c (metered n k p col m d) :=
  (h.setPort (x := { d.port n with meters := tput {} k m (d.port n).meters }) rfl).counted ..

theorem metered_meter (k p col : Nat) (m : Meter) (c : Core) : tget {} k ((Sys2Proof.Machine.metered n k p col m c).port n).meters = m := by
  unfold Sys2Proof.Machine.metered
  rw [port_of_rest (countEvent_rest ..), Core.modPort, Core.setPort_same, tget_tput_same]

theorem fxIngress_taken (hr : portRuns c n = true) (q : Req) (el : Nat) (hl : (c.port n).linked = true) (hm : (c.port n).mirrorRole = false)
    (ha : (c.port n).answers.length < 64) (ho : requestOp q.op = true) :
    fxIngress n q el c =
      if c.ust 9 n ≠ .serving then portAnswer (portOrigin n 4096 q) q 0 { op := opNackFenced, reason := 7 } (freeReqBuffer n q c)
      else ingressChecks n q el (freeReqBuffer n q c) := by
  simp only [fxIngress, hr, hl, hm, ho, Nat.not_le.2 ha, Bool.not_true, Bool.true_or, Bool.false_eq_true, or_self, if_false]
  rfl

/-- The checks of R42 in their order. -/
theorem ingressChecks_eq (h : TakenAt n c d) (q : Req) (el : Nat) :
    ingressChecks n q el d =
      match ptnOfEp c q.dst with
      | none => portAnswer (portOrigin n 4096 q) q 0 { op := opNackFenced, reason := 7 } d
      | some p =>
        let o := portOrigin n ((hostOfEp c p q.src).getD 4096) q
        if c.mirrored p && !holderServes (c.mirr p) then
          portAnswer o q p { op := opNackFenced, reason := 7 } (d.modMirr p (fun m => { m with notHolder := m.notHolder + 1 }))
        else if (c.ptn p).hostsFenced && decide (q.op ≠ 10) then portAnswer o q p { op := opNackFenced, reason := 6 } d
        else match hostOfEp c p q.src with
          | none => portAnswer o q p { op := opNackFenced, reason := 6 } d
          | some k =>
            if (c.host k).st ≠ 0 ∨ (c.port n).fence.contains k then
              if q.op = 10 then d else portAnswer o q p { op := opNackFenced, reason := 6 } d
            else
              let i := meterOf (c.host k).group q.op
              let col := (tget ({} : Meter) i (d.port n).meters).colour el (decide (q.op = 10))
              if col.1 = 2 then portAnswer o q p { op := opNackRetry, reason := 1, backoff := meterBackoff c.tmgr col.2 } (metered n i p col.1 col.2 d)
              else ingressRoute n p k o { q with ce := q.ce || decide (col.1 = 1) } (metered n i p col.1 col.2 d) := by
  have keeps {α : Type} (g : Core → α) (hg : ∀ d, g d.rest = g d) (hs : ∀ x, g (c.setPort n x) = g c) : g d = g c := h.keeps g hg hs
  unfold ingressChecks
  rw [keeps (fun d => ptnOfEp d q.dst) (fun _ => rfl) (fun _ => rfl)]
  cases ptnOfEp c q.dst with
  | none => rfl
  | some p =>
    dsimp only
    rw [keeps (fun d => d.mirrored p) (fun _ => rfl) (fun _ => rfl), keeps (fun d => d.mirr p) (fun _ => rfl) (fun _ => rfl),
      keeps (fun d => d.ptn p) (fun _ => rfl) (fun _ => rfl), keeps (fun d => hostOfEp d p q.src) (fun _ => rfl) (fun _ => rfl)]
    cases hostOfEp c p q.src with
    | none => rfl
    | some k =>
      have tmgr := (h.metered (meterOf (c.host k).group q.op) p ((tget ({} : Meter) (meterOf (c.host k).group q.op) (d.port n).meters).colour el
        (decide (q.op = 10))).1 ((tget ({} : Meter) (meterOf (c.host k).group q.op) (d.port n).meters).colour el (decide (q.op = 10))).2).keeps
        Core.tmgr (fun _ => rfl) (fun _ => rfl)
      dsimp only
      rw [keeps (fun d => d.host k) (fun _ => rfl) (fun _ => rfl), h.fence, ← tmgr]
      rfl
end

theorem TakenAt.setMirr {n : Nat} {c d : Core} (h : TakenAt n c d) (p : Nat) (x : Mirr) : TakenAt n (c.setMirr p x) (d.setMirr p x) :=
  ⟨congrArg (fun e => { e with mirrs := tput {} p x e.mirrs }) h.rest, h.port⟩

/-! ### A request taken whole -/

section
variable {s : State} {n : Nat} {q : Req} {el : Nat} (hok : s.ok = true) (hr : portRuns s.dev.core n = true) (hl : (s.dev.core.port n).linked = true)
  (hm : (s.dev.core.port n).mirrorRole = false) (ha : (s.dev.core.port n).answers.length < 64) (ho : requestOp q.op = true)
include hok hr hl hm ha ho

/-- What a serving port does with a request of partition `p`, by the checks of R42. -/
theorem requestIngress_checked {p : Nat} (hs : s.dev.core.ust 9 n = .serving) (hp : ptnOfEp s.dev.core q.dst = some p) :
    let c := s.dev.core
    let d := freeReqBuffer n q c
    let o := portOrigin n ((hostOfEp c p q.src).getD 4096) q
    exec (.requestIngress n q el) s = .next (s.withCore
      (if c.mirrored p && !holderServes (c.mirr p) then
        portAnswer o q p { op := opNackFenced, reason := 7 } (d.modMirr p (fun m => { m with notHolder := m.notHolder + 1 }))
      else if (c.ptn p).hostsFenced && decide (q.op ≠ 10) then portAnswer o q p { op := opNackFenced, reason := 6 } d
      else match hostOfEp c p q.src with
        | none => portAnswer o q p { op := opNackFenced, reason := 6 } d
        | some k =>
          if (c.host k).st ≠ 0 ∨ (c.port n).fence.contains k then
            if q.op = 10 then d else portAnswer o q p { op := opNackFenced, reason := 6 } d
          else
            let i := meterOf (c.host k).group q.op
            let col := (tget ({} : Meter) i (c.port n).meters).colour el (decide (q.op = 10))
            if col.1 = 2 then portAnswer o q p { op := opNackRetry, reason := 1, backoff := meterBackoff c.tmgr col.2 } (metered n i p col.1 col.2 d)
            else ingressRoute n p k o { q with ce := q.ce || decide (col.1 = 1) } (metered n i p col.1 col.2 d))) := by
  have run := (fxIngress_taken hr q el hl hm ha ho).trans ((if_neg (not_not.2 hs)).trans (ingressChecks_eq (freeReqBuffer_taken n q s.dev.core) q el))
  rw [hp, freeReqBuffer_meters] at run
  exact (actCore_of_ok hok _).trans (congrArg (fun d => Host.Outcome.next (s.withCore d)) run)

section
variable {p k : Nat} (hs : s.dev.core.ust 9 n = .serving) (hp : ptnOfEp s.dev.core q.dst = some p)
  (hmir : s.dev.core.mirrored p = true → holderServes (s.dev.core.mirr p) = true) (hf : (s.dev.core.ptn p).hostsFenced = false ∨ q.op = 10)
  (hh : hostOfEp s.dev.core p q.src = some k) (hst : (s.dev.core.host k).st = 0) (hfe : k ∉ (s.dev.core.port n).fence) {col : Nat} {m : Meter}
  (hcol : (tget ({} : Meter) (meterOf (s.dev.core.host k).group q.op) (s.dev.core.port n).meters).colour el (decide (q.op = 10)) = (col, m))
include hs hp hmir hf hh hst hfe hcol

/-- What becomes of the request of an admitted host, once it has met its meter. -/
theorem requestIngress_coloured :
    let d := metered n (meterOf (s.dev.core.host k).group q.op) p col m (freeReqBuffer n q s.dev.core)
    exec (.requestIngress n q el) s = .next (s.withCore
      (if col = 2 then portAnswer (portOrigin n k q) q p { op := opNackRetry, reason := 1, backoff := meterBackoff s.dev.core.tmgr m } d
      else ingressRoute n p k (portOrigin n k q) { q with ce := q.ce || decide (col = 1) } d)) := by
  have unfenced : ¬((s.dev.core.ptn p).hostsFenced && decide (q.op ≠ 10)) = true := by rcases hf with h | h <;> simp [h]
  have holder : ¬(s.dev.core.mirrored p && !holderServes (s.dev.core.mirr p)) = true := by
    simp only [Bool.and_eq_true, Bool.not_eq_true', not_and, Bool.not_eq_false]
    exact hmir
  have admitted : ¬((s.dev.core.host k).st ≠ 0 ∨ (s.dev.core.port n).fence.contains k = true) := by simp [hst, hfe]
  refine (requestIngress_checked hok hr hl hm ha ho hs hp).trans ?_
  dsimp only
  rw [if_neg holder, if_neg unfenced, hh]
  dsimp only
  rw [if_neg admitted, hcol]
  rfl

/-- A green or yellow request goes on, and its meter is charged. -/
theorem requestIngress_passes (hc : col ≠ 2) :
    ∃ u, exec (.requestIngress n q el) s = .next u ∧ routed s n q p k u (decide (col = 1)) ∧
      tget {} (meterOf (s.dev.core.host k).group q.op) (u.dev.core.port n).meters = m := by
  have taken := (freeReqBuffer_taken n q s.dev.core).metered (meterOf (s.dev.core.host k).group q.op) p col m
  have run := requestIngress_coloured hok hr hl hm ha ho hs hp hmir hf hh hst hfe hcol
  dsimp only at run
  rw [if_neg hc] at run
  refine ⟨_, run, ingressRoute_routed taken hl q p k _ ho, ?_⟩
  rw [State.withCore_core]
  exact (congrArg (tget {} _) (ingressRoute_meters taken hl { q with ce := q.ce || decide (col = 1) } p k)).trans (metered_meter ..)

/-- A red request is refused, and its meter counts it. -/
theorem requestIngress_red (hc : col = 2) :
    ∃ u, exec (.requestIngress n q el) s = .next u ∧ portAnswered s n q u p k 0x38 1 q.ce false (meterBackoff s.dev.core.tmgr m) ∧
      tget {} (meterOf (s.dev.core.host k).group q.op) (u.dev.core.port n).meters = m := by
  have taken := (freeReqBuffer_taken n q s.dev.core).metered (meterOf (s.dev.core.host k).group q.op) p col m
  have run := requestIngress_coloured hok hr hl hm ha ho hs hp hmir hf hh hst hfe hcol
  dsimp only at run
  rw [if_pos hc] at run
  refine ⟨_, run, portAnswer_answered taken hl q p k opNackRetry 1 q.ce false (meterBackoff s.dev.core.tmgr m), ?_⟩
  rw [State.withCore_core]
  exact (congrArg (tget {} _) (portAnswer_meters taken hl (o := portOrigin n k q) rfl q p _)).trans (metered_meter ..)
end
end

/-! ### Meter settings (R427) -/

theorem hasUnit_of_portRuns {c : Core} {n : Nat} (h : portRuns c n = true) : c.hasUnit 9 n = true := by
  simp only [portRuns, Bool.and_eq_true] at h
  exact h.1

section
variable {c : Core} {n off : Nat} (hu : c.hasUnit 9 n = true) (w : BitVec 32) (el : Nat)
include hu

/-- A write to register `r` of meter `k` of port `n`. -/
theorem tmgrWrite_meter {k r : Nat} (hk : k < 512) (hr : r < 32) (hn : n < 8) (hoff : off = 0x710000 + n * 0x4000 + k * 32 + r) :
    tmgrWrite off w el c = c.setPort n { c.port n with
      meters := tput {} k (writeMeter (tget {} k (c.port n).meters) r w (loadCond c n none) el) (c.port n).meters } := by
  have range : 0x710000 ≤ off ∧ off < 0x730000 := by omega
  have port : (off - 0x710000) / 32 / 512 = n := by omega
  have meter : (off - 0x710000) / 32 % 512 = k := by omega
  have reg : off % 32 = r := by omega
  simp only [tmgrWrite, range, and_self, if_true, port, meter, reg, hu, Bool.not_true, Bool.false_eq_true, if_false]
  rfl

/-- A write to the weight of queue `q` of port `n`. -/
theorem tmgrWrite_weight {q : Nat} (hq : q < 128) (hn : n < 8) (hoff : off = 0x740000 + n * 0x1000 + q * 16) :
    tmgrWrite off w el c = c.setPort n { c.port n with
      queues := tput {} q { tget ({} : FairQ) q (c.port n).queues with weight := w &&& 0xFFF } (c.port n).queues } := by
  have meters : ¬(0x710000 ≤ off ∧ off < 0x730000) := by omega
  have range : 0x740000 ≤ off ∧ off < 0x748000 := by omega
  have port : (off - 0x740000) / 0x1000 = n := by omega
  have queue : (off - 0x740000) % 0x1000 / 16 = q := by omega
  have aligned : off % 16 = 0 := by omega
  simp only [tmgrWrite, meters, range, and_self, if_true, port, queue, aligned, hu, Nat.not_le.2 hq, Bool.not_true, Bool.false_eq_true, ne_eq,
    not_true_eq_false, or_self, if_false]
  rfl
end

/-- A bucket under a changed size, outside load condition. -/
theorem reload_clamped (b : Bucket) (size : Nat) : (b.reload false true size).tok = min b.tok (size * 65536) := by
  simp only [Bucket.reload, Bool.not_true, Bool.false_eq_true, if_false]
  split
  · simp; omega
  · simp; omega

section
variable (m : Meter) (w : BitVec 32) (load : Bool) (el : Nat)

/-- The meter with the tokens of its old settings. -/
def Meter.upTo (m : Meter) (el : Nat) : Meter := if m.en then m.accrue el else m

theorem upTo_settings : ((m.upTo el).cir, (m.upTo el).pir, (m.upTo el).cbs, (m.upTo el).pbs) = (m.cir, m.pir, m.cbs, m.pbs) := by
  unfold Meter.upTo
  split <;> rfl

theorem writeMeter_cir :
    let y := writeMeter m 0 w load el
    y.cir = w &&& 0x803FFFFF ∧ (m.en = false → w.getLsbD 31 = true → y.c = ⟨y.cSize * 65536, 0⟩ ∧ y.p = ⟨y.pSize * 65536, 0⟩) := by
  refine ⟨?_, fun hoff hon => ?_⟩
  · exact (apply_ite Meter.cir _ _ _).trans (ite_self _)
  · have on : (w &&& 0x803FFFFF).getLsbD 31 = true := by simp [hon]
    simp only [writeMeter, hoff, on, Bool.false_eq_true, if_false, if_true, Bool.not_false, Bool.and_self]
    exact ⟨rfl, rfl⟩

theorem writeMeter_pir : (writeMeter m 4 w load el).pir = w &&& 0x3FFFFF := rfl

theorem writeMeter_cbs :
    let y := writeMeter m 8 w load el
    y.cbs = w &&& 0x3FFFF ∧ y.cir = m.cir ∧ y.p = (m.upTo el).p ∧ y.c = (m.upTo el).c.reload load (decide (w &&& 0x3FFFF ≠ m.cbs)) y.cSize := by
  have settings := upTo_settings m el
  simp only [Prod.mk.injEq] at settings
  obtain ⟨cir, -, cbs, -⟩ := settings
  have size : field (w &&& 0x3FFFF) 17 0 = (w &&& 0x3FFFF).toNat := by
    have low : (w &&& 0x3FFFF).toNat ≤ 0x3FFFF := by
      rw [BitVec.toNat_and]
      exact Nat.and_le_right
    simp only [field, Nat.shiftRight_zero]
    omega
  refine ⟨rfl, cir, rfl, ?_⟩
  rw [← cbs, Meter.cSize]
  exact congrArg (fun n => (m.upTo el).c.reload load (decide (w &&& 0x3FFFF ≠ (m.upTo el).cbs)) (n * 64)) size.symm

theorem writeMeter_pbs : (writeMeter m 12 w load el).pbs = w &&& 0x3FFFF := rfl

theorem writeMeter_other {r : Nat} (h0 : r ≠ 0) (h4 : r ≠ 4) (h8 : r ≠ 8) (h12 : r ≠ 12) : writeMeter m r w load el = m.upTo el := by
  simp only [writeMeter, h0, h4, h8, h12, if_false]
  rfl
end

/-- Settles O46: the checks of R42 in their order, each with the port's own answer or the request sent on. -/
theorem ingressAndMeters : Obligations.IngressAndMeters := by
  unfold Obligations.IngressAndMeters
  intro s n hok hr c p
  refine ⟨?ingress, ?meter, ?weight⟩
  case ingress =>
    intro q el hl hm ha ho answer
    have freed := freeReqBuffer_taken n q c
    have answered := portAnswer_answered freed hl q
    have checked {pt : Nat} := requestIngress_checked (el := el) (p := pt) hok hr hl hm ha ho
    have fenced {pt : Nat} (hf : (c.ptn pt).hostsFenced = false ∨ q.op = 10) : ¬((c.ptn pt).hostsFenced && decide (q.op ≠ 10)) = true := by
      rcases hf with h | h <;> simp [h]
    have holder {pt : Nat} (hmir : c.mirrored pt = true → holderServes (c.mirr pt) = true) : ¬(c.mirrored pt && !holderServes (c.mirr pt)) = true := by
      simp only [Bool.and_eq_true, Bool.not_eq_true', not_and, Bool.not_eq_false]
      exact hmir
    refine ⟨fun hbad => ?refused, fun pt hs hp => ⟨fun hmir hno => ?elsewhere, fun hmir => ⟨fun hf hop => ?held, fun hf hh => ?stranger,
      fun h hf hh hst => ?fencedHost, fun h hf hh hst hfe => ?admitted⟩⟩⟩
    case refused =>
      refine ⟨_, (actCore_of_ok hok _).trans (congrArg (fun d => Host.Outcome.next (s.withCore d)) ((fxIngress_taken hr q el hl hm ha ho).trans ?_)),
        answered 0 4096 0x3A 7 q.ce false 0⟩
      rcases hbad with hs | hp
      · exact if_pos hs
      · by_cases hs : c.ust 9 n ≠ .serving
        · exact if_pos hs
        · refine (if_neg hs).trans ((ingressChecks_eq freed q el).trans ?_)
          rw [hp]
          rfl
    case elsewhere =>
      have run := checked hs hp
      dsimp only at run
      rw [if_pos (Bool.and_eq_true_iff.2 ⟨hmir, congrArg not hno⟩)] at run
      have taken := freed.setMirr pt { c.mirr pt with notHolder := (c.mirr pt).notHolder + 1 }
      have gave := portAnswer_answered (s := s.withCore (c.setMirr pt { c.mirr pt with notHolder := (c.mirr pt).notHolder + 1 })) taken hl q pt
        ((hostOfEp c pt q.src).getD 4096) 0x3A 7 q.ce false 0
      have mirrs := portAnswer_mirr taken hl (o := portOrigin n ((hostOfEp c pt q.src).getD 4096) q) rfl q pt { op := opNackFenced, reason := 7 }
      refine ⟨_, run, ⟨s.keeps_withCore _, gave.2⟩, ?_⟩
      exact (congrArg (fun t => (tget ({} : Mirr) pt t).notHolder) mirrs).trans (congrArg Mirr.notHolder (Core.setMirr_same ..))
    case held =>
      have run := checked hs hp
      dsimp only at run
      rw [if_neg (holder hmir), if_pos (Bool.and_eq_true_iff.2 ⟨hf, decide_eq_true hop⟩)] at run
      exact ⟨_, run, answered pt _ 0x3A 6 q.ce false 0⟩
    case stranger =>
      have run := checked hs hp
      dsimp only at run
      rw [if_neg (holder hmir), if_neg (fenced hf), hh] at run
      exact ⟨_, run, answered pt 4096 0x3A 6 q.ce false 0⟩
    case fencedHost =>
      have run := checked hs hp
      dsimp only at run
      rw [if_neg (holder hmir), if_neg (fenced hf), hh] at run
      dsimp only at run
      rw [if_pos (hst.imp_right List.elem_eq_true_of_mem)] at run
      refine ⟨fun hop => ?_, fun hop => ?_⟩
      · rw [if_neg hop] at run
        exact ⟨_, run, answered pt h 0x3A 6 q.ce false 0⟩
      · rw [if_pos hop] at run
        exact run
    case admitted =>
      intro k m a o passes
      have passes' {col : Nat} {y : Meter} (hcol : m.colour el (decide (q.op = 10)) = (col, y)) (hc : col ≠ 2) :=
        requestIngress_passes hok hr hl hm ha ho hs hp hmir hf hh hst hfe hcol hc
      refine ⟨fun hen => passes' (colour_off hen) (by decide), fun hen htok hop => ?_, fun hen htok hop => ?_,
        fun hen htok hc => passes' (colour_yellow hen htok hc) (by decide), fun hen htok hc => passes' (colour_green hen htok hc) (by decide)⟩
      · have red : m.colour el (decide (q.op = 10)) = (2, { a with red := a.red + 1 }) := by
          rw [decide_eq_false hop]
          exact colour_red hen htok
        exact requestIngress_red hok hr hl hm ha ho hs hp hmir hf hh hst hfe red rfl
      · refine passes' (col := 1) ?_ (by decide)
        rw [decide_eq_true hop]
        exact colour_evict hen htok
  case meter =>
    intro off w el k r hk hr' hn hoff m a
    have run : tmgrWrite off.toNat w el c = c.setPort n { p with meters := tput {} k (writeMeter m r w (loadCond c n none) el) p.meters } :=
      tmgrWrite_meter (hasUnit_of_portRuns hr) w el hk hr' hn hoff
    refine ⟨_, (actCore_of_ok hok _).trans (congrArg (fun d => Host.Outcome.next (s.withCore d)) run), s.keeps_withCore _, ?_⟩
    rw [State.withCore_core, Core.setPort_same]
    refine ⟨fun j hj => tget_tput_ne _ hj _ _, rfl, ?_⟩
    intro y
    have hy : y = writeMeter m r w (loadCond c n none) el := tget_tput_same ..
    clear_value y
    subst hy
    refine ⟨fun h => ?_, fun h => ?_, fun h => ?_, fun h => ?_, fun h0 h4 h8 h12 => ?_⟩
    · subst h
      exact writeMeter_cir ..
    · subst h
      obtain ⟨cbs, cir, bucket, reloaded⟩ := writeMeter_cbs m w (loadCond c n none) el
      refine ⟨cbs, cir, bucket, fun same => ?_, fun changed load => ?_, fun changed load => ?_⟩
      · rw [reloaded, decide_eq_false (not_not.2 same)]
        rfl
      · rw [reloaded, decide_eq_true changed, load]
        rfl
      · rw [reloaded, decide_eq_true changed, load]
        exact reload_clamped ..
    · subst h
      exact writeMeter_pir ..
    · subst h
      exact writeMeter_pbs ..
    · rw [writeMeter_other m w _ el h0 h4 h8 h12]
      exact upTo_settings m el
  case weight =>
    intro off w el q hq hn hoff
    exact (actCore_of_ok hok _).trans (congrArg (fun d => Host.Outcome.next (s.withCore d)) (tmgrWrite_weight (hasUnit_of_portRuns hr) w el hq hn hoff))

end Sys2Proof.Machine
end

section
/-! SUPPORT. What an answer, the log, counters and freezes leave of the open tables and the regions (R105, R255, R536, R541). -/

namespace Sys2Proof.Machine
open Sys2Proof

/-! ### What an answer can do -/

/-- A relation of cores that counted events, messages and writes of ports, partitions and mirror pairs stay within. -/
structure Spans (R : Core → Core → Prop) : Prop where
  refl : ∀ c, R c c
  trans : ∀ {c d e}, R c d → R d e → R c e
  counted : ∀ cls i ev n p c, R c (countEvent cls i ev n p c)
  sent : ∀ m c, R c (c.send m)
  port : ∀ n x c, R c (c.setPort n x)
  ptn : ∀ p x c, R c (c.setPtn p x)
  mirr : ∀ p x c, R c (c.setMirr p x)

section
variable {R : Core → Core → Prop} (h : Spans R)
include h

theorem Spans.foldl {α : Type} (f : Core → α → Core) (hf : ∀ c a, R c (f c a)) (l : List α) (c : Core) : R c (l.foldl f c) := by
  induction l generalizing c with
  | nil => exact h.refl c
  | cons a l ih => exact h.trans (hf c a) (ih _)

theorem Spans.discardEgress (n : Nat) (ks : List EgPkt) (c : Core) : R c (discardEgress n ks c) :=
  h.trans (h.port ..) (h.foldl _ (fun _ _ => h.counted ..) ks _)

theorem Spans.portQueue (n : Nat) (k : EgPkt) (c : Core) : R c (portQueue n k c) := by
  unfold Sys2Proof.Machine.portQueue
  dsimp only
  split
  · exact h.discardEgress ..
  · split
    · exact h.port ..
    · split <;> exact h.port ..

theorem Spans.mirrSend (m : Msg) (c : Core) : R c (c.mirrSend m) := by
  unfold Core.mirrSend
  split
  · exact h.trans (h.sent ..) (h.portQueue ..)
  · exact h.sent ..

theorem Spans.toEndpoint (o : Origin) (ep src : BitVec 18) (p : Nat) (a : Ans) (c : Core) : R c (c.toEndpoint o ep src p a) := by
  refine h.trans ?_ (h.sent _ _)
  split
  · exact h.trans (h.ptn ..) (h.counted ..)
  · split
    · exact h.counted ..
    · exact h.refl c

theorem Spans.toHost (o : Origin) (p : Nat) (a : Ans) (c : Core) : R c (c.toHost o p a) := h.toEndpoint ..

theorem Spans.mirrOutcome (k : MirrPend) (p : Nat) (a : Ans) (c : Core) : R c (c.mirrOutcome k p a) := by
  unfold Core.mirrOutcome
  dsimp only
  split
  · exact h.mirr ..
  · split
    · split
      · exact h.trans (h.mirr ..) (h.toHost ..)
      · split
        · split
          · exact h.trans (h.trans (h.mirr ..) (h.toHost ..)) (h.mirrSend ..)
          · exact h.trans (h.mirr ..) (h.toHost ..)
        · split
          · exact h.trans (h.mirr ..) (h.mirrSend ..)
          · exact h.mirr ..
    · refine h.trans ?_ (h.mirrSend ..)
      split
      · exact h.trans (h.mirr ..) (h.toHost ..)
      · exact h.mirr ..

theorem Spans.answer (o : Origin) (p : Nat) (pla : BitVec 40) (a : Ans) (c : Core) : R c (c.answer o p pla a) := by
  unfold Core.answer
  split
  · split
    · split
      · exact h.mirrOutcome ..
      · exact h.toHost ..
    · exact h.toHost ..
  · split
    · exact h.sent ..
    · split
      · exact h.ptn ..
      · exact h.refl c
end

theorem spans_regions : Spans (fun c d => d.regions = c.regions) where
  refl _ := rfl
  trans h k := k.trans h
  counted _ _ _ _ _ _ := rest_regions (countEvent_rest ..)
  sent _ _ := rfl
  port _ _ _ := rfl
  ptn _ _ _ := rfl
  mirr _ _ _ := rfl

/-! ### The log and the memory controllers leave the edge units alone -/

theorem foldl_edges {α : Type} (f : Core → α → Core) (h : ∀ c a, (f c a).edges = c.edges) (l : List α) (c : Core) : (l.foldl f c).edges = c.edges := by
  induction l generalizing c with
  | nil => rfl
  | cons a l ih => exact (ih _).trans (h c a)

section
variable (c : Core)

theorem raiseInt_edges (v : Nat) : (raiseInt v c).edges = c.edges := by
  unfold raiseInt
  dsimp only
  split
  · rfl
  · split
    · rfl
    · split <;> rfl

theorem ibi_edges (k : Nat) : (ibi k c).edges = c.edges := by
  unfold ibi
  split <;> rfl

theorem persist_edges (x : LogEntry) : (persist x c).edges = c.edges := by
  unfold persist
  split <;> rfl

theorem writeEntries_edges (l : List LogEntry) : (writeEntries l c).edges = c.edges := by
  unfold writeEntries
  split
  · rfl
  · refine foldl_edges _ (fun c x => ?_) l c
    dsimp only
    split
    · exact persist_edges ..
    · rfl

theorem logInterrupt_edges (v : Nat) : (logInterrupt v c).edges = c.edges := by
  unfold logInterrupt
  split
  · exact (ibi_edges ..).trans (raiseInt_edges ..)
  · rfl

theorem setErl_edges (x : Erl) : ({ c with erl := x } : Core).edges = c.edges := rfl

theorem recordEvent_edges (es : List LogEntry) : (recordEvent es c).edges = c.edges := by
  have kept {P : Prop} [Decidable P] {v : Nat} {d : Core} (h : d.edges = c.edges) :
      (if P then writeEntries es c else logInterrupt v d).edges = c.edges := by
    split
    · exact writeEntries_edges ..
    · exact (logInterrupt_edges ..).trans h
  have opened (w : List LogWin) : ({ writeEntries es c with erl := { (writeEntries es c).erl with logWins := w } } : Core).edges = c.edges :=
    (setErl_edges ..).trans (writeEntries_edges c es)
  unfold recordEvent
  dsimp only
  split
  · split
    · split
      · rfl
      · exact kept (opened _)
    · exact kept (opened _)
  · exact kept (writeEntries_edges c es)

theorem logRaw_edges (code cls i : Nat) (p : Option Nat) (fs : List (Nat × Nat)) : (logRaw code cls i p fs c).edges = c.edges := by
  unfold logRaw
  dsimp only
  split
  · split <;> rfl
  · exact recordEvent_edges ..

theorem issueOp_edges (e pc : Nat) (o : HbmOp) : (issueOp e pc o c).edges = c.edges := rfl

theorem mdWriteBack_edges (e m : Nat) : (mdWriteBack e m c).edges = c.edges := by
  unfold mdWriteBack
  dsimp only
  rw [foldl_edges _ (fun _ _ => issueOp_edges ..)]
  split
  · split
    · rfl
    · rw [issueOp_edges, issueOp_edges]
  · rw [issueOp_edges]

theorem modHbmc_edges (e : Nat) (f : Hbmc → Hbmc) : (c.modHbmc e f).edges = c.edges := rfl

theorem mdFlush_edges (e : Nat) : (mdFlush e c).edges = c.edges := by
  unfold mdFlush
  dsimp only
  rw [modHbmc_edges]
  refine foldl_edges _ (fun c k => ?_) _ c
  split
  · exact mdWriteBack_edges ..
  · rfl

theorem enterSelfRefresh_edges (e : Nat) : (enterSelfRefresh e c).edges = c.edges := by
  unfold enterSelfRefresh
  dsimp only
  rw [Core.send_edges, modHbmc_edges, foldl_edges _ (fun _ _ => issueOp_edges ..), mdFlush_edges]

theorem allSelfRefresh_edges : (allSelfRefresh c).edges = c.edges := forEach_keeps Core.edges _ (fun _ _ => enterSelfRefresh_edges ..) c
end

/-! ### Open tables through a freeze (R255) -/

/-- The table holds number `k` at most once. -/
def soleKey {α : Type} (k : Nat) : Table α → Prop
  | [] => True
  | x :: t => if x.1 = k then ∀ y ∈ t, y.1 ≠ k else soleKey k t

section
variable {α : Type} {k : Nat}

theorem soleKey_of_absent {t : Table α} (h : ∀ x ∈ t, x.1 ≠ k) : soleKey k t := by
  induction t with
  | nil => trivial
  | cons x t ih =>
    rw [soleKey, if_neg (h x (by simp))]
    exact ih (fun y hy => h y (by simp [hy]))

theorem tdel_absent (k : Nat) (t : Table α) : ∀ x ∈ tdel k t, x.1 ≠ k := by
  induction t with
  | nil => simp [tdel]
  | cons x t ih =>
    obtain ⟨i, a⟩ := x
    by_cases h : i = k
    · simpa [tdel, h] using ih
    · simpa [tdel, h] using ih

theorem soleKey_tins (v : α) {t : Table α} (h : ∀ x ∈ t, x.1 ≠ k) : soleKey k (tins k v t) := by
  induction t with
  | nil => simp [tins, soleKey]
  | cons x t ih =>
    obtain ⟨i, a⟩ := x
    have hi : i ≠ k := h (i, a) (by simp)
    have ht : ∀ y ∈ t, y.1 ≠ k := fun y hy => h y (by simp [hy])
    by_cases hk : k < i
    · rw [tins, if_pos hk, soleKey, if_pos rfl]
      exact h
    · rw [tins, if_neg hk, soleKey, if_neg hi]
      exact ih ht

theorem soleKey_tput [DecidableEq α] (d v : α) (t : Table α) : soleKey k (tput d k v t) := by
  unfold tput
  split
  · exact soleKey_of_absent (tdel_absent k t)
  · exact soleKey_tins v (tdel_absent k t)

theorem tget_absent (d : α) {t : Table α} (h : ∀ x ∈ t, x.1 ≠ k) : tget d k t = d := by
  induction t with
  | nil => rfl
  | cons x t ih =>
    obtain ⟨i, a⟩ := x
    rw [tget, if_neg (h (i, a) (by simp))]
    exact ih (fun y hy => h y (by simp [hy]))
end

/-- The open table of edge unit `e`, listed once, stays as it is. -/
structure OpensKept (e : Nat) (c d : Core) : Prop where
  kept : soleKey e c.edges → soleKey e d.edges ∧ (d.edge e).opens = (c.edge e).opens

theorem OpensKept.of_edges {e : Nat} {c d : Core} (h : d.edges = c.edges) : OpensKept e c d :=
  ⟨fun k => by rw [Core.edge, h]; exact ⟨k, rfl⟩⟩

theorem OpensKept.trans {e : Nat} {c d f : Core} (h : OpensKept e c d) (k : OpensKept e d f) : OpensKept e c f := ⟨fun sole => by
  obtain ⟨sole', opens⟩ := h.kept sole
  obtain ⟨sole'', opens'⟩ := k.kept sole'
  exact ⟨sole'', opens'.trans opens⟩⟩

/-- Edge units that lose waiter records, those left empty no longer listed. -/
def cleared (f : Edge → Edge) (t : Table Edge) : Table Edge := (t.map (fun x => (x.1, f x.2))).filter (fun x => decide (x.2 ≠ {}))

section
variable {e : Nat} {f : Edge → Edge}

theorem cleared_absent {t : Table Edge} (h : ∀ x ∈ t, x.1 ≠ e) : ∀ x ∈ cleared f t, x.1 ≠ e := by
  intro x hx
  simp only [cleared, List.mem_filter, List.mem_map] at hx
  obtain ⟨⟨y, hy, rfl⟩, -⟩ := hx
  exact h y hy

theorem cleared_cons (x : Nat × Edge) (t : Table Edge) : cleared f (x :: t) = if f x.2 = {} then cleared f t else (x.1, f x.2) :: cleared f t := by
  by_cases h : f x.2 = {} <;> simp [cleared, h]

theorem cleared_opens (hf : ∀ x, (f x).opens = x.opens) {t : Table Edge} (h : soleKey e t) :
    soleKey e (cleared f t) ∧ (tget {} e (cleared f t)).opens = (tget {} e t).opens := by
  induction t with
  | nil => exact ⟨trivial, rfl⟩
  | cons x t ih =>
    obtain ⟨i, a⟩ := x
    rw [cleared_cons]
    by_cases hi : i = e
    · rw [soleKey, if_pos hi] at h
      have absent := cleared_absent (f := f) h
      rw [tget, if_pos hi]
      split
      · next ha =>
        exact ⟨soleKey_of_absent absent, by rw [tget_absent _ absent, ← hf a, ha]⟩
      · rw [soleKey, if_pos hi, tget, if_pos hi]
        exact ⟨absent, hf a⟩
    · rw [soleKey, if_neg hi] at h
      rw [tget, if_neg hi]
      split
      · exact ih h
      · rw [soleKey, if_neg hi, tget, if_neg hi]
        exact ih h
end

section
variable (e : Nat) (c : Core)

theorem dropAllWaiters_opens (ls : List Nat) : OpensKept e c (dropAllWaiters ls c) :=
  ⟨cleared_opens (f := fun x => { x with waiters := x.waiters.filter (fun w => !(ls.contains w.c)) }) (fun _ => rfl)⟩

theorem freeze_opens (k : BitVec 3) (chip : Bool) : OpensKept e c (freeze k chip c) := by
  unfold freeze
  dsimp only
  split
  · exact .of_edges rfl
  · split
    · exact .of_edges ((logRaw_edges ..).trans (allSelfRefresh_edges _))
    · split
      · exact .of_edges rfl
      · refine (dropAllWaiters_opens e c (((ptnTiles c (field c.evc.freezeCfg 20 16)).filter (fun t => decide (c.ust 4 t = .serving))).map
          (fun t => (c.tile t).logical))).trans (.of_edges ((logRaw_edges ..).trans ?_))
        exact forEach_keeps Core.edges _ (by intros; rfl) _

theorem logE_opens (code cls i : Nat) (p : Option Nat) (fs : List (Nat × Nat)) : OpensKept e c (logE code cls i p fs c) := by
  refine OpensKept.trans (.of_edges (logRaw_edges c code cls i p fs)) ?_
  unfold logE logFreeze
  split
  · exact freeze_opens ..
  · exact .of_edges rfl

theorem setEvc_opens (x : Evc) : OpensKept e c { c with evc := x } := .of_edges rfl

theorem bumpCounter_opens (cls i k n : Nat) : OpensKept e c (bumpCounter cls i k n c) := by
  unfold bumpCounter
  dsimp only
  split
  · exact (setEvc_opens e c _).trans (logE_opens ..)
  · exact setEvc_opens ..

theorem bumpKey_opens (k n : Nat) : OpensKept e c (bumpKey k n c) := by
  unfold bumpKey
  split <;> exact bumpCounter_opens ..

theorem bumpKeys_opens (n : Nat) (keys : List Nat) (c : Core) : OpensKept e c (keys.foldl (fun c key => bumpKey key n c) c) := by
  induction keys generalizing c with
  | nil => exact .of_edges rfl
  | cons k keys ih => exact (bumpKey_opens e c k n).trans (ih _)

theorem countEvent_opens (cls i ev n : Nat) (p : Option Nat) : OpensKept e c (countEvent cls i ev n p c) := by
  unfold countEvent
  split
  · exact .of_edges rfl
  · exact bumpKeys_opens ..
end

theorem spans_opens (e : Nat) : Spans (OpensKept e) where
  refl _ := .of_edges rfl
  trans h k := h.trans k
  counted _ _ _ _ _ _ := countEvent_opens ..
  sent _ _ := .of_edges rfl
  port _ _ _ := .of_edges rfl
  ptn _ _ _ := .of_edges rfl
  mirr _ _ _ := .of_edges rfl

end Sys2Proof.Machine
end

section
/-! SUPPORT. The operations of a snapshot region's window (R99, R103–R108). -/

namespace Sys2Proof.Machine
open Sys2Proof

/-- Messages sent one after another. -/
def Core.sendAll (c : Core) (ms : List Msg) : Core := { c with out := c.out ++ ms }

@[simp] theorem sendAll_edges (c : Core) (ms : List Msg) : (c.sendAll ms).edges = c.edges := rfl
@[simp] theorem sendAll_out (c : Core) (ms : List Msg) : (c.sendAll ms).out = c.out ++ ms := rfl
@[simp] theorem sendAll_get_region (c : Core) (ms : List Msg) (r : Nat) : (c.sendAll ms).region r = c.region r := rfl

theorem foldl_send (m : Nat → Msg) (l : List Nat) (c : Core) : l.foldl (fun c e => c.send (m e)) c = c.sendAll (l.map m) := by
  induction l generalizing c with
  | nil => simp [Core.sendAll]
  | cons e l ih =>
    rw [List.foldl_cons, ih]
    simp [Core.send, Core.sendAll]

/-! ### Retiring slots (R107, R114) -/

section
variable (r : Nat) (c : Core)

theorem startRetire_edges : (startRetire r c).edges = c.edges := by
  unfold startRetire
  dsimp only
  split
  · rw [foldl_send]
    rfl
  · rfl

theorem startRetire_slots : ((startRetire r c).region r).slots = (c.region r).slots := by
  unfold startRetire
  dsimp only
  split
  · rw [foldl_send]
    rw [sendAll_get_region, Core.setRegion_same]
  · rfl

theorem retirePleats_edges : (retirePleats r c).edges = c.edges := startRetire_edges ..
end

/-- A slot of a list of slots that retire is retiring. -/
theorem retiring_of_mem {slot : Nat} {t : Table Slot} (l : List Nat) (h : slot ∈ l ∨ (tget {} slot t).st = .retiring) :
    (tget {} slot (l.foldl (fun t s => tput {} s { tget {} s t with st := .retiring } t) t)).st = .retiring := by
  induction l generalizing t with
  | nil => simpa using h
  | cons s l ih =>
    refine ih ?_
    by_cases hs : slot = s
    · subst hs
      exact .inr (by rw [tget_tput_same])
    · rw [tget_tput_ne _ hs]
      exact h.imp_left (fun m => (List.mem_cons.1 m).resolve_left hs)

/-- A published slot that is neither newest nor open retires (R107). -/
theorem retirePleats_slot {r slot : Nat} {c : Core} (h8 : slot < 8) (hp : (tget {} slot (c.region r).slots).st = .published)
    (hn : (c.region r).newest ≠ some slot) (ho : holders c r slot = 0) : (tget {} slot ((retirePleats r c).region r).slots).st = .retiring := by
  unfold retirePleats
  dsimp only
  rw [startRetire_slots, Core.setRegion_same]
  refine retiring_of_mem _ (.inl (List.mem_filter.2 ⟨List.mem_range.2 h8, ?_⟩))
  rw [hp, ho, decide_eq_true hn]
  rfl

/-- An answer after a write of an edge unit: its open table and the regions stay. -/
theorem answer_setEdge (e r : Nat) (x : Edge) (o : Origin) (p : Nat) (pla : BitVec 40) (a : Ans) (c : Core) :
    ((c.setEdge e x).answer o p pla a).region r = c.region r ∧ (((c.setEdge e x).answer o p pla a).edge e).opens = x.opens := by
  have regions := spans_regions.answer o p pla a (c.setEdge e x)
  obtain ⟨-, opens⟩ := ((spans_opens e).answer o p pla a (c.setEdge e x)).kept (soleKey_tput ..)
  rw [Core.setEdge_same] at opens
  exact ⟨(congrArg (tget ({} : Region) r) regions).trans rfl, opens⟩

/-! ### Operations that reach their region -/

section
variable {s : State} {c : Core} {r : Nat} {o : Origin} (hr : r < 1024) (hw : c.works 8 (r / 64) = true) (hk : o.kind = 1)
include hr hw hk

theorem snapOp_reaches (f : Region → Core → Core) :
    snapOp r o f c =
      if c.regionOwner r ≠ some (c.originPtn o) then c.answer o (c.originPtn o) 0 { op := opCmp }
      else if (c.region r).created = false then snapRefuse r o 8 c
      else f (c.region r) c := by
  simp only [snapOp, Nat.not_le.2 hr, hw, hk, Bool.not_true, Bool.false_eq_true, ne_eq, not_true_eq_false, or_self, if_false, Bool.not_eq_true']

section
variable (ho : c.regionOwner r = some (c.originPtn o)) (hc : (c.region r).created = true)
include ho hc

theorem snapOp_created (f : Region → Core → Core) : snapOp r o f c = f (c.region r) c := by
  rw [snapOp_reaches hr hw hk, if_neg (not_not.2 ho), if_neg (by simp [hc])]

theorem fxOpen_created (slot : Nat) (ver : BitVec 32) :
    fxOpen r o slot ver c =
      if mayUse c (c.region r) o false = false then snapRefuse r o 5 c
      else if 8 ≤ slot ∨ (tget {} slot (c.region r).slots).st ≠ .published ∨ (tget {} slot (c.region r).slots).ver ≠ ver then snapRefuse r o 1 c
      else if (o.idx, r, slot) ∈ (c.edge (r / 64)).opens then c.answer o (c.region r).p 0 { op := opCmp }
      else if 4096 ≤ (c.edge (r / 64)).opens.length then snapRefuse r o 4 c
      else (c.modEdge (r / 64) (fun d => { d with opens := d.opens ++ [(o.idx, r, slot)] })).answer o (c.region r).p 0 { op := opCmp } := by
  simp only [fxOpen, snapOp_created hr hw hk ho hc, Bool.not_eq_true', List.contains_iff_mem]
  rfl

theorem fxCommit_created (ver : BitVec 32) :
    fxCommit r o ver c =
      if (c.region r).commit.isSome then
        c.setRegion r { c.region r with queue := (c.region r).queue ++ [⟨o, ver, 0, 0, [], [], false⟩] }
      else beginCommit r o ver c := snapOp_created hr hw hk ho hc _

/-- CLOSE takes the record away, and a slot that is no longer open retires. -/
theorem fxClose_created (slot : Nat) :
    ((fxClose r o slot c).edge (r / 64)).opens = (c.edge (r / 64)).opens.erase (o.idx, r, slot) ∧
      (slot < 8 → (tget {} slot (c.region r).slots).st = .published → (c.region r).newest ≠ some slot →
        (∀ k ∈ (c.edge (r / 64)).opens.erase (o.idx, r, slot), ¬(k.2.1 = r ∧ k.2.2 = slot)) →
        (tget {} slot ((fxClose r o slot c).region r).slots).st = .retiring) := by
  have closed : fxClose r o slot c = retirePleats r ((c.setEdge (r / 64) { c.edge (r / 64) with
      opens := (c.edge (r / 64)).opens.erase (o.idx, r, slot) }).answer o (c.region r).p 0 { op := opCmp }) := snapOp_created hr hw hk ho hc _
  obtain ⟨region, opens⟩ := answer_setEdge (r / 64) r { c.edge (r / 64) with opens := (c.edge (r / 64)).opens.erase (o.idx, r, slot) } o
    (c.region r).p 0 { op := opCmp } c
  rw [closed]
  generalize (c.setEdge (r / 64) { c.edge (r / 64) with opens := (c.edge (r / 64)).opens.erase (o.idx, r, slot) }).answer o
    (c.region r).p 0 { op := opCmp } = d at region opens ⊢
  refine ⟨by rw [Core.edge, retirePleats_edges]; exact opens, fun h8 hp hn hno => ?_⟩
  refine retirePleats_slot h8 (by rw [region, hp]) (by rw [region]; exact hn) ?_
  rw [holders, opens, List.length_eq_zero_iff, List.filter_eq_nil_iff]
  exact fun k hk => by simpa using hno k hk
end
end

/-! ### Commits (R105, R106) -/

/-- A slot that a commit may take as its new one: not the working one, and free or about to be. -/
def Region.mayTake (g : Region) (k : Nat) : Bool :=
  decide (k ≠ g.working) && (decide ((tget {} k g.slots).st = .free) || decide ((tget {} k g.slots).st = .retiring))

section
variable {g : Region} {k w : Nat}

theorem mayTake_of_taken (h : k ≠ g.working → (tget {} k g.slots).st ≠ .free ∧ (tget {} k g.slots).st ≠ .retiring) : g.mayTake k = false := by
  unfold Region.mayTake
  by_cases hk : k = g.working
  · rw [decide_eq_false (not_not.2 hk)]
    rfl
  · obtain ⟨hf, hr⟩ := h hk
    rw [decide_eq_false hf, decide_eq_false hr]
    simp

theorem mayTake_of_st (hk : k ≠ g.working) (h : (tget {} k g.slots).st = .free ∨ (tget {} k g.slots).st = .retiring) : g.mayTake k = true := by
  unfold Region.mayTake
  rw [decide_eq_true hk]
  rcases h with h | h <;> rw [h] <;> rfl

/-- The lowest slot that a commit may take. -/
theorem room_cons (hw : w < 8) (ht : g.mayTake w = true) (hl : ∀ k, k < w → g.mayTake k = false) :
    ∃ rest, (List.range 8).filter g.mayTake = w :: rest := by
  have found : (List.range 8).find? g.mayTake = some w := List.find?_range_eq_some.2 ⟨ht, List.mem_range.2 hw, fun j hj => by rw [hl j hj]; rfl⟩
  rw [← List.head?_filter] at found
  exact List.head?_eq_some_iff.1 found

theorem room_nil (h : ∀ k, k < 8 → g.mayTake k = false) : (List.range 8).filter g.mayTake = [] :=
  List.filter_eq_nil_iff.2 (fun k hk => by rw [h k (List.mem_range.1 hk)]; decide)
end

section
variable {c : Core} {r : Nat} {o : Origin} {ver : BitVec 32}

theorem beginCommit_eq (r : Nat) (o : Origin) (ver : BitVec 32) (c : Core) :
    beginCommit r o ver c =
      if mayUse c (c.region r) o true = false then snapRefuse r o 5 c
      else if ((c.region r).newest.isSome && !newer ver (c.region r).newestVer) = true then snapRefuse r o 2 c
      else match (List.range 8).filter (c.region r).mayTake with
        | [] => snapRefuse r o 3 c
        | w :: _ =>
          let d := c.setRegion r { c.region r with commit := some ⟨o, ver, (c.region r).working, w, [], [],
            decide ((tget {} w (c.region r).slots).st = .retiring)⟩ }
          if (tget {} w (c.region r).slots).st = .retiring then d else sendSeals r d := by
  unfold beginCommit Region.mayTake
  simp only [Bool.not_eq_true', decide_eq_true_eq] <;> rfl

section
variable (hm : mayUse c (c.region r) o true = true)
include hm

theorem beginCommit_older (hn : (c.region r).newest.isSome = true) (hv : newer ver (c.region r).newestVer = false) :
    beginCommit r o ver c = snapRefuse r o 2 c := by
  rw [beginCommit_eq, if_neg (ne_false_of_eq_true hm), if_pos (by rw [hn, hv]; rfl)]

section
variable (hn : (c.region r).newest.isSome = true → newer ver (c.region r).newestVer = true)
include hn

omit hm in
theorem newest_passed : ¬((c.region r).newest.isSome && !newer ver (c.region r).newestVer) = true := by
  cases hs : (c.region r).newest.isSome with
  | false => simp
  | true => simp [hn hs]

theorem beginCommit_full (h : ∀ k, k < 8 → (c.region r).mayTake k = false) : beginCommit r o ver c = snapRefuse r o 3 c := by
  rw [beginCommit_eq, if_neg (ne_false_of_eq_true hm), if_neg (newest_passed hn), room_nil h]

section
variable {w : Nat} (hw : w < 8) (ht : (c.region r).mayTake w = true) (hl : ∀ k, k < w → (c.region r).mayTake k = false)
include hw ht hl

theorem beginCommit_waits (h : (tget {} w (c.region r).slots).st = .retiring) :
    beginCommit r o ver c = c.setRegion r { c.region r with commit := some ⟨o, ver, (c.region r).working, w, [], [], true⟩ } := by
  obtain ⟨rest, room⟩ := room_cons hw ht hl
  rw [beginCommit_eq, if_neg (ne_false_of_eq_true hm), if_neg (newest_passed hn), room]
  dsimp only
  rw [if_pos h, decide_eq_true h]

/-- A commit starts: the seal markers go to every live home. -/
theorem beginCommit_seals (h : (tget {} w (c.region r).slots).st = .free) :
    (beginCommit r o ver c).region r = { c.region r with commit := some ⟨o, ver, (c.region r).working, w, liveHomes c, [], false⟩ } ∧
      (beginCommit r o ver c).out = c.out ++ (liveHomes c).map (fun e => .seal e r (c.region r).working w ver) := by
  obtain ⟨rest, room⟩ := room_cons hw ht hl
  rw [beginCommit_eq, if_neg (ne_false_of_eq_true hm), if_neg (newest_passed hn), room]
  dsimp only
  rw [if_neg (by rw [h]; decide), sendSeals, Core.setRegion_same]
  dsimp only
  rw [foldl_send, sendAll_get_region, Core.setRegion_same]
  exact ⟨rfl, rfl⟩
end
end
end
end

section
variable {c : Core} {r : Nat} {o : Origin} {ver : BitVec 32}

theorem fxQueuedCommitStart_next (hw : c.works 8 (r / 64) = true) {y : Commit} {rest : List Commit} (hn : (c.region r).commit = none)
    (hq : (c.region r).queue = y :: rest) : fxQueuedCommitStart r c = beginCommit r y.o y.ver (c.setRegion r { c.region r with queue := rest }) := by
  simp only [fxQueuedCommitStart, hn, hq, hw, if_true]

/-- A queued commit starts like one that comes when none runs. -/
theorem beginCommit_queued (rest : List Commit) (hm : mayUse c (c.region r) o true = true)
    (hn : (c.region r).newest.isSome = true → newer ver (c.region r).newestVer = true) {w : Nat} (hw : w < 8) (hk : w ≠ (c.region r).working)
    (h : (tget {} w (c.region r).slots).st = .free) (hl : ∀ k, k < w → (c.region r).mayTake k = false) :
    let d := beginCommit r o ver (c.setRegion r { c.region r with queue := rest })
    d.region r = { c.region r with queue := rest, commit := some ⟨o, ver, (c.region r).working, w, liveHomes c, [], false⟩ } ∧
      d.out = c.out ++ (liveHomes c).map (fun e => .seal e r (c.region r).working w ver) := by
  have region : (c.setRegion r { c.region r with queue := rest }).region r = { c.region r with queue := rest } := Core.setRegion_same ..
  have seals := beginCommit_seals (c := c.setRegion r { c.region r with queue := rest }) (r := r) (o := o) (ver := ver) (w := w)
  rw [region] at seals
  exact seals hm hn hw (mayTake_of_st hk (.inl h)) hl h

theorem fxSnapViewBadWrite_reaches (hr : r < 1024) (hw : c.works 8 (r / 64) = true) (hk : o.kind = 1) (both : Bool) :
    fxSnapViewBadWrite r o both c =
      let rs := (if both then [r, r ^^^ 1] else [r]).filter (fun k => decide (c.regionOwner k = some (c.originPtn o)))
      if rs = [] then c.answer o (c.originPtn o) 0 { op := opCmp }
      else (rs.foldl (fun c k => c.modRegion k (fun g => { g with refusal := 7 })) c).answer o (c.originPtn o) 0 { op := opNackRevoked, reason := 4 } := by
  simp only [fxSnapViewBadWrite, Nat.not_le.2 hr, hw, hk, Bool.not_true, Bool.false_eq_true, ne_eq, not_true_eq_false, or_self, if_false]
end

/-- Settles O35: each operation by its equation above. -/
theorem snapshotOperations : Obligations.SnapshotOperations := by
  unfold Obligations.SnapshotOperations
  intro s r o hok c g p opens refused taken hr hw hk
  have next {f : Core → Core} {d : Core} (h : f c = d) : actCore s f = .next (s.withCore d) :=
    (actCore_of_ok hok f).trans (congrArg (fun d => Host.Outcome.next (s.withCore d)) h)
  have free {g : Region} {k : Nat} (h : k ≠ g.working → (tget {} k g.slots).st ≠ .free ∧ (tget {} k g.slots).st ≠ .retiring) := mayTake_of_taken h
  refine ⟨fun ho hc => ⟨?openUsed, ?openRefused, ?close, ?commit, ?commitRefused, ?commitQueued, ?queued⟩, ?uncreated, ?foreign, ?bad, ?both⟩
  case openUsed =>
    intro slot ver hm
    have run := fxOpen_created hr hw hk ho hc slot ver
    rw [if_neg (ne_false_of_eq_true hm)] at run
    refine ⟨fun h8 hp hv => ?_, fun hbad => next (run.trans (if_pos (hbad.imp_left id)))⟩
    rw [if_neg (not_or.2 ⟨Nat.not_le.2 h8, not_or.2 ⟨not_not.2 hp, not_not.2 hv⟩⟩)] at run
    refine ⟨fun hno hlen => ?_, fun hin => next (run.trans (if_pos hin)), fun hno hlen => ?_⟩
    · exact next (run.trans ((if_neg hno).trans (if_neg (Nat.not_le.2 hlen))))
    · exact next (run.trans ((if_neg hno).trans (if_pos hlen)))
  case openRefused =>
    intro slot ver hm
    exact next ((fxOpen_created hr hw hk ho hc slot ver).trans (if_pos hm))
  case close =>
    intro slot
    exact ⟨_, actCore_of_ok hok _, s.keeps_withCore _, fxClose_created hr hw hk ho hc slot⟩
  case commit =>
    intro ver hn hm
    have run := fxCommit_created hr hw hk ho hc ver
    rw [if_neg (by rw [hn]; decide)] at run
    refine ⟨fun hs hv => next (run.trans (beginCommit_older hm hs hv)), fun hv => ⟨fun w hw8 hwk hl => ⟨fun hfree => ?_, fun hret => ?_⟩, fun hall => ?_⟩⟩
    · exact ⟨_, next run, s.keeps_withCore _,
        beginCommit_seals hm hv hw8 (mayTake_of_st hwk (.inl hfree)) (fun k hk => free (hl k hk)) hfree⟩
    · exact next (run.trans (beginCommit_waits hm hv hw8 (mayTake_of_st hwk (.inr hret)) (fun k hk => free (hl k hk)) hret))
    · exact next (run.trans (beginCommit_full hm hv (fun k hk => free (hall k hk))))
  case commitRefused =>
    intro ver hn hm
    refine next ((fxCommit_created hr hw hk ho hc ver).trans ((if_neg (by rw [hn]; decide)).trans ?_))
    rw [beginCommit_eq]
    exact if_pos hm
  case commitQueued =>
    intro ver hn
    exact next ((fxCommit_created hr hw hk ho hc ver).trans (if_pos hn))
  case queued =>
    intro rest y w hn hq hm hv hw8 hwk hfree hl
    obtain ⟨region, out⟩ := beginCommit_queued (o := y.o) (ver := y.ver) rest hm hv hw8 hwk hfree (fun k hk => free (hl k hk))
    have run : fxQueuedCommitStart r c = beginCommit r y.o y.ver (c.setRegion r { g with queue := rest }) := fxQueuedCommitStart_next hw hn hq
    exact ⟨_, next run, s.keeps_withCore _, region, out⟩
  case uncreated =>
    intro ho hc
    have refuse (f : Region → Core → Core) : snapOp r o f c = snapRefuse r o 8 c :=
      (snapOp_reaches hr hw hk f).trans ((if_neg (not_not.2 ho)).trans (if_pos hc))
    exact ⟨fun slot ver => next (refuse _), fun slot => next (refuse _), fun ver => next (refuse _)⟩
  case foreign =>
    intro ho i hi
    have foreign (f : Region → Core → Core) : snapOp r o f c = c.answer o p 0 { op := opCmp } := (snapOp_reaches hr hw hk f).trans (if_pos ho)
    obtain ⟨slot, ver, rfl⟩ | ⟨slot, rfl⟩ | ⟨ver, rfl⟩ | rfl := hi
    · exact next (foreign _)
    · exact next (foreign _)
    · exact next (foreign _)
    · exact next ((fxSnapViewBadWrite_reaches hr hw hk false).trans (if_pos (List.filter_cons_of_neg (by simpa using ho))))
  case bad =>
    intro ho
    have mine : [r].filter (fun k => decide (c.regionOwner k = some p)) = [r] := List.filter_eq_self.2 (by simpa using ho)
    refine next ((fxSnapViewBadWrite_reaches hr hw hk false).trans ?_)
    dsimp only
    rw [if_neg Bool.false_ne_true, mine]
    rfl
  case both =>
    intro ho ho'
    have mine : [r, r ^^^ 1].filter (fun k => decide (c.regionOwner k = some p)) = [r, r ^^^ 1] := List.filter_eq_self.2 (by simpa using ⟨ho, ho'⟩)
    refine next ((fxSnapViewBadWrite_reaches hr hw hk true).trans ?_)
    dsimp only
    rw [if_pos rfl, mine]
    rfl

end Sys2Proof.Machine
end

section
/-! SUPPORT. A host's request accepted by a quiet home: how it is served and answered (R43, R62, R66, R73, R82). -/

namespace Sys2Proof.Machine
open Sys2Proof

theorem home_of_rest {c d : Core} (h : d.rest = c.rest) (e : Nat) : d.home e = c.home e := by simp only [Core.home, rest_homes h]

theorem setHome_setHome (c : Core) (e : Nat) (x y : Home) : (c.setHome e x).setHome e y = c.setHome e y := by simp [Core.setHome]

theorem setHome_rest {c d : Core} (h : d.rest = c.rest) (e : Nat) (x : Home) : (d.setHome e x).rest = (c.setHome e x).rest :=
  congrArg (fun k => { k with homes := tput {} e x k.homes }) h

theorem modHome_rest {c d : Core} (h : d.rest = c.rest) (e : Nat) (f : Home → Home) : (d.modHome e f).rest = (c.modHome e f).rest := by
  rw [Core.modHome, Core.modHome, home_of_rest h, setHome_rest h]

/-! ### The tracker of a request -/

/-- The tracker of a request at a home without transactions, as it is served. -/
def servedTrk (c : Core) (e : Nat) (o : Origin) (q : Req) : Trk :=
  { idx := 0, gen := tget 0 0 (c.home e).gens, kind := .request, o := o, q := q, line := reqLine c e o q, p := c.originPtn o, phase := 7, snoops := [],
    salvage := [], salvaging := false, forHost := none, ownerAns := 0, gone := [], purge := false, data := 0, dirty := false, poison := false,
    cfg := (c.home e).dirCfg, tmo := (c.home e).snoopTmo, discard := discards c e (c.originPtn o) o q }

/-- The home with that tracker alone. -/
def servingHome (c : Core) (e : Nat) (o : Origin) (q : Req) : Home :=
  { c.home e with trks := [servedTrk c e o q], peak := if (c.home e).peak.toNat < 1 then BitVec.ofNat 13 1 else (c.home e).peak }

/-- The core in which the request is about to be served. -/
def serving (c : Core) (e : Nat) (o : Origin) (q : Req) : Core :=
  (countEvent 6 e 1 1 (some (c.originPtn o)) (addTrk e .request o q (reqLine c e o q) (c.originPtn o) 0 c)).setHome e (servingHome c e o q)

section
variable {c : Core} {e : Nat} {o : Origin} {q : Req}

theorem addTrk_quiet (ht : (c.home e).trks = []) :
    addTrk e .request o q (reqLine c e o q) (c.originPtn o) 0 c =
      c.setHome e { servingHome c e o q with trks := [{ servedTrk c e o q with phase := 0 }] } := by
  have first : (List.range 4096).find? (fun k => !([] : List Nat).contains k) = some 0 :=
    List.find?_range_eq_some.2 ⟨rfl, List.mem_range.2 (by decide), fun j hj => absurd hj (Nat.not_lt_zero j)⟩
  unfold addTrk
  dsimp only
  rw [ht, List.map_nil, first]
  rfl

theorem serving_rest (ht : (c.home e).trks = []) : (serving c e o q).rest = (c.setHome e (servingHome c e o q)).rest := by
  rw [serving, addTrk_quiet ht, setHome_rest (countEvent_rest ..), setHome_setHome]

/-- What the tracker's home and the log's registers do not hold is as it was when the request is served. -/
theorem serving_keeps (ht : (c.home e).trks = []) {α : Type} (g : Core → α) (hg : ∀ d, g d.rest = g d) (hs : ∀ x, g (c.setHome e x) = g c) :
    g (serving c e o q) = g c := by rw [← hg, serving_rest ht, hg, hs]

theorem serving_home : (serving c e o q).home e = servingHome c e o q := Core.setHome_same ..

theorem serving_trk : (serving c e o q).trk e 0 = some (servedTrk c e o q) := by
  rw [Core.trk, serving_home]
  rfl

theorem serving_dirEnt (l : Nat) : (serving c e o q).dirEnt e l = c.dirEnt e l := by
  rw [Core.dirEnt, serving_home]
  rfl

/-- A home in which nothing can move. -/
def Home.atRest (h : Home) : Prop := h.recallQ = [] ∧ ∀ t ∈ h.trks, mayMove h t = false

theorem homeMove_atRest (h : (c.home e).atRest) : homeMove e c = none := by
  obtain ⟨recalls, still⟩ := h
  have none : (c.home e).trks.find? (mayMove (c.home e)) = none := List.find?_eq_none.2 (fun t ht => by simp [still t ht])
  simp only [homeMove, none, recalls]

theorem settleN_atRest (h : (c.home e).atRest) (n : Nat) : settleN e n c = c := by
  cases n with
  | zero => rfl
  | succ n => simp only [settleN, homeMove_atRest h]

/-- What a quiet home that accepts a request requires (R43, R73, R88). -/
theorem homeAccepts_elim {typ : BitVec 2} (h : homeAccepts c e o q typ = true) :
    (c.works 6 e = true ∧ e < 16 ∧ (c.home e).nackQ < 256) ∧ (o.kind = 1 → (c.home e).fence.contains o.idx = false) ∧
      homeRefusal c e (c.originPtn o) o q = none ∧ (c.homeExt e (c.originPtn o) (plaExt q.pla)).typ = typ ∧
      (c.home e).trks = [] ∧ (c.home e).recallQ = [] ∧ reqLine c e o q < 2 ^ 29 ∧ (c.mirr (c.originPtn o)).pendOf o = none := by
  simp only [homeAccepts, homeQuiet, Bool.and_eq_true, decide_eq_true_eq, Bool.not_eq_true', List.isEmpty_iff, Option.isNone_iff_eq_none] at h
  obtain ⟨⟨⟨⟨⟨⟨⟨⟨works, he⟩, room⟩, fence⟩, refusal⟩, htyp⟩, ht, hq⟩, line⟩, pend⟩ := h
  refine ⟨⟨works, he, room⟩, fun hk => ?_, refusal, htyp, ht, hq, line, pend⟩
  simpa [hk] using fence

/-- The tracker waits at the home, its line free. -/
def waiting (c : Core) (e : Nat) (o : Origin) (q : Req) : Core :=
  countEvent 6 e 1 1 (some (c.originPtn o)) (addTrk e .request o q (reqLine c e o q) (c.originPtn o) 0 c)

theorem waiting_home (ht : (c.home e).trks = []) :
    (waiting c e o q).home e = { servingHome c e o q with trks := [{ servedTrk c e o q with phase := 0 }] } := by
  rw [waiting, home_of_rest (countEvent_rest ..), addTrk_quiet ht, Core.setHome_same]

/-- The first move takes the tracker to its line, the second serves it. -/
theorem homeMove_waiting (ht : (c.home e).trks = []) : homeMove e (waiting c e o q) = some (serving c e o q) := by
  have home := waiting_home (o := o) (q := q) ht
  have found : ((waiting c e o q).home e).trks.find? (mayMove ((waiting c e o q).home e)) = some { servedTrk c e o q with phase := 0 } := by
    rw [home]
    simp [mayMove, lineBlocked]
  unfold homeMove
  dsimp only
  rw [found]
  have moved : putTrk e { servedTrk c e o q with cfg := ((waiting c e o q).home e).dirCfg, tmo := ((waiting c e o q).home e).snoopTmo } (waiting c e o q) =
      serving c e o q := by
    rw [putTrk, Core.modHome, home]
    rfl
  exact congrArg some moved

theorem homeMove_serving : homeMove e (serving c e o q) = some (serve e 0 (serving c e o q)) := by
  have found : ((serving c e o q).home e).trks.find? (mayMove ((serving c e o q).home e)) = some (servedTrk c e o q) := by
    rw [serving_home]
    rfl
  unfold homeMove
  dsimp only
  rw [found]
  rfl

/-- An accepted request is served, and that is the end of the home's work where it leaves the home at rest. -/
theorem fxHomeReq_served {typ : BitVec 2} (h : homeAccepts c e o q typ = true) (hrest : ((serve e 0 (serving c e o q)).home e).atRest) :
    fxHomeReq e o q c = serve e 0 (serving c e o q) := by
  obtain ⟨⟨works, he, room⟩, fence, refusal, -, ht, hq, -, -⟩ := homeAccepts_elim h
  have started : fxHomeReq e o q c = settle e (waiting c e o q) := by
    have open' : ¬((!c.works 6 e) = true ∨ 16 ≤ e ∨ 256 ≤ (c.home e).nackQ) := by simp [works, he, room]
    have unfenced : ¬(o.kind = 1 ∧ (c.home e).fence.contains o.idx = true) := fun k => ne_true_of_eq_false (fence k.1) k.2
    unfold fxHomeReq
    dsimp only
    rw [if_neg open', if_neg unfenced, refusal]
    dsimp only
    rw [if_neg (by rw [ht]; decide)]
    rfl
  have fuel : 16 + 32 * (((waiting c e o q).home e).trks.length + ((waiting c e o q).home e).recallQ.length) = 46 + 2 := by
    rw [waiting_home ht]
    simp [servingHome, hq]
  rw [started, settle, fuel, settleN, homeMove_waiting ht]
  dsimp only
  rw [settleN, homeMove_serving]
  exact settleN_atRest hrest 46
end

end Sys2Proof.Machine
end

section
/-! SUPPORT. What a home does for a host's request: its answer, the directory, and the lines it stores (R66, R78, R80, R82, R301, R302). -/

namespace Sys2Proof.Machine
open Sys2Proof

/-! ### The completion of a host's transaction (R66) -/

section
variable {c : Core} {e i : Nat} {t : Trk} {a : Ans}

/-- The answer to a host, with no replicated request pending: one completion, after the counts. -/
theorem answerTrk_host (hk : t.o.kind = 1) (hp : (c.mirr t.p).pendOf t.o = none) (ha : a.op = opCmp ∨ a.op = opCmpData) :
    answerTrk e t a c =
      (ceCounted e t c).send (.completion (cmpFor t.o (c.host t.o.idx).ep (c.ptn t.p).endpoint t.p { a with ce := t.q.ce })) := by
  have rest := ceCounted_rest c e t
  have revoked : a.op ≠ opNackRevoked := by rcases ha with h | h <;> rw [h] <;> decide
  have fenced : a.op ≠ opNackFenced := by rcases ha with h | h <;> rw [h] <;> decide
  have answered : (ceCounted e t c).answer t.o t.p t.q.pla { a with ce := t.q.ce } =
      (ceCounted e t c).send (.completion (cmpFor t.o (c.host t.o.idx).ep (c.ptn t.p).endpoint t.p { a with ce := t.q.ce })) := by
    unfold Core.answer
    rw [if_pos hk, mirr_of_rest rest, hp]
    dsimp only
    rw [Core.toHost, toEndpoint_eq, host_of_rest rest, ptn_of_rest rest, refusalCounted, if_neg revoked, if_neg fenced]
  unfold answerTrk
  dsimp only
  rw [if_neg revoked]
  have unsignalled (x : Core) : (match t.o.sig with
      | some ob => if a.op = opCmp ∧ t.o.kind = 0 then x.send (.sync ⟨12, ob, t.o.idx, 0, false, true, 0, 0⟩) else x
      | none => x) = x := by
    split
    · exact if_neg (fun k => by rw [hk] at k; exact absurd k.2 (by decide))
    · rfl
  exact (unsignalled _).trans answered

theorem endTrk_out (e : Nat) (t : Trk) (a : Ans) (i : Nat) (c : Core) : (endTrk e t a i c).out = c.out := by
  unfold endTrk
  split_ifs <;> rfl

theorem endTrk_rest {d : Core} (h : d.rest = c.rest) (e : Nat) (t : Trk) (a : Ans) (i : Nat) : (endTrk e t a i d).rest = (endTrk e t a i c).rest := by
  unfold endTrk
  rw [home_of_rest h, mirr_of_rest h]
  split_ifs <;> exact modHome_rest h ..

/-- The completion of a host's transaction goes out, and the tracker ends or waits for CmpAck. -/
theorem completeTrk_host (h : c.trk e i = some t) (hk : t.o.kind = 1) (hp : (c.mirr t.p).pendOf t.o = none) (ha : a.op = opCmp ∨ a.op = opCmpData) :
    (completeTrk e i a c).out.getLast? =
        some (.completion (cmpFor t.o (c.host t.o.idx).ep (c.ptn t.p).endpoint t.p { a with ce := t.q.ce })) ∧
      (completeTrk e i a c).rest = (endTrk e t a i c).rest := by
  rw [completeTrk_found c h, answerTrk_host hk hp ha]
  refine ⟨?_, endTrk_rest ((send_rest ..).trans (ceCounted_rest c e t)) ..⟩
  rw [endTrk_out]
  exact List.getLast?_concat

/-- A transaction that gives its host a copy waits for CmpAck. -/
theorem endTrk_waits (hk : t.o.kind = 1) (hq : t.q.op = 1 ∨ t.q.op = 2 ∨ t.q.op = 4) (ha : a.op = opCmp ∨ a.op = opCmpData)
    (hf : (c.home e).fence.contains t.o.idx = false) : endTrk e t a i c = putTrk e { t with phase := 2, snoops := [] } c := by
  rw [endTrk, if_pos ⟨hk, hq, ha⟩, if_neg (ne_true_of_eq_false hf)]

/-- A transaction that gives no copy ends with its answer. -/
theorem endTrk_ends (hq : ¬(t.q.op = 1 ∨ t.q.op = 2 ∨ t.q.op = 4)) (hp : (c.mirr t.p).pendOf t.o = none) : endTrk e t a i c = dropTrk e i c := by
  rw [endTrk, if_neg (fun k => hq k.2.1), if_neg (by rw [hp]; exact fun k => absurd k.2.2 (by decide))]
end

/-! ### Steps that change one home only -/

/-- From `c` to `d` only home `e` and what the log's registers hold changed. -/
structure OnlyHome (e : Nat) (c d : Core) : Prop where
  rest : d.rest = (c.setHome e (d.home e)).rest

section
variable {e : Nat} {c d f : Core}

theorem OnlyHome.of_modHome {g : Home → Home} (h : d.rest = (c.modHome e g).rest) : OnlyHome e c d :=
  ⟨by rw [home_of_rest h, Core.modHome, Core.setHome_same]; exact h⟩

theorem OnlyHome.home_eq {g : Home → Home} (h : d.rest = (c.modHome e g).rest) : d.home e = g (c.home e) :=
  (home_of_rest h e).trans (Core.setHome_same ..)

theorem OnlyHome.trans (h : OnlyHome e c d) (k : OnlyHome e d f) : OnlyHome e c f :=
  ⟨by rw [k.rest, setHome_rest h.rest, setHome_setHome]⟩

theorem OnlyHome.keeps (h : OnlyHome e c d) {α : Type} (g : Core → α) (hg : ∀ d, g d.rest = g d) (hs : ∀ x, g (c.setHome e x) = g c) : g d = g c := by
  rw [← hg d, h.rest, hg, hs]
end

theorem rest_rdPool (c : Core) (e l : Nat) : c.rest.rdPool e l = c.rdPool e l := rfl

theorem setHome_rdPool (c : Core) (e : Nat) (x : Home) (e' l : Nat) : (c.setHome e x).rdPool e' l = c.rdPool e' l := rfl

theorem OnlyHome.rdPool {e : Nat} {c d : Core} (h : OnlyHome e c d) (e' l : Nat) : d.rdPool e' l = c.rdPool e' l :=
  h.keeps (fun d => d.rdPool e' l) (fun _ => rest_rdPool ..) (fun _ => setHome_rdPool ..)

theorem OnlyHome.mem {e : Nat} {c d : Core} (h : OnlyHome e c d) : d.mem = c.mem := h.keeps Core.mem (fun _ => rfl) (fun _ => rfl)

section
variable (c : Core) (e l p : Nat)

theorem touchLine_rest (dirty : Bool) :
    (touchLine e l p dirty c).rest = (c.modHome e (fun h => { h with store := tput none l (some (dirty || (tget none l h.store).getD false)) h.store })).rest := by
  unfold touchLine
  dsimp only
  rw [home_of_rest (countEvent_rest ..), setHome_rest (countEvent_rest ..)]
  rfl

theorem touchLine_home (dirty : Bool) :
    (touchLine e l p dirty c).home e = { c.home e with store := tput none l (some (dirty || (tget none l (c.home e).store).getD false)) (c.home e).store } :=
  OnlyHome.home_eq (touchLine_rest ..)

theorem touchLine_only (dirty : Bool) : OnlyHome e c (touchLine e l p dirty c) := .of_modHome (touchLine_rest ..)

theorem touchLine_trk (dirty : Bool) (i : Nat) : (touchLine e l p dirty c).trk e i = c.trk e i := by rw [Core.trk, touchLine_home, Core.trk]

theorem setDir_home (d : Option DirEnt) :
    (setDir e l d c).home e = { c.home e with stamp := (c.home e).stamp + 1, dir := tput none l (d.map (fun x => { x with stamp := (c.home e).stamp + 1 })) (c.home e).dir } :=
  Core.setHome_same ..

theorem setDir_only (d : Option DirEnt) : OnlyHome e c (setDir e l d c) := .of_modHome rfl

theorem setDir_trk (d : Option DirEnt) (i : Nat) : (setDir e l d c).trk e i = c.trk e i := by rw [Core.trk, setDir_home, Core.trk]
end

/-! ### Transactions that end, or wait for CmpAck -/

/-- The completion of transaction `t` with answer `a`, to its host (R66). -/
def completionOf (c : Core) (t : Trk) (a : Ans) : Msg :=
  .completion (cmpFor t.o (c.host t.o.idx).ep (c.ptn t.p).endpoint t.p { a with ce := t.q.ce })

section
variable {c : Core} {e i : Nat} {t : Trk} {a : Ans} (h : c.trk e i = some t) (hk : t.o.kind = 1) (hp : (c.mirr t.p).pendOf t.o = none)
include h hk hp

theorem completeTrk_waits (hq : t.q.op = 1 ∨ t.q.op = 2 ∨ t.q.op = 4) (ha : a.op = opCmp ∨ a.op = opCmpData)
    (hf : (c.home e).fence.contains t.o.idx = false) :
    (completeTrk e i a c).out.getLast? = some (completionOf c t a) ∧ OnlyHome e c (completeTrk e i a c) ∧
      (completeTrk e i a c).home e =
        { c.home e with trks := (c.home e).trks.map (fun u => if u.idx = t.idx then { t with phase := 2, snoops := [] } else u) } := by
  obtain ⟨out, rest⟩ := completeTrk_host h hk hp ha
  rw [endTrk_waits hk hq ha hf] at rest
  exact ⟨out, .of_modHome rest, OnlyHome.home_eq rest⟩

theorem completeTrk_ends (hq : ¬(t.q.op = 1 ∨ t.q.op = 2 ∨ t.q.op = 4)) (ha : a.op = opCmp ∨ a.op = opCmpData) :
    (completeTrk e i a c).out.getLast? = some (completionOf c t a) ∧ OnlyHome e c (completeTrk e i a c) ∧
      (completeTrk e i a c).home e =
        { c.home e with trks := (c.home e).trks.filter (fun u => decide (u.idx ≠ i)), gens := tput 0 i (tget 0 i (c.home e).gens + 1) (c.home e).gens } := by
  obtain ⟨out, rest⟩ := completeTrk_host h hk hp ha
  rw [endTrk_ends hq hp] at rest
  exact ⟨out, .of_modHome rest, OnlyHome.home_eq rest⟩
end

end Sys2Proof.Machine
end

section
/-! SUPPORT. A host's request to a coherent extent, on a line without directory entry or with an owner (R78, R80, R82). -/

namespace Sys2Proof.Machine
open Sys2Proof

/-! ### Lines read from memory (R301) -/

/-- The answer that gives a line of the pool. -/
def lineAnswer (c : Core) (e l : Nat) (g : BitVec 2) : Ans := { op := opCmpData, grant := g, poison := (c.rdPool e l).2, data := (c.rdPool e l).1 }

theorem touched_pend {c : Core} {t : Trk} (hp : (c.mirr t.p).pendOf t.o = none) (e l : Nat) :
    ((touchLine e l t.p false c).mirr t.p).pendOf t.o = none := by
  rw [(touchLine_only c e l t.p false).keeps (fun d => d.mirr t.p) (fun _ => rfl) (fun _ => rfl), hp]

theorem touched_completion (c : Core) (e l p : Nat) (t : Trk) (a : Ans) : completionOf (touchLine e l p false c) t a = completionOf c t a :=
  (touchLine_only c e l p false).keeps (fun d => completionOf d t a) (fun _ => rfl) (fun _ => rfl)

section
variable {c : Core} {e i : Nat} {t : Trk} (h : c.trk e i = some t)
include h

theorem answerMem_found (l : Nat) (g : BitVec 2) :
    answerMem e i l g c = completeTrk e i (lineAnswer c e l g) (touchLine e l t.p false c) := by
  unfold answerMem
  rw [h]
  rfl

theorem touched_found (l p : Nat) : (touchLine e l p false c).trk e i = some t := by rw [touchLine_trk, h]

section
variable (hk : t.o.kind = 1) (hp : (c.mirr t.p).pendOf t.o = none) (l : Nat) (g : BitVec 2)
include hk hp

/-- The line goes to the host, which then owns or shares it until CmpAck. -/
theorem answerMem_waits (hq : t.q.op = 1 ∨ t.q.op = 2 ∨ t.q.op = 4) (hf : (c.home e).fence.contains t.o.idx = false) :
    (answerMem e i l g c).out.getLast? = some (completionOf c t (lineAnswer c e l g)) ∧ OnlyHome e c (answerMem e i l g c) ∧
      ((answerMem e i l g c).home e).trks = (c.home e).trks.map (fun u => if u.idx = t.idx then { t with phase := 2, snoops := [] } else u) ∧
      ((answerMem e i l g c).home e).dir = (c.home e).dir ∧ ((answerMem e i l g c).home e).recallQ = (c.home e).recallQ := by
  have touched := touchLine_home c e l t.p false
  obtain ⟨out, only, home⟩ := completeTrk_waits (a := lineAnswer c e l g) (touched_found h l t.p) hk (touched_pend hp e l) hq (.inr rfl) (by rw [touched]; exact hf)
  rw [answerMem_found h, home, touched]
  exact ⟨by rw [out, touched_completion], (touchLine_only ..).trans only, rfl, rfl, rfl⟩

end
end

/-! ### A line without directory entry (R82) -/

section
variable {c : Core} {e i : Nat} {t : Trk} (h : c.trk e i = some t) (hn : c.dirEnt e t.line = none)
include h hn

theorem serveCoherent_absent :
    serveCoherent e i c =
      if t.q.op = 3 then answerMem e i t.line 0 c
      else if t.q.op = 8 ∨ t.q.op = 9 then completeTrk e i { op := opCmp } (writeReq e t.line t c)
      else if t.q.op = 10 then completeTrk e i { op := opCmp } c
      else if !(takeWay e i t.line t.p c).1 then (takeWay e i t.line t.p c).2
      else if t.q.op = 1 ∧ !(t.cfg.getLsbD 0) then
        answerMem e i t.line 1 (setDir e t.line (some ⟨.s, false, 0, [some ((requester t).getD 4096), none, none, none], 0, 0⟩) (takeWay e i t.line t.p c).2)
      else answerMem e i t.line 2 (setDir e t.line (some (dirX ((requester t).getD 4096))) (takeWay e i t.line t.p c).2) := by
  unfold serveCoherent
  rw [h]
  dsimp only
  rw [hn]

/-- A host that reads or wants a line that no one has gets an entry of its own. -/
theorem serveCoherent_new (hk : t.o.kind = 1) (hw : (setOf (c.home e) t.line).length < 16) (hq : t.q.op = 1 ∨ t.q.op = 2 ∨ t.q.op = 4) :
    serveCoherent e i c =
      if t.q.op = 1 ∧ t.cfg.getLsbD 0 = false then answerMem e i t.line 1 (setDir e t.line (some ⟨.s, false, 0, [some t.o.idx, none, none, none], 0, 0⟩) c)
      else answerMem e i t.line 2 (setDir e t.line (some (dirX t.o.idx)) c) := by
  have way : takeWay e i t.line t.p c = (true, c) := if_pos hw
  have host : requester t = some t.o.idx := if_pos hk
  rw [serveCoherent_absent h hn, way, host]
  rcases hq with hq | hq | hq <;> simp [hq]
end

/-! ### The accepted request -/

/-- From `z` to `w` at most trackers that wait at home `e` were woken. -/
structure Woken (e : Nat) (z w : Core) : Prop where
  out : w.out = z.out
  only : ∀ {y}, OnlyHome e y z → OnlyHome e y w
  home : (z.home e).trks = [] → w.home e = z.home e

theorem Woken.of_eq {e : Nat} {z w : Core} (h : w = z) : Woken e z w := by
  subst h
  exact ⟨rfl, id, fun _ => rfl⟩

theorem Woken.wakePage (e pg : Nat) (z : Core) : Woken e z (wakePage e pg z) where
  out := rfl
  only h := h.trans (.of_modHome rfl)
  home h := by
    rw [Sys2Proof.Machine.wakePage, Core.modHome, Core.setHome_same, h, List.map_nil, ← h]

section
variable {c : Core} {e : Nat} {o : Origin} {q : Req} {typ : BitVec 2} (h : homeAccepts c e o q typ = true)
include h

theorem accepted_quiet : (c.home e).trks = [] ∧ (c.home e).recallQ = [] := by
  obtain ⟨-, -, -, -, ht, hq, -, -⟩ := homeAccepts_elim h
  exact ⟨ht, hq⟩

theorem serving_pend : ((serving c e o q).mirr (servedTrk c e o q).p).pendOf (servedTrk c e o q).o = none := by
  obtain ⟨-, -, -, -, ht, -, -, hp⟩ := homeAccepts_elim h
  rw [serving_keeps ht (fun d => d.mirr (servedTrk c e o q).p) (fun _ => rfl) (fun _ => rfl)]
  exact hp

theorem serving_only : OnlyHome e c (serving c e o q) := ⟨by rw [serving_home]; exact serving_rest (accepted_quiet h).1⟩

section
variable (hk : o.kind = 1)
include hk

theorem serving_fence : ((serving c e o q).home e).fence.contains (servedTrk c e o q).o.idx = false := by
  obtain ⟨-, fence, -⟩ := homeAccepts_elim h
  rw [serving_home]
  exact fence hk

/-- An accepted request is served by the type of its extent. -/
theorem serve_serving :
    serve e 0 (serving c e o q) =
      if typ = 0 then serveCoherent e 0 (serving c e o q)
      else if typ = 1 then serveSnap e 0 (c.homeExt e (c.originPtn o) (plaExt q.pla)).region (serving c e o q)
      else if q.op = 3 then answerMem e 0 (reqLine c e o q) 0 (serving c e o q)
      else completeTrk e 0 { op := opCmp } (writeReq e (reqLine c e o q) (servedTrk c e o q) (serving c e o q)) := by
  obtain ⟨-, -, -, htyp, -⟩ := homeAccepts_elim h
  have unfenced : ¬((servedTrk c e o q).o.kind = 1 ∧ ((serving c e o q).home e).fence.contains (servedTrk c e o q).o.idx = true) :=
    fun k => ne_true_of_eq_false (serving_fence h hk) k.2
  have ext : (serving c e o q).homeExt e (servedTrk c e o q).p (plaExt (servedTrk c e o q).q.pla) = c.homeExt e (c.originPtn o) (plaExt q.pla) := by
    rw [Core.homeExt, serving_home]
    rfl
  unfold serve
  rw [serving_trk]
  dsimp only
  rw [if_neg unfenced]
  rw [ext, htyp]
  rfl

/-- A host is given a copy: the directory has entry `d` for it, and the home awaits its CmpAck. -/
theorem served_copy (l : Nat) (hl : l = reqLine c e o q) (d : DirEnt) (g : BitVec 2) (hq : q.op = 1 ∨ q.op = 2 ∨ q.op = 4)
    (hs : serve e 0 (serving c e o q) = answerMem e 0 l g (setDir e l (some d) (serving c e o q))) :
    (fxHomeReq e o q c).out.getLast? = some (hostDone c o q opCmpData g (c.rdPool e l).2 (c.rdPool e l).1) ∧
      (fxHomeReq e o q c).dirEnt e l = some { d with stamp := (c.home e).stamp + 1 } ∧
      ((fxHomeReq e o q c).home e).trks.map (fun t => (t.phase, t.line)) = [(2, l)] ∧ (fxHomeReq e o q c).mem = c.mem := by
  subst hl
  obtain ⟨ht, hr⟩ := accepted_quiet h
  have dir := setDir_home (serving c e o q) e (reqLine c e o q) (some d)
  have only := (serving_only h).trans (setDir_only (serving c e o q) e (reqLine c e o q) (some d))
  have found : (setDir e (reqLine c e o q) (some d) (serving c e o q)).trk e 0 = some (servedTrk c e o q) := (setDir_trk ..).trans serving_trk
  have pend : ((setDir e (reqLine c e o q) (some d) (serving c e o q)).mirr (servedTrk c e o q).p).pendOf (servedTrk c e o q).o = none := by
    rw [(setDir_only ..).keeps (fun d => d.mirr (servedTrk c e o q).p) (fun _ => rfl) (fun _ => rfl)]
    exact serving_pend h
  have fence : ((setDir e (reqLine c e o q) (some d) (serving c e o q)).home e).fence.contains (servedTrk c e o q).o.idx = false := by
    rw [dir]
    exact serving_fence h hk
  obtain ⟨out, only', trks, dir', recalls⟩ := answerMem_waits found hk pend (reqLine c e o q) g hq fence
  rw [dir, serving_home] at trks dir' recalls
  have rest : ((serve e 0 (serving c e o q)).home e).atRest := by
    rw [hs]
    refine ⟨recalls.trans hr, fun t ht => ?_⟩
    rw [trks] at ht
    obtain rfl := List.mem_singleton.1 ht
    rfl
  rw [fxHomeReq_served h rest, hs]
  refine ⟨?_, ?_, ?_, ?_⟩
  · rw [out, lineAnswer, only.rdPool]
    exact congrArg some (only.keeps (fun d => completionOf d (servedTrk c e o q) _) (fun _ => rfl) (fun _ => rfl))
  · rw [Core.dirEnt, dir']
    dsimp only
    rw [tget_tput_same]
    rfl
  · rw [trks]
    rfl
  · exact (only.trans only').mem

/-- A transaction that gives no copy: the home is quiet again once the answer is out. -/
theorem served_ends {y : Core} {a : Ans} (hq : ¬(q.op = 1 ∨ q.op = 2 ∨ q.op = 4)) (ha : a.op = opCmp ∨ a.op = opCmpData)
    (hs : Woken e (completeTrk e 0 a y) (serve e 0 (serving c e o q))) (hh : (y.home e).trks = [servedTrk c e o q]) (hr : (y.home e).recallQ = [])
    (hp : (y.mirr (servedTrk c e o q).p).pendOf (servedTrk c e o q).o = none) :
    (fxHomeReq e o q c).out.getLast? = some (completionOf y (servedTrk c e o q) a) ∧ homeQuiet (fxHomeReq e o q c) e = true ∧
      OnlyHome e y (fxHomeReq e o q c) ∧ ((fxHomeReq e o q c).home e).dir = (y.home e).dir := by
  have found : y.trk e 0 = some (servedTrk c e o q) := by
    rw [Core.trk, hh]
    rfl
  obtain ⟨out, only, home⟩ := completeTrk_ends (a := a) found hk hp hq ha
  have trks : ((completeTrk e 0 a y).home e).trks = [] := by
    rw [home, hh]
    rfl
  have recalls : ((completeTrk e 0 a y).home e).recallQ = [] := by
    rw [home]
    exact hr
  have woken := hs.home trks
  have rest : ((serve e 0 (serving c e o q)).home e).atRest := by
    rw [woken]
    exact ⟨recalls, by simp [trks]⟩
  rw [fxHomeReq_served h rest]
  exact ⟨by rw [hs.out]; exact out, by simp [homeQuiet, woken, trks, recalls], hs.only only, by rw [woken, home]⟩
end
end

end Sys2Proof.Machine
end

section
/-! SUPPORT. The lines of the pool that a home writes (R301, R302). -/

namespace Sys2Proof.Machine
open Sys2Proof

/-! ### Bytes of a line -/

theorem rdLE_congr {m m' : Mem} {a n : Nat} (h : ∀ i, i < n → rdByte m (a + i) = rdByte m' (a + i)) : rdLE m a n = rdLE m' a n := by
  induction n generalizing a with
  | zero => rfl
  | succ n ih =>
    have first : rdByte m a = rdByte m' a := h 0 (Nat.succ_pos n)
    have others : rdLE m (a + 1) n = rdLE m' (a + 1) n := ih (fun i hi => by
      have := h (i + 1) (by omega)
      rwa [Nat.add_comm i 1, ← Nat.add_assoc] at this)
    rw [rdLE, rdLE, first, others]

theorem rdLine_wrLine (m : Mem) (a : Nat) (l : Line) : rdLine (wrLine m a l) a = l := by
  have small : l.toNat % 256 ^ 128 = l.toNat := Nat.mod_eq_of_lt (by have := l.isLt; omega)
  rw [rdLine, wrLine, rdLE_wrLE, small, BitVec.ofNat_toNat, BitVec.setWidth_eq]

/-- A line outside the bytes that changed. -/
theorem rdLine_congr {m m' : Mem} {a b : Nat} (h : ∀ x, x < a ∨ a + 128 ≤ x → rdByte m' x = rdByte m x) (hb : b + 128 ≤ a ∨ a + 128 ≤ b) :
    rdLine m' b = rdLine m b := by
  rw [rdLine, rdLE_congr (fun i hi => h (b + i) (by omega)), rdLine]

theorem rdByte_wrMasked (m : Mem) (a : Nat) (l : Line) (mask : BitVec 128) (b n x : Nat) :
    rdByte (wrMasked m a l mask b n) x = if a + b ≤ x ∧ x < a + b + n ∧ mask.getLsbD (x - a) = true then lineByte l (x - a) else rdByte m x := by
  induction n generalizing m b with
  | zero => rw [wrMasked, if_neg (by omega)]
  | succ n ih =>
    rw [wrMasked, ih]
    have here : rdByte (if mask.getLsbD b = true then wrByte m (a + b) (lineByte l b) else m) x =
        if x = a + b ∧ mask.getLsbD (x - a) = true then lineByte l (x - a) else rdByte m x := by
      by_cases hx : x = a + b
      · subst hx
        by_cases hm : mask.getLsbD b = true <;> simp [hm, rdByte_wrByte]
      · by_cases hm : mask.getLsbD b = true <;> simp [hm, hx, rdByte_wrByte]
    rw [here]
    by_cases hm : mask.getLsbD (x - a) = true
    · simp only [hm, and_true]
      by_cases hx : x = a + b
      · rw [if_neg (by omega), if_pos hx, if_pos (by omega)]
      · have range : (a + (b + 1) ≤ x ∧ x < a + (b + 1) + n) ↔ (a + b ≤ x ∧ x < a + b + (n + 1)) := by omega
        simp only [hx, range, if_false]
    · simp [hm]

/-! ### Where lines lie -/

theorem lineKey_ne {e e' l l' : Nat} (hl : l < 2 ^ 29) (hl' : l' < 2 ^ 29) (h : (e', l') ≠ (e, l)) : lineKey e' l' ≠ lineKey e l := by
  intro k
  simp only [lineKey] at k
  have he : e' = e := by omega
  have hl : l' = l := by omega
  exact h (by rw [he, hl])

theorem caKey_apart {e e' l l' : Nat} (hl : l < 2 ^ 29) (hl' : l' < 2 ^ 29) (h : (e', l') ≠ (e, l)) :
    caKey e' (l' * 128) + 128 ≤ caKey e (l * 128) ∨ caKey e (l * 128) + 128 ≤ caKey e' (l' * 128) := by
  have hne := lineKey_ne hl hl' h
  simp only [lineKey, caKey] at *
  omega

/-! ### Stores of a line -/

section
variable (c : Core) (e l p : Nat) (v : Line)

theorem rdPool_snd : (c.rdPool e l).2 = (c.lmeta e l).poison := by
  rw [Core.rdPool]
  split
  · next h => rw [h]
  · next h => rw [Bool.eq_false_iff.2 h]

/-- A line written in memory with its flags, before the home notes it in its store. -/
def lineWritten (m : Mem) (x : LineMeta) (c : Core) : Core := ({ c with mem := m } : Core).setLmeta e l x

theorem stWhole_eq (poison : Bool) :
    stWhole e l p v poison c = touchLine e l p true (lineWritten e l (wrLine c.mem (caKey e (l * 128)) (if poison then 0 else v))
      { c.lmeta e l with poison := poison, gen := (c.keys p).gen.getLsbD 0 } c) := rfl

/-- The flags of a line after a store of some of its bytes: poison stays. -/
def maskedMeta (e l p : Nat) (c : Core) : LineMeta := { c.lmeta e l with gen := (c.keys p).gen.getLsbD 0 }

theorem maskedMeta_poison : (maskedMeta e l p c).poison = (c.lmeta e l).poison := rfl

theorem stMasked_eq {mask : BitVec 128} (h : mask ≠ fullMask) :
    stMasked e l p v mask false c = touchLine e l p true (lineWritten e l (wrMasked c.mem (caKey e (l * 128)) v mask 0 128)
      (maskedMeta e l p c) c) := by
  rw [stMasked, if_neg (by simp [h])]
  rfl
end

section
variable {c : Core} {e l : Nat} {m : Mem} {x : LineMeta}

@[simp] theorem lineWritten_mem : (lineWritten e l m x c).mem = m := rfl
@[simp] theorem lineWritten_get_home (j : Nat) : (lineWritten e l m x c).home j = c.home j := rfl
@[simp] theorem lineWritten_get_mirr (j : Nat) : (lineWritten e l m x c).mirr j = c.mirr j := rfl

theorem lineWritten_rdPool : (lineWritten e l m x c).rdPool e l = if x.poison then (0, true) else (rdLine m (caKey e (l * 128)), false) := by
  have flags : (lineWritten e l m x c).lmeta e l = x := tget_tput_same ..
  rw [Core.rdPool, flags]
  rfl

theorem lineWritten_others (hl : l < 2 ^ 29) (h : ∀ y, y < caKey e (l * 128) ∨ caKey e (l * 128) + 128 ≤ y → rdByte m y = rdByte c.mem y) :
    otherLines c (lineWritten e l m x c) e l := by
  intro e' l' hl' hne
  have flags : (lineWritten e l m x c).lmeta e' l' = c.lmeta e' l' := tget_tput_ne _ (lineKey_ne hl hl' hne) _ _
  rw [Core.rdPool, flags, Core.rdPool]
  have line : rdLine m (caKey e' (l' * 128)) = rdLine c.mem (caKey e' (l' * 128)) := rdLine_congr h (caKey_apart hl hl' hne)
  rw [lineWritten_mem, line]
end

end Sys2Proof.Machine
end

section
/-! SUPPORT. A host's request that stores a line, and one that makes the home snoop the owner of its line (R74, R82, R113). -/

namespace Sys2Proof.Machine
open Sys2Proof

/-! ### Requests that store a line -/

section
variable {c : Core} {e : Nat} {o : Origin} {q : Req}

theorem writeReq_full (hq : q.op = 8) (l : Nat) :
    ∃ x : LineMeta, x.poison = q.poison ∧ writeReq e l (servedTrk c e o q) (serving c e o q) =
      touchLine e l (c.originPtn o) true (lineWritten e l (wrLine (serving c e o q).mem (caKey e (l * 128)) (if q.poison then 0 else q.data)) x
        (serving c e o q)) := by
  have not9 : ¬q.op = 9 := by rw [hq]; decide
  have full : writeReq e l (servedTrk c e o q) (serving c e o q) = stWhole e l (c.originPtn o) q.data q.poison (serving c e o q) := if_neg not9
  rw [full, stWhole_eq]
  refine ⟨_, ?_, rfl⟩
  rfl

theorem writeReq_part (hq : q.op = 9) (hm : q.mask ≠ fullMask) (hp : q.poison = false) (l : Nat) :
    ∃ x : LineMeta, x.poison = ((serving c e o q).lmeta e l).poison ∧ writeReq e l (servedTrk c e o q) (serving c e o q) =
      touchLine e l (c.originPtn o) true (lineWritten e l (wrMasked (serving c e o q).mem (caKey e (l * 128)) q.data q.mask 0 128) x
        (serving c e o q)) := by
  have part : writeReq e l (servedTrk c e o q) (serving c e o q) = stMasked e l (c.originPtn o) q.data q.mask q.poison (serving c e o q) := if_pos hq
  rw [part, hp, stMasked_eq _ _ _ _ _ hm]
  exact ⟨_, maskedMeta_poison .., rfl⟩

section
variable {typ : BitVec 2} (h : homeAccepts c e o q typ = true) (hk : o.kind = 1) (hq : ¬(q.op = 1 ∨ q.op = 2 ∨ q.op = 4)) {l p : Nat} {m : Mem} {x : LineMeta}
include h

theorem written_home (l p : Nat) (m : Mem) (x : LineMeta) :
    ((touchLine e l p true (lineWritten e l m x (serving c e o q))).home e).trks = [servedTrk c e o q] ∧
      ((touchLine e l p true (lineWritten e l m x (serving c e o q))).home e).recallQ = [] ∧
      ((touchLine e l p true (lineWritten e l m x (serving c e o q))).home e).dir = (c.home e).dir := by
  rw [touchLine_home, lineWritten_get_home, serving_home]
  exact ⟨rfl, (accepted_quiet h).2, rfl⟩

/-- What a store of a line keeps: all but memory, its flags and the home. -/
theorem written_keeps {α : Type} (g : Core → α) (hg : ∀ d, g d.rest = g d) (hh : ∀ d x, g (Core.setHome d e x) = g d)
    (hw : ∀ d, g (lineWritten e l m x d) = g d) : g (touchLine e l p true (lineWritten e l m x (serving c e o q))) = g c := by
  rw [(touchLine_only _ e l p true).keeps g hg (hh _), hw, (serving_only h).keeps g hg (hh _)]

include hk hq

/-- A store of a line is answered, and the home is quiet again. -/
theorem served_write
    (hs : Woken e (completeTrk e 0 { op := opCmp } (touchLine e l p true (lineWritten e l m x (serving c e o q)))) (serve e 0 (serving c e o q))) :
    (fxHomeReq e o q c).out.getLast? = some (hostDone c o q opCmp 0 false 0) ∧ homeQuiet (fxHomeReq e o q c) e = true ∧
      (fxHomeReq e o q c).rdPool e l = (if x.poison then (0, true) else (rdLine m (caKey e (l * 128)), false)) ∧ (fxHomeReq e o q c).mem = m ∧
      ((fxHomeReq e o q c).home e).dir = (c.home e).dir ∧
      (l < 2 ^ 29 → (∀ y, y < caKey e (l * 128) ∨ caKey e (l * 128) + 128 ≤ y → rdByte m y = rdByte c.mem y) → otherLines c (fxHomeReq e o q c) e l) := by
  obtain ⟨trks, recalls, dir⟩ := written_home h l p m x
  have pend : ((touchLine e l p true (lineWritten e l m x (serving c e o q))).mirr (servedTrk c e o q).p).pendOf (servedTrk c e o q).o = none := by
    rw [(touchLine_only _ e l p true).keeps (fun d => d.mirr (servedTrk c e o q).p) (fun _ => rfl) (fun _ => rfl), lineWritten_get_mirr]
    exact serving_pend h
  obtain ⟨out, quiet, only, dir'⟩ := served_ends h hk hq (.inl rfl) hs trks recalls pend
  have pool (e' l' : Nat) : (fxHomeReq e o q c).rdPool e' l' = (lineWritten e l m x (serving c e o q)).rdPool e' l' :=
    (only.rdPool e' l').trans ((touchLine_only _ e l p true).rdPool e' l')
  have mem : (serving c e o q).mem = c.mem := (serving_only h).mem
  refine ⟨?_, quiet, (pool e l).trans lineWritten_rdPool, ?_, dir'.trans dir, fun hl hm e' l' hl' hne => ?_⟩
  · rw [out]
    exact congrArg some (written_keeps h (fun d => completionOf d (servedTrk c e o q) { op := opCmp }) (fun _ => rfl) (fun _ _ => rfl) (fun _ => rfl))
  · exact only.mem.trans ((touchLine_only _ e l p true).mem.trans lineWritten_mem)
  · rw [pool]
    have others := lineWritten_others (c := serving c e o q) (x := x) hl (by rw [mem]; exact hm) e' l' hl' hne
    exact others.trans ((serving_only h).rdPool e' l')
end
end

/-! ### A line that another host owns (R74, R82) -/

section
variable {c : Core} {e : Nat} {t t' : Trk}

theorem putTrk_single (h : (c.home e).trks = [t]) (hi : t.idx = t'.idx) : putTrk e t' c = c.setHome e { c.home e with trks := [t'] } := by
  rw [putTrk, Core.modHome, h, List.map_singleton, if_pos hi]

theorem trk_single (h : (c.home e).trks = [t]) : c.trk e t.idx = some t := by
  rw [Core.trk, h]
  exact List.find?_cons_of_pos (decide_eq_true rfl)

/-- The tracker that has asked one host. -/
def asked (t : Trk) (k : Nat) (inv : Bool) : Trk :=
  { t with phase := 1, ownerAns := 0, gone := [], dirty := false, snoops := t.snoops ++ [⟨k, inv, false, 0⟩] }

theorem linePla_of_rest {d : Core} (h : d.rest = c.rest) (e l : Nat) : d.linePla e l = c.linePla e l := congrArg (fun x => x.linePla e l) h

theorem ppaOf_congr {c d : Core} (hf : d.glb.fuse = c.glb.fuse) (hk : d.kSpread = c.kSpread) (e l : Nat) : d.ppaOf e l = c.ppaOf e l := by
  unfold Core.ppaOf
  rw [hf, hk]

/-- Where a line lies in a partition depends on the fuses, the image and the extent tables. -/
theorem linePla_congr {c d : Core} (hf : d.glb.fuse = c.glb.fuse) (hk : d.kSpread = c.kSpread) (hp : d.ptns = c.ptns) (e l : Nat) :
    d.linePla e l = c.linePla e l := by
  have reverse : d.reverse = c.reverse := funext fun a => by rw [Core.reverse, Core.reverse, hp]
  rw [Core.linePla, Core.linePla, Core.lineOwner, Core.lineOwner, ppaOf_congr hf hk, reverse]

theorem OnlyHome.linePla {e : Nat} {c d : Core} (h : OnlyHome e c d) (e' l : Nat) : d.linePla e' l = c.linePla e' l :=
  linePla_congr (h.keeps (fun x => x.glb.fuse) (fun _ => rfl) (fun _ => rfl)) (h.keeps Core.kSpread (fun _ => rfl) (fun _ => rfl))
    (h.keeps Core.ptns (fun _ => rfl) (fun _ => rfl)) e' l

/-- A snoop opened by a home with one transaction (R74). -/
theorem openSnoop_single (h : (c.home e).trks = [t]) {k : Nat} (hf : (c.home e).fence.contains k = false) (inv : Bool) :
    openSnoop e t.idx k inv false c =
      (countEvent 6 e 4 1 (some t.p) (c.setHome e { c.home e with trks := [{ t with snoops := t.snoops ++ [⟨k, inv, false, 0⟩] }] })).send
        (.snoop e k (c.host k).port inv false (c.linePla e t.line) (BitVec.ofNat 16 (t.idx + t.gen.toNat * 4096))) := by
  have opened := putTrk_single (t' := { t with snoops := t.snoops ++ [⟨k, inv, false, 0⟩] }) h rfl
  have rest := countEvent_rest 6 e 4 1 (some t.p) (c.setHome e { c.home e with trks := [{ t with snoops := t.snoops ++ [⟨k, inv, false, 0⟩] }] })
  have host := host_of_rest rest k
  have pla := linePla_of_rest rest e t.line
  unfold openSnoop
  rw [trk_single h]
  dsimp only
  rw [if_neg (ne_true_of_eq_false hf), opened, host, pla]
  rfl

/-- One host asked by a home with one transaction. -/
theorem askAll_single (h : (c.home e).trks = [t]) {k : Nat} (hf : (c.home e).fence.contains k = false) (inv : Bool) :
    askAll e t.idx [k] inv c =
      (countEvent 6 e 4 1 (some t.p) (c.setHome e { c.home e with trks := [asked t k inv] })).send
        (.snoop e k (c.host k).port inv false (c.linePla e t.line) (BitVec.ofNat 16 (t.idx + t.gen.toNat * 4096))) := by
  have begun := putTrk_single (t' := { t with phase := 1, ownerAns := 0, gone := [], dirty := false }) h rfl
  have home : (c.setHome e { c.home e with trks := [{ t with phase := 1, ownerAns := 0, gone := [], dirty := false }] }).home e =
    { c.home e with trks := [{ t with phase := 1, ownerAns := 0, gone := [], dirty := false }] } := Core.setHome_same ..
  have opened := openSnoop_single (c := c.setHome e { c.home e with trks := [{ t with phase := 1, ownerAns := 0, gone := [], dirty := false }] })
    (t := { t with phase := 1, ownerAns := 0, gone := [], dirty := false }) (by rw [home]) (k := k) (by rw [home]; exact hf) inv
  rw [home, setHome_setHome] at opened
  unfold askAll
  rw [trk_single h]
  dsimp only [List.foldl_cons, List.foldl_nil]
  rw [begun]
  exact opened

/-- A host that reads or wants a line whose owner in X is another host (R82). -/
theorem serveCoherent_owned {i : Nat} {d : DirEnt} (h : c.trk e i = some t) (hd : c.dirEnt e t.line = some d) (hx : d.st = .x) (hk : t.o.kind = 1)
    (ho : d.owner ≠ t.o.idx) (hq : t.q.op = 1 ∨ t.q.op = 2 ∨ t.q.op = 3 ∨ t.q.op = 4) :
    serveCoherent e i c = askAll e i [d.owner] (decide (t.q.op = 2 ∨ t.q.op = 4)) (setDir e t.line (some d) c) := by
  have host : (requester t).getD 4096 = t.o.idx := congrArg (Option.getD · 4096) (if_pos hk)
  have no10 : t.q.op ≠ 10 := by rcases hq with h | h | h | h <;> rw [h] <;> decide
  have noWrite : ¬(t.q.op = 8 ∨ t.q.op = 9) := by rcases hq with h | h | h | h <;> rw [h] <;> decide
  unfold serveCoherent
  rw [h]
  dsimp only
  rw [hd]
  dsimp only
  rw [if_neg no10, if_neg noWrite, hx, host]
  exact if_neg ho

/-- The home snoops the owner of the request's line, and waits. -/
theorem served_asks {o : Origin} {q : Req} {d : DirEnt} (h : homeAccepts c e o q 0 = true) (hk : o.kind = 1) (hd : c.dirEnt e (reqLine c e o q) = some d)
    (hx : d.st = .x) (ho : d.owner ≠ o.idx) (hf : (c.home e).fence.contains d.owner = false)
    (hq : q.op = 1 ∨ q.op = 2 ∨ q.op = 3 ∨ q.op = 4) :
    (∃ tag, (fxHomeReq e o q c).out.getLast? =
        some (.snoop e d.owner (c.host d.owner).port (decide (q.op = 2 ∨ q.op = 4)) false (c.linePla e (reqLine c e o q)) tag)) ∧
      ((fxHomeReq e o q c).home e).trks.map (fun t => (t.phase, t.line, t.snoops.length)) = [(1, reqLine c e o q, 1)] ∧
      (fxHomeReq e o q c).mem = c.mem := by
  have dir := setDir_home (serving c e o q) e (servedTrk c e o q).line (some d)
  have only := (serving_only h).trans (setDir_only (serving c e o q) e (servedTrk c e o q).line (some d))
  have trks : ((setDir e (servedTrk c e o q).line (some d) (serving c e o q)).home e).trks = [servedTrk c e o q] := by
    rw [dir, serving_home]
    rfl
  have recalls : ((setDir e (servedTrk c e o q).line (some d) (serving c e o q)).home e).recallQ = [] := by
    rw [dir, serving_home]
    exact (accepted_quiet h).2
  have fence : ((setDir e (servedTrk c e o q).line (some d) (serving c e o q)).home e).fence.contains d.owner = false := by
    rw [dir, serving_home]
    exact hf
  have served : serve e 0 (serving c e o q) = _ := (serve_serving h hk).trans ((if_pos rfl).trans
    ((serveCoherent_owned serving_trk ((serving_dirEnt _).trans hd) hx hk ho hq).trans (askAll_single trks fence _)))
  generalize setDir e (servedTrk c e o q).line (some d) (serving c e o q) = y at only trks recalls served
  have host := only.keeps (fun x => x.host d.owner) (fun _ => rfl) (fun _ => rfl)
  have pla := only.linePla e (servedTrk c e o q).line
  have counted := countEvent_rest 6 e 4 1 (some (servedTrk c e o q).p)
    (y.setHome e { y.home e with trks := [asked (servedTrk c e o q) d.owner (decide (q.op = 2 ∨ q.op = 4))] })
  have home : (serve e 0 (serving c e o q)).home e =
      { y.home e with trks := [asked (servedTrk c e o q) d.owner (decide (q.op = 2 ∨ q.op = 4))] } := by
    rw [served]
    exact (home_of_rest counted e).trans (Core.setHome_same ..)
  have waits : ((serve e 0 (serving c e o q)).home e).atRest := by
    rw [home]
    refine ⟨recalls, fun t ht => ?_⟩
    obtain rfl := List.mem_singleton.1 ht
    rfl
  rw [fxHomeReq_served h waits]
  refine ⟨⟨BitVec.ofNat 16 ((servedTrk c e o q).idx + (servedTrk c e o q).gen.toNat * 4096), ?_⟩, ?_, ?_⟩
  · rw [served, host, pla]
    exact List.getLast?_concat ..
  · rw [home]
    rfl
  · rw [served]
    exact (congrArg Core.mem counted).trans only.mem
end

end Sys2Proof.Machine
end

section
/-! The requests of hosts at a home: O41 (R43, R62, R66, R73, R74, R78, R80, R82, R88). -/

namespace Sys2Proof.Machine
open Sys2Proof

/-! ### Requests that a home accepts -/

section
variable {c : Core} {e : Nat} {o : Origin} {q : Req}

/-- What a home accepts does not lie in the tenant window (R43, R45). -/
theorem accepted_outside {typ : BitVec 2} {op : BitVec 6} (h : homeAccepts c e o { q with op := op } typ = true) : inWindow q.pla = false := by
  obtain ⟨-, -, refusal, -⟩ := homeAccepts_elim h
  rw [inWindow, decide_eq_false_iff_not]
  intro top
  unfold homeRefusal nack at refusal
  dsimp only at refusal
  split at refusal
  · cases refusal
  · rw [if_pos (.inl (by rw [top]; decide))] at refusal
    cases refusal

theorem fxWrite_outside (h : inWindow q.pla = false) (op : BitVec 6) : fxWrite op e o q c = homeRow op e o q c := if_neg (ne_true_of_eq_false h)

theorem fxRdOnce_outside (h : inWindow q.pla = false) : fxRdOnce e o q c = homeRow 3 e o q c := if_neg (ne_true_of_eq_false h)

/-- A write to a snapshot region that is accepted names the working slot of a region that is there (R100). -/
theorem accepted_slot (h : homeAccepts c e o q 1 = true) (hq : q.op = 8) :
    (c.region (c.homeExt e (c.originPtn o) (plaExt q.pla)).region).created = true ∧
      q.pleat.toNat = (c.region (c.homeExt e (c.originPtn o) (plaExt q.pla)).region).workingAt e := by
  obtain ⟨-, -, refusal, htyp, -⟩ := homeAccepts_elim h
  unfold homeRefusal nack at refusal
  dsimp only at refusal
  rw [htyp] at refusal
  have not3 : ¬q.op = 3 := by rw [hq]; decide
  simp only [not3, if_false] at refusal
  split_ifs at refusal <;> simp_all

/-! ### A line without directory entry (R80, R82) -/

section
variable (h : homeAccepts c e o q 0 = true) (hk : o.kind = 1) (hn : c.dirEnt e (reqLine c e o q) = none)
include h hk hn

theorem serve_absent : serve e 0 (serving c e o q) = serveCoherent e 0 (serving c e o q) ∧ (serving c e o q).dirEnt e (servedTrk c e o q).line = none :=
  ⟨(serve_serving h hk).trans (if_pos rfl), (serving_dirEnt _).trans hn⟩

section
variable (hw : (setOf (c.home e) (reqLine c e o q)).length < 16) (hq : q.op = 1 ∨ q.op = 2 ∨ q.op = 4)
include hw hq

theorem serve_new :
    serve e 0 (serving c e o q) =
      if q.op = 1 ∧ (c.home e).dirCfg.getLsbD 0 = false then
        answerMem e 0 (reqLine c e o q) 1 (setDir e (reqLine c e o q) (some ⟨.s, false, 0, [some o.idx, none, none, none], 0, 0⟩) (serving c e o q))
      else answerMem e 0 (reqLine c e o q) 2 (setDir e (reqLine c e o q) (some (dirX o.idx)) (serving c e o q)) := by
  obtain ⟨run, absent⟩ := serve_absent h hk hn
  have way : (setOf ((serving c e o q).home e) (servedTrk c e o q).line).length < 16 := by
    rw [serving_home]
    exact hw
  exact run.trans (serveCoherent_new serving_trk absent hk way hq)

/-- With E grants on, and for a host that wants the line: it becomes the line's owner in X. -/
theorem reader_owns (hx : q.op = 1 → (c.home e).dirCfg.getLsbD 0 = true) :
    ((∃ d, (fxHomeReq e o q c).dirEnt e (reqLine c e o q) = some d ∧ d.st = .x ∧ d.owner = o.idx ∧ d.coarse = false ∧ ∀ y ∈ d.ptrs, y = none) ∧
        ((fxHomeReq e o q c).home e).trks.map (fun t => (t.phase, t.line)) = [(2, reqLine c e o q)] ∧ (fxHomeReq e o q c).mem = c.mem) ∧
      (fxHomeReq e o q c).out.getLast? =
        some (hostDone c o q opCmpData 2 (c.rdPool e (reqLine c e o q)).2 (c.rdPool e (reqLine c e o q)).1) := by
  have grants : ¬(q.op = 1 ∧ (c.home e).dirCfg.getLsbD 0 = false) := fun k => absurd (hx k.1) (ne_true_of_eq_false k.2)
  obtain ⟨out, dir, trks, mem⟩ := served_copy h hk _ rfl (dirX o.idx) 2 hq ((serve_new h hk hn hw hq).trans (if_neg grants))
  refine ⟨⟨⟨_, dir, rfl, rfl, rfl, ?_⟩, trks, mem⟩, out⟩
  simp [dirX, emptyPtrs]

/-- With E grants off a reader shares the line. -/
theorem reader_shares (h1 : q.op = 1) (hx : (c.home e).dirCfg.getLsbD 0 = false) :
    (∃ d, (fxHomeReq e o q c).dirEnt e (reqLine c e o q) = some d ∧ d.st = .s ∧ d.ptrs = [some o.idx, none, none, none]) ∧
      (fxHomeReq e o q c).out.getLast? =
        some (hostDone c o q opCmpData 1 (c.rdPool e (reqLine c e o q)).2 (c.rdPool e (reqLine c e o q)).1) := by
  obtain ⟨out, dir, -⟩ := served_copy h hk _ rfl _ 1 hq ((serve_new h hk hn hw hq).trans (if_pos ⟨h1, hx⟩))
  exact ⟨⟨_, dir, rfl, rfl⟩, out⟩
end

/-- A host that reads without keeping a copy leaves no entry. -/
theorem reader_leaves (hq : q.op = 3) :
    (fxHomeReq e o q c).dirEnt e (reqLine c e o q) = none ∧ homeQuiet (fxHomeReq e o q c) e = true ∧ (fxHomeReq e o q c).mem = c.mem ∧
      (fxHomeReq e o q c).out.getLast? =
        some (hostDone c o q opCmpData 0 (c.rdPool e (reqLine c e o q)).2 (c.rdPool e (reqLine c e o q)).1) := by
  obtain ⟨run, absent⟩ := serve_absent h hk hn
  have keepsNone : ¬(q.op = 1 ∨ q.op = 2 ∨ q.op = 4) := by rw [hq]; decide
  have served : serve e 0 (serving c e o q) =
      completeTrk e 0 (lineAnswer (serving c e o q) e (reqLine c e o q) 0) (touchLine e (reqLine c e o q) (c.originPtn o) false (serving c e o q)) :=
    run.trans ((serveCoherent_absent serving_trk absent).trans ((if_pos hq).trans (answerMem_found serving_trk ..)))
  have home := touchLine_home (serving c e o q) e (reqLine c e o q) (c.originPtn o) false
  rw [serving_home] at home
  obtain ⟨out, quiet, only, dir⟩ := served_ends h hk keepsNone (.inr rfl) (.of_eq served) (by rw [home]; rfl) (by rw [home]; exact (accepted_quiet h).2)
    (touched_pend (serving_pend h) e _)
  have all := (serving_only h).trans (touchLine_only (serving c e o q) e (reqLine c e o q) (c.originPtn o) false)
  refine ⟨?_, quiet, only.mem.trans all.mem, ?_⟩
  · rw [Core.dirEnt, dir, home]
    exact hn
  · rw [out, lineAnswer, (serving_only h).rdPool]
    exact congrArg some (all.keeps (fun d => completionOf d (servedTrk c e o q) _) (fun _ => rfl) (fun _ => rfl))

/-- A DirtyEvict of a line that no one has is answered and stores nothing. -/
theorem evict_ignored (hq : q.op = 10) :
    homeQuiet (fxHomeReq e o q c) e = true ∧ (fxHomeReq e o q c).out.getLast? = some (hostDone c o q opCmp 0 false 0) ∧
      (fxHomeReq e o q c).mem = c.mem ∧ (fxHomeReq e o q c).lineFlags = c.lineFlags := by
  obtain ⟨run, absent⟩ := serve_absent h hk hn
  have keepsNone : ¬(q.op = 1 ∨ q.op = 2 ∨ q.op = 4) := by rw [hq]; decide
  have not3 : ¬q.op = 3 := by rw [hq]; decide
  have noWrite : ¬(q.op = 8 ∨ q.op = 9) := by rw [hq]; decide
  have served : serve e 0 (serving c e o q) = completeTrk e 0 { op := opCmp } (serving c e o q) :=
    run.trans ((serveCoherent_absent serving_trk absent).trans ((if_neg not3).trans ((if_neg noWrite).trans (if_pos hq))))
  have home : (serving c e o q).home e = servingHome c e o q := serving_home
  obtain ⟨out, quiet, only, -⟩ := served_ends h hk keepsNone (.inl rfl) (.of_eq served) (by rw [home]; rfl) (by rw [home]; exact (accepted_quiet h).2)
    (serving_pend h)
  have all := (serving_only h).trans only
  refine ⟨quiet, ?_, all.mem, all.keeps Core.lineFlags (fun _ => rfl) (fun _ => rfl)⟩
  rw [out]
  exact congrArg some ((serving_only h).keeps (fun d => completionOf d (servedTrk c e o q) { op := opCmp }) (fun _ => rfl) (fun _ => rfl))
end

/-! ### Stores -/

/-- A full line stored by a host, at the line `l` that the type of its extent gives. -/
theorem line_stored {typ : BitVec 2} (h : homeAccepts c e o q typ = true) (hk : o.kind = 1) (hq : q.op = 8) {l : Nat}
    (hs : Woken e (completeTrk e 0 { op := opCmp } (writeReq e l (servedTrk c e o q) (serving c e o q))) (serve e 0 (serving c e o q))) :
    (fxHomeReq e o q c).out.getLast? = some (hostDone c o q opCmp 0 false 0) ∧ homeQuiet (fxHomeReq e o q c) e = true ∧
      (fxHomeReq e o q c).rdPool e l = (if q.poison then (0, true) else (q.data, false)) ∧
      (fxHomeReq e o q c).dirEnt e = c.dirEnt e ∧ (l < 2 ^ 29 → otherLines c (fxHomeReq e o q c) e l) := by
  have keepsNone : ¬(q.op = 1 ∨ q.op = 2 ∨ q.op = 4) := by rw [hq]; decide
  obtain ⟨x, poison, written⟩ := writeReq_full (c := c) (e := e) (o := o) hq l
  rw [written] at hs
  obtain ⟨out, quiet, pool, -, dir, others⟩ := served_write h hk keepsNone hs
  have mem : (serving c e o q).mem = c.mem := (serving_only h).mem
  refine ⟨out, quiet, ?_, funext fun k => by rw [Core.dirEnt, dir, Core.dirEnt], fun hl => others hl fun y hy => ?_⟩
  · rw [pool, poison, rdLine_wrLine]
    cases q.poison <;> rfl
  · rw [wrLine, rdByte_wrLE_ne _ _ _ _ _ hy, mem]

/-- Bytes of a line stored by a host. -/
theorem bytes_stored (h : homeAccepts c e o q 0 = true) (hk : o.kind = 1) (hn : c.dirEnt e (reqLine c e o q) = none) (hq : q.op = 9)
    (hm : q.mask ≠ fullMask) (hp : q.poison = false) :
    homeQuiet (fxHomeReq e o q c) e = true ∧ (fxHomeReq e o q c).out.getLast? = some (hostDone c o q opCmp 0 false 0) ∧
      ((fxHomeReq e o q c).rdPool e (reqLine c e o q)).2 = (c.rdPool e (reqLine c e o q)).2 ∧
      otherLines c (fxHomeReq e o q c) e (reqLine c e o q) ∧
      ∀ b, b < 128 → rdByte (fxHomeReq e o q c).mem (caKey e (reqLine c e o q * 128) + b) =
        if q.mask.getLsbD b then lineByte q.data b else rdByte c.mem (caKey e (reqLine c e o q * 128) + b) := by
  obtain ⟨run, absent⟩ := serve_absent h hk hn
  obtain ⟨-, -, -, -, -, -, line, -⟩ := homeAccepts_elim h
  have keepsNone : ¬(q.op = 1 ∨ q.op = 2 ∨ q.op = 4) := by rw [hq]; decide
  have not3 : ¬q.op = 3 := by rw [hq]; decide
  obtain ⟨x, poison, written⟩ := writeReq_part (c := c) (e := e) (o := o) hq hm hp (reqLine c e o q)
  have served := run.trans ((serveCoherent_absent serving_trk absent).trans ((if_neg not3).trans (if_pos (.inr hq))))
  have stored := served.trans (congrArg (completeTrk e 0 { op := opCmp }) written)
  obtain ⟨out, quiet, pool, bytes, -, others⟩ := served_write h hk keepsNone (.of_eq stored)
  have mem : (serving c e o q).mem = c.mem := (serving_only h).mem
  refine ⟨quiet, out, ?_, others line fun y hy => ?_, fun b hb => ?_⟩
  · have was : x.poison = (c.rdPool e (reqLine c e o q)).2 := by rw [poison, ← rdPool_snd, (serving_only h).rdPool]
    rw [pool, ← was]
    cases x.poison <;> rfl
  · rw [rdByte_wrMasked, if_neg (by omega), mem]
  · have enabled : (caKey e (reqLine c e o q * 128) + 0 ≤ caKey e (reqLine c e o q * 128) + b ∧
        caKey e (reqLine c e o q * 128) + b < caKey e (reqLine c e o q * 128) + 0 + 128 ∧ q.mask.getLsbD b = true) ↔ q.mask.getLsbD b = true :=
      ⟨fun k => k.2.2, fun k => ⟨by omega, by omega, k⟩⟩
    rw [bytes, rdByte_wrMasked, Nat.add_sub_cancel_left, mem]
    exact if_congr enabled rfl rfl

/-- A write to a page that the working slot owns goes to that page (R100, R111). -/
theorem serveSnap_own (h : homeAccepts c e o q 1 = true) (hq : q.op = 8) (hc : (c.home e).copies = []) {pg : Nat}
    (hw : (c.pageWords e (reqLine c e o q / 512))[q.pleat.toNat]? = some (pg, true)) :
    serveSnap e 0 (c.homeExt e (c.originPtn o) (plaExt q.pla)).region (serving c e o q) =
      wakePage e (reqLine c e o q / 512) (completeTrk e 0 { op := opCmp }
        (writeReq e (pg * 512 + reqLine c e o q % 512) (servedTrk c e o q) (serving c e o q))) := by
  have not3 : ¬(servedTrk c e o q).q.op = 3 := by
    intro k
    exact absurd (hq.symm.trans k) (by decide)
  have region := (serving_only h).keeps (fun d => d.region (c.homeExt e (c.originPtn o) (plaExt q.pla)).region) (fun _ => rfl) (fun _ => rfl)
  have words : ((serving c e o q).pageWords e ((servedTrk c e o q).line / 512))[(servedTrk c e o q).q.pleat.toNat]? = some (pg, true) := by
    rw [Core.pageWords, (serving_only h).mem]
    exact hw
  have copies : ((serving c e o q).home e).copies = [] := by
    rw [serving_home]
    exact hc
  have created : ¬(!(c.region (c.homeExt e (c.originPtn o) (plaExt q.pla)).region).created) = true := by rw [(accepted_slot h hq).1]; decide
  unfold serveSnap
  rw [serving_trk]
  dsimp only
  rw [region, copies, words, if_neg created, if_neg (fun k => absurd k.1 (by simp)), if_neg not3]
  rfl
end

/-! ### Requests that a home refuses (R43, R62, R73, R88) -/

section
variable {c : Core} {e : Nat} {o : Origin} {q : Req}

/-- A home with a full nack queue takes none. -/
theorem fxHomeReq_full (h : 256 ≤ (c.home e).nackQ) : fxHomeReq e o q c = c := if_pos (.inr (.inr h))

section
variable (hw : c.works 6 e = true) (he : e < 16) (hn : (c.home e).nackQ < 256)
include hw he hn

/-- A fenced host's DirtyEvict is dropped, and any other request of it nacked (R88). -/
theorem fxHomeReq_fenced (hk : o.kind = 1) (hf : (c.home e).fence.contains o.idx = true) :
    fxHomeReq e o q c = if q.op = 10 then c else sendNack e o (c.originPtn o) q.pla { op := opNackFenced, reason := 6, ce := q.ce } c := by
  have room : ¬((!c.works 6 e) = true ∨ 16 ≤ e ∨ 256 ≤ (c.home e).nackQ) := by simp [hw, he, hn]
  unfold fxHomeReq
  exact (if_neg room).trans (if_pos ⟨hk, hf⟩)

theorem fxHomeReq_refused {a : Ans} (hf : (c.home e).fence.contains o.idx = false) (hr : homeRefusal c e (c.originPtn o) o q = some a) :
    fxHomeReq e o q c = sendNack e o (c.originPtn o) q.pla { a with ce := q.ce } c := by
  have room : ¬((!c.works 6 e) = true ∨ 16 ≤ e ∨ 256 ≤ (c.home e).nackQ) := by simp [hw, he, hn]
  have unfenced : ¬(o.kind = 1 ∧ (c.home e).fence.contains o.idx = true) := fun k => ne_true_of_eq_false hf k.2
  unfold fxHomeReq
  dsimp only
  rw [if_neg room, if_neg unfenced, hr]
end

/-- A request with a reserved request code is refused for it before any other check (R62). -/
theorem homeRefusal_reserved (p : Nat) (h : reservedOp q.op = true) : homeRefusal c e p o q = some { op := opNackRevoked, reason := 5 } := if_pos h
end

section
variable {s : State} {e : Nat} {o : Origin} {q : Req} (hok : s.ok = true)
include hok

/-! ### The instructions of a request -/

theorem exec_read_of_ok (h : inWindow q.pla = false) : exec (.rdOnce e o q) s = .next (s.withCore (fxHomeReq e o { q with op := 3 } s.dev.core)) :=
  (actCore_of_ok hok _).trans (congrArg (fun d => Host.Outcome.next (s.withCore d)) (fxRdOnce_outside h))

theorem exec_full_of_ok (h : inWindow q.pla = false) : exec (.wrFull e o q) s = .next (s.withCore (fxHomeReq e o { q with op := 8 } s.dev.core)) :=
  (actCore_of_ok hok _).trans (congrArg (fun d => Host.Outcome.next (s.withCore d)) (fxWrite_outside h 8))

theorem exec_part_of_ok (h : inWindow q.pla = false) : exec (.wrPart e o q) s = .next (s.withCore (fxHomeReq e o { q with op := 9 } s.dev.core)) :=
  (actCore_of_ok hok _).trans (congrArg (fun d => Host.Outcome.next (s.withCore d)) (fxWrite_outside h 9))

theorem exec_reserved_of_ok (h : reservedOp q.op = true) : exec (.reservedRequest e o q) s = .next (s.withCore (fxHomeReq e o q s.dev.core)) :=
  (actCore_of_ok hok _).trans (congrArg (fun op => Host.Outcome.next (s.withCore (homeRow op e o q s.dev.core))) (if_pos h))

/-- While the nack queue is full a request changes nothing (R73). -/
theorem exec_full_nackQ (hn : 256 ≤ (s.dev.core.home e).nackQ) (hp : inWindow q.pla = false) :
    ∀ i ∈ [Instr.rdShared e o q, .rdOwn e o q, .upgrade e o q, .rdOnce e o q, .wrFull e o q, .wrPart e o q, .dirtyEvict e o q, .reservedRequest e o q],
      exec i s = .next s := by
  have stays (q' : Req) : Host.Outcome.next (s.withCore (fxHomeReq e o q' s.dev.core)) = (Host.Outcome.next s : Host.Outcome State Fault Refusal) :=
    congrArg (fun d => Host.Outcome.next (s.withCore d)) (fxHomeReq_full hn)
  have mesh (op : BitVec 6) : actCore s (homeRow op e o q) = .next s := (actCore_of_ok hok _).trans (stays _)
  intro i hi
  simp only [List.mem_cons, List.not_mem_nil, or_false] at hi
  obtain rfl | rfl | rfl | rfl | rfl | rfl | rfl | rfl := hi
  · exact mesh 1
  · exact mesh 2
  · exact mesh 4
  · exact (exec_read_of_ok hok hp).trans (stays _)
  · exact (exec_full_of_ok hok hp).trans (stays _)
  · exact (exec_part_of_ok hok hp).trans (stays _)
  · exact mesh 10
  · exact mesh _
end

/-- Settles O41: a quiet home serves the request at once, so each case is what one start by the directory state does; the refusals come before that. -/
theorem coherentRequests : Obligations.CoherentRequests := by
  intro s e o q hok hk c h l old bad last owns data cmp
  refine ⟨fun op ha hn hw => ⟨?_, ?_, ?_, ?_, ?_, ?_, ?_, ?_⟩, fun op d ha hd hx ho hf => ?_, fun works he hn => ?_, exec_full_nackQ hok, fun ha => ?_,
    fun pg ha hc hp => ?_⟩
  · rintro rfl on
    have := reader_owns ha hk hn hw (.inl rfl) (fun _ => on)
    exact ⟨_, actCore_of_ok hok _, s.keeps_withCore _, this⟩
  · rintro rfl off
    obtain ⟨⟨d, entry, shared, ptrs⟩, out⟩ := reader_shares ha hk hn hw (.inl rfl) rfl off
    exact ⟨_, d, actCore_of_ok hok _, s.keeps_withCore _, entry, shared, ptrs, out⟩
  · rintro rfl
    exact ⟨_, actCore_of_ok hok _, s.keeps_withCore _, reader_owns ha hk hn hw (.inr (.inl rfl)) (fun k => absurd k (by decide : ¬(2 : BitVec 6) = 1))⟩
  · rintro rfl
    exact ⟨_, actCore_of_ok hok _, s.keeps_withCore _, reader_owns ha hk hn hw (.inr (.inr rfl)) (fun k => absurd k (by decide : ¬(4 : BitVec 6) = 1))⟩
  · rintro rfl
    exact ⟨_, exec_read_of_ok hok (accepted_outside ha), s.keeps_withCore _, reader_leaves ha hk hn rfl⟩
  · rintro rfl
    obtain ⟨run, absent⟩ := serve_absent ha hk hn
    obtain ⟨-, -, -, -, -, -, line, -⟩ := homeAccepts_elim ha
    have served := run.trans ((serveCoherent_absent serving_trk absent).trans ((if_neg (by decide : ¬(8 : BitVec 6) = 3)).trans (if_pos (.inl rfl))))
    obtain ⟨out, quiet, pool, -, others⟩ := line_stored ha hk rfl (.of_eq served)
    exact ⟨_, exec_full_of_ok hok (accepted_outside ha), s.keeps_withCore _, quiet, out, pool, others line⟩
  · rintro rfl mask poison
    exact ⟨_, exec_part_of_ok hok (accepted_outside ha), s.keeps_withCore _, bytes_stored ha hk hn rfl mask poison⟩
  · rintro rfl
    exact ⟨_, actCore_of_ok hok _, s.keeps_withCore _, evict_ignored ha hk hn rfl⟩
  · intro asks
    have snoops (i : Instr) (hq : op = 1 ∨ op = 2 ∨ op = 3 ∨ op = 4) (run : exec i s = .next (s.withCore (fxHomeReq e o { q with op := op } c))) :
        asks i (decide (op = 2 ∨ op = 4)) := by
      obtain ⟨⟨tag, out⟩, trks, mem⟩ := served_asks ha hk hd hx ho hf hq
      exact ⟨_, tag, _, run, s.keeps_withCore _, out, fun _ => rfl, trks, mem⟩
    refine ⟨?_, ?_, ?_, ?_⟩ <;> rintro rfl
    · exact snoops _ (.inl rfl) (actCore_of_ok hok _)
    · exact snoops _ (.inr (.inr (.inl rfl))) (exec_read_of_ok hok (accepted_outside ha))
    · exact snoops _ (.inr (.inl rfl)) (actCore_of_ok hok _)
    · exact snoops _ (.inr (.inr (.inr rfl))) (actCore_of_ok hok _)
  · refine ⟨fun hf hr => ?_, fun hf => ⟨?_, ?_⟩, fun a hf hr => ?_⟩
    · exact (exec_reserved_of_ok hok hr).trans
        (congrArg (fun d => Host.Outcome.next (s.withCore d)) (fxHomeReq_refused works he hn hf (homeRefusal_reserved _ hr)))
    · exact (actCore_of_ok hok _).trans
        (congrArg (fun d => Host.Outcome.next (s.withCore d)) ((fxHomeReq_fenced works he hn hk hf).trans (if_neg (by decide : ¬(1 : BitVec 6) = 10))))
    · exact (actCore_of_ok hok _).trans
        (congrArg (fun d => Host.Outcome.next (s.withCore d)) ((fxHomeReq_fenced works he hn hk hf).trans (if_pos rfl)))
    · exact (actCore_of_ok hok _).trans (congrArg (fun d => Host.Outcome.next (s.withCore d)) (fxHomeReq_refused works he hn hf hr))
  · obtain ⟨-, -, -, -, -, -, line, -⟩ := homeAccepts_elim ha
    have served := (serve_serving ha hk).trans ((if_neg (by decide)).trans ((if_neg (by decide)).trans (if_neg (by decide : ¬(8 : BitVec 6) = 3))))
    obtain ⟨out, -, pool, dir, others⟩ := line_stored ha hk rfl (.of_eq served)
    exact ⟨_, exec_full_of_ok hok (accepted_outside ha), s.keeps_withCore _, out, pool, others line, congrFun dir _⟩
  · have served := (serve_serving ha hk).trans ((if_neg (by decide)).trans ((if_pos rfl).trans (serveSnap_own ha rfl hc hp)))
    have woken := Woken.wakePage e (reqLine c e o { q with op := 8 } / 512) (completeTrk e 0 { op := opCmp }
      (writeReq e (pg * 512 + reqLine c e o { q with op := 8 } % 512) (servedTrk c e o { q with op := 8 }) (serving c e o { q with op := 8 })))
    rw [← served] at woken
    obtain ⟨out, -, pool, -⟩ := line_stored ha hk rfl woken
    exact ⟨_, exec_full_of_ok hok (accepted_outside ha), s.keeps_withCore _, out, pool⟩

end Sys2Proof.Machine
end

section
/-! SUPPORT. The answer of the owner to the snoop of a host's RDSHARED, at a home with no other transaction (R64, R66, R75, R82). -/

namespace Sys2Proof.Machine
open Sys2Proof

/-! ### A home with one transaction -/

/-- The tag of a transaction's snoops (R64). -/
def snpTag (t : Trk) : BitVec 16 := BitVec.ofNat 16 (t.idx + t.gen.toNat * 4096)

/-- The core whose home `e` has `t` as its one transaction. -/
def withTrk (e : Nat) (t : Trk) (c : Core) : Core := c.setHome e { c.home e with trks := [t] }

section
variable {c : Core} {e : Nat} {t : Trk}

/-- A working home takes what a host sends that is not fenced there (R88). -/
theorem takes_of_unfenced {h : Nat} (hw : c.works 6 e = true) (hf : (c.home e).fence.contains h = false) :
    ¬((!c.works 6 e) = true ∨ (c.home e).fence.contains h = true) := by
  rw [hw, hf]
  decide

theorem withTrk_home : (withTrk e t c).home e = { c.home e with trks := [t] } := Core.setHome_same ..

theorem withTrk_only : OnlyHome e c (withTrk e t c) := .of_modHome (g := fun h => { h with trks := [t] }) rfl

theorem withTrk_dirEnt (l : Nat) : (withTrk e t c).dirEnt e l = c.dirEnt e l := by rw [Core.dirEnt, withTrk_home, Core.dirEnt]

section
variable (ht : (c.home e).trks = [t])
include ht

theorem putTrk_withTrk {t' : Trk} (hi : t.idx = t'.idx) : putTrk e t' c = withTrk e t' c := putTrk_single ht hi

theorem trkOfTag_single (hi : t.idx < 4096) : trkOfTag c e (snpTag t) = some t := by
  have tag : (snpTag t).toNat = t.idx + t.gen.toNat * 4096 := by
    have gen := t.gen.isLt
    exact Nat.mod_eq_of_lt (by omega)
  have low : field (snpTag t) 11 0 = t.idx := by
    rw [field, tag, Nat.shiftRight_zero]
    omega
  have high : field (snpTag t) 15 12 = t.gen.toNat := by
    have gen := t.gen.isLt
    rw [field, tag, Nat.shiftRight_eq_div_pow]
    omega
  rw [trkOfTag, low, trk_single ht]
  exact if_pos high.symm

/-- A transaction whose last snoop is answered is resolved, and that is the end of the home's work where it leaves the home at rest. -/
theorem settle_resolve (hr : (c.home e).recallQ = []) (hp : t.phase = 1) (hs : t.snoops = []) (hrest : ((resolve e t.idx c).home e).atRest) :
    settle e c = resolve e t.idx c := by
  have may : mayMove (c.home e) t = true := by simp [mayMove, hp, hs]
  have move : homeMove e c = some (resolve e t.idx c) := by
    have found : (c.home e).trks.find? (mayMove (c.home e)) = some t := by
      rw [ht]
      exact List.find?_cons_of_pos may
    unfold homeMove
    dsimp only
    rw [found]
    simp [hp]
  have fuel : 16 + 32 * ((c.home e).trks.length + (c.home e).recallQ.length) = 47 + 1 := by simp [ht, hr]
  rw [settle, fuel, settleN, move]
  exact settleN_atRest hrest 47

theorem resolve_request {d : DirEnt} (hd : c.dirEnt e t.line = some d) (hk : t.kind = .request) (hs : t.salvaging = false) :
    resolve e t.idx c = resolveRequest e t.idx t d c := by
  unfold resolve
  rw [trk_single ht]
  dsimp only
  rw [if_neg (ne_true_of_eq_false hs), hd, hk]
end
end

/-! ### A copy granted -/

/-- Home `e`'s one transaction is `t`, by which an unfenced host asks for a copy that the mirror pair does not wait for (R74, R436). -/
structure Serves (e : Nat) (t : Trk) (c : Core) : Prop where
  trks : (c.home e).trks = [t]
  recalls : (c.home e).recallQ = []
  host : t.o.kind = 1
  op : t.q.op = 1 ∨ t.q.op = 2 ∨ t.q.op = 4
  pend : (c.mirr t.p).pendOf t.o = none
  unfenced : (c.home e).fence.contains t.o.idx = false

/-- From `c` to `d` home `e` has sent `m` for its one transaction `t`, and awaits CmpAck (R66, R74). -/
structure Granted (e : Nat) (t : Trk) (m : Msg) (c d : Core) : Prop where
  out : d.out.getLast? = some m
  only : OnlyHome e c d
  trks : (d.home e).trks = [{ t with phase := 2, snoops := [] }]
  dir : (d.home e).dir = (c.home e).dir
  recalls : (d.home e).recallQ = (c.home e).recallQ

section
variable {c d : Core} {e : Nat} {t : Trk} {m : Msg}

theorem Granted.atRest (h : Granted e t m c d) (hr : (c.home e).recallQ = []) : (d.home e).atRest := by
  refine ⟨h.recalls.trans hr, fun u hu => ?_⟩
  rw [h.trks] at hu
  obtain rfl := List.mem_singleton.1 hu
  rfl

/-- The entry written before the copy went out. -/
theorem Granted.entry {l : Nat} {x : DirEnt} (h : Granted e t m (setDir e l (some x) c) d) :
    d.dirEnt e l = some { x with stamp := (c.home e).stamp + 1 } := by
  rw [Core.dirEnt, h.dir, setDir_home]
  dsimp only
  rw [tget_tput_same]
  rfl

section
variable (h : Serves e t c)
include h

theorem Serves.setDir (l : Nat) (x : Option DirEnt) : Serves e t (setDir e l x c) := by
  have home := setDir_home c e l x
  obtain ⟨trks, recalls, host, op, pend, unfenced⟩ := h
  exact ⟨by rw [home]; exact trks, by rw [home]; exact recalls, host, op, pend, by rw [home]; exact unfenced⟩

theorem Serves.touchLine (l p : Nat) (dirty : Bool) : Serves e t (touchLine e l p dirty c) := by
  have home := touchLine_home c e l p dirty
  obtain ⟨trks, recalls, host, op, pend, unfenced⟩ := h
  refine ⟨by rw [home]; exact trks, by rw [home]; exact recalls, host, op, ?_, by rw [home]; exact unfenced⟩
  rw [(touchLine_only ..).keeps (fun d => d.mirr t.p) (fun _ => rfl) (fun _ => rfl)]
  exact pend

theorem Serves.lineWritten (l : Nat) (m : Mem) (x : LineMeta) : Serves e t (lineWritten e l m x c) :=
  ⟨h.trks, h.recalls, h.host, h.op, h.pend, h.unfenced⟩

theorem Serves.stWhole (l p : Nat) (v : Line) (poison : Bool) : Serves e t (stWhole e l p v poison c) := by
  rw [stWhole_eq]
  exact (h.lineWritten ..).touchLine ..

theorem Serves.completed {a : Ans} (ha : a.op = opCmp ∨ a.op = opCmpData) (hm : completionOf c t a = m) :
    Granted e t m c (completeTrk e t.idx a c) := by
  subst hm
  obtain ⟨out, only, home⟩ := completeTrk_waits (trk_single h.trks) h.host h.pend h.op ha h.unfenced
  refine ⟨out, only, ?_, by rw [home], by rw [home]⟩
  rw [home, h.trks]
  simp

theorem Serves.answeredFromMem {l : Nat} {g : BitVec 2} (hm : completionOf c t (lineAnswer c e l g) = m) :
    Granted e t m c (answerMem e t.idx l g c) := by
  subst hm
  obtain ⟨out, only, trks, dir, recalls⟩ := answerMem_waits (trk_single h.trks) h.host h.pend l g h.op h.unfenced
  refine ⟨out, only, ?_, dir, recalls⟩
  rw [trks, h.trks]
  simp
end

theorem OnlyHome.completion (h : OnlyHome e c d) (t : Trk) (a : Ans) : completionOf d t a = completionOf c t a :=
  h.keeps (fun x => completionOf x t a) (fun _ => rfl) (fun _ => rfl)

theorem OnlyHome.lineCompletion (h : OnlyHome e c d) (t : Trk) (e' l : Nat) (g : BitVec 2) :
    completionOf d t (lineAnswer d e' l g) = completionOf c t (lineAnswer c e' l g) := by
  rw [lineAnswer, h.rdPool, h.completion, lineAnswer]

theorem stWhole_completion (l p : Nat) (v : Line) (poison : Bool) (a : Ans) : completionOf (stWhole e l p v poison c) t a = completionOf c t a := by
  rw [stWhole_eq, (touchLine_only ..).completion]
  rfl

theorem stWhole_rdPool (l p : Nat) (v : Line) : (stWhole e l p v false c).rdPool e l = (v, false) := by
  rw [stWhole_eq, (touchLine_only ..).rdPool, lineWritten_rdPool]
  exact congrArg (·, false) (rdLine_wrLine ..)
end

/-! ### The owner's answer -/

/-- Home `e`'s one transaction is a host's RDSHARED that waits for the owner in X of its line, which it has snooped by `sn` (R82). -/
structure AwaitsOwner (c : Core) (e : Nat) (t : Trk) (d : DirEnt) (sn : Snoop) : Prop where
  trks : (c.home e).trks = [t]
  recalls : (c.home e).recallQ = []
  kind : t.kind = .request
  phase : t.phase = 1
  snoops : t.snoops = [sn]
  coherent : sn.salvage = false
  salvaging : t.salvaging = false
  idx : t.idx < 4096
  host : t.o.kind = 1
  op : t.q.op = 1
  pend : (c.mirr t.p).pendOf t.o = none
  entry : c.dirEnt e t.line = some d
  exclusive : d.st = .x
  owner : d.owner = sn.h
  other : d.owner ≠ t.o.idx
  ownerUnfenced : (c.home e).fence.contains sn.h = false
  readerUnfenced : (c.home e).fence.contains t.o.idx = false

/-- The transaction with the owner's answer: data replaces what it held (R82). -/
def ownerHeard (t : Trk) (code : Nat) (r : SnpResp) : Trk :=
  { t with snoops := [], ownerAns := code, data := if code ≤ 2 then r.data else t.data, dirty := if code ≤ 2 then r.dirty else t.dirty }

/-- An entry with one sharer more, where it has room. -/
theorem addSharer_first (c : Core) (st : DirSt) (k h : Nat) (v : BitVec 64) (n : Nat) :
    addSharer c ⟨st, false, k, emptyPtrs, v, n⟩ h = ⟨st, false, k, [some h, none, none, none], v, n⟩ := by
  simp [addSharer, emptyPtrs, List.idxOf?, List.findIdx?_cons]

theorem addSharer_second (c : Core) (st : DirSt) (k : Nat) {j h : Nat} (hj : j ≠ h) (v : BitVec 64) (n : Nat) :
    addSharer c ⟨st, false, k, [some j, none, none, none], v, n⟩ h = ⟨st, false, k, [some j, some h, none, none], v, n⟩ := by
  simp [addSharer, hj.symm, List.idxOf?, List.findIdx?_cons]

/-- A host's RDSHARED whose owner in X has answered (R82): the owner keeps the dirty line in O, hands its data over, shares, or has nothing. -/
theorem resolveRequest_reader {c : Core} {e i : Nat} {t : Trk} {d : DirEnt} (hk : t.o.kind = 1) (hq : t.q.op = 1) (hx : d.st = .x)
    (ho : d.owner ≠ t.o.idx) (ha : t.ownerAns ≠ 5) :
    resolveRequest e i t d c =
      if t.ownerAns = 1 then completeTrk e i { op := opCmpData, grant := 1, data := t.data }
        (setDir e t.line (some ⟨.o, false, d.owner, [some t.o.idx, none, none, none], 0, 0⟩) c)
      else if t.ownerAns = 2 then completeTrk e i { op := opCmpData, grant := 1, data := t.data }
        (setDir e t.line (some ⟨.s, false, 0, [some t.o.idx, none, none, none], 0, 0⟩) (stWhole e t.line t.p t.data false c))
      else if t.ownerAns = 3 then answerMem e i t.line 1 (setDir e t.line (some ⟨.s, false, 0, [some d.owner, some t.o.idx, none, none], 0, 0⟩) c)
      else answerMem e i t.line 2 (setDir e t.line (some (dirX t.o.idx)) c) := by
  have present : ownerGone t d = false := by simp [ownerGone, hx, ha]
  have host : (requester t).getD 4096 = t.o.idx := congrArg (Option.getD · 4096) (if_pos hk)
  unfold resolveRequest
  simp [present, host, hq, hk, hx, dirX, addSharer_first, addSharer_second _ _ _ ho, asShared]

section
variable {c : Core} {e : Nat} {t : Trk} {d : DirEnt} {sn : Snoop} {r : SnpResp} (h : AwaitsOwner c e t d sn)
include h

theorem AwaitsOwner.serves (code : Nat) : Serves e (ownerHeard t code r) (withTrk e (ownerHeard t code r) c) where
  trks := by rw [withTrk_home]
  recalls := by
    rw [withTrk_home]
    exact h.recalls
  host := h.host
  op := .inl h.op
  pend := h.pend
  unfenced := by
    rw [withTrk_home]
    exact h.readerUnfenced

/-- What becomes of the transaction with the owner's answer `code`. -/
theorem resolve_heard {code : Nat} (hc : code ≠ 5) (y : Core) :
    resolveRequest e t.idx (ownerHeard t code r) d y =
      if code = 1 then completeTrk e t.idx { op := opCmpData, grant := 1, data := (ownerHeard t code r).data }
        (setDir e t.line (some ⟨.o, false, d.owner, [some t.o.idx, none, none, none], 0, 0⟩) y)
      else if code = 2 then completeTrk e t.idx { op := opCmpData, grant := 1, data := (ownerHeard t code r).data }
        (setDir e t.line (some ⟨.s, false, 0, [some t.o.idx, none, none, none], 0, 0⟩) (stWhole e t.line t.p (ownerHeard t code r).data false y))
      else if code = 3 then answerMem e t.idx t.line 1 (setDir e t.line (some ⟨.s, false, 0, [some d.owner, some t.o.idx, none, none], 0, 0⟩) y)
      else answerMem e t.idx t.line 2 (setDir e t.line (some (dirX t.o.idx)) y) :=
  resolveRequest_reader (t := ownerHeard t code r) h.host h.op h.exclusive h.other hc

variable (hw : c.works 6 e = true) (hh : r.h = sn.h) (htag : r.tag = snpTag t)
include hw hh htag

theorem snpResponse_owner (code : Nat) : snpResponse e code r c = settle e (withTrk e (ownerHeard t code r) c) := by
  have takes := takes_of_unfenced (h := r.h) hw (hh ▸ h.ownerUnfenced)
  have opened : t.snoops.find? (fun s => decide (s.h = r.h)) = some sn := by simp [h.snoops, hh]
  have closed : t.snoops.erase sn = [] := by simp [h.snoops]
  have own : decide (ownerOf (c.dirEnt e t.line) = some r.h) = true := by simp [h.entry, ownerOf, h.exclusive, h.owner, hh]
  have recorded : (if code ≤ 2 ∧ (true = true ∨ (!t.dirty) = true) then { t with snoops := [], ownerAns := code, data := r.data, dirty := r.dirty }
      else { t with snoops := [], ownerAns := code } : Trk) = ownerHeard t code r := by
    by_cases data : code ≤ 2 <;> simp [ownerHeard, data]
  unfold snpResponse
  rw [if_neg takes, htag, trkOfTag_single h.trks h.idx]
  dsimp only
  rw [opened]
  dsimp only
  rw [if_neg (ne_true_of_eq_false h.coherent), own, closed, if_pos rfl]
  exact congrArg (settle e) ((congrArg (putTrk e · c) recorded).trans (putTrk_withTrk h.trks rfl))

/-- The transaction is resolved by the owner's answer, and the home then awaits the reader's CmpAck. -/
theorem snpResponse_granted {code : Nat} {m : Msg} {x : DirEnt} {z : Core} (hz : (z.home e).recallQ = [])
    (hg : Granted e (ownerHeard t code r) m (setDir e t.line (some x) z)
      (resolveRequest e t.idx (ownerHeard t code r) d (withTrk e (ownerHeard t code r) c))) :
    Granted e (ownerHeard t code r) m (setDir e t.line (some x) z) (snpResponse e code r c) := by
  have serves := h.serves (r := r) code
  have resolved : resolve e (ownerHeard t code r).idx (withTrk e (ownerHeard t code r) c) =
      resolveRequest e t.idx (ownerHeard t code r) d (withTrk e (ownerHeard t code r) c) :=
    resolve_request serves.trks ((withTrk_dirEnt _).trans h.entry) h.kind h.salvaging
  rw [snpResponse_owner h hw hh htag]
  have rest := hg.atRest (by rw [setDir_home]; exact hz)
  rw [settle_resolve serves.trks serves.recalls h.phase rfl (resolved ▸ rest), resolved]
  exact hg

/-- The owner keeps its line: it owns it in O beside the reader, which gets the owner's data. -/
theorem snpResponse_retained :
    Granted e (ownerHeard t 1 r) (completionOf c t { op := opCmpData, grant := 1, data := r.data })
      (setDir e t.line (some ⟨.o, false, d.owner, [some t.o.idx, none, none, none], 0, 0⟩) (withTrk e (ownerHeard t 1 r) c)) (snpResponse e 1 r c) := by
  have serves := h.serves (r := r) 1
  refine snpResponse_granted h hw hh htag serves.recalls ?_
  rw [resolve_heard h (by decide), if_pos rfl]
  exact (serves.setDir ..).completed (.inr rfl) ((withTrk_only.trans (setDir_only ..)).completion ..)

/-- The owner gives its line up: its data goes to memory and to the reader, which shares the line. -/
theorem snpResponse_given :
    Granted e (ownerHeard t 2 r) (completionOf c t { op := opCmpData, grant := 1, data := r.data })
      (setDir e t.line (some ⟨.s, false, 0, [some t.o.idx, none, none, none], 0, 0⟩) (stWhole e t.line t.p r.data false (withTrk e (ownerHeard t 2 r) c)))
      (snpResponse e 2 r c) := by
  have serves := (h.serves (r := r) 2).stWhole t.line t.p r.data false
  refine snpResponse_granted h hw hh htag serves.recalls ?_
  rw [resolve_heard h (by decide), if_neg (by decide), if_pos rfl]
  exact (serves.setDir ..).completed (.inr rfl)
    (((setDir_only ..).completion ..).trans ((stWhole_completion ..).trans (withTrk_only.completion ..)))

/-- The owner's copy is clean and stays: the reader gets the line from memory and shares it with the owner. -/
theorem snpResponse_shares :
    Granted e (ownerHeard t 3 r) (completionOf c t (lineAnswer c e t.line 1))
      (setDir e t.line (some ⟨.s, false, 0, [some d.owner, some t.o.idx, none, none], 0, 0⟩) (withTrk e (ownerHeard t 3 r) c)) (snpResponse e 3 r c) := by
  have serves := h.serves (r := r) 3
  refine snpResponse_granted h hw hh htag serves.recalls ?_
  rw [resolve_heard h (by decide), if_neg (by decide), if_neg (by decide), if_pos rfl]
  exact (serves.setDir ..).answeredFromMem ((withTrk_only.trans (setDir_only ..)).lineCompletion ..)

/-- The owner has no copy any more: the reader gets the line from memory, in X. -/
theorem snpResponse_absent :
    Granted e (ownerHeard t 4 r) (completionOf c t (lineAnswer c e t.line 2))
      (setDir e t.line (some (dirX t.o.idx)) (withTrk e (ownerHeard t 4 r) c)) (snpResponse e 4 r c) := by
  have serves := h.serves (r := r) 4
  refine snpResponse_granted h hw hh htag serves.recalls ?_
  rw [resolve_heard h (by decide), if_neg (by decide), if_neg (by decide), if_neg (by decide)]
  exact (serves.setDir ..).answeredFromMem ((withTrk_only.trans (setDir_only ..)).lineCompletion ..)

end
end Sys2Proof.Machine
end

section
/-! SUPPORT. The work of a home leaves the fence table of every home alone (R88). -/

namespace Sys2Proof.Machine
open Sys2Proof

/-- The fence tables of the homes. -/
def Core.fences (c : Core) (e : Nat) : List Nat := (c.home e).fence

theorem fences_of_rest {c d : Core} (h : d.rest = c.rest) : d.fences = c.fences := funext fun e => congrArg Home.fence (home_of_rest h e)

theorem spans_fences : Spans (fun c d => d.fences = c.fences) where
  refl _ := rfl
  trans h k := k.trans h
  counted _ _ _ _ _ _ := fences_of_rest (countEvent_rest ..)
  sent _ _ := rfl
  port _ _ _ := rfl
  ptn _ _ _ := rfl
  mirr _ _ _ := rfl

theorem foldl_fences {α : Type} (f : Core → α → Core) (h : ∀ c a, (f c a).fences = c.fences) (l : List α) (c : Core) :
    (l.foldl f c).fences = c.fences := spans_fences.foldl f h l c

section
variable (c : Core)

theorem ite_fences {P : Prop} [Decidable P] {a b : Core} (ha : a.fences = c.fences) (hb : b.fences = c.fences) :
    (if P then a else b).fences = c.fences := by
  split
  · exact ha
  · exact hb

/-! ### Changes of one home -/

theorem setHome_fences {e : Nat} {x : Home} (h : x.fence = (c.home e).fence) : (c.setHome e x).fences = c.fences := by
  funext k
  rw [Core.fences, Core.setHome_get]
  split
  · next hk => rw [h, hk, Core.fences]
  · rfl

theorem modHome_fences (e : Nat) {f : Home → Home} (h : ∀ x, (f x).fence = x.fence) : (c.modHome e f).fences = c.fences := setHome_fences c (h _)

@[simp] theorem putTrk_fences (e : Nat) (t : Trk) : (putTrk e t c).fences = c.fences := modHome_fences c e (fun _ => rfl)
@[simp] theorem dropTrk_fences (e i : Nat) : (dropTrk e i c).fences = c.fences := modHome_fences c e (fun _ => rfl)
@[simp] theorem setDir_fences (e l : Nat) (d : Option DirEnt) : (setDir e l d c).fences = c.fences := modHome_fences c e (fun _ => rfl)
@[simp] theorem wakePage_fences (e pg : Nat) : (wakePage e pg c).fences = c.fences := modHome_fences c e (fun _ => rfl)

@[simp] theorem addTrk_fences (e : Nat) (k : TrkKind) (o : Origin) (q : Req) (l p ph : Nat) : (addTrk e k o q l p ph c).fences = c.fences := by
  unfold addTrk
  dsimp only
  split
  · rfl
  · exact setHome_fences c rfl

/-! ### Counts, messages and answers -/

@[simp] theorem countEvent_fences (k i ev n : Nat) (p : Option Nat) : (countEvent k i ev n p c).fences = c.fences := spans_fences.counted ..
@[simp] theorem logE_fences (code k i : Nat) (p : Option Nat) (fs : List (Nat × Nat)) : (logE code k i p fs c).fences = c.fences :=
  fences_of_rest (logE_rest ..)
@[simp] theorem answer_fences (o : Origin) (p : Nat) (pla : BitVec 40) (a : Ans) : (c.answer o p pla a).fences = c.fences := spans_fences.answer ..
@[simp] theorem sendNack_fences (e : Nat) (o : Origin) (p : Nat) (pla : BitVec 40) (a : Ans) : (sendNack e o p pla a c).fences = c.fences :=
  (answer_fences ..).trans (modHome_fences c e (fun _ => rfl))
@[simp] theorem countWalk_fences (h : Option Nat) (lost salvaged : Nat) : (countWalk h lost salvaged c).fences = c.fences := by
  cases h <;> rfl
@[simp] theorem cohProtocol_fences (e l p h op : Nat) : (cohProtocol e l p h op c).fences = c.fences := logE_fences ..

/-! ### Lines -/

@[simp] theorem touchLine_fences (e l p : Nat) (dirty : Bool) : (touchLine e l p dirty c).fences = c.fences :=
  (fences_of_rest (touchLine_rest ..)).trans (modHome_fences c e (fun _ => rfl))

@[simp] theorem lineWritten_fences (e l : Nat) (m : Mem) (x : LineMeta) : (lineWritten e l m x c).fences = c.fences := rfl

@[simp] theorem stWhole_fences (e l p : Nat) (v : Line) (poison : Bool) : (stWhole e l p v poison c).fences = c.fences := by
  rw [stWhole_eq, touchLine_fences, lineWritten_fences]

@[simp] theorem stMasked_fences (e l p : Nat) (v : Line) (mask : BitVec 128) (poison : Bool) : (stMasked e l p v mask poison c).fences = c.fences := by
  by_cases h : mask = fullMask ∨ poison = true
  · rw [stMasked, if_pos h, stWhole_fences]
  · rw [stMasked, if_neg h, touchLine_fences]
    rfl

@[simp] theorem writeReq_fences (e l : Nat) (t : Trk) : (writeReq e l t c).fences = c.fences := ite_fences c (stMasked_fences ..) (stWhole_fences ..)
@[simp] theorem writeBack_fences (e : Nat) (t : Trk) (d : DirEnt) : (writeBack e t d c).fences = c.fences := ite_fences c (stWhole_fences ..) rfl
@[simp] theorem poisonLine_fences (e l p : Nat) : (poisonLine e l p c).fences = c.fences := (countEvent_fences ..).trans (stWhole_fences ..)

@[simp] theorem loseLine_fences (e l p h : Nat) : (loseLine e l p h c).fences = c.fences := by
  unfold loseLine
  dsimp only
  rw [logE_fences, countWalk_fences, modHome_fences, setDir_fences, poisonLine_fences]
  exact fun _ => rfl

/-! ### Snoops and salvage -/

@[simp] theorem openSnoop_fences (e i h : Nat) (inv salvage : Bool) : (openSnoop e i h inv salvage c).fences = c.fences := by
  unfold openSnoop
  split
  · rfl
  · refine ite_fences c (ite_fences c ?_ ?_) ?_
    · exact putTrk_fences ..
    · exact putTrk_fences ..
    · exact (spans_fences.sent ..).trans ((countEvent_fences ..).trans (putTrk_fences ..))

theorem openSnoops_fences (e i : Nat) (inv : Bool) (hs : List Nat) (c : Core) :
    (hs.foldl (fun c h => openSnoop e i h inv false c) c).fences = c.fences := foldl_fences _ (fun c h => openSnoop_fences c e i h inv false) hs c

@[simp] theorem askAll_fences (e i : Nat) (hs : List Nat) (inv : Bool) : (askAll e i hs inv c).fences = c.fences := by
  unfold askAll
  split
  · rfl
  · exact (openSnoops_fences ..).trans (putTrk_fences ..)

@[simp] theorem afterLoss_fences (e i : Nat) : (afterLoss e i c).fences = c.fences := by
  unfold afterLoss
  split
  · rfl
  · split
    · exact dropTrk_fences ..
    · exact putTrk_fences ..

@[simp] theorem salvageStep_fences (e i : Nat) : (salvageStep e i c).fences = c.fences := by
  unfold salvageStep
  split
  · rfl
  · split
    · refine ite_fences c ?_ ((openSnoop_fences ..).trans (putTrk_fences ..))
      split
      · exact (setDir_fences ..).trans (putTrk_fences ..)
      · exact putTrk_fences ..
    · refine ite_fences c ?_ ((openSnoops_fences ..).trans (putTrk_fences ..))
      exact (afterLoss_fences ..).trans (loseLine_fences ..)

@[simp] theorem startSalvage_fences (e i h : Nat) : (startSalvage e i h c).fences = c.fences := by
  unfold startSalvage
  split
  · exact ite_fences c (putTrk_fences ..) (putTrk_fences ..)
  · rfl

/-! ### Transactions served -/

@[simp] theorem completeTrk_fences (e i : Nat) (a : Ans) : (completeTrk e i a c).fences = c.fences := by
  have ended (t : Trk) (d : Core) : (endTrk e t a i d).fences = d.fences := by
    unfold endTrk
    exact ite_fences d (ite_fences d (dropTrk_fences ..) (putTrk_fences ..)) (ite_fences d (putTrk_fences ..) (dropTrk_fences ..))
  have answered (t : Trk) : (answerTrk e t a c).fences = c.fences := by
    have counted := fences_of_rest (ceCounted_rest c e t)
    unfold answerTrk
    dsimp only
    generalize ceCounted e t c = d at counted ⊢
    rw [← counted]
    have out := ite_fences d (P := a.op = opNackRevoked) (sendNack_fences d e t.o t.p t.q.pla { a with ce := t.q.ce })
      (answer_fences d t.o t.p t.q.pla { a with ce := t.q.ce })
    split
    · split
      · exact out
      · exact out
    · exact out
  cases h : c.trk e i with
  | none => rw [completeTrk, h]
  | some t => rw [completeTrk_found c h, ended, answered]

@[simp] theorem answerMem_fences (e i l : Nat) (g : BitVec 2) : (answerMem e i l g c).fences = c.fences := by
  unfold answerMem
  split
  · rfl
  · exact (completeTrk_fences ..).trans (touchLine_fences ..)

@[simp] theorem takeWay_fences (e i l p : Nat) : (takeWay e i l p c).2.fences = c.fences := by
  unfold takeWay
  dsimp only
  split
  · rfl
  · split
    · split
      · exact putTrk_fences ..
      · rw [addTrk_fences, countEvent_fences, modHome_fences _ _ (by exact fun _ => rfl), putTrk_fences]
    · exact putTrk_fences ..
    · rfl

@[simp] theorem serveCoherent_fences (e i : Nat) : (serveCoherent e i c).fences = c.fences := by
  unfold serveCoherent
  split
  · rfl
  · dsimp only
    split
    · refine ite_fences c ?_ (ite_fences c ?_ (ite_fences c ?_ (ite_fences c ?_ (ite_fences c ?_ ?_)))) <;> simp
    · refine ite_fences c (ite_fences c (ite_fences c ?_ ?_) ?_) (ite_fences c ?_ ?_)
      case refine_5 =>
        split
        · refine ite_fences c ?_ (ite_fences c ?_ ?_) <;> simp
        · refine ite_fences c (ite_fences c ?_ ?_) ?_ <;> simp
        · refine ite_fences c (ite_fences c ?_ ?_) (ite_fences c ?_ ?_) <;> simp
      all_goals simp

@[simp] theorem takePage_fences (e r : Nat) : (takePage e r c).2.fences = c.fences := by
  unfold takePage
  dsimp only
  split
  · rfl
  · refine (modHome_fences _ e ?_).trans rfl
    exact fun _ => rfl

@[simp] theorem startCopy_fences (e i r w l : Nat) : (startCopy e i r w l c).fences = c.fences := by
  have taken := takePage_fences c e r
  unfold startCopy
  split
  · rfl
  · dsimp only
    split
    · next h _ =>
      rw [h] at taken
      refine (modHome_fences _ e ?_).trans taken
      exact fun _ => rfl
    · rw [wakePage_fences, completeTrk_fences]
      refine ite_fences c rfl ?_
      refine (logE_fences ..).trans ((modHome_fences _ e ?_).trans rfl)
      exact fun _ => rfl

@[simp] theorem serveSnap_fences (e i r : Nat) : (serveSnap e i r c).fences = c.fences := by
  unfold serveSnap
  split
  · rfl
  · dsimp only
    refine ite_fences c ?_ (ite_fences c ?_ (ite_fences c (ite_fences c ?_ ?_) ?_))
    · simp
    · simp
    · simp
    · split <;> simp
    · split
      · simp
      · refine ite_fences c ?_ ?_ <;> simp

@[simp] theorem serveRecall_fences (e i : Nat) (lower : Bool) (hs : List Nat) : (serveRecall e i lower hs c).fences = c.fences := by
  unfold serveRecall
  split
  · exact ite_fences c (dropTrk_fences ..) (askAll_fences ..)
  · exact dropTrk_fences ..

@[simp] theorem serveBackInv_fences (e i : Nat) : (serveBackInv e i c).fences = c.fences := by
  unfold serveBackInv
  split
  · exact ite_fences c ((askAll_fences ..).trans (putTrk_fences ..)) (askAll_fences ..)
  · exact dropTrk_fences ..

@[simp] theorem serveWalk_fences (e i h : Nat) : (serveWalk e i h c).fences = c.fences := by
  unfold serveWalk
  split
  · refine ite_fences c (ite_fences c ?_ ?_) ?_ <;> simp
  · exact dropTrk_fences ..

@[simp] theorem serve_fences (e i : Nat) : (serve e i c).fences = c.fences := by
  unfold serve
  split
  · rfl
  · split
    · exact serveRecall_fences ..
    · exact serveBackInv_fences ..
    · exact serveWalk_fences ..
    · refine ite_fences c (ite_fences c ?_ ?_) (ite_fences c ?_ (ite_fences c ?_ (ite_fences c ?_ ?_))) <;> simp

/-! ### Rounds of snoops that end -/

@[simp] theorem recoverLine_fences (e i : Nat) (d : DirEnt) : (recoverLine e i d c).fences = c.fences := by
  unfold recoverLine
  split
  · rfl
  · next t _ =>
    have noted : (if t.ownerAns = 5 then c else cohProtocol e t.line t.p d.owner (if t.ownerAns = 3 then 0x21 else 0x20) c).fences = c.fences :=
      ite_fences c rfl (cohProtocol_fences ..)
    refine ite_fences c ?_ ?_ <;> simp [noted]

@[simp] theorem resolveRequest_fences (e i : Nat) (t : Trk) (d : DirEnt) : (resolveRequest e i t d c).fences = c.fences := by
  unfold resolveRequest
  dsimp only
  refine ite_fences c ?gone (ite_fences c ?evict (ite_fences c ?write (ite_fences c ?read ?own)))
  case gone => simp
  case evict => simp
  case write => simp
  case read =>
    refine ite_fences c (ite_fences c ?_ ?_) (ite_fences c (ite_fences c ?_ ?_) (ite_fences c ?_ (ite_fences c ?_ (ite_fences c ?_ ?_)))) <;> simp
  case own =>
    have back : (if (decide (d.st = .o) && decide (d.owner = (requester t).getD 4096)) = true then c else writeBack e t d c).fences = c.fences :=
      ite_fences c rfl (writeBack_fences ..)
    refine ite_fences c ?_ ?_
    · rw [completeTrk_fences, setDir_fences, back]
    · rw [answerMem_fences, setDir_fences, back]

@[simp] theorem resolveRecall_fences (e i : Nat) (t : Trk) (lower forced : Bool) (hs : List Nat) (d : DirEnt) :
    (resolveRecall e i t lower forced hs d c).fences = c.fences := by
  unfold resolveRecall
  refine ite_fences c ?_ (ite_fences c ?_ (ite_fences c ?_ ?_)) <;> simp

@[simp] theorem resolveBackInv_fences (e i : Nat) (t : Trk) (d : DirEnt) : (resolveBackInv e i t d c).fences = c.fences := by
  unfold resolveBackInv
  refine ite_fences c ?_ (ite_fences c ?_ ?_) <;> simp

@[simp] theorem resolve_fences (e i : Nat) : (resolve e i c).fences = c.fences := by
  unfold resolve
  split
  · rfl
  · refine ite_fences c (salvageStep_fences ..) ?_
    split <;> simp

/-! ### The home's work -/

theorem homeMove_fences {e : Nat} {d : Core} (h : homeMove e c = some d) : d.fences = c.fences := by
  unfold homeMove at h
  dsimp only at h
  split at h
  · cases h
    refine ite_fences c ?_ (ite_fences c ?_ (ite_fences c ?_ ?_)) <;> simp
  · split at h
    · cases h
    · split at h
      · cases h
      · rw [← Option.some.inj h, addTrk_fences]
        exact setHome_fences c rfl

theorem settleN_fences (e n : Nat) (c : Core) : (settleN e n c).fences = c.fences := by
  induction n generalizing c with
  | zero => rfl
  | succ n ih =>
    unfold settleN
    split
    · rfl
    · next d h => exact (ih d).trans (homeMove_fences c h)

@[simp] theorem settle_fences (e : Nat) : (settle e c).fences = c.fences := settleN_fences ..
end
end Sys2Proof.Machine
end

section
/-! SUPPORT. A log entry and a counted event, with the interrupts and freezes that they bring, take no sent message back. -/

namespace Sys2Proof.Machine
open Sys2Proof

theorem foldl_out {α : Type} (f : Core → α → Core) (h : ∀ c a, (f c a).out = c.out) (l : List α) (c : Core) : (l.foldl f c).out = c.out := by
  induction l generalizing c with
  | nil => rfl
  | cons a l ih => exact (ih _).trans (h c a)

theorem setErl_out (c : Core) (x : Erl) : ({ c with erl := x } : Core).out = c.out := rfl
theorem setEvc_out (c : Core) (x : Evc) : ({ c with evc := x } : Core).out = c.out := rfl

theorem persist_out (x : LogEntry) (c : Core) : (persist x c).out = c.out := by
  unfold persist
  split <;> rfl

theorem writeEntries_out (l : List LogEntry) (c : Core) : (writeEntries l c).out = c.out := by
  unfold writeEntries
  split
  · rfl
  · refine foldl_out _ (fun c x => ?_) l c
    dsimp only
    split
    · exact persist_out ..
    · rfl

/-! ### Messages that `c` has sent and that `d` begins with -/

section
variable {c d : Core} (h : c.out <+: d.out)
include h

theorem sent_of_eq {f : Core} (k : f.out = d.out) : c.out <+: f.out := k.symm ▸ h

theorem sent_send (m : Msg) : c.out <+: (d.send m).out := h.trans (List.prefix_append ..)

theorem sent_raiseInt (v : Nat) : c.out <+: (raiseInt v d).out := by
  unfold raiseInt
  dsimp only
  split
  · exact h
  · split
    · exact h
    · split
      · exact h
      · exact sent_send h (.msix v)

theorem sent_ibi (k : Nat) : c.out <+: (ibi k d).out := by
  unfold ibi
  split
  · exact h
  · exact sent_send h _

theorem sent_logInterrupt (v : Nat) : c.out <+: (logInterrupt v d).out := by
  unfold logInterrupt
  split
  · exact sent_ibi (sent_raiseInt h _) _
  · exact h

theorem sent_recordEvent (es : List LogEntry) : c.out <+: (recordEvent es d).out := by
  have written := sent_of_eq h (writeEntries_out es d)
  have kept {P : Prop} [Decidable P] {v : Nat} {f : Core} (k : f.out = (writeEntries es d).out) :
      c.out <+: (if P then writeEntries es d else logInterrupt v f).out := by
    split
    · exact written
    · exact sent_logInterrupt (sent_of_eq written k) v
  unfold recordEvent
  dsimp only
  split
  · split
    · split
      · exact sent_of_eq h (setErl_out ..)
      · exact kept (setErl_out ..)
    · exact kept (setErl_out ..)
  · exact kept rfl

theorem sent_logRaw (code cls i : Nat) (p : Option Nat) (fs : List (Nat × Nat)) : c.out <+: (logRaw code cls i p fs d).out := by
  unfold logRaw
  dsimp only
  split
  · split <;> exact sent_of_eq h (setErl_out ..)
  · exact sent_recordEvent h _
end

theorem sent_foldl {α : Type} {c d : Core} (f : Core → α → Core) (hf : ∀ d a, c.out <+: d.out → c.out <+: (f d a).out) (h : c.out <+: d.out)
    (l : List α) : c.out <+: (l.foldl f d).out := by
  induction l generalizing d with
  | nil => exact h
  | cons a l ih => exact ih (hf d a h)

/-! ### Stacks that enter self-refresh at a freeze (R542) -/

section
variable {c d : Core} (h : c.out <+: d.out)
include h

theorem sent_issueOp (e pc : Nat) (o : HbmOp) : c.out <+: (issueOp e pc o d).out := sent_send (d := modPc e pc _ (modPc e pc _ d)) h _

theorem sent_mdWriteBack (e m : Nat) : c.out <+: (mdWriteBack e m d).out := by
  unfold mdWriteBack
  dsimp only
  refine sent_foldl _ (fun _ _ k => sent_issueOp k ..) ?_ _
  split
  · split
    · exact h
    · exact sent_issueOp (sent_issueOp h ..) ..
  · exact sent_issueOp h ..

theorem sent_mdFlush (e : Nat) : c.out <+: (mdFlush e d).out := by
  refine sent_foldl (d := d) _ (fun d a k => ?_) h (d.hbmc e).md
  split
  · exact sent_mdWriteBack k ..
  · exact k

theorem sent_modHbmc (e : Nat) (f : Hbmc → Hbmc) : c.out <+: (d.modHbmc e f).out := h

theorem sent_enterSelfRefresh (e : Nat) : c.out <+: (enterSelfRefresh e d).out := by
  unfold enterSelfRefresh
  refine sent_send (sent_modHbmc (sent_foldl _ ?_ (sent_mdFlush h e) _) ..) _
  exact fun _ _ k => sent_issueOp k ..

theorem sent_allSelfRefresh : c.out <+: (allSelfRefresh d).out := sent_foldl _ (fun _ _ k => sent_enterSelfRefresh k _) h _

theorem sent_freeze (k : BitVec 3) (chip : Bool) : c.out <+: (freeze k chip d).out := by
  unfold freeze
  dsimp only
  split
  · exact h
  · split
    · exact sent_logRaw (sent_allSelfRefresh (sent_of_eq h (setEvc_out ..))) ..
    · split
      · exact h
      · refine sent_logRaw (sent_of_eq h ((setEvc_out ..).trans ?_)) ..
        exact (forEach_keeps Core.out _ (by intros; rfl) _).trans rfl

/-! ### Entries and counted events -/

theorem sent_logE (code cls i : Nat) (p : Option Nat) (fs : List (Nat × Nat)) : c.out <+: (logE code cls i p fs d).out := by
  unfold logE logFreeze
  split
  · exact sent_freeze (sent_logRaw h ..) ..
  · exact sent_logRaw h ..

theorem sent_bumpCounter (cls i k n : Nat) : c.out <+: (bumpCounter cls i k n d).out := by
  unfold bumpCounter
  dsimp only
  split
  · exact sent_logE (sent_of_eq h (setEvc_out ..)) ..
  · exact sent_of_eq h (setEvc_out ..)

theorem sent_countEvent (cls i ev n : Nat) (p : Option Nat) : c.out <+: (countEvent cls i ev n p d).out := by
  unfold countEvent
  split
  · exact h
  · refine sent_foldl _ (fun d key k => ?_) h _
    unfold bumpKey
    split <;> exact sent_bumpCounter k ..
end
end Sys2Proof.Machine
end

section
/-! SUPPORT. A host fenced at a home and at a port, by FENCE_APPLY or by the last retry of a snoop; and answers that end or name no transaction
(R74, R75, R81, R88). -/

namespace Sys2Proof.Machine
open Sys2Proof

/-! ### The fence at a unit (R88) -/

section
variable (c : Core) (e h : Nat)

/-- A host fenced at a home stands in its fence table, whatever the home then does. -/
theorem fenceAtHome_fenced : ((fenceAtHome e h c).home e).fence.contains h = true := by
  unfold fenceAtHome
  split
  · assumption
  · dsimp only
    generalize entered : c.setHome e _ = y
    have listed : y.fences e = (c.home e).fence ++ [h] := by
      rw [← entered, Core.fences, Core.setHome_same]
    rw [← Core.fences, settle_fences, foldl_fences _ (fun _ _ => dropTrk_fences ..), foldl_fences, listed]
    · simp
    · intro d t
      split
      · exact setDir_fences ..
      · rfl

theorem fenceAtHome_hosts : (fenceAtHome e h c).hosts = c.hosts := by
  refine besideHomes_hosts ?_
  unfold fenceAtHome
  split
  · rfl
  · rw [settle_besideHomes, foldl_besideHomes _ (fun c k => dropTrk_besideHomes c e k), foldl_besideHomes]
    · rfl
    · intro d t
      split
      · exact setDir_besideHomes ..
      · rfl

theorem startRetire_homes_ports (r : Nat) : (startRetire r c).homes = c.homes ∧ (startRetire r c).ports = c.ports := by
  unfold startRetire
  dsimp only
  split
  · exact ⟨forEach_keeps Core.homes _ (by intros; rfl) _, forEach_keeps Core.ports _ (by intros; rfl) _⟩
  · exact ⟨rfl, rfl⟩

/-- Closing a host's open pleats leaves homes and ports alone (R115). -/
theorem closeHostOpens_homes : (closeHostOpens h c).homes = c.homes :=
  (forEach_keeps Core.homes _ (fun r d => (startRetire_homes_ports (d.setRegion r _) r).1) _).trans (forEach_keeps Core.homes _ (by intros; rfl) _)

theorem closeHostOpens_ports : (closeHostOpens h c).ports = c.ports :=
  (forEach_keeps Core.ports _ (fun r d => (startRetire_homes_ports (d.setRegion r _) r).2) _).trans (forEach_keeps Core.ports _ (by intros; rfl) _)

section
variable (hst : (c.host h).st = 1)
include hst

theorem fxFenceApply_home (hw : c.works 6 e = true) (he : e < 16) : ((fxFenceApply 6 e h c).home e).fence.contains h = true := by
  have decided : ¬((ringDrop (fun m => decide (m = .fence 6 e h)) c).host h).st ≠ 1 := not_not_intro hst
  unfold fxFenceApply
  dsimp only
  rw [if_neg decided, if_neg (by decide), if_pos ⟨rfl, he⟩]
  split
  · exact fenceAtHome_fenced ..
  · next stopped => exact absurd hw stopped

theorem fxFenceApply_port {n : Nat} (hn : n < 8) : ((fxFenceApply 9 n h c).port n).fence.contains h = true := by
  have decided : ¬((ringDrop (fun m => decide (m = .fence 9 n h)) c).host h).st ≠ 1 := not_not_intro hst
  unfold fxFenceApply
  dsimp only
  rw [if_neg decided, if_pos rfl]
  split
  · next listed => exact listed.resolve_right (Nat.not_le.2 hn)
  · rw [Core.modPort, Core.setPort_same]
    simp
end
end

/-! ### The snoop timer (R81) -/

/-- The core that has sent snoop `sn` of transaction `t` once more. -/
def snoopedAgain (e : Nat) (t : Trk) (sn : Snoop) (c : Core) : Core :=
  ((withTrk e { t with snoops := [{ sn with tries := sn.tries + 1 }] } c).send
    (.snoop e sn.h (c.host sn.h).port sn.inv false (c.linePla e t.line) (snpTag t))).modHome e (fun x => { x with snoopRetry := x.snoopRetry + 1 })

theorem snoopedAgain_home (e : Nat) (t : Trk) (sn : Snoop) (c : Core) :
    (snoopedAgain e t sn c).home e =
      { c.home e with trks := [{ t with snoops := [{ sn with tries := sn.tries + 1 }] }], snoopRetry := (c.home e).snoopRetry + 1 } := by
  rw [snoopedAgain, Core.modHome, Core.setHome_same, Core.send_get_home, withTrk_home]

/-- The core in which host `h` is fenced and home `e` knows it, so that no fence message to it is left and its walk there is not owed. -/
def fenceTold (e h : Nat) (c : Core) : Core :=
  ringDrop (fun m => decide (m = .fence 6 e h)) ((if (c.host h).st = 1 then c else fenceDecision h 1 0 c).modRot (fun r =>
    { r with walks := r.walks.map (fun w => if w.1 = h then (w.1, w.2.1.erase e, w.2.2) else w) }))

theorem fenceTold_host (e h : Nat) (c : Core) : ((fenceTold e h c).host h).st = 1 := by
  have decided : ((if (c.host h).st = 1 then c else fenceDecision h 1 0 c).host h).st = 1 := by
    split
    · assumption
    · rw [fenceDecision_keeps (fun d => d.host h) (fun _ => rfl) (fun _ _ => rfl)]
      exact congrArg HostEnt.st (Core.setHost_same c h _)
  exact decided

section
variable {c : Core} {e : Nat} {t : Trk} {sn : Snoop} (hw : c.works 6 e = true) (ht : (c.home e).trks = [t]) (hi : t.idx < 4096)
  (hs : t.snoops = [sn]) (hc : sn.salvage = false)
include hw ht hi hs hc

/-- Before the last retry the snoop goes out again with its tag, counted and logged. -/
theorem fxSnoopTimeout_again (hr : sn.tries < field t.tmo 26 24) :
    ∃ fs, fxSnoopTimeout e (snpTag t) c = logE 0x0304 6 e (some t.p) fs (countEvent 6 e 4 1 (some t.p) (snoopedAgain e t sn c)) := by
  have due : t.snoops.filter (fun s => !s.salvage) = [sn] := by simp [hs, hc]
  have again : [sn].filter (fun s => decide (s.tries < field t.tmo 26 24)) = [sn] := by simp [hr]
  have last : [sn].filter (fun s => decide (field t.tmo 26 24 ≤ s.tries)) = [] := by simp [hr]
  have marked : t.snoops.map (fun s => if [sn].contains s = true then { s with tries := s.tries + 1 } else s) = [{ sn with tries := sn.tries + 1 }] := by
    simp [hs]
  unfold fxSnoopTimeout
  rw [if_neg (by simp [hw] : ¬(!c.works 6 e) = true), trkOfTag_single ht hi]
  dsimp only
  rw [due, again, last, marked, putTrk_withTrk (t' := { t with snoops := [{ sn with tries := sn.tries + 1 }] }) ht rfl]
  exact ⟨_, rfl⟩

/-- After the last retry the host is fenced, here at once (R81, R88). -/
theorem fxSnoopTimeout_last (hr : field t.tmo 26 24 ≤ sn.tries) :
    fxSnoopTimeout e (snpTag t) c = fenceAtHome e sn.h (fenceTold e sn.h (withTrk e t c)) := by
  have due : t.snoops.filter (fun s => !s.salvage) = [sn] := by simp [hs, hc]
  have again : [sn].filter (fun s => decide (s.tries < field t.tmo 26 24)) = [] := by simp [hr]
  have last : [sn].filter (fun s => decide (field t.tmo 26 24 ≤ s.tries)) = [sn] := by simp [hr]
  have marked : t.snoops.map (fun s => if ([] : List Snoop).contains s = true then { s with tries := s.tries + 1 } else s) = t.snoops := by simp
  unfold fxSnoopTimeout
  rw [if_neg (by simp [hw] : ¬(!c.works 6 e) = true), trkOfTag_single ht hi]
  dsimp only
  rw [due, again, last, marked, putTrk_withTrk ht rfl]
  rfl
end

/-! ### Answers that name no transaction, and CmpAck (R74, R75) -/

section
variable {c : Core} {e : Nat} (hw : c.works 6 e = true)
include hw

/-- A snoop response that names no live transaction is counted. -/
theorem snpResponse_stray {r : SnpResp} (hf : (c.home e).fence.contains r.h = false) (hn : trkOfTag c e r.tag = none) (code : Nat) :
    snpResponse e code r c = c.modHome e (fun x => { x with cohProto := x.cohProto + 1 }) := by
  unfold snpResponse
  rw [if_neg (takes_of_unfenced hw hf), hn]

/-- A CmpAck that no transaction awaits is counted. -/
theorem fxCmpAck_stray {h : Nat} (hf : (c.home e).fence.contains h = false) (ht : (c.home e).trks = []) (tag : BitVec 14) :
    fxCmpAck e h tag c = c.modHome e (fun x => { x with cohProto := x.cohProto + 1 }) := by
  unfold fxCmpAck
  rw [if_neg (takes_of_unfenced hw hf), ht, List.find?_nil]

/-- CmpAck ends the transaction that awaits it, and the directory keeps what was granted. -/
theorem fxCmpAck_ends {t : Trk} (ht : (c.home e).trks = [t]) (hr : (c.home e).recallQ = []) (hp : t.phase = 2) (hk : t.o.kind = 1)
    (hf : (c.home e).fence.contains t.o.idx = false) :
    ((fxCmpAck e t.o.idx t.o.tag c).home e).trks = [] ∧ ((fxCmpAck e t.o.idx t.o.tag c).home e).dir = (c.home e).dir := by
  have awaited : (c.home e).trks.find? (fun u => decide (u.phase = 2 ∧ u.o.kind = 1 ∧ u.o.idx = t.o.idx ∧ u.o.tag = t.o.tag)) = some t := by
    rw [ht]
    exact List.find?_cons_of_pos (decide_eq_true ⟨hp, hk, rfl, rfl⟩)
  have home : (dropTrk e t.idx c).home e =
      { c.home e with trks := [], gens := tput 0 t.idx (tget 0 t.idx (c.home e).gens + 1) (c.home e).gens } := by
    rw [dropTrk, Core.modHome, Core.setHome_same, ht]
    simp
  have quiet : ((dropTrk e t.idx c).home e).atRest := by
    rw [home]
    exact ⟨hr, by simp⟩
  unfold fxCmpAck
  rw [if_neg (takes_of_unfenced hw hf), awaited]
  dsimp only
  rw [settle, settleN_atRest quiet, home]
  exact ⟨rfl, rfl⟩
end

end Sys2Proof.Machine
end

section
/-! SUPPORT. The salvage of a line for the fence walk: no step of it lists a sharer again (R84, R89, R90). -/

namespace Sys2Proof.Machine
open Sys2Proof

theorem not_mem_delSharer_self (d : DirEnt) (h : Nat) : some h ∉ (delSharer d h).ptrs := by
  simp only [delSharer, List.mem_map, not_exists, not_and]
  intro x _
  split
  · simp
  · assumption

theorem not_mem_delSharer {d : DirEnt} {h : Nat} (hd : some h ∉ d.ptrs) (k : Nat) : some h ∉ (delSharer d k).ptrs := by
  simp only [delSharer, List.mem_map, not_exists, not_and]
  intro x hx
  split
  · simp
  · exact fun k => hd (k ▸ hx)

theorem stWhole_home (c : Core) (e l p : Nat) (v : Line) (poison : Bool) :
    (stWhole e l p v poison c).home e = { c.home e with store := tput none l (some (true || (tget none l (c.home e).store).getD false)) (c.home e).store } := by
  rw [stWhole_eq, touchLine_home, lineWritten_get_home]

/-- The transaction is the fence walk's visit of line `l`, in its salvage (R89, R90). -/
structure Trk.Visits (l : Nat) (t : Trk) : Prop where
  phase : t.phase = 1
  salvaging : t.salvaging = true
  kind : ∃ g, t.kind = .walk g
  line : t.line = l

/-- Home `e` has no transaction but visits of line `l`, at which host `h` is not listed as a sharer. -/
structure Salvages (e l h : Nat) (c : Core) : Prop where
  recalls : (c.home e).recallQ = []
  visits : ∀ t ∈ (c.home e).trks, t.Visits l
  absent : ∀ x, c.dirEnt e l = some x → some h ∉ x.ptrs

section
variable {e l h : Nat} {c d : Core} (hc : Salvages e l h c)
include hc

theorem Salvages.of_same (hq : (d.home e).recallQ = (c.home e).recallQ) (ht : (d.home e).trks = (c.home e).trks)
    (hd : (d.home e).dir = (c.home e).dir) : Salvages e l h d :=
  ⟨hq.trans hc.recalls, ht ▸ hc.visits, fun x hx => hc.absent x (by rw [← hx, Core.dirEnt, Core.dirEnt, hd])⟩

theorem Salvages.of_rest (hr : d.rest = c.rest) : Salvages e l h d := by
  have home := home_of_rest hr e
  exact hc.of_same (by rw [home]) (by rw [home]) (by rw [home])

theorem Salvages.putTrk {t : Trk} (ht : t.Visits l) : Salvages e l h (putTrk e t c) := by
  have home : (Machine.putTrk e t c).home e = { c.home e with trks := (c.home e).trks.map (fun u => if u.idx = t.idx then t else u) } :=
    Core.setHome_same ..
  refine ⟨by rw [home]; exact hc.recalls, fun u hu => ?_, fun x hx => hc.absent x (by rw [← hx, Core.dirEnt, Core.dirEnt, home])⟩
  rw [home] at hu
  obtain ⟨v, hv, rfl⟩ := List.mem_map.1 hu
  split
  · exact ht
  · exact hc.visits v hv

theorem Salvages.dropTrk (i : Nat) : Salvages e l h (dropTrk e i c) := by
  have home : (Machine.dropTrk e i c).home e =
      { c.home e with trks := (c.home e).trks.filter (fun u => decide (u.idx ≠ i)), gens := tput 0 i (tget 0 i (c.home e).gens + 1) (c.home e).gens } :=
    Core.setHome_same ..
  refine ⟨by rw [home]; exact hc.recalls, fun u hu => ?_, fun x hx => hc.absent x (by rw [← hx, Core.dirEnt, Core.dirEnt, home])⟩
  rw [home] at hu
  exact hc.visits u (List.mem_of_mem_filter hu)

theorem Salvages.setDir {x : Option DirEnt} (hx : ∀ y ∈ x, some h ∉ y.ptrs) : Salvages e l h (setDir e l x c) := by
  have home := setDir_home c e l x
  refine ⟨by rw [home]; exact hc.recalls, by rw [home]; exact hc.visits, fun y hy => ?_⟩
  rw [Core.dirEnt, home] at hy
  dsimp only at hy
  rw [tget_tput_same] at hy
  obtain ⟨z, hz, rfl⟩ := Option.map_eq_some_iff.1 hy
  exact hx z hz

theorem Salvages.found {i : Nat} {t : Trk} (ht : c.trk e i = some t) : t.Visits l := hc.visits t (List.mem_of_find?_eq_some ht)

theorem Salvages.openSnoop (i k : Nat) (inv salvage : Bool) : Salvages e l h (openSnoop e i k inv salvage c) := by
  unfold Machine.openSnoop
  split
  · exact hc
  · next t ht =>
    obtain ⟨phase, salvaging, kind, line⟩ := hc.found ht
    split
    · split
      · exact hc.putTrk ⟨phase, salvaging, kind, line⟩
      · exact hc.putTrk ⟨phase, salvaging, kind, line⟩
    · have opened := hc.putTrk (t := { t with snoops := t.snoops ++ [⟨k, inv, salvage, 0⟩] }) ⟨phase, salvaging, kind, line⟩
      exact opened.of_rest ((send_rest ..).trans (countEvent_rest ..))

theorem Salvages.afterLoss (i : Nat) : Salvages e l h (afterLoss e i c) := by
  unfold Machine.afterLoss
  split
  · exact hc
  · next t ht =>
    obtain ⟨g, kind⟩ := (hc.found ht).kind
    rw [kind]
    exact hc.dropTrk i

theorem Salvages.modHome {f : Home → Home} (hq : ∀ x, (f x).recallQ = x.recallQ) (ht : ∀ x, (f x).trks = x.trks) (hd : ∀ x, (f x).dir = x.dir) :
    Salvages e l h (c.modHome e f) := by
  have home : (c.modHome e f).home e = f (c.home e) := Core.setHome_same ..
  exact hc.of_same (by rw [home, hq]) (by rw [home, ht]) (by rw [home, hd])

theorem Salvages.countWalk (k : Option Nat) (lost salvaged : Nat) : Salvages e l h (countWalk k lost salvaged c) := by
  have homes : (Machine.countWalk k lost salvaged c).home e = c.home e := by cases k <;> rfl
  exact hc.of_same (by rw [homes]) (by rw [homes]) (by rw [homes])

theorem Salvages.poisonLine (p : Nat) : Salvages e l h (poisonLine e l p c) := by
  have home := stWhole_home c e l p 0 true
  have stored : Salvages e l h (stWhole e l p 0 true c) := hc.of_same (by rw [home]) (by rw [home]) (by rw [home])
  exact stored.of_rest (countEvent_rest ..)

theorem Salvages.loseLine (p k : Nat) : Salvages e l h (loseLine e l p k c) := by
  have freed := (hc.poisonLine p).setDir (x := none) (by simp)
  have counted := freed.modHome (f := fun x => { x with lostLines := x.lostLines + 1 }) (fun _ => rfl) (fun _ => rfl) (fun _ => rfl)
  exact (counted.countWalk (some k) 1 0).of_rest (logE_rest ..)
end

section
variable {e l h : Nat}

theorem Salvages.openSnoops {c : Core} (hc : Salvages e l h c) (i : Nat) (inv : Bool) (ks : List Nat) :
    Salvages e l h (ks.foldl (fun c k => Machine.openSnoop e i k inv false c) c) := by
  induction ks generalizing c with
  | nil => exact hc
  | cons k ks ih => exact ih (hc.openSnoop i k inv false)

section
variable {c : Core} (hc : Salvages e l h c)
include hc

theorem Salvages.salvageStep (i : Nat) : Salvages e l h (salvageStep e i c) := by
  unfold Machine.salvageStep
  split
  · exact hc
  · next t ht =>
    obtain ⟨phase, salvaging, kind, rfl⟩ := hc.found ht
    split
    · next k rest _ =>
      have next' := hc.putTrk (t := { t with salvage := rest, phase := 1 }) ⟨rfl, salvaging, kind, rfl⟩
      dsimp only
      split
      · split
        · next d hd => exact next'.setDir (fun y hy => Option.some.inj hy ▸ not_mem_delSharer (next'.absent d hd) k)
        · exact next'
      · exact next'.openSnoop ..
    · split
      · exact (hc.loseLine ..).afterLoss i
      · exact (hc.putTrk (t := { t with purge := true, phase := 1 }) ⟨rfl, salvaging, kind, rfl⟩).openSnoops ..

/-- A move of the home is the next step of a salvage. -/
theorem Salvages.homeMove {d : Core} (hm : homeMove e c = some d) : Salvages e l h d := by
  unfold Machine.homeMove at hm
  dsimp only at hm
  split at hm
  · next t found =>
    obtain ⟨phase, salvaging, -, -⟩ := hc.visits t (List.mem_of_find?_eq_some found)
    rw [if_neg (by rw [phase]; decide), if_pos phase] at hm
    rw [← Option.some.inj hm]
    unfold resolve
    split
    · exact hc
    · next u hu =>
      rw [if_pos (hc.found hu).salvaging]
      exact hc.salvageStep t.idx
  · rw [hc.recalls] at hm
    cases hm
end

theorem Salvages.settle {c : Core} (hc : Salvages e l h c) : Salvages e l h (settle e c) := by
  unfold Machine.settle
  generalize 16 + 32 * ((c.home e).trks.length + (c.home e).recallQ.length) = n
  induction n generalizing c with
  | zero => exact hc
  | succ n ih =>
    unfold settleN
    split
    · exact hc
    · next d hm => exact ih (hc.homeMove hm)
end

/-- A sharer that does not answer the salvage's snoop is skipped, and no longer listed (R90). -/
theorem fxSalvageTimeout_drops {c : Core} {e : Nat} {t : Trk} {sn : Snoop} {d : DirEnt} (hw : c.works 6 e = true) (ht : (c.home e).trks = [t])
    (hr : (c.home e).recallQ = []) (hi : t.idx < 4096) (hv : t.Visits t.line) (hs : t.snoops = [sn]) (hsn : sn.salvage = true)
    (hd : c.dirEnt e t.line = some d) : Salvages e t.line sn.h (fxSalvageTimeout e (snpTag t) c) := by
  have opened : t.snoops.find? (fun s => s.salvage) = some sn := by simp [hs, hsn]
  have home : (withTrk e { t with snoops := t.snoops.erase sn } c).home e = { c.home e with trks := [{ t with snoops := t.snoops.erase sn }] } := withTrk_home
  have entry : (withTrk e { t with snoops := t.snoops.erase sn } c).dirEnt e t.line = some d := (withTrk_dirEnt _).trans hd
  unfold fxSalvageTimeout
  rw [if_neg (by simp [hw] : ¬(!c.works 6 e) = true), trkOfTag_single ht hi]
  dsimp only
  rw [opened]
  dsimp only
  rw [putTrk_withTrk (t' := { t with snoops := t.snoops.erase sn }) ht rfl]
  unfold salvageAnswer
  rw [entry]
  dsimp only
  rw [if_neg (by decide), if_neg (by decide)]
  refine Salvages.settle ?_
  have dropped := setDir_home (withTrk e { t with snoops := t.snoops.erase sn } c) e t.line (some (delSharer d sn.h))
  rw [home] at dropped
  refine ⟨by rw [dropped]; exact hr, fun u hu => ?_, fun x hx => ?_⟩
  · rw [dropped] at hu
    obtain rfl := List.mem_singleton.1 hu
    exact ⟨hv.phase, hv.salvaging, hv.kind, rfl⟩
  · rw [Core.dirEnt, dropped] at hx
    dsimp only at hx
    rw [tget_tput_same] at hx
    rw [← Option.some.inj hx]
    exact not_mem_delSharer_self d sn.h

end Sys2Proof.Machine
end

section
/-! Snoop answers, CmpAck, snoop and salvage timers and fences at a home: O42 (R64, R65, R74, R75, R81, R82, R88, R90). -/

namespace Sys2Proof.Machine
open Sys2Proof

section
variable {s : State} (hok : s.ok = true) (e : Nat)
include hok

theorem exec_snpAckData_of_ok (r : SnpResp) :
    exec (.snpAckData e r) s = .next (s.withCore (snpResponse e (if r.retained then 1 else 2) r s.dev.core)) := actCore_of_ok hok _

/-- FENCE_APPLY of a fenced host: its open pleats are closed after the fence has reached the unit (R88, R115). -/
theorem exec_fenceApply_of_ok (cls i h : Nat) (hst : (s.dev.core.host h).st = 1) :
    exec (.fenceApply cls i h) s = .next (s.withCore (closeHostOpens h (fxFenceApply cls i h s.dev.core))) :=
  (actCore_of_ok hok _).trans (congrArg (fun d => Host.Outcome.next (s.withCore d)) (if_pos hst))
end

/-- Settles O42: the owner's answer is what `resolveRequest` does with it, the home then being at rest; fences stay through all that a home does
afterwards, and a salvage never lists a sharer again. -/
theorem snoopAnswersAndFences : Obligations.SnoopAnswersAndFences := by
  intro s e hok hw he c hm tagOf
  refine ⟨?reader, ?stray, ?ack, ?strayAck, ?timer, ?salvage, ?fence⟩
  case reader =>
    intro t d sn r ht hr kind phase snoops coherent salvaging _ _ idx _ host op pend entry exclusive owner other hh htag hfo hfr done ends
    have h : AwaitsOwner c e t d sn := ⟨ht, hr, kind, phase, snoops, coherent, salvaging, idx, host, op, Option.isNone_iff_eq_none.1 pend, entry, exclusive, owner,
      other, hfo, hfr⟩
    have answered {i : Instr} {code : Nat} {x : DirEnt} {z : Core} {m : Msg} (run : exec i s = .next (s.withCore (snpResponse e code r c)))
        (hg : Granted e (ownerHeard t code r) m (setDir e t.line (some x) z) (snpResponse e code r c))
        (hz : OnlyHome e c z ∨ (r.retained = false ∧ i = .snpAckData e r ∧ z.rdPool e t.line = (r.data, false))) :
        ends i x.st x.owner (x.ptrs.filterMap id) m := by
      have only := (setDir_only z e t.line (some x)).trans hg.only
      refine ⟨_, _, run, s.keeps_withCore _, hg.entry, rfl, rfl, rfl, hg.out, ?_, ?_⟩
      · exact congrArg (List.map _) hg.trks
      · exact hz.imp (fun k => (k.trans only).mem) (fun ⟨kept, data, pool⟩ => ⟨kept, data, (only.rdPool ..).trans pool⟩)
    refine ⟨fun kept => ?_, fun kept => ?_, ?_, ?_⟩
    · exact answered (by rw [exec_snpAckData_of_ok hok, kept]; rfl) (snpResponse_retained h hw hh htag) (.inl withTrk_only)
    · exact answered (by rw [exec_snpAckData_of_ok hok, kept]; rfl) (snpResponse_given h hw hh htag) (.inr ⟨kept, rfl, stWhole_rdPool ..⟩)
    · exact answered (i := .snpAckS e r) (actCore_of_ok hok (snpResponse e 3 r)) (snpResponse_shares h hw hh htag) (.inl withTrk_only)
    · exact answered (i := .snpAckI e r) (actCore_of_ok hok (snpResponse e 4 r)) (snpResponse_absent h hw hh htag) (.inl withTrk_only)
  case stray =>
    intro r hf hn counted
    have stray (code : Nat) : Host.Outcome.next (s.withCore (snpResponse e code r c)) = (.next (s.withCore counted) : Host.Outcome State Fault Refusal) :=
      congrArg (fun d => Host.Outcome.next (s.withCore d)) (snpResponse_stray hw hf hn code)
    exact ⟨(actCore_of_ok hok _).trans (stray 4), (actCore_of_ok hok _).trans (stray 3), (exec_snpAckData_of_ok hok e r).trans (stray _)⟩
  case ack =>
    intro t ht hr hp hk hf
    exact ⟨_, actCore_of_ok hok _, s.keeps_withCore _, fxCmpAck_ends hw ht hr hp hk hf⟩
  case strayAck =>
    intro h tag hf ht
    exact (actCore_of_ok hok _).trans (congrArg (fun d => Host.Outcome.next (s.withCore d)) (fxCmpAck_stray hw hf ht tag))
  case timer =>
    intro t sn ht snoops coherent idx
    refine ⟨fun hr => ⟨_, actCore_of_ok hok _, s.keeps_withCore _, ?_⟩, fun hr => ⟨_, actCore_of_ok hok _, s.keeps_withCore _, ?_⟩⟩
    · obtain ⟨fs, again⟩ := fxSnoopTimeout_again hw ht idx snoops coherent hr
      have home := (home_of_rest ((logE_rest 0x0304 6 e (some t.p) fs _).trans (countEvent_rest 6 e 4 1 (some t.p) (snoopedAgain e t sn c))) e).trans
        (snoopedAgain_home e t sn c)
      have sent := sent_logE (sent_countEvent (List.prefix_refl (snoopedAgain e t sn c).out) 6 e 4 1 (some t.p)) 0x0304 6 e (some t.p) fs
      rw [← again] at home sent
      refine ⟨congrArg Home.snoopRetry home, congrArg Home.trks home, sent.subset ?_⟩
      exact List.mem_append_right c.out (List.mem_singleton_self _)
    · have last := fxSnoopTimeout_last hw ht idx snoops coherent hr
      have host : ((fxSnoopTimeout e (snpTag t) c).host sn.h).st = 1 := by
        rw [last, host_of_hosts (fenceAtHome_hosts ..)]
        exact fenceTold_host ..
      have fence : ((fxSnoopTimeout e (snpTag t) c).home e).fence.contains sn.h = true := by
        rw [last]
        exact fenceAtHome_fenced ..
      exact ⟨host, fence⟩
  case salvage =>
    intro t sn d g ht hr kind snoops salvage salvaging phase idx entry
    have dropped := fxSalvageTimeout_drops hw ht hr idx ⟨phase, salvaging, ⟨g, kind⟩, rfl⟩ snoops salvage entry
    exact ⟨_, actCore_of_ok hok _, s.keeps_withCore _, dropped.absent⟩
  case fence =>
    intro h hst
    refine ⟨⟨_, exec_fenceApply_of_ok hok 6 e h hst, s.keeps_withCore _, ?_⟩, fun n hn => ⟨_, exec_fenceApply_of_ok hok 9 n h hst, s.keeps_withCore _, ?_⟩⟩
    · have homes := closeHostOpens_homes (fxFenceApply 6 e h c) h
      exact (congrArg (fun k => (tget {} e k : Home).fence.contains h) homes).trans (fxFenceApply_home c e h hst hw he)
    · have ports := closeHostOpens_ports (fxFenceApply 9 n h c) h
      exact (congrArg (fun k => (tget {} n k : Port).fence.contains h) ports).trans (fxFenceApply_port c h hst hn)

end Sys2Proof.Machine
end

section
/-! The state of reset: O58 (R92, R156, R265, R294, R320, R321, R355, R390, R415, R451, R509, R511). -/

namespace Sys2Proof.Machine
open Sys2Proof

/-! ### A reset device lists no unit: each is at its reset value -/

section
variable (k i : Nat)

@[simp] theorem reset_ust : State.reset.dev.core.ust k i = .off := rfl
@[simp] theorem reset_tile : State.reset.dev.core.tile i = {} := rfl
@[simp] theorem reset_port : State.reset.dev.core.port i = {} := rfl
@[simp] theorem reset_ptn : State.reset.dev.core.ptn i = {} := rfl
@[simp] theorem reset_mirr : State.reset.dev.core.mirr i = {} := rfl
@[simp] theorem reset_masterExt : State.reset.dev.core.masterExt k i = {} := rfl
@[simp] theorem reset_host : State.reset.dev.core.host i = {} := rfl
@[simp] theorem reset_mb : State.reset.dev.core.mb i = {} := rfl
@[simp] theorem reset_home : State.reset.dev.core.home i = {} := rfl
@[simp] theorem reset_homeExt (p : Nat) : State.reset.dev.core.homeExt k p i = {} := rfl
@[simp] theorem reset_hbmc : State.reset.dev.core.hbmc i = {} := rfl
end

/-- Canonical form holds of a flash that lists no byte. -/
theorem reset_inv : State.reset.Inv := by
  unfold State.Inv
  decide

/-- Settles O58: units have their reset values because the tables list none, and every register has its own in the definition. -/
theorem resetState : Obligations.ResetState := by
  unfold Obligations.ResetState
  dsimp only
  refine ⟨rfl, rfl, reset_inv, rfl, rfl, rfl, rfl, reset_ust, ?tiles, ?ports, ?partitions, ?hosts, ?mailboxes, ?homes, ?controllers, ?registers⟩
  case tiles => simp
  case ports => simp [tget]
  case partitions => simp
  case hosts => simp
  case mailboxes => simp
  case homes => simp
  case controllers => simp
  case registers => decide
end Sys2Proof.Machine
end

section
/-! SUPPORT. Seal and retire markers at the homes, their answers, and the end of a commit and of a retirement (R98, R106, R114). -/

namespace Sys2Proof.Machine
open Sys2Proof

/-! ### Seals (R106) -/

/-- A region whose commit runs with its markers sent. -/
theorem sealing_some {g : Region} {k : Commit} (h : g.sealing = some k) : g.commit = some k ∧ k.waitFree = false := by
  obtain ⟨x, hx, hk⟩ := Option.bind_eq_some_iff.1 h
  split at hk
  · cases hk
  · next hw =>
    cases hk
    exact ⟨hx, by simpa using hw⟩

theorem sealing_of_commit {g : Region} {k : Commit} (h : g.commit = some k) (hw : k.waitFree = false) : g.sealing = some k := by
  simp [Region.sealing, h, hw]

/-- The region as its commit leaves it: the sealed slot is published as the newest, and the new slot works (R106 step 4). -/
def Region.committed (g : Region) (k : Commit) : Region :=
  { g with
    slots := tput {} k.new ⟨.working, 0, some k.old⟩
      (tput {} k.old { (tget {} k.old g.slots : Slot) with st := .published, ver := k.ver } g.slots)
    newest := some k.old, newestVer := k.ver, working := k.new, commit := none, commits := g.commits + 1 }

section
variable {c : Core} {e r : Nat} {k : Commit}

theorem fxSealMarker_awaited (hs : (c.region r).sealing = some k) (ha : e ∈ k.await) (hn : e ∉ k.sealed) (hw : c.works 6 e = true) :
    fxSealMarker e r c = (c.setRegion r { c.region r with commit := some { k with sealed := k.sealed ++ [e] } }).send (.sealAnswer e r) := by
  simp [fxSealMarker, hs, ha, hn, hw]

theorem fxSealAnswer_sealed (hs : (c.region r).sealing = some k) (ha : e ∈ k.await) (hn : e ∈ k.sealed) (hw : c.works 8 (r / 64) = true) :
    fxSealAnswer e r c = finishCommit r (c.setRegion r { c.region r with commit := some { k with await := k.await.erase e } }) := by
  simp [fxSealAnswer, hs, ha, hn, hw]

/-- A commit that still awaits a home goes on. -/
theorem finishCommit_awaits (hs : (c.region r).sealing = some k) (ha : k.await ≠ []) : finishCommit r c = c := by
  simp [finishCommit, hs, ha]

theorem finishCommit_last (hs : (c.region r).sealing = some k) (ha : k.await = []) :
    finishCommit r c = destroyDue r (retirePleats r ((c.setRegion r ((c.region r).committed k)).answer k.o (c.region r).p 0 { op := opCmp })) := by
  simp only [finishCommit, hs, ha, ne_eq, not_true_eq_false, if_false]
  rfl
end

/-! ### What follows the end of a commit: unused slots retire (R107, R114) -/

/-- The region before and after retirements start: only the slots may have changed, and the lists of retirements. -/
structure RetiresOnly (g y : Region) : Prop where
  commit : y.commit = g.commit
  newest : y.newest = g.newest
  newestVer : y.newestVer = g.newestVer
  working : y.working = g.working
  commits : y.commits = g.commits
  destroy : y.destroy = g.destroy

theorem startRetire_only (r : Nat) (c : Core) : RetiresOnly (c.region r) ((startRetire r c).region r) := by
  unfold startRetire
  dsimp only
  split
  · rw [foldl_send, sendAll_get_region, Core.setRegion_same]
    exact ⟨rfl, rfl, rfl, rfl, rfl, rfl⟩
  · exact ⟨rfl, rfl, rfl, rfl, rfl, rfl⟩

theorem retirePleats_only (r : Nat) (c : Core) : RetiresOnly (c.region r) ((retirePleats r c).region r) := by
  have started := startRetire_only r (c.setRegion r { c.region r with
    slots := ((List.range 8).filter (fun s => decide ((tget {} s (c.region r).slots).st = .published) && decide ((c.region r).newest ≠ some s) &&
      decide (holders c r s = 0))).foldl (fun t s => tput {} s { tget {} s t with st := .retiring } t) (c.region r).slots
    retireQ := (c.region r).retireQ ++ (List.range 8).filter (fun s => decide ((tget {} s (c.region r).slots).st = .published) &&
      decide ((c.region r).newest ≠ some s) && decide (holders c r s = 0)) })
  rw [Core.setRegion_same] at started
  obtain ⟨commit, newest, newestVer, working, commits, destroy⟩ := started
  exact ⟨commit, newest, newestVer, working, commits, destroy⟩

/-- A slot outside a list of slots that retire is as it was. -/
theorem retiring_of_not_mem {slot : Nat} {l : List Nat} (h : slot ∉ l) (t : Table Slot) :
    tget {} slot (l.foldl (fun t s => tput {} s { tget {} s t with st := .retiring } t) t) = tget {} slot t := by
  induction l generalizing t with
  | nil => rfl
  | cons s l ih =>
    obtain ⟨hs, hl⟩ := List.ne_and_not_mem_of_not_mem_cons h
    exact (ih hl _).trans (tget_tput_ne _ hs _ _)

/-- The newest slot, and one that is not published, do not retire. -/
theorem retirePleats_keeps_slot {r slot : Nat} {c : Core}
    (h : (tget {} slot (c.region r).slots).st ≠ .published ∨ (c.region r).newest = some slot) :
    tget {} slot ((retirePleats r c).region r).slots = tget {} slot (c.region r).slots := by
  unfold retirePleats
  dsimp only
  rw [startRetire_slots, Core.setRegion_same]
  refine retiring_of_not_mem (fun hm => ?_) _
  obtain ⟨-, used⟩ := List.mem_filter.1 hm
  simp only [Bool.and_eq_true, decide_eq_true_eq] at used
  obtain ⟨⟨published, older⟩, -⟩ := used
  exact h.elim (fun k => k published) (fun k => older k)

theorem destroyDue_none {r : Nat} {c : Core} (h : (c.region r).destroy = none) : destroyDue r c = c := by
  simp [destroyDue, h]

theorem answer_get_region (o : Origin) (p : Nat) (pla : BitVec 40) (a : Ans) (c : Core) (r : Nat) : (c.answer o p pla a).region r = c.region r :=
  congrArg (tget ({} : Region) r) (spans_regions.answer o p pla a c)

/-- The last answer ends the commit: the sealed slot is the newest one, published, and the new slot works on it. -/
theorem finishCommit_publishes {c : Core} {r : Nat} {k : Commit} (hs : (c.region r).sealing = some k) (ha : k.await = []) (hk : k.old ≠ k.new)
    (hd : (c.region r).destroy = none) :
    let y := (finishCommit r c).region r
    y.commit = none ∧ y.newest = some k.old ∧ y.newestVer = k.ver ∧ y.working = k.new ∧ y.commits = (c.region r).commits + 1 ∧
      tget {} k.old y.slots = { tget {} k.old (c.region r).slots with st := .published, ver := k.ver } ∧
      tget {} k.new y.slots = ⟨.working, 0, some k.old⟩ := by
  have region : ((c.setRegion r ((c.region r).committed k)).answer k.o (c.region r).p 0 { op := opCmp }).region r = (c.region r).committed k :=
    (answer_get_region ..).trans (Core.setRegion_same ..)
  have old : tget {} k.old ((c.region r).committed k).slots = { (tget {} k.old (c.region r).slots : Slot) with st := .published, ver := k.ver } := by
    simp [Region.committed, hk]
  have new : tget {} k.new ((c.region r).committed k).slots = ⟨.working, 0, some k.old⟩ := by simp [Region.committed]
  rw [finishCommit_last hs ha]
  generalize (c.setRegion r ((c.region r).committed k)).answer k.o (c.region r).p 0 { op := opCmp } = d at region ⊢
  have retired := retirePleats_only r d
  rw [region] at retired
  obtain ⟨commit, newest, newestVer, working, commits, destroy⟩ := retired
  rw [destroyDue_none (destroy.trans hd)]
  refine ⟨commit, newest, newestVer, working, commits, ?_, ?_⟩
  · rw [retirePleats_keeps_slot (.inr (by rw [region]; rfl)), region, old]
  · rw [retirePleats_keeps_slot (.inl (by rw [region, new]; simp)), region, new]

/-! ### Retirements (R114) -/

section
variable {c : Core} {e r sl : Nat} {aw : List Nat} (hr : (c.region r).retire = some (sl, aw)) (he : e ∈ aw)
include hr he

theorem fxRetireMarker_awaited (ht : tget 0 e (c.region r).retireAt = 0) (hw : c.works 6 e = true) :
    fxRetireMarker e r c = c.setRegion r { c.region r with retireAt := tput 0 e 1 (c.region r).retireAt } := by
  simp [fxRetireMarker, hr, he, ht, hw]

theorem fxRetireReport_walked (ht : tget 0 e (c.region r).retireAt = 2) (hw : c.works 8 (r / 64) = true) :
    fxRetireReport e r c = finishRetire r (c.setRegion r { c.region r with retire := some (sl, aw.erase e) }) := by
  simp [fxRetireReport, hr, he, ht, hw]
end

theorem finishRetire_awaits {c : Core} {r sl : Nat} {aw : List Nat} (hr : (c.region r).retire = some (sl, aw)) (ha : aw ≠ []) :
    finishRetire r c = c := by
  simp [finishRetire, hr, ha]

/-- A slot whose parent is retired takes the parent of its parent. -/
def adopted (sl : Nat) (parent : Option Nat) (y : Slot) : Slot := if y.parent = some sl then { y with parent := parent } else y

theorem adopted_free (sl : Nat) (parent : Option Nat) : adopted sl parent {} = {} := by simp [adopted]

/-- The slots of a region once slot `sl` is free. -/
def Region.freed (g : Region) (sl : Nat) : Table Slot :=
  tput {} sl {} (g.slots.map (fun x => (x.1, adopted sl (tget {} sl g.slots : Slot).parent x.2)))

theorem freed_same (g : Region) (sl : Nat) : tget {} sl (g.freed sl) = {} := tget_tput_same ..

theorem tget_map {α : Type} {f : α → α} {d : α} (hd : f d = d) (k : Nat) (t : Table α) :
    tget d k (t.map (fun x => (x.1, f x.2))) = f (tget d k t) := by
  induction t with
  | nil => exact hd.symm
  | cons x t ih =>
    obtain ⟨i, a⟩ := x
    by_cases h : i = k
    · simp [tget, h]
    · simpa [tget, h] using ih

theorem freed_ne (g : Region) {sl k : Nat} (h : k ≠ sl) :
    tget {} k (g.freed sl) = adopted sl (tget {} sl g.slots : Slot).parent (tget {} k g.slots) :=
  (tget_tput_ne _ h _ _).trans (tget_map (adopted_free ..) k g.slots)

/-- The slot is free, the retirement over, and the homes may log an empty pool of the region again. -/
def slotFreed (r sl : Nat) (c : Core) : Core :=
  forEach (c.homes.map Prod.fst) (fun e c => c.modHome e (fun h => { h with poolLogged := h.poolLogged.filter (fun k => decide (k ≠ r)) }))
    (c.setRegion r { c.region r with slots := (c.region r).freed sl, retire := none, retireAt := [] })

theorem slotFreed_region (r sl : Nat) (c : Core) : ((slotFreed r sl c).region r).slots = (c.region r).freed sl := by
  rw [slotFreed, forEach_keeps (fun d => d.region r) _ (by intros; rfl), Core.setRegion_same]

/-- After its last report the retirement is over: a commit that waited for the slot seals, and the next retirement starts. -/
theorem finishRetire_last {c : Core} {r sl : Nat} (hr : (c.region r).retire = some (sl, [])) :
    finishRetire r c = startRetire r (match (c.region r).commit with
      | some k => if k.waitFree ∧ k.new = sl then sendSeals r (slotFreed r sl c) else slotFreed r sl c
      | none => slotFreed r sl c) := by
  have adopt (x : Nat × Slot) : (if x.2.parent = some sl then (x.1, { x.2 with parent := (tget {} sl (c.region r).slots : Slot).parent }) else x) =
      (x.1, adopted sl (tget {} sl (c.region r).slots : Slot).parent x.2) := by
    unfold adopted
    split <;> rfl
  simp only [finishRetire, hr, ne_eq, not_true_eq_false, if_false, adopt]
  rfl

theorem sendSeals_slots (r : Nat) (c : Core) : ((sendSeals r c).region r).slots = (c.region r).slots := by
  unfold sendSeals
  dsimp only
  split
  · rfl
  · rw [foldl_send, sendAll_get_region, Core.setRegion_same]

/-- The last report of a retirement frees its slot; its children take its parent. -/
theorem finishRetire_slots {c : Core} {r sl : Nat} (hr : (c.region r).retire = some (sl, [])) :
    ((finishRetire r c).region r).slots = (c.region r).freed sl := by
  rw [finishRetire_last hr, startRetire_slots]
  split
  · split
    · rw [sendSeals_slots, slotFreed_region]
    · exact slotFreed_region ..
  · exact slotFreed_region ..

end Sys2Proof.Machine
end

section
/-! SUPPORT. The words of the page map, and the walk of a home that retires a slot (R110, R111, R114). -/

namespace Sys2Proof.Machine
open Sys2Proof

theorem rdLE_wrLE_apart (m : Mem) {a b n k : Nat} (v : Nat) (h : b + k ≤ a ∨ a + n ≤ b) : rdLE (wrLE m a n v) b k = rdLE m b k :=
  rdLE_congr (fun i hi => rdByte_wrLE_ne m a n v (b + i) (by omega))

/-! ### One word of a page's entry -/

/-- A word of the page map as the home reads it: PAGE and OWN. -/
def mapWord (w : Nat) : Nat × Bool := (w % 2 ^ 20, w.testBit 31)

/-- The word that names a page. -/
def wordOf (pg : Nat) (own : Bool) : Nat := pg % 2 ^ 20 + own.toNat * 2 ^ 31

theorem wordOf_lt (pg : Nat) (own : Bool) : wordOf pg own < 256 ^ 4 := by
  have := Nat.mod_lt pg (show 0 < 2 ^ 20 by decide)
  cases own <;> simp only [wordOf, Bool.toNat_false, Bool.toNat_true] <;> omega

theorem mapWord_wordOf (pg : Nat) (own : Bool) : mapWord (wordOf pg own) = (pg % 2 ^ 20, own) := by
  have small := Nat.mod_lt pg (show 0 < 2 ^ 20 by decide)
  have high : wordOf pg own / 2 ^ 31 = own.toNat := by
    cases own <;> simp only [wordOf, Bool.toNat_false, Bool.toNat_true] <;> omega
  refine Prod.ext ?_ ?_
  · simp only [mapWord, wordOf]
    omega
  · rw [mapWord, Nat.testBit_eq_decide_div_mod_eq, high]
    cases own <;> rfl

section
variable (c : Core) (e page s pg : Nat) (own : Bool)

theorem setPageWord_mem : (c.setPageWord e page s pg own).mem = wrLE c.mem (caKey e (mapAddr page s)) 4 (wordOf pg own) := rfl

theorem pageWords_eq (c : Core) (e page : Nat) :
    c.pageWords e page = (List.range 8).map (fun s => mapWord (rdLE c.mem (caKey e (mapAddr page s)) 4)) := rfl

theorem pageWords_length : (c.pageWords e page).length = 8 := by simp [pageWords_eq]

theorem pageWords_congr {c d : Core} (h : d.mem = c.mem) (e page : Nat) : d.pageWords e page = c.pageWords e page := by
  rw [pageWords_eq, pageWords_eq, h]

theorem modHome_pageWords (c : Core) (e' : Nat) (f : Home → Home) (e page : Nat) : (c.modHome e' f).pageWords e page = c.pageWords e page := rfl

/-- A word of another slot or page lies elsewhere. -/
theorem mapAddr_apart {page page' s s' : Nat} (hs : s < 8) (hs' : s' < 8) (h : page' ≠ page ∨ s' ≠ s) :
    caKey e (mapAddr page' s') + 4 ≤ caKey e (mapAddr page s) ∨ caKey e (mapAddr page s) + 4 ≤ caKey e (mapAddr page' s') := by
  simp only [caKey, mapAddr]
  omega

/-- The word of one slot is written. -/
theorem setPageWord_words {s : Nat} (hs : s < 8) :
    (c.setPageWord e page s pg own).pageWords e page = (c.pageWords e page).set s (pg % 2 ^ 20, own) := by
  refine List.ext_getElem (by simp [pageWords_length]) (fun i hi _ => ?_)
  rw [pageWords_length] at hi
  simp only [pageWords_eq, List.getElem_map, List.getElem_range, List.getElem_set, setPageWord_mem]
  by_cases h : s = i
  · rw [h, if_pos rfl, rdLE_wrLE, Nat.mod_eq_of_lt (wordOf_lt pg own), mapWord_wordOf]
  · rw [if_neg h, rdLE_wrLE_apart _ _ (mapAddr_apart e hs hi (.inr (Ne.symm h)))]

/-- The entries of other pages stay. -/
theorem setPageWord_others {s page' : Nat} (hs : s < 8) (h : page' ≠ page) :
    (c.setPageWord e page s pg own).pageWords e page' = c.pageWords e page' := by
  simp only [pageWords_eq, setPageWord_mem]
  refine List.map_congr_left (fun i hi => ?_)
  rw [rdLE_wrLE_apart _ _ (mapAddr_apart e hs (List.mem_range.1 hi) (.inl h))]
end

/-! ### All words of an entry -/

/-- Words of some slots written, as SNAP_CREATE and the retirement walk do. -/
theorem forEach_setPageWord_getD (e page : Nat) (ws : List (Nat × Bool)) (s : Nat) {l : List Nat} (hl : ∀ i ∈ l, i < 8) (c : Core) :
    ((forEach l (fun i c => c.setPageWord e page i (ws.getD i (0, false)).1 (ws.getD i (0, false)).2) c).pageWords e page).getD s (0, false) =
      if s ∈ l then ((ws.getD s (0, false)).1 % 2 ^ 20, (ws.getD s (0, false)).2) else (c.pageWords e page).getD s (0, false) := by
  induction l generalizing c with
  | nil => rfl
  | cons i l ih =>
    have hi : i < 8 := hl i (by simp)
    have written := ih (fun j hj => hl j (by simp [hj])) (c.setPageWord e page i (ws.getD i (0, false)).1 (ws.getD i (0, false)).2)
    rw [setPageWord_words _ _ _ _ _ hi] at written
    refine written.trans ?_
    by_cases hs : s ∈ l
    · simp [hs]
    · by_cases h : s = i
      · subst h
        simp [hs, List.getD_eq_getElem?_getD, pageWords_length, hi]
      · simp [hs, h, List.getD_eq_getElem?_getD, Ne.symm h]

section
variable (c : Core) (e page : Nat) (ws : List (Nat × Bool))

theorem setPageWords_getD {s : Nat} (hs : s < 8) :
    ((c.setPageWords e page ws).pageWords e page).getD s (0, false) = ((ws.getD s (0, false)).1 % 2 ^ 20, (ws.getD s (0, false)).2) :=
  (forEach_setPageWord_getD e page ws s (fun _ h => List.mem_range.1 h) c).trans (if_pos (List.mem_range.2 hs))

theorem setPageWords_others {page' : Nat} (h : page' ≠ page) : (c.setPageWords e page ws).pageWords e page' = c.pageWords e page' := by
  unfold Core.setPageWords forEach
  have slots : ∀ i ∈ List.range 8, i < 8 := fun _ h => List.mem_range.1 h
  generalize List.range 8 = l at slots
  induction l generalizing c with
  | nil => rfl
  | cons i l ih => exact (ih _ (fun j hj => slots j (by simp [hj]))).trans (setPageWord_others _ _ _ _ _ (slots i (by simp)) h)

theorem modHome_out (f : Home → Home) : (c.modHome e f).out = c.out := rfl

theorem setPageWords_out : (c.setPageWords e page ws).out = c.out := forEach_keeps Core.out _ (by intros; rfl) c
end

/-! ### The walk of a home (R114) -/

/-- After a retirement the word of the retired slot names no page. -/
theorem retireWords_slot (s : Nat) (child : Option Nat) (ws : List (Nat × Bool)) : (retireWords s child ws).1.getD s (0, false) = (0, false) := by
  have cleared (l : List (Nat × Bool)) : (l.set s (0, false)).getD s (0, false) = (0, false) := by
    by_cases h : s < l.length <;> simp [List.getD_eq_getElem?_getD, h]
  unfold retireWords
  split
  · split
    · split <;> exact cleared _
    · exact cleared _
  · exact cleared _

/-- The walk at one visible page: its entry loses the slot, and the page that nobody names any more is free again. -/
def walkPage (e r s : Nat) (child : Option Nat) (c : Core) (pg : Nat) : Core :=
  (c.setPageWords e pg (retireWords s child (c.pageWords e pg)).1).modHome e (fun h => { h with
    freePages := h.freePages ++ (match (retireWords s child (c.pageWords e pg)).2 with
      | some b => [(r, b)]
      | none => []) })

section
variable (e r s : Nat) (child : Option Nat) (c : Core)

theorem walkPage_same {pg : Nat} : ((walkPage e r s child c pg).pageWords e pg).getD s (0, false) = (0, false) := by
  rw [walkPage, modHome_pageWords]
  by_cases hs : s < 8
  · rw [setPageWords_getD _ _ _ _ hs, retireWords_slot]
    rfl
  · rw [List.getD_eq_default _ _ (by rw [pageWords_length]; omega)]

theorem walkPage_others {pg page : Nat} (h : page ≠ pg) : (walkPage e r s child c pg).pageWords e page = c.pageWords e page := by
  rw [walkPage, modHome_pageWords, setPageWords_others _ _ _ _ h]

theorem walkPage_out (pg : Nat) : (walkPage e r s child c pg).out = c.out := by
  rw [walkPage, modHome_out, setPageWords_out]

/-- A page once walked stays without the slot. -/
theorem walked_stays {page : Nat} (vis : List Nat) {c : Core} (h : (c.pageWords e page).getD s (0, false) = (0, false)) :
    ((vis.foldl (walkPage e r s child) c).pageWords e page).getD s (0, false) = (0, false) := by
  induction vis generalizing c with
  | nil => exact h
  | cons pg vis ih =>
    have here : ((walkPage e r s child c pg).pageWords e page).getD s (0, false) = (0, false) := by
      by_cases hp : page = pg
      · rw [hp, walkPage_same]
      · rw [walkPage_others _ _ _ _ _ hp, h]
    rw [List.foldl_cons]
    exact ih here

theorem walked {page : Nat} {vis : List Nat} (h : page ∈ vis) :
    ((vis.foldl (walkPage e r s child) c).pageWords e page).getD s (0, false) = (0, false) := by
  induction vis generalizing c with
  | nil => cases h
  | cons pg vis ih =>
    rw [List.foldl_cons]
    rcases List.mem_cons.1 h with rfl | h
    · exact walked_stays e r s child vis (walkPage_same e r s child c)
    · exact ih _ h

theorem walked_out (vis : List Nat) : (vis.foldl (walkPage e r s child) c).out = c.out :=
  foldl_out _ (fun d pg => walkPage_out e r s child d pg) vis c
end

/-- The walk of an awaited home ends: every visible page of the region has lost the slot, and the home reports. -/
theorem fxRetireWalkDone_walking {c : Core} {e r sl : Nat} {aw : List Nat} (hr : (c.region r).retire = some (sl, aw)) (he : e ∈ aw)
    (ht : tget 0 e (c.region r).retireAt = 1) (hw : c.works 6 e = true) :
    fxRetireWalkDone e r c =
      (((runPages c e (c.region r).p (c.region r).base (c.region r).v).foldl (walkPage e r sl ((c.region r).childOf sl)) c).setRegion r
        { c.region r with retireAt := tput 0 e 2 (c.region r).retireAt }).send (.retireReport e r) := by
  have awaited : aw.contains e = true := List.contains_iff_mem.2 he
  simp only [fxRetireWalkDone, hr, awaited, ht, hw, and_self, if_true]
  rfl

end Sys2Proof.Machine
end

section
/-! SUPPORT. A page copied line by line into a page of the pool (R110, R112, R299). -/

namespace Sys2Proof.Machine
open Sys2Proof

/-! ### Lines below the system area -/

/-- Data lines lie below the page map. -/
theorem map_above_line {e l page s : Nat} (hl : l < 2 ^ 29) (hs : l * 128 + 128 ≤ saMeta) :
    caKey e (l * 128) + 128 ≤ caKey e (mapAddr page s) := by
  simp only [caKey, mapAddr, saMap, saMeta] at *
  omega

theorem rdByte_wrLine_ne (m : Mem) (a : Nat) (v : Line) {x : Nat} (h : x < a ∨ a + 128 ≤ x) : rdByte (wrLine m a v) x = rdByte m x :=
  rdByte_wrLE_ne m a 128 v.toNat x h

/-- Flags that keep the poison keep what the pool reads as. -/
theorem setLmeta_rdPool {c : Core} {e l : Nat} {x : LineMeta} (h : x.poison = (c.lmeta e l).poison) (e' l' : Nat) :
    (c.setLmeta e l x).rdPool e' l' = c.rdPool e' l' := by
  have poison : ((c.setLmeta e l x).lmeta e' l').poison = (c.lmeta e' l').poison := by
    by_cases k : lineKey e' l' = lineKey e l
    · rw [Core.lmeta, k, Core.setLmeta, tget_tput_same, h, Core.lmeta, Core.lmeta, k]
    · rw [Core.lmeta, Core.setLmeta, tget_tput_ne _ k, Core.lmeta]
  rw [Core.rdPool, poison, Core.rdPool]
  rfl

/-- What the pool gives for a line is zeros and poison, or the line and none. -/
theorem rdPool_poisoned (c : Core) (e l : Nat) : (if (c.rdPool e l).2 then (0, true) else ((c.rdPool e l).1, false)) = c.rdPool e l := by
  by_cases h : (c.lmeta e l).poison = true <;> simp [Core.rdPool, h]

/-! ### One line of the copy -/

/-- The flags of a line copied: the poison of its source, and scrub-seen clear in the end. -/
def copiedMeta (e p src dst i : Nat) (c : Core) : LineMeta :=
  { c.lmeta e (dst * 512 + i) with poison := (c.rdPool e (src * 512 + i)).2, gen := (c.keys p).gen.getLsbD 0 }

/-- The memory once a line has been copied. -/
def copiedMem (e src dst i : Nat) (c : Core) : Mem :=
  wrLine c.mem (caKey e ((dst * 512 + i) * 128)) (if (c.rdPool e (src * 512 + i)).2 then 0 else (c.rdPool e (src * 512 + i)).1)

/-- The line in memory and in the store of the home, before its scrub-seen flag is cleared. -/
def lineStored (e p src dst i : Nat) (c : Core) : Core :=
  touchLine e (dst * 512 + i) p true (lineWritten e (dst * 512 + i) (copiedMem e src dst i c) (copiedMeta e p src dst i c) c)

section
variable (e p src dst i : Nat) (c : Core)

theorem copyLine_eq : copyLine e p src dst i c =
    (lineStored e p src dst i c).setLmeta e (dst * 512 + i) { (lineStored e p src dst i c).lmeta e (dst * 512 + i) with scrubSeen := false } := rfl

theorem lineStored_only : OnlyHome e (lineWritten e (dst * 512 + i) (copiedMem e src dst i c) (copiedMeta e p src dst i c) c)
    (lineStored e p src dst i c) := touchLine_only ..

theorem copyLine_rdPool_stored (e' l : Nat) : (copyLine e p src dst i c).rdPool e' l =
    (lineWritten e (dst * 512 + i) (copiedMem e src dst i c) (copiedMeta e p src dst i c) c).rdPool e' l :=
  (setLmeta_rdPool (x := { (lineStored e p src dst i c).lmeta e (dst * 512 + i) with scrubSeen := false }) rfl e' l).trans
    ((lineStored_only ..).rdPool e' l)

theorem copyLine_rdPool : (copyLine e p src dst i c).rdPool e (dst * 512 + i) = c.rdPool e (src * 512 + i) := by
  rw [copyLine_rdPool_stored, lineWritten_rdPool, copiedMem, rdLine_wrLine, ← rdPool_poisoned c e (src * 512 + i)]
  by_cases h : (c.rdPool e (src * 512 + i)).2 = true <;> simp [copiedMeta, h]

theorem copyLine_others (hl : dst * 512 + i < 2 ^ 29) : otherLines c (copyLine e p src dst i c) e (dst * 512 + i) := by
  intro e' l' hl' hne
  rw [copyLine_rdPool_stored]
  exact lineWritten_others hl (fun y hy => by rw [copiedMem, rdByte_wrLine_ne _ _ _ hy]) e' l' hl' hne

theorem copyLine_mem : (copyLine e p src dst i c).mem = copiedMem e src dst i c := (lineStored_only ..).mem

theorem copyLine_regions : (copyLine e p src dst i c).regions = c.regions :=
  ((lineStored_only ..).keeps Core.regions (fun _ => rfl) (fun _ => rfl)).trans rfl

theorem copyLine_home : (copyLine e p src dst i c).home e = { c.home e with store := ((copyLine e p src dst i c).home e).store } := by
  have home : (copyLine e p src dst i c).home e = (lineStored e p src dst i c).home e := rfl
  rw [home, lineStored, touchLine_home, lineWritten_get_home]

theorem copyLine_words (hl : dst * 512 + i < 917504 * 512) (page : Nat) : (copyLine e p src dst i c).pageWords e page = c.pageWords e page := by
  rw [pageWords_eq, pageWords_eq, copyLine_mem]
  refine List.map_congr_left (fun s _ => ?_)
  rw [copiedMem, wrLine, rdLE_wrLE_apart _ _ (.inr (map_above_line (by omega) (by simp only [saMeta]; omega)))]
end

/-! ### The whole page -/

/-- In `d` the first `n` lines of page `dst` are those that page `src` had in `c`; the page map, the regions, and the home's transactions and
copies are as in `c`. -/
structure Copied (e src dst n : Nat) (c d : Core) : Prop where
  lines : ∀ i, i < n → d.rdPool e (dst * 512 + i) = c.rdPool e (src * 512 + i)
  others : ∀ l, l < 2 ^ 29 → (∀ i, i < n → l ≠ dst * 512 + i) → d.rdPool e l = c.rdPool e l
  words : ∀ page, d.pageWords e page = c.pageWords e page
  regions : d.regions = c.regions
  trks : (d.home e).trks = (c.home e).trks
  recallQ : (d.home e).recallQ = (c.home e).recallQ
  copies : (d.home e).copies = (c.home e).copies

section
variable {e src dst n : Nat} {c d : Core} (hs : src < 917504) (hd : dst < 917504)
include hs hd

theorem Copied.next (h : Copied e src dst n c d) (hn : n < 512) (p : Nat) : Copied e src dst (n + 1) c (copyLine e p src dst n d) := by
  have others := copyLine_others e p src dst n d (by omega)
  have home := copyLine_home e p src dst n d
  refine ⟨fun i hi => ?_, fun l hl hout => ?_, fun page => ?_, ?_, ?_, ?_, ?_⟩
  · rcases Nat.lt_succ_iff_lt_or_eq.1 hi with hi | rfl
    · rw [others e (dst * 512 + i) (by omega) (by simp; omega), h.lines i hi]
    · rw [copyLine_rdPool]
      exact h.others _ (by omega) (fun j _ => by omega)
  · rw [others e l hl (by simp [hout n (by omega)])]
    exact h.others l hl (fun i hi => hout i (by omega))
  · rw [copyLine_words _ _ _ _ _ _ (by omega), h.words]
  · rw [copyLine_regions, h.regions]
  · rw [home, h.trks]
  · rw [home, h.recallQ]
  · rw [home, h.copies]

theorem copied_lines (hn : n ≤ 512) (p : Nat) (c : Core) :
    Copied e src dst n c ((List.range n).foldl (fun c i => copyLine e p src dst i c) c) := by
  induction n with
  | zero => exact ⟨fun _ hi => absurd hi (Nat.not_lt_zero _), fun _ _ _ => rfl, fun _ => rfl, rfl, rfl, rfl, rfl⟩
  | succ n ih =>
    rw [List.range_succ, List.foldl_append]
    exact Copied.next hs hd (ih (by omega)) (by omega) p
end

/-! ### The end of the copy (R112) -/

/-- A word of the page map leaves the lines of the pool alone. -/
theorem setPageWord_rdPool (c : Core) (e page s pg : Nat) (own : Bool) {l : Nat} (hl : l * 128 + 128 ≤ saMeta) :
    (c.setPageWord e page s pg own).rdPool e l = c.rdPool e l := by
  have below : caKey e (l * 128) + 128 ≤ caKey e (mapAddr page s) := map_above_line (by simp only [saMeta] at hl; omega) hl
  have flags : (c.setPageWord e page s pg own).lmeta e l = c.lmeta e l := rfl
  have line : rdLine (c.setPageWord e page s pg own).mem (caKey e (l * 128)) = rdLine c.mem (caKey e (l * 128)) := by
    rw [setPageWord_mem, rdLine, rdLE_wrLE_apart _ _ (.inl below), rdLine]
  rw [Core.rdPool, flags, line, Core.rdPool]

theorem touchMap_home (e page : Nat) (dirty : Bool) (c : Core) : ∃ x, (touchMap e page dirty c).home e = { c.home e with store := x } := by
  refine ⟨((touchMap e page dirty c).home e).store, ?_⟩
  rw [touchMap, Core.modHome, Core.setHome_same]

theorem setMem_home (c : Core) (m : Mem) (e : Nat) : ({ c with mem := m } : Core).home e = c.home e := rfl

/-- A word of the page map leaves the home its transactions and copies. -/
theorem setPageWord_home (c : Core) (e page s pg : Nat) (own : Bool) :
    ∃ x, (c.setPageWord e page s pg own).home e = { c.home e with store := x } := by
  rw [Core.setPageWord, ← setMem_home c _ e]
  exact touchMap_home ..

/-- The home's list of copies without the one that has ended; what waited for its page is looked at again. -/
def copyEnded (e : Nat) (k : Copy) (c : Core) : Core :=
  c.modHome e (fun h => { h with
    copies := h.copies.erase k
    trks := h.trks.map (fun t => if t.phase = 3 then { t with phase := 7 } else t) })

theorem copyEnded_home (e : Nat) (k : Copy) (c : Core) : (copyEnded e k c).home e =
    { c.home e with copies := (c.home e).copies.erase k, trks := (c.home e).trks.map (fun t => if t.phase = 3 then { t with phase := 7 } else t) } :=
  Core.setHome_same ..

/-- The copy is counted, and the word of its slot names the new page. -/
def copyNamed (e page : Nat) (k : Copy) (c : Core) : Core :=
  copyEnded e k ((c.modRegion k.region (fun g => { g with copies := g.copies + 1 })).setPageWord e page k.slot k.dst true)

theorem fxPageCopyDone_found {c : Core} {e page : Nat} {k : Copy} (hw : c.works 6 e = true)
    (hk : (c.home e).copies.find? (fun k => decide (k.page = page)) = some k) :
    fxPageCopyDone e page c = settle e (countEvent 6 e 10 1 (some (c.region k.region).p) (copyNamed e page k
      ((List.range 512).foldl (fun d i => copyLine e (c.region k.region).p k.src k.dst i d) c))) := by
  simp only [fxPageCopyDone, hw, hk, Bool.not_true, Bool.false_eq_true, if_false]
  rfl

theorem settle_atRest {c : Core} {e : Nat} (h : (c.home e).atRest) : settle e c = c := settleN_atRest h _

section
variable {c d : Core} {e page : Nat} {k : Copy} (copied : Copied e k.src k.dst 512 c d)
include copied

theorem copyNamed_home (ht : (c.home e).trks = []) :
    ((copyNamed e page k d).home e).trks = [] ∧ ((copyNamed e page k d).home e).recallQ = (c.home e).recallQ ∧
      ((copyNamed e page k d).home e).copies = (c.home e).copies.erase k := by
  have before : (d.modRegion k.region (fun g => { g with copies := g.copies + 1 })).home e = d.home e := rfl
  obtain ⟨x, home⟩ := setPageWord_home (d.modRegion k.region (fun g => { g with copies := g.copies + 1 })) e page k.slot k.dst true
  rw [copyNamed, copyEnded_home, home, before, copied.trks, copied.recallQ, copied.copies, ht]
  exact ⟨rfl, rfl, rfl⟩

theorem copyNamed_words (hs : k.slot < 8) (hd : k.dst < 917504) :
    (copyNamed e page k d).pageWords e page = (c.pageWords e page).set k.slot (k.dst, true) := by
  have before : (d.modRegion k.region (fun g => { g with copies := g.copies + 1 })).pageWords e page = d.pageWords e page := rfl
  rw [copyNamed, copyEnded, modHome_pageWords, setPageWord_words _ _ _ _ _ hs, before, copied.words, Nat.mod_eq_of_lt (by omega)]

theorem copyNamed_region : ((copyNamed e page k d).region k.region).copies = (c.region k.region).copies + 1 := by
  have region : (copyNamed e page k d).region k.region = { d.region k.region with copies := (d.region k.region).copies + 1 } := Core.setRegion_same ..
  rw [region, Core.region, copied.regions, Core.region]

theorem copyNamed_lines (hd : k.dst < 917504) {i : Nat} (hi : i < 512) :
    (copyNamed e page k d).rdPool e (k.dst * 512 + i) = c.rdPool e (k.src * 512 + i) := by
  have ended (x : Core) : (copyEnded e k x).rdPool e (k.dst * 512 + i) = x.rdPool e (k.dst * 512 + i) := rfl
  rw [copyNamed, ended, setPageWord_rdPool _ _ _ _ _ _ (by simp only [saMeta]; omega)]
  exact copied.lines i hi
end

/-- A page copy that ends in a quiet home (R110, R112). -/
theorem fxPageCopyDone_quiet {c : Core} {e page : Nat} {k : Copy} (hw : c.works 6 e = true) (hq : homeQuiet c e = true)
    (hk : (c.home e).copies.find? (fun k => decide (k.page = page)) = some k) (h8 : k.slot < 8) (hs : k.src < 917504)
    (hd : k.dst < 917504) :
    let d := fxPageCopyDone e page c
    (d.home e).copies = (c.home e).copies.erase k ∧ d.pageWords e page = (c.pageWords e page).set k.slot (k.dst, true) ∧
      (d.region k.region).copies = (c.region k.region).copies + 1 ∧
      ∀ i, i < 512 → d.rdPool e (k.dst * 512 + i) = c.rdPool e (k.src * 512 + i) := by
  simp only [homeQuiet, Bool.and_eq_true, List.isEmpty_iff] at hq
  obtain ⟨trks, recalls⟩ := hq
  have copied := copied_lines (e := e) hs hd (Nat.le_refl 512) (c.region k.region).p c
  rw [fxPageCopyDone_found hw hk]
  generalize (List.range 512).foldl (fun d i => copyLine e (c.region k.region).p k.src k.dst i d) c = x at copied
  obtain ⟨trks', recalls', copies⟩ := copyNamed_home (page := page) copied trks
  have rest := countEvent_rest 6 e 10 1 (some (c.region k.region).p) (copyNamed e page k x)
  generalize countEvent 6 e 10 1 (some (c.region k.region).p) (copyNamed e page k x) = y at rest
  have home := home_of_rest rest e
  rw [settle_atRest ⟨by rw [home, recalls', recalls], by rw [home, trks']; simp⟩]
  refine ⟨by rw [home, copies], ?_, ?_, fun i hi => ?_⟩
  · rw [pageWords_congr (rest_mem rest), copyNamed_words copied h8 hd]
  · rw [Core.region, rest_regions rest]
    exact copyNamed_region copied
  · rw [← rest_rdPool y, rest, rest_rdPool, copyNamed_lines copied hd hi]

end Sys2Proof.Machine
end

section
/-! Seal and retire markers, their answers, and page copies: O36 (R98, R106, R110, R111, R112, R114). -/

namespace Sys2Proof.Machine
open Sys2Proof

/-- Settles O36: markers, answers and reports by the equations of a commit and of a retirement, a copy by its lines one after another. -/
theorem snapshotMarkersAndCopies : Obligations.SnapshotMarkersAndCopies := by
  unfold Obligations.SnapshotMarkersAndCopies
  intro s e r hok c g
  have next {f : Core → Core} {d : Core} (h : f c = d) : actCore s f = .next (s.withCore d) :=
    (actCore_of_ok hok f).trans (congrArg (fun d => Host.Outcome.next (s.withCore d)) h)
  have region (y : Region) : (c.setRegion r y).region r = y := Core.setRegion_same ..
  refine ⟨?marked, ?answer, ?marker, ?walk, ?report, ?copy⟩
  case marked =>
    intro k hs ha hn hw
    exact next (fxSealMarker_awaited hs ha hn hw)
  case answer =>
    intro k hs ha hn hw
    obtain ⟨-, hwait⟩ := sealing_some hs
    have run := fxSealAnswer_sealed hs ha hn hw
    have sealing : ((c.setRegion r { c.region r with commit := some { k with await := k.await.erase e } }).region r).sealing =
        some { k with await := k.await.erase e } := by
      rw [region]
      exact sealing_of_commit rfl hwait
    refine ⟨fun others => next (run.trans (finishCommit_awaits sealing others)), fun last hne hd => ?_⟩
    have published := finishCommit_publishes sealing last hne (by rw [region]; exact hd)
    rw [region] at published
    exact ⟨_, next run, s.keeps_withCore _, published⟩
  case marker =>
    intro sl aw hr he ht hw
    exact next (fxRetireMarker_awaited hr he ht hw)
  case walk =>
    intro sl aw hr he ht hw
    refine ⟨_, next (fxRetireWalkDone_walking hr he ht hw), s.keeps_withCore _, ?_, ?_, fun pg hpg => ?_⟩
    · exact Core.setRegion_same ..
    · exact congrArg (· ++ [Msg.retireReport e r]) (walked_out e r sl _ c _)
    · exact walked e r sl _ c hpg
  case report =>
    intro sl aw hr he ht hw
    have run := fxRetireReport_walked hr he ht hw
    have retire : ((c.setRegion r { c.region r with retire := some (sl, aw.erase e) }).region r).retire = some (sl, aw.erase e) := by rw [region]
    refine ⟨fun others => next (run.trans (finishRetire_awaits retire others)), fun last => ?_⟩
    rw [last] at retire run
    have slots := finishRetire_slots retire
    rw [region] at slots
    refine ⟨_, next run, s.keeps_withCore _, ?_, fun k hk => ?_⟩
    · exact (congrArg (tget {} sl) slots).trans (freed_same ..)
    · exact (congrArg (tget {} k) slots).trans (freed_ne _ hk)
  case copy =>
    intro page k hw hq hk h8 _ hs hd
    exact ⟨_, actCore_of_ok hok _, s.keeps_withCore _, fxPageCopyDone_quiet hw hq hk h8 hs hd⟩

end Sys2Proof.Machine
end

section
/-! SUPPORT. What the work of a home can do at all, as relations of cores: which of them hold from a core to the one after the work
(R43, R73–R92, R112). -/

namespace Sys2Proof.Machine
open Sys2Proof

/-- A relation of cores that every change a home's work is made of stays within: changes of homes, memory and line flags, free values, log
entries, the counts of fence walks, and the refusal of a created region whose pool is empty. -/
structure HomeWork (R : Core → Core → Prop) : Prop extends Spans R where
  home : ∀ e x c, R c (c.setHome e x)
  memory : ∀ m c, R c { c with mem := m }
  flags : ∀ e l x c, R c (c.setLmeta e l x)
  drawn : ∀ n c, R c { c with fresh := n }
  logged : ∀ code cls i p fs c, R c (logE code cls i p fs c)
  walk : ∀ h lost salvaged c, R c (countWalk h lost salvaged c)
  refused : ∀ r c, (c.region r).created = true → R c (c.modRegion r (fun g => { g with poolEmpty := g.poolEmpty + 1, refusal := 6 }))

namespace HomeWork
variable {R : Core → Core → Prop} (h : HomeWork R) {c : Core}
include h

omit h in
theorem ite {P : Prop} [Decidable P] {a b : Core} (ha : P → R c a) (hb : ¬P → R c b) : R c (if P then a else b) := by
  split
  · exact ha ‹_›
  · exact hb ‹_›

omit h in
theorem either {P : Prop} [Decidable P] {a b : Core} (ha : R c a) (hb : R c b) : R c (if P then a else b) :=
  HomeWork.ite (fun _ => ha) (fun _ => hb)

/-! ### Trackers, directory entries and lines -/

theorem modHome (e : Nat) (f : Home → Home) : R c (c.modHome e f) := h.home ..
theorem putTrk (e : Nat) (t : Trk) : R c (putTrk e t c) := h.home ..
theorem dropTrk (e i : Nat) : R c (dropTrk e i c) := h.home ..
theorem setDir (e l : Nat) (d : Option DirEnt) : R c (setDir e l d c) := h.home ..
theorem wakePage (e page : Nat) : R c (wakePage e page c) := h.home ..

theorem addTrk (e : Nat) (k : TrkKind) (o : Origin) (q : Req) (l p ph : Nat) : R c (addTrk e k o q l p ph c) := by
  unfold Machine.addTrk
  dsimp only
  split
  · exact h.refl c
  · exact h.home ..

theorem touchLine (e l p : Nat) (dirty : Bool) : R c (touchLine e l p dirty c) := h.trans (h.counted ..) (h.home ..)

theorem stWhole (e l p : Nat) (v : Line) (poison : Bool) : R c (stWhole e l p v poison c) :=
  h.trans (h.memory ..) (h.trans (h.flags ..) (h.touchLine ..))

theorem stMasked (e l p : Nat) (v : Line) (mask : BitVec 128) (poison : Bool) : R c (stMasked e l p v mask poison c) :=
  either (h.stWhole ..) (h.trans (h.memory ..) (h.trans (h.flags ..) (h.touchLine ..)))

theorem poisonLine (e l p : Nat) : R c (poisonLine e l p c) := h.trans (h.stWhole ..) (h.counted ..)
theorem writeReq (e l : Nat) (t : Trk) : R c (writeReq e l t c) := either (h.stMasked ..) (h.stWhole ..)
theorem writeBack (e : Nat) (t : Trk) (d : DirEnt) : R c (writeBack e t d c) := either (h.stWhole ..) (h.refl c)

/-! ### Snoops, losses and salvage -/

theorem openSnoop (e i k : Nat) (inv salvage : Bool) : R c (openSnoop e i k inv salvage c) := by
  unfold Machine.openSnoop
  split
  · exact h.refl c
  · refine either (either (h.putTrk ..) (h.putTrk ..)) ?_
    exact h.trans (h.putTrk ..) (h.trans (h.counted ..) (h.sent ..))

theorem openSnoops (e i : Nat) (ks : List Nat) (inv : Bool) : R c (ks.foldl (fun c k => Machine.openSnoop e i k inv false c) c) :=
  h.foldl _ (fun _ _ => h.openSnoop ..) ks c

theorem askAll (e i : Nat) (ks : List Nat) (inv : Bool) : R c (askAll e i ks inv c) := by
  unfold Machine.askAll
  split
  · exact h.refl c
  · exact h.trans (h.putTrk ..) (h.openSnoops ..)

theorem loseLine (e l p k : Nat) : R c (loseLine e l p k c) :=
  h.trans (h.poisonLine ..) (h.trans (h.setDir ..) (h.trans (h.modHome ..) (h.trans (h.walk ..) (h.logged ..))))

theorem cohProtocol (e l p k op : Nat) : R c (cohProtocol e l p k op c) := h.logged ..

theorem afterLoss (e i : Nat) : R c (afterLoss e i c) := by
  unfold Machine.afterLoss
  split
  · exact h.refl c
  · split
    · exact h.dropTrk ..
    · exact h.putTrk ..

theorem salvageStep (e i : Nat) : R c (salvageStep e i c) := by
  unfold Machine.salvageStep
  split
  · exact h.refl c
  · split
    · refine either ?_ (h.trans (h.putTrk ..) (h.openSnoop ..))
      split
      · exact h.trans (h.putTrk ..) (h.setDir ..)
      · exact h.putTrk ..
    · exact either (h.trans (h.loseLine ..) (h.afterLoss ..)) (h.trans (h.putTrk ..) (h.openSnoops ..))

theorem startSalvage (e i k : Nat) : R c (startSalvage e i k c) := by
  unfold Machine.startSalvage
  split
  · exact either (h.putTrk ..) (h.putTrk ..)
  · exact h.refl c

/-! ### Serving a request -/

theorem answerTrk (e : Nat) (t : Trk) (a : Ans) : R c (answerTrk e t a c) := by
  have ce : R c (ceCounted e t c) := either (h.counted ..) (h.refl c)
  unfold Machine.answerTrk
  dsimp only
  refine h.trans ce ?_
  generalize ceCounted e t c = d
  have out : R d (if a.op = opNackRevoked then sendNack e t.o t.p t.q.pla { a with ce := t.q.ce } d
      else d.answer t.o t.p t.q.pla { a with ce := t.q.ce }) :=
    either (h.trans (h.modHome ..) (h.answer ..)) (h.answer ..)
  split
  · exact either (h.trans out (h.sent ..)) out
  · exact out

theorem endTrk (e : Nat) (t : Trk) (a : Ans) (i : Nat) : R c (endTrk e t a i c) :=
  either (either (h.dropTrk ..) (h.putTrk ..)) (either (h.putTrk ..) (h.dropTrk ..))

theorem completeTrk (e i : Nat) (a : Ans) : R c (completeTrk e i a c) := by
  cases ht : c.trk e i with
  | none =>
    rw [Machine.completeTrk, ht]
    exact h.refl c
  | some t =>
    rw [completeTrk_found c ht]
    exact h.trans (h.answerTrk ..) (h.endTrk ..)

theorem answerMem (e i l : Nat) (g : BitVec 2) : R c (answerMem e i l g c) := by
  unfold Machine.answerMem
  split
  · exact h.refl c
  · exact h.trans (h.touchLine ..) (h.completeTrk ..)

theorem takeWay (e i l p : Nat) : R c (takeWay e i l p c).2 := by
  unfold Machine.takeWay
  dsimp only
  split
  · exact h.refl c
  · split
    · split
      · exact h.putTrk ..
      · dsimp only
        exact h.trans (h.putTrk ..) (h.trans (h.modHome ..) (h.trans (h.counted ..) (h.addTrk ..)))
    · exact h.putTrk ..
    · exact h.refl c

/-- A directory entry changed, and then the line given from memory or the transaction ended. -/
theorem setDir_answerMem (e i l l' : Nat) (d : Option DirEnt) (g : BitVec 2) : R c (Machine.answerMem e i l' g (Machine.setDir e l d c)) :=
  h.trans (h.setDir ..) (h.answerMem ..)

theorem setDir_completeTrk (e i l : Nat) (d : Option DirEnt) (a : Ans) : R c (Machine.completeTrk e i a (Machine.setDir e l d c)) :=
  h.trans (h.setDir ..) (h.completeTrk ..)

theorem serveCoherent (e i : Nat) : R c (serveCoherent e i c) := by
  unfold Machine.serveCoherent
  split
  · exact h.refl c
  next t _ =>
    dsimp only
    split
    · refine either (h.answerMem ..) (either (h.trans (h.writeReq ..) (h.completeTrk ..))
        (either (h.completeTrk ..) (h.trans (h.takeWay e i t.line t.p) ?_)))
      exact either (h.refl _) (either (h.setDir_answerMem ..) (h.setDir_answerMem ..))
    · refine h.trans (h.setDir ..) (either (either (either ?discarded ?evicted) (h.setDir_completeTrk ..))
        (either (h.askAll ..) ?held))
      case discarded => exact h.trans (h.poisonLine ..) (h.trans (h.setDir ..) (h.askAll ..))
      case evicted => exact h.trans (h.stWhole ..) (h.setDir_completeTrk ..)
      case held =>
        split
        · exact either (h.setDir_answerMem ..) (either (h.answerMem ..) (h.askAll ..))
        · exact either (either (h.answerMem ..) (h.setDir_answerMem ..)) (h.askAll ..)
        · exact either (either (h.askAll ..) (h.trans (h.cohProtocol ..) (h.startSalvage ..)))
            (either (h.askAll ..) (h.askAll ..))

/-! ### Snapshot regions -/

theorem takePage (e r : Nat) : R c (takePage e r c).2 := by
  unfold Machine.takePage
  dsimp only
  split
  · exact h.refl c
  · dsimp only
    exact h.trans (h.drawn ..) (h.modHome ..)

theorem startCopy (e i r w l : Nat) (hr : (c.region r).created = true) : R c (startCopy e i r w l c) := by
  have taken := h.takePage (c := c) e r
  unfold Machine.startCopy
  split
  · exact h.refl c
  · dsimp only
    split
    · next heq _ =>
      rw [heq] at taken
      exact h.trans taken (h.modHome ..)
    · refine h.trans (h.trans (h.refused r c hr) ?_) (h.trans (h.completeTrk ..) (h.wakePage ..))
      exact either (h.refl _) (h.trans (h.modHome ..) (h.logged ..))

theorem serveSnap (e i r : Nat) : R c (serveSnap e i r c) := by
  unfold Machine.serveSnap
  split
  · exact h.refl c
  · refine HomeWork.ite (fun _ => h.completeTrk ..) (fun hr => either (h.putTrk ..) (either ?read ?write))
    case read =>
      refine either (h.completeTrk ..) ?_
      split
      · exact h.answerMem ..
      · exact h.answerMem ..
    case write =>
      split
      · exact h.trans (h.writeReq ..) (h.trans (h.completeTrk ..) (h.wakePage ..))
      · exact either (h.putTrk ..) (h.startCopy _ _ _ _ _ (by simpa using hr))

/-! ### Recalls, back-invalidations and walks -/

theorem serveRecall (e i : Nat) (lower : Bool) (hs : List Nat) : R c (serveRecall e i lower hs c) := by
  unfold Machine.serveRecall
  split
  · exact either (h.dropTrk ..) (h.askAll ..)
  · exact h.dropTrk ..

theorem serveBackInv (e i : Nat) : R c (serveBackInv e i c) := by
  unfold Machine.serveBackInv
  split
  · exact either (h.trans (h.putTrk ..) (h.askAll ..)) (h.askAll ..)
  · exact h.dropTrk ..

theorem serveWalk (e i k : Nat) : R c (serveWalk e i k c) := by
  unfold Machine.serveWalk
  split
  · exact either (either (h.trans (h.loseLine ..) (h.dropTrk ..)) (h.startSalvage ..)) (h.trans (h.setDir ..) (h.dropTrk ..))
  · exact h.dropTrk ..

theorem serve (e i : Nat) : R c (serve e i c) := by
  unfold Machine.serve
  split
  · exact h.refl c
  · split
    · exact h.serveRecall ..
    · exact h.serveBackInv ..
    · exact h.serveWalk ..
    · refine either (either (h.dropTrk ..) (h.completeTrk ..)) (either (h.serveCoherent ..)
        (either (h.serveSnap ..) (either (h.answerMem ..) ?_)))
      exact h.trans (h.writeReq ..) (h.completeTrk ..)

/-! ### Rounds of snoops that end -/

theorem recoverLine (e i : Nat) (d : DirEnt) : R c (recoverLine e i d c) := by
  unfold Machine.recoverLine
  split
  · exact h.refl c
  next t _ =>
    have noted : R c (if t.ownerAns = 5 then c else Machine.cohProtocol e t.line t.p d.owner (if t.ownerAns = 3 then 0x21 else 0x20) c) :=
      either (h.refl c) (h.cohProtocol ..)
    refine h.trans noted (h.trans (h.setDir e t.line (some (dropGone d t.gone))) ?_)
    exact either (h.trans (h.loseLine ..) (h.afterLoss ..)) (h.startSalvage ..)

theorem resolveRequest (e i : Nat) (t : Trk) (d : DirEnt) : R c (resolveRequest e i t d c) := by
  unfold Machine.resolveRequest
  refine either (h.recoverLine ..) (either (h.setDir_completeTrk ..) (either ?write
    (either (either ?inO ?inX) ?own)))
  case write => exact h.trans (h.writeBack ..) (h.trans (h.writeReq ..) (h.setDir_completeTrk ..))
  case inO => exact either (h.setDir_completeTrk ..) (h.trans (h.stWhole ..) (h.setDir_completeTrk ..))
  case inX =>
    exact either (either (h.setDir_completeTrk ..) (h.setDir_completeTrk ..))
      (either (h.trans (h.stWhole ..) (h.setDir_completeTrk ..)) (either (h.setDir_answerMem ..)
        (either (h.setDir_answerMem ..) (h.setDir_answerMem ..))))
  case own =>
    have kept : R c (if (decide (d.st = .o) && decide (d.owner = (requester t).getD 4096)) = true then c else Machine.writeBack e t d c) :=
      either (h.refl c) (h.writeBack ..)
    refine h.trans kept ?_
    exact either (h.setDir_completeTrk ..) (h.setDir_answerMem ..)

theorem resolveRecall (e i : Nat) (t : Trk) (lower forced : Bool) (hs : List Nat) (d : DirEnt) : R c (resolveRecall e i t lower forced hs d c) := by
  unfold Machine.resolveRecall
  refine either (h.trans (h.setDir ..) (h.dropTrk ..)) (either (h.recoverLine ..) (either ?_ ?_))
  · exact h.trans (h.poisonLine ..) (h.trans (h.putTrk ..) (h.askAll ..))
  · exact h.trans (h.writeBack ..) (h.trans (h.setDir ..) (h.dropTrk ..))

theorem resolveBackInv (e i : Nat) (t : Trk) (d : DirEnt) : R c (resolveBackInv e i t d c) := by
  unfold Machine.resolveBackInv
  refine either ?_ (either (h.recoverLine ..) ?_)
  · exact h.trans (h.writeBack ..) (h.trans (h.setDir ..) (h.dropTrk ..))
  · exact h.trans (h.writeBack ..) (h.trans (h.setDir ..) (h.trans (h.putTrk ..) (h.askAll ..)))

theorem resolve (e i : Nat) : R c (resolve e i c) := by
  unfold Machine.resolve
  split
  · exact h.refl c
  · refine either (h.salvageStep ..) ?_
    split
    · exact h.resolveRequest ..
    · exact h.resolveRecall ..
    · exact h.resolveBackInv ..
    · exact h.putTrk ..
    · exact h.dropTrk ..

/-! ### The home's work, until nothing more can move -/

theorem homeMove {e : Nat} {d : Core} (hm : homeMove e c = some d) : R c d := by
  unfold Machine.homeMove at hm
  dsimp only at hm
  split at hm
  · rw [← Option.some.inj hm]
    exact either (h.serve ..) (either (h.resolve ..) (either (h.startSalvage ..) (h.putTrk ..)))
  · split at hm
    · cases hm
    · split at hm
      · cases hm
      · rw [← Option.some.inj hm]
        exact h.trans (h.home ..) (h.addTrk ..)

theorem settleN (e n : Nat) (c : Core) : R c (settleN e n c) := by
  induction n generalizing c with
  | zero => exact h.refl c
  | succ n ih =>
    unfold Machine.settleN
    split
    · exact h.refl c
    · next d hd => exact h.trans (h.homeMove hd) (ih d)

theorem settle (e : Nat) (c : Core) : R c (settle e c) := h.settleN ..

end HomeWork

/-! ### What the work of a home leaves alone -/

/-- A region that is not created stays as it is. -/
def UncreatedKept (r : Nat) (c d : Core) : Prop := (c.region r).created = false → d.region r = c.region r

theorem UncreatedKept.of_regions {r : Nat} {c d : Core} (h : d.regions = c.regions) : UncreatedKept r c d := fun _ => by
  rw [Core.region, h, Core.region]

theorem homeWork_uncreated (r : Nat) : HomeWork (UncreatedKept r) where
  refl _ := .of_regions rfl
  trans h k := fun blank => (k (by rw [h blank, blank])).trans (h blank)
  counted _ _ _ _ _ _ := .of_regions (spans_regions.counted ..)
  sent _ _ := .of_regions rfl
  port _ _ _ := .of_regions rfl
  ptn _ _ _ := .of_regions rfl
  mirr _ _ _ := .of_regions rfl
  home _ _ _ := .of_regions rfl
  memory _ _ := .of_regions rfl
  flags _ _ _ _ := .of_regions rfl
  drawn _ _ := .of_regions rfl
  logged _ _ _ _ _ _ := .of_regions (rest_regions (logE_rest ..))
  walk h _ _ _ := .of_regions (by cases h <;> rfl)
  refused k c hk := fun blank => Core.setRegion_ne c k _ (by rintro rfl; rw [hk] at blank; cases blank)

theorem homeWork_opens (e : Nat) : HomeWork (OpensKept e) where
  toSpans := spans_opens e
  home _ _ _ := .of_edges rfl
  memory _ _ := .of_edges rfl
  flags _ _ _ _ := .of_edges rfl
  drawn _ _ := .of_edges rfl
  logged _ _ _ _ _ _ := logE_opens ..
  walk h _ _ _ := .of_edges (by cases h <;> rfl)
  refused _ _ _ := .of_edges rfl

end Sys2Proof.Machine
end

section
/-! SUPPORT. The answer to a request once its work is done, and the requests for snapshot regions and synchronization objects
(R94, R111, R116, R264). -/

namespace Sys2Proof.Machine
open Sys2Proof

/-! ### What a request finds once it is taken -/

section
variable (c : Core) (ch : Nat)

@[simp] theorem running_get_obj (o : Nat) : (c.running ch).obj o = c.obj o := rfl
@[simp] theorem running_objOwner (o : Nat) : (c.running ch).objOwner o = c.objOwner o := rfl
@[simp] theorem running_sec : (c.running ch).sec = c.sec := rfl
@[simp] theorem running_get_edge (e : Nat) : (c.running ch).edge e = c.edge e := rfl
@[simp] theorem running_get_hbmc (e : Nat) : (c.running ch).hbmc e = c.hbmc e := rfl
@[simp] theorem running_layoutOk (p r base len : Nat) : layoutOk (c.running ch) p r base len = layoutOk c p r base len := rfl
end

/-! ### The answer after the work (R465) -/

/-- A core between the taking of a request of channel `ch` and its answer: the channel as the taking left it, and not detached. -/
structure Answering (ch : Nat) (c d : Core) : Prop where
  mb : d.mb ch = { c.mb ch with st := .running, full := false }
  attached : d.rot.detached.find? (fun k => decide (k.1 + 16 = ch)) = none

section
variable {ch code chans : Nat} {c d e : Core}

theorem answering_running (h : taken c ch code chans = true) : Answering ch c (c.running ch) :=
  ⟨running_mb c ch, by rw [running_rot, taken_not_detached h]⟩

theorem Answering.of_mbx (h : Answering ch c d) (hm : e.mbx = d.mbx) (hd : e.rot.detached = d.rot.detached) : Answering ch c e :=
  ⟨by rw [← h.mb, Core.mb, hm, Core.mb], by rw [hd, h.attached]⟩

/-- The answer changes the channel alone, beside the log, the interrupts and the counters. -/
theorem Answering.rest (h : Answering ch c d) (st : Nat) : (mbDone ch st d).rest = (d.setMb ch (mbAnswer (c.mb ch) st)).rest := by
  refine (mbDoneWith_rest h.attached st []).trans ?_
  rw [h.mb]
  rfl

theorem Answering.answer (h : Answering ch c d) (st : Nat) : (mbDone ch st d).mb ch = mbAnswer (c.mb ch) st :=
  (mb_of_rest (h.rest st) ch).trans (Core.setMb_same ..)

theorem Answering.regions (h : Answering ch c d) (st r : Nat) : (mbDone ch st d).region r = d.region r := by
  rw [Core.region, rest_regions (h.rest st)]
  rfl

theorem Answering.objs (h : Answering ch c d) (st o : Nat) : (mbDone ch st d).obj o = d.obj o := by
  rw [Core.obj, rest_objs (h.rest st)]
  rfl
end

theorem mbDone_edges {ch : Nat} {d : Core} (hd : d.rot.detached.find? (fun k => decide (k.1 + 16 = ch)) = none) (st : Nat) :
    (mbDone ch st d).edges = d.edges := by
  rw [mbDone, mbDoneWith_eq hd]
  dsimp only
  split
  · exact raiseInt_edges ..
  · rfl

/-! ### SNAP_CREATE (R94, R111) -/

section
variable {α : Type} (g : Core → α) (memory : ∀ m c, g { c with mem := m } = g c) (home : ∀ e x c, g (c.setHome e x) = g c)
include memory home

theorem setPageWords_keeps (e page : Nat) (ws : List (Nat × Bool)) (c : Core) : g (c.setPageWords e page ws) = g c :=
  forEach_keeps g _ (fun _ _ => (home ..).trans (memory ..)) c

/-- The creation of a region writes its record, and changes homes and memory. -/
theorem createRegion_keeps (r p base v q : Nat) (c : Core) :
    g (createRegion r p base v q c) =
      g (c.setRegion r { created := true, p := p, base := base, v := v, q := q, slots := [(0, ⟨.working, 0, none⟩)] }) :=
  forEach_keeps g _ (fun _ _ => (home ..).trans (forEach_keeps g _ (fun _ _ => setPageWords_keeps g memory home ..) _)) _
end

section
variable {c : Core} {ch : Nat} (h : taken c ch 0x010 7 = true) (h0 : reservedClear (reqData c ch 0) 0x3FF = true)
  (h1 : reservedClear (reqData c ch 1) 0x3FFFFFFF = true) (ho : c.regionOwner (field (reqData c ch 0) 9 0) = some (reqPtn c ch))
include h h0 h1 ho

theorem fxSnapCreate_legal :
    let r := field (reqData c ch 0) 9 0
    let base := field (reqData c ch 1) 9 0
    let v := field (reqData c ch 1) 19 10
    let q := field (reqData c ch 1) 29 20
    fxSnapCreate ch c =
      if (c.region r).created then mbDone ch stRegionInUse (c.running ch)
      else if v = 0 ∨ !layoutOk c (reqPtn c ch) r base (v + q) then mbDone ch stSnapLayout (c.running ch)
      else mbDone ch stOk (createRegion r (reqPtn c ch) base v q (c.running ch)) := by
  simp only [fxSnapCreate, takeRequest_taken h, running_reqPtn, running_reqData, running_regionOwner, running_get_region, running_layoutOk,
    h0, h1, ho, Bool.not_true, Bool.false_eq_true, or_self, if_false, ne_eq, not_true_eq_false]

theorem fxSnapCreate_created (hc : (c.region (field (reqData c ch 0) 9 0)).created = true) :
    fxSnapCreate ch c = mbDone ch 0x0F (c.running ch) := by
  rw [fxSnapCreate_legal h h0 h1 ho, if_pos hc]
  rfl

theorem fxSnapCreate_blank (hc : (c.region (field (reqData c ch 0) 9 0)).created = false) (hv : field (reqData c ch 1) 19 10 ≠ 0)
    (hl : layoutOk c (reqPtn c ch) (field (reqData c ch 0) 9 0) (field (reqData c ch 1) 9 0)
      (field (reqData c ch 1) 19 10 + field (reqData c ch 1) 29 20) = true) :
    let r := field (reqData c ch 0) 9 0
    let base := field (reqData c ch 1) 9 0
    let v := field (reqData c ch 1) 19 10
    let q := field (reqData c ch 1) 29 20
    (fxSnapCreate ch c).region r =
      { created := true, p := reqPtn c ch, base := base, v := v, q := q, slots := [(0, ⟨.working, 0, none⟩)] } ∧
    (∀ k, k ≠ r → (fxSnapCreate ch c).region k = c.region k) ∧ (fxSnapCreate ch c).mb ch = mbAnswer (c.mb ch) 0 := by
  rw [fxSnapCreate_legal h h0 h1 ho]
  dsimp only
  rw [if_neg (by simp [hc]), if_neg (by simp [hv, hl])]
  have keeps {α : Type} (g : Core → α) (memory : ∀ m c, g { c with mem := m } = g c) (home : ∀ e x c, g (c.setHome e x) = g c) :=
    createRegion_keeps g memory home (field (reqData c ch 0) 9 0) (reqPtn c ch) (field (reqData c ch 1) 9 0) (field (reqData c ch 1) 19 10)
      (field (reqData c ch 1) 29 20) (c.running ch)
  have running := (answering_running h).of_mbx (keeps Core.mbx (fun _ _ => rfl) (fun _ _ _ => rfl))
    (keeps (fun c => c.rot.detached) (fun _ _ => rfl) (fun _ _ _ => rfl))
  have region (k : Nat) := (running.regions stOk k).trans (keeps (fun c => c.region k) (fun _ _ => rfl) (fun _ _ _ => rfl))
  exact ⟨(region _).trans (Core.setRegion_same ..), fun k hk => (region k).trans (Core.setRegion_ne _ _ _ hk), running.answer stOk⟩
end

/-! ### SNAP_DESTROY (R111, R116) -/

/-- A region whose pages go is forgotten at a home: its free pages, copies and pool report; requests that wait for one of its pages go on. -/
def clearRegion (r : Nat) (vis : List Nat) (h : Home) : Home :=
  { h with freePages := h.freePages.filter (fun x => decide (x.1 ≠ r)), copies := h.copies.filter (fun k => decide (k.region ≠ r))
           poolLogged := h.poolLogged.filter (fun k => decide (k ≠ r))
           trks := h.trks.map (fun t => if t.phase = 3 ∧ vis.contains (t.line / 512) then { t with phase := 7 } else t) }

/-- Queued commits of a region refused, as its destruction does it. -/
def queueRefused (r : Nat) (c : Core) : Core :=
  (c.region r).queue.foldl (fun d k => d.answer k.o (c.region r).p 0 { op := opNackRevoked, reason := 4 }) c

/-- The open records of a region dropped. -/
def opensDropped (r : Nat) (c : Core) : Core :=
  c.modEdge (r / 64) (fun d => { d with opens := d.opens.filter (fun k => decide (k.2.1 ≠ r)) })

/-- The pages of a region of partition `p` cleared at every home. -/
def pagesCleared (r p base v : Nat) (c : Core) : Core :=
  forEach (c.homes.map Prod.fst) (fun e c =>
    (forEach (runPages c e p base v) (fun pg c => c.setPageWords e pg []) c).modHome e (clearRegion r (runPages c e p base v))) c

/-- The core of a destruction before the requests that waited for a page of the region go on. -/
def regionBlank (r : Nat) (c : Core) : Core :=
  (pagesCleared r (c.region r).p (c.region r).base (c.region r).v (opensDropped r (queueRefused r c))).setRegion r {}

theorem destroyRegion_eq (r : Nat) (c : Core) :
    destroyRegion r c = forEach (((regionBlank r c).homes.filter (fun h => h.2.trks.any (fun t => decide (t.phase = 7)))).map Prod.fst)
      (fun e c => settle e c) (regionBlank r c) := rfl

theorem HomeWork.settleAll {R : Core → Core → Prop} (h : HomeWork R) (l : List Nat) (c : Core) :
    R c (forEach l (fun e c => Machine.settle e c) c) := by
  unfold forEach
  induction l generalizing c with
  | nil => exact h.refl c
  | cons e l ih => exact h.trans (h.settle e c) (ih _)

section
variable (r : Nat) (c : Core)

theorem pagesCleared_keeps {α : Type} (g : Core → α) (memory : ∀ m c, g { c with mem := m } = g c) (home : ∀ e x c, g (c.setHome e x) = g c)
    (p base v : Nat) : g (pagesCleared r p base v c) = g c :=
  forEach_keeps g _ (fun _ _ => (home ..).trans (forEach_keeps g _ (fun _ _ => setPageWords_keeps g memory home ..) _)) c

theorem regionBlank_edges : (regionBlank r c).edges = (opensDropped r (queueRefused r c)).edges :=
  pagesCleared_keeps r (opensDropped r (queueRefused r c)) Core.edges (fun _ _ => rfl) (fun _ _ _ => rfl) ..

/-- The destruction leaves alone what neither the work of homes nor the edge units' tables touch. -/
theorem destroyRegion_keeps {α : Type} (g : Core → α) (beside : ∀ {c d : Core}, d.besideHomes = c.besideHomes → g d = g c)
    (edge : ∀ e x c, g (c.setEdge e x) = g c) : g (destroyRegion r c) = g c := by
  have refused : g (queueRefused r c) = g c := beside (foldl_besideHomes _ (fun c k => answer_besideHomes c ..) _ c)
  have blank (d : Core) : g (d.setRegion r {}) = g d := beside rfl
  have cleared : g (regionBlank r c) = g (opensDropped r (queueRefused r c)) :=
    (blank _).trans (pagesCleared_keeps r (opensDropped r (queueRefused r c)) g (fun _ _ => beside rfl) (fun _ _ _ => beside rfl) ..)
  rw [destroyRegion_eq, forEach_keeps g _ (fun e c => beside (settle_besideHomes c e))]
  exact (cleared.trans (edge ..)).trans refused

theorem destroyRegion_region : (destroyRegion r c).region r = {} := by
  have blank : (regionBlank r c).region r = {} := Core.setRegion_same ..
  rw [destroyRegion_eq, (homeWork_uncreated r).settleAll _ _ (by rw [blank]), blank]

theorem destroyRegion_opens : ∀ k ∈ ((destroyRegion r c).edge (r / 64)).opens, k.2.1 ≠ r := by
  have sole : soleKey (r / 64) (regionBlank r c).edges := by
    rw [regionBlank_edges]
    exact soleKey_tput ..
  have dropped : ((regionBlank r c).edge (r / 64)).opens = ((queueRefused r c).edge (r / 64)).opens.filter (fun k => decide (k.2.1 ≠ r)) := by
    rw [Core.edge, regionBlank_edges]
    exact congrArg Edge.opens (Core.setEdge_same ..)
  rw [destroyRegion_eq, (((homeWork_opens (r / 64)).settleAll _ _).kept sole).2, dropped]
  intro k hk
  simpa using (List.mem_filter.1 hk).2
end

section
variable {c : Core} {ch : Nat} (h : taken c ch 0x011 7 = true) (h0 : reservedClear (reqData c ch 0) 0x3FF = true)
  (h1 : reservedClear (reqData c ch 1) 0x00010000 = true) (ho : c.regionOwner (field (reqData c ch 0) 9 0) = some (reqPtn c ch))
  (hc : (c.region (field (reqData c ch 0) 9 0)).created = true) (hd : (c.region (field (reqData c ch 0) 9 0)).destroy = none)
  (hk : (c.region (field (reqData c ch 0) 9 0)).commit = none)
  (hf : (reqData c ch 1).getLsbD 16 = true ∨
    (c.edge (field (reqData c ch 0) 9 0 / 64)).opens.all (fun k => decide (k.2.1 ≠ field (reqData c ch 0) 9 0)) = true)
include h h0 h1 ho hc hd hk hf

theorem fxSnapDestroy_legal :
    let r := field (reqData c ch 0) 9 0
    fxSnapDestroy ch c =
      mbDone ch stOk (destroyRegion r ((opensDropped r (c.running ch)).modRegion r (fun g => { g with destroy := some ch }))) := by
  intro r
  have closed : ¬((!(reqData c ch 1).getLsbD 16) = true ∧ (c.edge (r / 64)).opens.any (fun k => decide (k.2.1 = r)) = true) := by
    rintro ⟨unforced, any⟩
    obtain ⟨k, hk, hr⟩ := List.any_eq_true.1 any
    rcases hf with forced | all
    · rw [forced] at unforced
      cases unforced
    · exact of_decide_eq_true (List.all_eq_true.1 all k hk) (of_decide_eq_true hr)
  have due (d : Core) (region : d.region r = c.region r) :
      destroyDue r (d.modRegion r (fun g => { g with destroy := some ch })) =
        mbDone ch stOk (destroyRegion r (d.modRegion r (fun g => { g with destroy := some ch }))) := by
    have idle : (c.region r).commit = none := hk
    simp only [destroyDue, Core.modRegion, Core.setRegion_same, region, idle, Option.isNone_none, if_true]
  simp only [fxSnapDestroy, takeRequest_taken h, running_reqPtn, running_reqData, running_regionOwner, running_get_region, running_get_edge,
    h0, h1, ho, hc, hd, Bool.not_true, Bool.false_eq_true, or_self, if_false, ne_eq, not_true_eq_false, Option.isSome_none]
  rw [if_neg closed]
  exact due _ rfl

theorem fxSnapDestroy_blank :
    let r := field (reqData c ch 0) 9 0
    (fxSnapDestroy ch c).region r = {} ∧ (∀ k ∈ ((fxSnapDestroy ch c).edge (r / 64)).opens, k.2.1 ≠ r) ∧
      (fxSnapDestroy ch c).mb ch = mbAnswer (c.mb ch) 0 := by
  rw [fxSnapDestroy_legal h h0 h1 ho hc hd hk hf]
  generalize field (reqData c ch 0) 9 0 = r
  dsimp only
  generalize he : (opensDropped r (c.running ch)).modRegion r (fun g => { g with destroy := some ch }) = e
  have begun : Answering ch c e := (answering_running h).of_mbx (by rw [← he]; rfl) (by rw [← he]; rfl)
  have done := begun.of_mbx (destroyRegion_keeps r e Core.mbx (fun k => by have := congrArg Core.mbx k; exact this) (fun _ _ _ => rfl))
    (destroyRegion_keeps r e (fun c => c.rot.detached) (fun k => by have := congrArg (fun c => c.rot.detached) k; exact this) (fun _ _ _ => rfl))
  refine ⟨(done.regions ..).trans (destroyRegion_region r e), ?_, done.answer stOk⟩
  rw [Core.edge, mbDone_edges done.attached]
  exact destroyRegion_opens r e
end

/-! ### SYNC_SET (R264) -/

/-- Waiters woken and progress noted: a synchronization object's new value is seen, and no object, request or region changes. -/
theorem objApplied_keeps {α : Type} (g : Core → α) (edge : ∀ e x c, g (c.setEdge e x) = g c) (send : ∀ m c, g (c.send m) = g c)
    (ptn : ∀ p x c, g (c.setPtn p x) = g c) (o : Nat) (c : Core) : g (objApplied o c) = g c := by
  have sent (m : Waiter → Msg) (l : List Waiter) (d : Core) : g (l.foldl (fun d w => d.send (m w)) d) = g d := by
    induction l generalizing d with
    | nil => rfl
    | cons w l ih => exact (ih _).trans (send ..)
  have woken : g (wakeWaiters o c) = g c := (sent ..).trans (edge ..)
  unfold objApplied
  dsimp only
  split
  · exact (ptn ..).trans woken
  · exact woken

/-- A counter with the counts that SYNC_SET gives in DATA1 to DATA4. -/
def counterSet (c : Core) (ch o : Nat) : SyncObj :=
  { c.obj o with
    produced := BitVec.ofNat 64 ((reqData c ch 1).toNat + (reqData c ch 2).toNat * 2 ^ 32)
    consumed := BitVec.ofNat 64 ((reqData c ch 3).toNat + (reqData c ch 4).toNat * 2 ^ 32) }

section
variable {c : Core} {ch : Nat} (h : taken c ch 0x020 3 = true) (h0 : reservedClear (reqData c ch 0) 0xC0130FFF = true)
  (hr : field (reqData c ch 0) 31 30 = 0) (hm : field (reqData c ch 0) 17 16 = 1)
  (ho : ∀ k, c.objOwner (field (reqData c ch 0) 11 0) = some k → c.sec.consent.getLsbD k = true)
  (hx : (c.obj (field (reqData c ch 0) 11 0)).mode = .counter)
  (hl : (counterSet c ch (field (reqData c ch 0) 11 0)).avail ≤ (counterSet c ch (field (reqData c ch 0) 11 0)).lim)
include h h0 hr hm ho hx hl

theorem fxSyncSet_counter :
    let o := field (reqData c ch 0) 11 0
    fxSyncSet ch c = mbDone ch stOk (logE 0x0803 8 (objEdge o) (c.objOwner o) ([(12, o)] ++ setFields (c.obj o) (counterSet c ch o) ++ [(14, 3)])
      (objApplied o ((c.running ch).setObj o (counterSet c ch o)))) := by
  intro o
  have consented : ¬(match c.objOwner o with
      | some p => !c.sec.consent.getLsbD p
      | none => false) = true := by
    cases owner : c.objOwner o with
    | none => simp
    | some p => simp [ho p owner]
  have fits : ¬((counterSet c ch o).lim < (counterSet c ch o).avail) := by simpa using hl
  simp only [fxSyncSet, takeRequest_taken h, running_reqData, running_get_obj, running_objOwner, running_sec, h0, hr, hm, Bool.not_true,
    Bool.false_eq_true, false_or, ne_eq, not_true_eq_false, and_false, if_false, true_and, if_true]
  exact (if_neg consented).trans ((if_neg (by simp [hx])).trans ((if_neg fits).trans rfl))

theorem fxSyncSet_sets :
    let o := field (reqData c ch 0) 11 0
    (fxSyncSet ch c).obj o = counterSet c ch o ∧ (∀ k, k ≠ o → (fxSyncSet ch c).obj k = c.obj k) ∧
      (fxSyncSet ch c).mb ch = mbAnswer (c.mb ch) 0 := by
  rw [fxSyncSet_counter h h0 hr hm ho hx hl]
  generalize field (reqData c ch 0) 11 0 = o
  dsimp only
  generalize setFields _ _ = fs
  have applied {α : Type} (g : Core → α) := objApplied_keeps g (o := o) (c := (c.running ch).setObj o (counterSet c ch o))
  generalize objApplied o ((c.running ch).setObj o (counterSet c ch o)) = d at applied
  have logged := logE_rest 0x0803 8 (objEdge o) (c.objOwner o) ([(12, o)] ++ fs ++ [(14, 3)]) d
  generalize logE 0x0803 8 (objEdge o) (c.objOwner o) ([(12, o)] ++ fs ++ [(14, 3)]) d = e at logged
  have done : Answering ch c e := (answering_running h).of_mbx
    ((rest_mbx logged).trans (applied Core.mbx (fun _ _ _ => rfl) (fun _ _ => rfl) (fun _ _ _ => rfl)))
    ((congrArg (fun c => c.rot.detached) logged).trans
      (applied (fun c => c.rot.detached) (fun _ _ _ => rfl) (fun _ _ => rfl) (fun _ _ _ => rfl)))
  have obj (k : Nat) : (mbDone ch stOk e).obj k = ((c.running ch).setObj o (counterSet c ch o)).obj k :=
    (done.objs ..).trans (Eq.trans (by rw [Core.obj, rest_objs logged, Core.obj])
      (applied (fun c => c.obj k) (fun _ _ _ => rfl) (fun _ _ => rfl) (fun _ _ _ => rfl)))
  exact ⟨(obj o).trans (Core.setObj_same ..), fun k hk => (obj k).trans (Core.setObj_ne _ _ _ hk), done.answer stOk⟩
end

end Sys2Proof.Machine
end

section
/-! SUPPORT. The requests that start a key rotation or the lining of a partition, and the owner's consent (R344, R349, R353). -/

namespace Sys2Proof.Machine
open Sys2Proof

theorem unlessBusy_busy {ch p : Nat} {c : Core} (h : ptnBusy c p = true) (f : Core → Core) : unlessBusy ch p f c = mbDone ch stPartitionBusy c :=
  if_pos h

theorem unlessBusy_free {ch p : Nat} {c : Core} (h : ptnBusy c p = false) (f : Core → Core) : unlessBusy ch p f c = f c :=
  if_neg (by rw [h]; exact Bool.false_ne_true)

/-! ### ROTATE (R344) -/

/-- The action of a key rotation. -/
def rotation (ch : Option Nat) (p : Nat) : Action := { noAction with kind := 3, p := p, ch := ch }

/-- A rotation waits for the memory manager, the keys of the partition marked. -/
theorem startAction_rotation {c : Core} {p : Nat} (hfree : actionOf c p = none) (hr : c.glb.restarting = false) (ch : Option Nat) :
    actionOf (startAction (rotation ch p) c) p = some { rotation ch p with step := 9, await := [5] } := by
  have enter (d : Core) : (enterStep ((rotation ch p).atStep c 9) d).rot = d.rot := rfl
  have start := startAction_first (a := rotation ch p) (t := 9) hfree hr rfl rfl rfl (List.cons_ne_nil 5 []) (enter _)
  rw [start]
  exact (actionOf_of_rot (enter _) _).trans (actionOf_announce (actionOf_listed hfree) rfl)

section
variable {c : Core} {ch : Nat} (h : taken c ch 0x040 7 = true) (hb : ptnBusy c (reqPtn c ch) = false)
include h hb

theorem fxRotate_free :
    fxRotate ch c = if (c.keys (reqPtn c ch)).sweep then mbDone ch stRotationBusy (c.running ch)
      else startAction (rotation (some ch) (reqPtn c ch)) (c.running ch) := by
  rw [fxRotate, takeRequest_taken h]
  dsimp only
  rw [running_reqPtn, unlessBusy_free (by rw [running_ptnBusy, hb])]
  rfl

theorem fxRotate_starts (hs : (c.keys (reqPtn c ch)).sweep = false) :
    actionOf (fxRotate ch c) (reqPtn c ch) = some { rotation (some ch) (reqPtn c ch) with step := 9, await := [5] } := by
  rw [fxRotate_free h hb, if_neg (by rw [hs]; exact Bool.false_ne_true)]
  have serving : c.glb.restarting = false := rotUp_restarting (taken_rotUp h)
  exact startAction_rotation (c := c.running ch) (actionOf_of_ptnBusy hb) serving _
end

/-! ### PTN_LINE (R349) -/

/-- The action of the lining of a partition. -/
def lining (ch : Option Nat) (p : Nat) : Action := { noAction with kind := 2, p := p, ch := ch, forced := true }

/-- The fencing of hosts one after another, with their open pleats closed. -/
def hostsFenced (hs : List Nat) (c : Core) : Core := forEach hs (fun h c => closeHostOpens h (fenceDecision h 3 0 c)) c

theorem startRetire_hosts (r : Nat) (c : Core) : (startRetire r c).hosts = c.hosts := by
  unfold startRetire
  dsimp only
  split
  · exact forEach_keeps Core.hosts _ (by intros; rfl) _
  · rfl

theorem closeHostOpens_hosts (h : Nat) (c : Core) : (closeHostOpens h c).hosts = c.hosts :=
  (forEach_keeps Core.hosts _ (fun r d => startRetire_hosts r (d.setRegion r _)) _).trans (forEach_keeps Core.hosts _ (by intros; rfl) _)

theorem fenceDecision_actionOf (h cause reason : Nat) (c : Core) (p : Nat) : actionOf (fenceDecision h cause reason c) p = actionOf c p :=
  fenceDecision_keeps (fun d => actionOf d p) (fun _ => rfl) (fun _ _ => rfl) h cause reason c

theorem fenceDecision_host (h cause reason : Nat) (c : Core) (k : Nat) :
    (fenceDecision h cause reason c).host k = if k = h then { c.host h with st := 1 } else c.host k :=
  (fenceDecision_keeps (fun d => d.host k) (fun _ => rfl) (fun _ _ => rfl) h cause reason c).trans (Core.setHost_get ..)

theorem hostsFenced_actionOf (hs : List Nat) (c : Core) (p : Nat) : actionOf (hostsFenced hs c) p = actionOf c p :=
  forEach_keeps (fun d => actionOf d p) hs (fun _ _ => (actionOf_of_rot (closeHostOpens_rot ..) p).trans (fenceDecision_actionOf ..)) c

/-- A host that is fenced, or is among those to be fenced, is fenced at the end. -/
theorem hostsFenced_st (hs : List Nat) {k : Nat} (c : Core) (hk : (c.host k).st = 1 ∨ k ∈ hs) : ((hostsFenced hs c).host k).st = 1 := by
  induction hs generalizing c with
  | nil => simpa [hostsFenced, forEach] using hk
  | cons h hs ih =>
    have host : (closeHostOpens h (fenceDecision h 3 0 c)).host k = if k = h then { c.host h with st := 1 } else c.host k :=
      (host_of_hosts (closeHostOpens_hosts ..) k).trans (fenceDecision_host ..)
    refine ih (closeHostOpens h (fenceDecision h 3 0 c)) ?_
    rw [host]
    split
    · exact .inl rfl
    · next ne =>
      rcases hk with fenced | mem
      · exact .inl fenced
      · exact .inr ((List.mem_cons.1 mem).resolve_left ne)

/-- The lining waits for the managers of its first step, the admitted hosts fenced. -/
theorem startAction_lining {c : Core} {p : Nat} (hfree : actionOf c p = none) (hr : c.glb.restarting = false) (ch : Option Nat) :
    actionOf (startAction (lining ch p) c) p = some { lining ch p with step := 1, await := [4, 5] } ∧
      ∀ h ∈ admittedHosts c p, ((startAction (lining ch p) c).host h).st = 1 := by
  let a' : Action := (lining ch p).atStep c 1
  let d := announce a' (listed (lining ch p) c)
  have hosts : d.hosts = c.hosts := announce_keeps Core.hosts (fun _ _ => rfl)
  have enter : enterStep a' d = hostsFenced (admittedHosts c p) d := by
    have same : admittedHosts d p = admittedHosts c p := by rw [admittedHosts, hosts, admittedHosts]
    rw [← same]
    rfl
  have found : actionOf (hostsFenced (admittedHosts c p) d) p = some a' :=
    (hostsFenced_actionOf ..).trans (actionOf_announce (actionOf_listed (a := lining ch p) hfree) rfl)
  have start : startAction (lining ch p) c = hostsFenced (admittedHosts c p) d :=
    calc startAction (lining ch p) c
      _ = advanceN p 15 (enterStep a' d) :=
        advanceN_next (a := lining ch p) (actionOf_listed hfree) rfl hr (Nat.zero_ne_add_one 21) (Nat.zero_ne_add_one 14) rfl
      _ = advanceN p 15 (hostsFenced (admittedHosts c p) d) := by rw [enter]
      _ = _ := advanceN_awaits found (List.cons_ne_nil 4 [5]) _
  rw [start]
  exact ⟨found, fun h hh => hostsFenced_st _ d (.inr hh)⟩

section
variable {c : Core} {ch : Nat} (h : taken c ch 0x041 3 = true)
include h

theorem fxPtnLine_busy (hb : ptnBusy c (reqPtn c ch) = true) : fxPtnLine ch c = mbDone ch 0x01 (c.running ch) := by
  rw [fxPtnLine, takeRequest_taken h]
  dsimp only
  rw [running_reqPtn, unlessBusy_busy (by rw [running_ptnBusy, hb])]
  rfl

theorem fxPtnLine_free (hb : ptnBusy c (reqPtn c ch) = false) :
    fxPtnLine ch c = startAction (lining (some ch) (reqPtn c ch)) (c.running ch) := by
  rw [fxPtnLine, takeRequest_taken h]
  dsimp only
  rw [running_reqPtn, unlessBusy_free (by rw [running_ptnBusy, hb])]
  rfl
end

/-! ### CONSENT (R353) -/

/-- The consent flags with that of partition `p` set or cleared. -/
def consentSet (p : Nat) (v : Bool) (x : BitVec 32) : BitVec 32 := if v then x ||| 1#32 <<< p else x &&& ~~~(1#32 <<< p)

theorem consentSet_get {p k : Nat} (v : Bool) (x : BitVec 32) (hk : k < 32) :
    (consentSet p v x).getLsbD k = if k = p then v else x.getLsbD k := by
  have bit : (1#32 <<< p).getLsbD k = decide (k = p) := by
    rw [BitVec.getLsbD_shiftLeft, BitVec.getLsbD_one]
    by_cases e : k = p
    · subst e
      simp [hk]
    · simp only [e, decide_false, hk, decide_true, Bool.true_and]
      by_cases lt : k < p
      · simp [lt]
      · simp only [lt, decide_false, Bool.not_false, Bool.true_and]
        simp
        omega
  cases v
  · rw [consentSet, if_neg Bool.false_ne_true, BitVec.getLsbD_and, BitVec.getLsbD_not, bit]
    by_cases e : k = p <;> simp only [e, hk, decide_true, decide_false, Bool.not_true, Bool.not_false, Bool.and_true, Bool.and_false, if_true,
      if_false]
  · rw [consentSet, if_pos rfl, BitVec.getLsbD_or, bit]
    by_cases e : k = p <;> simp only [e, decide_true, decide_false, Bool.or_true, Bool.or_false, if_true, if_false]

/-- The flag set again as it is: nothing changes. -/
theorem consentSet_same {p : Nat} (v : Bool) (x : BitVec 32) (h : x.getLsbD p = v) (k : Nat) :
    x.getLsbD k = if k = p then v else x.getLsbD k := by
  split
  · next e => rw [e, h]
  · rfl

theorem setConsent_rest (p : Nat) (v : Bool) (cause : Nat) (c : Core) :
    ∃ w, (setConsent p v cause c).rest = (c.modSec (fun x => { x with consent := w })).rest ∧
      ∀ k, k < 32 → w.getLsbD k = if k = p then v else c.sec.consent.getLsbD k := by
  unfold setConsent
  split
  · next same => exact ⟨c.sec.consent, rfl, fun k _ => consentSet_same v _ same k⟩
  · exact ⟨consentSet p v c.sec.consent, logE_rest .., fun k hk => consentSet_get v _ hk⟩

theorem taken_chans {c : Core} {ch code chans : Nat} (h : taken c ch code chans = true) : chanOk ch chans = true := by
  simp only [taken, Bool.and_eq_true] at h
  tauto

theorem chanOk_partition {ch : Nat} (h : chanOk ch 4 = true) : 16 ≤ ch := by
  unfold chanOk at h
  split at h
  · exact absurd h (by decide)
  · split at h
    · exact absurd h (by decide)
    · omega

section
variable {c : Core} {ch : Nat} (h : taken c ch 0x042 4 = true) (he : (c.ptn (ch - 16)).en = true) (h0 : reservedClear (reqData c ch 0) 1 = true)
include h he h0

theorem fxConsent_legal :
    fxConsent ch c =
      if (c.host (c.mb ch).goHost).group ≠ (c.ptn (ch - 16)).groupBase then mbDone ch stConsentRefused (c.running ch)
      else mbDone ch stOk (setConsent (ch - 16) ((reqData c ch 0).getLsbD 0) 0 (c.running ch)) := by
  simp only [fxConsent, takeRequest_taken h, running_reqData, running_get_ptn, running_get_host, running_mb, he, h0, Bool.not_true,
    Bool.false_eq_true, if_false]

/-- A host of another group than the partition's first is refused. -/
theorem fxConsent_refused (hg : (c.host (c.mb ch).goHost).group ≠ (c.ptn (ch - 16)).groupBase) :
    fxConsent ch c = mbDone ch 0x1C (c.running ch) := by
  rw [fxConsent_legal h he h0, if_pos hg]
  rfl

theorem fxConsent_sets (hg : (c.host (c.mb ch).goHost).group = (c.ptn (ch - 16)).groupBase) :
    ∃ w, (fxConsent ch c).rest = ((c.modSec (fun x => { x with consent := w })).setMb ch (mbAnswer (c.mb ch) 0)).rest ∧
      ∀ k, k < 32 → w.getLsbD k = if k = ch - 16 then (reqData c ch 0).getLsbD 0 else c.sec.consent.getLsbD k := by
  rw [fxConsent_legal h he h0, if_neg (not_not.2 hg)]
  obtain ⟨w, set, bits⟩ := setConsent_rest (ch - 16) ((reqData c ch 0).getLsbD 0) 0 (c.running ch)
  generalize setConsent (ch - 16) ((reqData c ch 0).getLsbD 0) 0 (c.running ch) = d at set
  have done : Answering ch c d := (answering_running h).of_mbx ((rest_mbx set).trans rfl)
    ((congrArg (fun c => c.rot.detached) set).trans rfl)
  refine ⟨w, ?_, bits⟩
  calc (mbDone ch stOk d).rest
    _ = d.rest.setMb ch (mbAnswer (c.mb ch) 0) := done.rest stOk
    _ = (((c.modSec (fun x => { x with consent := w })).running ch).setMb ch (mbAnswer (c.mb ch) 0)).rest := by rw [set]; rfl
    _ = _ := by rw [running_setMb]
end

end Sys2Proof.Machine
end

section
/-! SUPPORT. The page map of a memory controller, and what leaves it alone: the log, the counters, the freeze and the decoding of a line. -/

namespace Sys2Proof.Machine
open Sys2Proof

/-- What a memory controller holds of retired pages: the page on the move with its channel, the retired pages, the bad spares (R314, R315). -/
def Hbmc.pageMap (x : Hbmc) : Option (Nat × Nat × Nat) × Nat × Table (Option Nat) × List Nat := (x.moving, x.movingCh, x.retired, x.badSpares)

def Core.pageMap (c : Core) (e : Nat) : Option (Nat × Nat × Nat) × Nat × Table (Option Nat) × List Nat := (c.hbmc e).pageMap

theorem foldl_pageMap {α : Type} {e : Nat} (f : Core → α → Core) (h : ∀ c a, (f c a).pageMap e = c.pageMap e) (l : List α) (c : Core) :
    (l.foldl f c).pageMap e = c.pageMap e := by
  induction l generalizing c with
  | nil => rfl
  | cons a l ih => exact (ih _).trans (h c a)

section
variable (c : Core) (e : Nat)

/-- A change of a controller that keeps its page map. -/
theorem modHbmc_pageMap {f : Hbmc → Hbmc} (hf : ∀ x, (f x).pageMap = x.pageMap) (k : Nat) : (c.modHbmc k f).pageMap e = c.pageMap e := by
  rw [Core.pageMap, Core.modHbmc, Core.setHbmc_get]
  split
  · next h => rw [h, hf, Core.pageMap]
  · rfl

/-! ### Interrupts and the log -/

theorem raiseInt_pageMap (v : Nat) : (raiseInt v c).pageMap e = c.pageMap e := by
  unfold raiseInt
  dsimp only
  split
  · rfl
  · split
    · rfl
    · split <;> rfl

theorem ibi_pageMap (k : Nat) : (ibi k c).pageMap e = c.pageMap e := by
  unfold ibi
  split <;> rfl

theorem setErl_pageMap (x : Erl) : ({ c with erl := x } : Core).pageMap e = c.pageMap e := rfl

theorem setPlog_pageMap (x : Table (List (BitVec 512))) : ({ c with plog := x } : Core).pageMap e = c.pageMap e := rfl

theorem raiseService_pageMap (k : Nat) : (raiseService k c).pageMap e = c.pageMap e := by
  unfold raiseService
  split
  · rfl
  · rw [ibi_pageMap, raiseInt_pageMap]
    rfl

theorem raiseErlService_pageMap (k : Nat) : (raiseErlService k c).pageMap e = c.pageMap e := by
  unfold raiseErlService
  rw [raiseService_pageMap, setErl_pageMap]

theorem writeEntries_pageMap (l : List LogEntry) : (writeEntries l c).pageMap e = c.pageMap e := by
  have persisted (x : LogEntry) (d : Core) : (persist x d).pageMap e = d.pageMap e := by
    unfold persist
    split
    · exact setPlog_pageMap ..
    · rfl
  unfold writeEntries
  split
  · rfl
  · refine foldl_pageMap _ (fun d x => ?_) l c
    dsimp only
    split
    · exact persisted ..
    · rfl

theorem logInterrupt_pageMap (v : Nat) : (logInterrupt v c).pageMap e = c.pageMap e := by
  unfold logInterrupt
  split
  · exact (ibi_pageMap ..).trans (raiseInt_pageMap ..)
  · rfl

theorem recordEvent_pageMap (es : List LogEntry) : (recordEvent es c).pageMap e = c.pageMap e := by
  have kept {P : Prop} [Decidable P] {v : Nat} {d : Core} (h : d.pageMap e = c.pageMap e) :
      (if P then writeEntries es c else logInterrupt v d).pageMap e = c.pageMap e := by
    split
    · exact writeEntries_pageMap ..
    · exact (logInterrupt_pageMap ..).trans h
  have opened (w : List LogWin) :
      ({ writeEntries es c with erl := { (writeEntries es c).erl with logWins := w } } : Core).pageMap e = c.pageMap e :=
    (setErl_pageMap ..).trans (writeEntries_pageMap ..)
  unfold recordEvent
  dsimp only
  split
  · split
    · split
      · rfl
      · exact kept (opened _)
    · exact kept (opened _)
  · exact kept (writeEntries_pageMap ..)

theorem logRaw_pageMap (code cls i : Nat) (p : Option Nat) (fs : List (Nat × Nat)) : (logRaw code cls i p fs c).pageMap e = c.pageMap e := by
  unfold logRaw
  dsimp only
  split
  · split <;> rfl
  · exact recordEvent_pageMap ..

/-! ### The entry to self refresh, and the freeze (R255, R285) -/

theorem modPc_pageMap (k pc : Nat) (f : Pc → Pc) : (modPc k pc f c).pageMap e = c.pageMap e :=
  modHbmc_pageMap c e (f := fun x => setPcs x pc (f (pcOf x pc))) (fun _ => rfl) k

theorem send_pageMap (m : Msg) : (c.send m).pageMap e = c.pageMap e := rfl

theorem issueOp_pageMap (k pc : Nat) (o : HbmOp) : (issueOp k pc o c).pageMap e = c.pageMap e := by
  unfold issueOp sendOp
  rw [send_pageMap, modPc_pageMap, modPc_pageMap]

theorem mdWriteBack_pageMap (k m : Nat) : (mdWriteBack k m c).pageMap e = c.pageMap e := by
  unfold mdWriteBack
  dsimp only
  rw [foldl_pageMap _ (fun _ _ => issueOp_pageMap ..)]
  split
  · split
    · rfl
    · rw [issueOp_pageMap, issueOp_pageMap]
  · rw [issueOp_pageMap]

theorem mdFlush_pageMap (k : Nat) : (mdFlush k c).pageMap e = c.pageMap e := by
  unfold mdFlush
  dsimp only
  refine (modHbmc_pageMap _ e (by intro; rfl) k).trans (foldl_pageMap _ (fun d m => ?_) _ c)
  split
  · exact mdWriteBack_pageMap ..
  · rfl

theorem enterSelfRefresh_pageMap (k : Nat) : (enterSelfRefresh k c).pageMap e = c.pageMap e := by
  unfold enterSelfRefresh
  dsimp only
  rw [send_pageMap]
  refine (modHbmc_pageMap _ e (by intro; rfl) k).trans ?_
  rw [foldl_pageMap _ (fun _ _ => issueOp_pageMap ..), mdFlush_pageMap]

theorem freeze_pageMap (k : BitVec 3) (chip : Bool) : (freeze k chip c).pageMap e = c.pageMap e := by
  have asleep (d : Core) : (allSelfRefresh d).pageMap e = d.pageMap e :=
    forEach_keeps (fun d => d.pageMap e) _ (fun _ _ => enterSelfRefresh_pageMap ..) d
  unfold freeze
  dsimp only
  split
  · rfl
  · split
    · exact (logRaw_pageMap ..).trans (asleep _)
    · split
      · rfl
      · exact (logRaw_pageMap ..).trans (forEach_keeps (fun d => d.pageMap e) _ (by intros; rfl) _)

theorem logE_pageMap (code cls i : Nat) (p : Option Nat) (fs : List (Nat × Nat)) : (logE code cls i p fs c).pageMap e = c.pageMap e := by
  unfold logE logFreeze
  split
  · exact (freeze_pageMap ..).trans (logRaw_pageMap ..)
  · exact logRaw_pageMap ..

/-! ### Counters and fault events -/

theorem bumpCounter_pageMap (cls i k n : Nat) : (bumpCounter cls i k n c).pageMap e = c.pageMap e := by
  unfold bumpCounter
  dsimp only
  split
  · exact logE_pageMap ..
  · rfl

theorem countEvent_pageMap (cls i ev n : Nat) (p : Option Nat) : (countEvent cls i ev n p c).pageMap e = c.pageMap e := by
  unfold countEvent
  split
  · rfl
  · refine foldl_pageMap _ (fun d k => ?_) _ c
    unfold bumpKey
    split <;> exact bumpCounter_pageMap ..

theorem faultEvent_pageMap (p cause : Nat) (detail : BitVec 32) : (faultEvent p cause detail c).pageMap e = c.pageMap e := by
  unfold faultEvent
  split
  · rfl
  · have sent : (sendFaultEvent p cause 1 detail c).pageMap e = c.pageMap e := by
      unfold sendFaultEvent
      dsimp only
      rw [raiseInt_pageMap, foldl_pageMap _ (fun _ _ => send_pageMap ..), setErl_pageMap]
    exact sent
end

theorem homeWork_pageMap (e : Nat) : HomeWork (fun c d => d.pageMap e = c.pageMap e) where
  refl _ := rfl
  trans h k := k.trans h
  counted _ _ _ _ _ _ := countEvent_pageMap ..
  sent _ _ := rfl
  port _ _ _ := rfl
  ptn _ _ _ := rfl
  mirr _ _ _ := rfl
  home _ _ _ := rfl
  memory _ _ := rfl
  flags _ _ _ _ := rfl
  drawn _ _ := rfl
  logged _ _ _ _ _ _ := logE_pageMap ..
  walk h _ _ _ := by cases h <;> rfl
  refused _ _ _ := rfl

/-! ### A line read back from the stack (R303–R306) -/

section
variable (c : Core) (e : Nat)

theorem trackPage_pageMap (k page : Nat) (hard : Bool) : (trackPage k page hard c).pageMap e = c.pageMap e := by
  unfold trackPage
  dsimp only
  split
  · exact (logE_pageMap ..).trans rfl
  · rfl

theorem poisonRead_pageMap (k line ppa source : Nat) (mac : Bool) : (poisonRead k line ppa source mac c).pageMap e = c.pageMap e := by
  have lost (d : Core) : (dataLost k line d).pageMap e = d.pageMap e := by
    unfold dataLost
    split
    · exact faultEvent_pageMap ..
    · rfl
  have poisoned (p : Nat) (d : Core) : (poisonLine k line p d).pageMap e = d.pageMap e := (homeWork_pageMap e).poisonLine ..
  unfold poisonRead
  dsimp only
  refine (lost _).trans ?_
  split <;> exact (logE_pageMap ..).trans ((poisoned ..).trans rfl)

theorem ite_pageMap {P : Prop} [Decidable P] {e : Nat} {a b d : Core} (ha : a.pageMap e = d.pageMap e) (hb : b.pageMap e = d.pageMap e) :
    (if P then a else b).pageMap e = d.pageMap e := by
  split
  · exact ha
  · exact hb

theorem applyRead_pageMap (k line ppa source : Nat) (r : LineRead) : (applyRead k line ppa source r c).pageMap e = c.pageMap e := by
  cases r with
  | uncorrectable => exact poisonRead_pageMap ..
  | macFail => exact poisonRead_pageMap ..
  | good d m n =>
    unfold applyRead
    dsimp only
    have written : (if tget none line (c.home k).store = some true then c else
        { c with mem := wrLine c.mem (caKey k (line * 128)) d } : Core).pageMap e = c.pageMap e := by split <;> rfl
    refine ite_pageMap ?_ (ite_pageMap ?_ ?_)
    · exact written
    · rw [raiseErlService_pageMap, trackPage_pageMap, logE_pageMap, countEvent_pageMap]
      exact written
    · rw [trackPage_pageMap, logE_pageMap, countEvent_pageMap]
      exact written

theorem decodeLine_pageMap (k line ppa : Nat) (w : Codeword) (source : Nat) : (decodeLine k line ppa w source c).pageMap e = c.pageMap e := by
  unfold decodeLine
  split
  · rfl
  · exact applyRead_pageMap ..

/-- The answer to a request leaves the page maps alone. -/
theorem mbDone_pageMap (ch st : Nat) : (mbDone ch st c).pageMap e = c.pageMap e := by
  unfold mbDone mbDoneWith
  dsimp only
  split
  · exact (logE_pageMap ..).trans rfl
  · split
    · exact (raiseInt_pageMap ..).trans rfl
    · rfl
end

end Sys2Proof.Machine
end

section
/-! SUPPORT. The retirement of a page: the request, the copy line by line, and the records in the boot flash (R314, R315, R325). -/

namespace Sys2Proof.Machine
open Sys2Proof

/-! ### PAGE_RETIRE (R314) -/

/-- The physical page address that PAGE_RETIRE names. -/
def retirePpa (c : Core) (ch : Nat) : Nat := (reqData c ch 0).toNat + field (reqData c ch 1) 7 0 * 2 ^ 32

section
variable {c : Core} {ch : Nat} (h : taken c ch 0x030 3 = true) (h1 : reservedClear (reqData c ch 1) 0xFF = true)
include h h1

/-- An address that is not the start of a page. -/
theorem fxPageRetire_unaligned {ppa : Nat} (hp : retirePpa c ch = ppa) (ha : ppa % 65536 ≠ 0) :
    fxPageRetire ch c = mbDone ch 0x16 (c.running ch) := by
  subst hp
  have legal : ¬(!reservedClear (reqData c ch 1) 0xFF) = true := by rw [h1]; exact Bool.false_ne_true
  rw [fxPageRetire, takeRequest_taken h, running_reqData, running_reqData]
  exact (if_neg legal).trans (if_pos (.inl ha))

/-- A data page of a working stack without a move, and a free spare: the move begins. -/
theorem fxPageRetire_moves {ppa e off j : Nat} (hp : retirePpa c ch = ppa) (he : c.place ppa = (e, off)) (ha : ppa % 65536 = 0)
    (hn : ppa / 2 ^ 30 < c.glb.fuse.stacks.length * 56) (h6 : c.ust 6 e ≠ .failed) (h7 : c.ust 7 e ≠ .failed)
    (hm : (c.hbmc e).moving = none) (hj : (List.range 8192).find? (fun j => !(sparesTaken (c.hbmc e)).contains j) = some j) :
    fxPageRetire ch c = (c.running ch).setHbmc e { c.hbmc e with moving := some (off / 65536, j, 0), movingCh := ch } := by
  subst hp
  have legal : ¬(!reservedClear (reqData c ch 1) 0xFF) = true := by rw [h1]; exact Bool.false_ne_true
  have page : ¬(retirePpa c ch % 65536 ≠ 0 ∨ c.glb.fuse.stacks.length * 56 ≤ retirePpa c ch / 2 ^ 30) :=
    not_or.2 ⟨not_not.2 ha, Nat.not_le.2 hn⟩
  have idle : ¬((c.running ch).hbmc e).moving.isSome = true := by rw [running_get_hbmc, hm]; exact Bool.false_ne_true
  rw [fxPageRetire, takeRequest_taken h, running_reqData, running_reqData]
  extract_lets d1 ppa n
  have place : (c.running ch).place ppa = (e, off) := he
  refine (if_neg legal).trans ((if_neg page).trans ?_)
  rw [place]
  refine (if_neg (not_or.2 ⟨h6, h7⟩)).trans ((if_neg idle).trans ?_)
  rw [running_get_hbmc, hj]
end

/-! ### RETIRE_LINE_COPY (R314 steps 3 to 5) -/

/-- A line of the page on the move: dirty in the line store it moves at its eviction, else it is read through the code. -/
def lineMoved (e l : Nat) (w : Codeword) (c : Core) : Core :=
  if tget none l (c.home e).store = some true then c.modHbmc e (fun x => { x with lateLines := x.lateLines ++ [l] })
  else (decodeLine e l (c.linePpa e l) w 2 c).setLmeta e l { (decodeLine e l (c.linePpa e l) w 2 c).lmeta e l with scrubSeen := false }

theorem lineMoved_pageMap (e l : Nat) (w : Codeword) (c : Core) : (lineMoved e l w c).pageMap e = c.pageMap e := by
  unfold lineMoved
  split
  · exact modHbmc_pageMap _ e (by intro; rfl) e
  · exact decodeLine_pageMap ..

theorem fxRetireCopy_moving {e : Nat} {d : Dev} {page j i : Nat} (w : Codeword) (hm : (d.core.hbmc e).moving = some (page, j, i))
    (hw : d.core.works 6 e = true) (hb : lineBlocked (d.core.home e) (page * 512 + i) = false) :
    let c := lineMoved e (page * 512 + i) w d.core
    fxRetireCopy e w d =
      if i < 511 then { d with core := c.modHbmc e (fun x => { x with moving := some (page, j, i + 1) }) }
      else { perm := { d.perm with flash := retireFlash e page j (c.hbmc e) d.perm.flash }, core := retireDone e page j (c.hbmc e).movingCh c } := by
  have runs : ¬((!d.core.works 6 e) = true ∨ lineBlocked (d.core.home e) (page * 512 + i) = true) := by
    rw [hw, hb]
    simp
  simp only [fxRetireCopy, hm]
  rw [if_neg runs]
  rfl

/-! ### The page retired to its spare -/

theorem countSpares_pageMap (e : Nat) (c : Core) : (countSpares e c).pageMap e = c.pageMap e := by
  have counted (n : BitVec 14) : (c.modHbmc e (fun x => { x with spareUsed := n })).pageMap e = c.pageMap e :=
    modHbmc_pageMap c e (by intro; rfl) e
  unfold countSpares
  dsimp only
  split
  · exact (raiseErlService_pageMap ..).trans ((logE_pageMap ..).trans (counted _))
  · exact counted _

theorem setMem_pageMap (m : Mem) (c : Core) (e : Nat) : ({ c with mem := m } : Core).pageMap e = c.pageMap e := rfl

theorem writeTable_pageMap (e : Nat) (c : Core) : (writeTable e c).pageMap e = c.pageMap e := by
  unfold writeTable
  exact setMem_pageMap ..

theorem retireDone_pageMap (e page j ch : Nat) (c : Core) :
    (retireDone e page j ch c).pageMap e =
      (none, 0, tput none page (some j) (c.hbmc e).retired, (c.hbmc e).badSpares ++ (tget none page (c.hbmc e).retired).toList) := by
  unfold retireDone
  dsimp only
  rw [mbDone_pageMap, countSpares_pageMap, logE_pageMap, writeTable_pageMap]
  exact congrArg Hbmc.pageMap (Core.setHbmc_same ..)

section
variable {c d : Core} {e : Nat} (h : d.pageMap e = c.pageMap e)
include h

theorem pageMap_retired : (d.hbmc e).retired = (c.hbmc e).retired := congrArg (fun x => x.2.2.1) h
end

/-- After the last line the page is retired to its spare, and no page is on the move. -/
theorem retireDone_retired (e page j ch : Nat) (c : Core) :
    ((retireDone e page j ch c).hbmc e).moving = none ∧ tget none page ((retireDone e page j ch c).hbmc e).retired = some j := by
  have map := retireDone_pageMap e page j ch c
  have moving : ((retireDone e page j ch c).hbmc e).moving = none := congrArg (fun x => x.1) map
  have retired : ((retireDone e page j ch c).hbmc e).retired = tput none page (some j) (c.hbmc e).retired := congrArg (fun x => x.2.2.1) map
  exact ⟨moving, by rw [retired, tget_tput_same]⟩

/-! ### The records in the boot flash (R315, R325) -/

theorem record_fits (r : BitVec 128) : r.toNat % 256 ^ 16 = r.toNat := Nat.mod_eq_of_lt (lt_of_lt_of_eq r.isLt (by norm_num))

theorem rdLE_record (m : Mem) (a : Nat) (r : BitVec 128) : rdLE (wrLE m a 16 r.toNat) a 16 = r.toNat := by rw [rdLE_wrLE, record_fits]

/-- The records of two spares lie apart. -/
theorem areaAddr_apart (e : Nat) {j k : Nat} (h : k ≠ j) : areaAddr e k + 16 ≤ areaAddr e j ∨ areaAddr e j + 16 ≤ areaAddr e k := by
  unfold areaAddr
  omega

section
variable (e page j : Nat) (x : Hbmc) (m : Mem)

theorem retireFlash_fresh (h : tget none page x.retired = none) :
    retireFlash e page j x m = wrLE m (areaAddr e j) 16 (retireRecord (some page)).toNat := by rw [retireFlash, h]

theorem retireFlash_again {k : Nat} (h : tget none page x.retired = some k) :
    retireFlash e page j x m =
      wrLE (wrLE m (areaAddr e k) 16 (retireRecord none).toNat) (areaAddr e j) 16 (retireRecord (some page)).toNat := by rw [retireFlash, h]

theorem retireFlash_page : rdLE (retireFlash e page j x m) (areaAddr e j) 16 = (retireRecord (some page)).toNat := by
  rw [retireFlash, rdLE_record]

/-- The spare that held the page before is marked bad (log 118). -/
theorem retireFlash_old {k : Nat} (h : tget none page x.retired = some k) (hk : k ≠ j) :
    rdLE (retireFlash e page j x m) (areaAddr e k) 16 = (retireRecord none).toNat := by
  rw [retireFlash_again e page j x m h, rdLE_wrLE_apart _ _ (areaAddr_apart e hk), rdLE_record]

theorem retireFlash_outside {a : Nat} (hj : a < areaAddr e j ∨ areaAddr e j + 16 ≤ a)
    (hk : ∀ k, tget none page x.retired = some k → a < areaAddr e k ∨ areaAddr e k + 16 ≤ a) :
    rdByte (retireFlash e page j x m) a = rdByte m a := by
  cases old : tget none page x.retired with
  | none => rw [retireFlash_fresh e page j x m old, rdByte_wrLE_ne _ _ _ _ _ hj]
  | some k => rw [retireFlash_again e page j x m old, rdByte_wrLE_ne _ _ _ _ _ hj, rdByte_wrLE_ne _ _ _ _ _ (hk k old)]
end

end Sys2Proof.Machine
end

section
/-! Requests for snapshot regions, synchronization objects, keys, lining, consent and page retirement: O33
(R94, R111, R116, R264, R314, R344, R349, R353). -/

namespace Sys2Proof.Machine
open Sys2Proof

/-- One line of a retirement's copy, from a device that behaves as the manual says (R314). -/
theorem exec_retireLineCopy {s : State} (hok : s.ok = true) {e page j i : Nat} (w : Codeword)
    (hm : (s.dev.core.hbmc e).moving = some (page, j, i)) (hw : s.dev.core.works 6 e = true)
    (hb : lineBlocked (s.dev.core.home e) (page * 512 + i) = false) :
    let c := lineMoved e (page * 512 + i) w s.dev.core
    exec (.retireLineCopy e w) s =
      if i < 511 then .next (s.withCore (c.modHbmc e (fun x => { x with moving := some (page, j, i + 1) })))
      else .next { s with dev := { perm := { s.dev.perm with flash := retireFlash e page j (c.hbmc e) s.dev.perm.flash },
                                   core := retireDone e page j (c.hbmc e).movingCh c } } := by
  have run : exec (.retireLineCopy e w) s = .next { s with dev := fxRetireCopy e w s.dev } :=
    act_next (by simpa [State.ok] using hok) _
  rw [run, fxRetireCopy_moving w hm hw hb]
  dsimp only
  split <;> rfl

/-- Settles O33: each request by the equation of its rules once it is taken, the copy of a page line by line. -/
theorem regionObjectKeyAndPageRequests : Obligations.RegionObjectKeyAndPageRequests := by
  unfold Obligations.RegionObjectKeyAndPageRequests
  intro s ch hok c p d0 d1 r
  have next (f : Core → Core) : actCore s f = .next (s.withCore (f c)) := actCore_of_ok hok f
  have done {m : Mbx} {x : Mbx} (h : m = mbAnswer x 0) : m.st = .done ∧ m.result = 0 := by rw [h]; exact ⟨rfl, rfl⟩
  refine ⟨?create, ?destroy, ?sync, ?rotate, ?line, ?consent, ?retire, ?copy⟩
  case create =>
    intro h h0 h1 ho
    refine ⟨fun hc => answered_of_core hok h (fxSnapCreate_created h h0 h1 ho hc), fun hc hv hl => ?_⟩
    exact ⟨_, next _, s.keeps_withCore _, fxSnapCreate_blank h h0 h1 ho hc hv hl⟩
  case destroy =>
    intro h h0 h1 ho hc hd hk hf
    obtain ⟨region, opens, answer⟩ := fxSnapDestroy_blank h h0 h1 ho hc hd hk hf
    exact ⟨_, next _, s.keeps_withCore _, region, opens, done answer⟩
  case sync =>
    intro h h0 hr hm o produced consumed y ho hx hl
    obtain ⟨set, others, answer⟩ := fxSyncSet_sets h h0 hr hm ho hx hl
    exact ⟨_, next _, s.keeps_withCore _, set, others, done answer⟩
  case rotate =>
    intro h hb
    refine ⟨fun hs => answered_of_core hok h ((fxRotate_free h hb).trans (if_pos hs)), fun hs => ?_⟩
    exact ⟨_, next _, s.keeps_withCore _, _, fxRotate_starts h hb hs, rfl, rfl, rfl, rfl⟩
  case line =>
    intro h
    refine ⟨fun hb => answered_of_core hok h (fxPtnLine_busy h hb), fun hb => ?_⟩
    have serving : c.glb.restarting = false := rotUp_restarting (taken_rotUp h)
    obtain ⟨runs, fenced⟩ := startAction_lining (c := c.running ch) (actionOf_of_ptnBusy hb) serving (some ch)
    rw [← fxPtnLine_free h hb] at runs fenced
    exact ⟨_, next _, s.keeps_withCore _, ⟨_, runs, rfl, rfl, rfl, rfl⟩, fenced⟩
  case consent =>
    intro h he h0
    refine ⟨fun hg => answered_of_core hok h (fxConsent_refused h he h0 hg), fun hg => ?_⟩
    obtain ⟨w, set, bits⟩ := fxConsent_sets h he h0 hg
    have high : ¬ch < 16 := Nat.not_lt.2 (chanOk_partition (taken_chans h))
    exact ⟨w, ⟨_, next _, s.keeps_withCore _, set, fun low => absurd low high⟩, bits⟩
  case retire =>
    intro h h1 ppa e
    have hp : retirePpa c ch = ppa := rfl
    refine ⟨fun ha => answered_of_core hok h (fxPageRetire_unaligned h h1 hp ha), fun j ha hn h6 h7 hm hj => ?_⟩
    exact (next _).trans (congrArg (fun d => Host.Outcome.next (s.withCore d)) (fxPageRetire_moves h h1 hp (Prod.eta _).symm ha hn h6 h7 hm hj))
  case copy =>
    intro e w page j i hm hw hb
    have run := exec_retireLineCopy hok w hm hw hb
    dsimp only at run
    have retired := pageMap_retired (lineMoved_pageMap e (page * 512 + i) w c)
    generalize lineMoved e (page * 512 + i) w s.dev.core = x at run retired
    by_cases hi : i < 511
    · refine ⟨_, run.trans (if_pos hi), rfl, fun _ => ⟨?_, rfl⟩, fun last => absurd hi (Nat.not_lt.2 last)⟩
      exact congrArg Hbmc.moving (Core.setHbmc_same ..)
    · obtain ⟨still, spare⟩ := retireDone_retired e page j (x.hbmc e).movingCh x
      refine ⟨_, run.trans (if_neg hi), rfl, fun more => absurd more hi, fun _ =>
        ⟨still, spare, rfl, ?_, fun k hk hne => ?_, fun a hj hold => ?_⟩⟩
      · exact retireFlash_page ..
      · exact retireFlash_old e page j _ _ (by rw [retired, hk]) hne
      · exact retireFlash_outside e page j _ _ hj (fun k hk => hold k (by rw [← retired, hk]))

end Sys2Proof.Machine
end

section
/-! SUPPORT. Packets that reach a cluster, gating and waking, and the deadlock detector: O38, O40
(R154, R155, R250, R251, R253, R254, R261–R263, R490, R491). -/

namespace Sys2Proof.Machine
open Sys2Proof

/-! ### Gating and waking (R154, R155, R490, R491) -/

section
variable {t : Nat} {c : Core}

/-- The idle count of a cluster that meets R155 gates it. -/
theorem fxAutoGate_idle (hf : frozenChip c = false) (hp : (c.tile t).power = .active) (ha : (c.tile t).pwr.getLsbD 16 = true)
    (hh : (c.tile t).seq.st = .halted) (hw : (c.tile t).work = none) (hq : tileQuiet (c.tile t) = true) (hi : (c.tile t).inbox = []) :
    fxAutoGate t c = c.modTile t (fun y => { y with power := .gated }) := by
  unfold fxAutoGate
  exact if_pos (by simp [hf, hp, ha, hh, hw, hq, hi])

theorem fxClusterWakeDone_asleep (hf : frozenChip c = false) (hw : (c.tile t).waking = true) (hp : (c.tile t).power ≠ .off)
    (hi : (c.tile t).inbox = []) :
    fxClusterWakeDone t c = c.modTile t (fun y => { y with power := .active, waking := false }) := by
  unfold fxClusterWakeDone
  dsimp only
  rw [if_neg (by simp [hf, hw]), decide_eq_false hp, if_neg Bool.false_ne_true, if_neg Bool.false_ne_true, hi, List.foldl_nil, ← hi]
  rfl

/-- From Off the tile has undefined contents and the unit is Held. -/
theorem fxClusterWakeDone_fromOff (hf : frozenChip c = false) (hw : (c.tile t).waking = true) (hp : (c.tile t).power = .off)
    (hi : (c.tile t).inbox = []) :
    fxClusterWakeDone t c =
      (c.setTile t { tileFromOff t (c.tile t) with power := .active, waking := false, inbox := [] }).modUst 4 t .held := by
  unfold fxClusterWakeDone
  dsimp only
  rw [if_neg (by simp [hf, hw]), decide_eq_true hp, if_pos rfl, if_pos rfl, hi, List.foldl_nil]
  rfl

theorem Core.modUst_same (c : Core) (cls i : Nat) (st : UnitSt) : (c.modUst cls i st).ust cls i = st := by
  simp [Core.modUst, Core.ust, Core.setUnit, Core.unit]

/-- A wait that outlasts SYNC_GATE_WAIT gates a quiet cluster (R263). -/
theorem fxLongWaitGate_quiet (hf : frozenChip c = false) (hp : (c.tile t).power = .active) (hs : (c.tile t).seq.st = .waiting)
    (hg : c.gateWait.getLsbD 16 = true) (hq : tileQuiet (c.tile t) = true) :
    fxLongWaitGate t c = c.modTile t (fun y => { y with power := .gated }) := by
  unfold fxLongWaitGate
  exact if_pos (by simp [hf, hp, hs, hg, hq])

/-! ### Packets at the tile (R155, R503, R504) -/

variable {k : InPkt} {now : Core → Core}

theorem tilePacket_active (hf : frozenChip c = false) (ht : k.passes = true ∨ tileTakes c t = true) (hp : (c.tile t).power = .active) :
    tilePacket t k now c = now c := by
  unfold tilePacket
  rcases ht with h | h <;> simp [hf, hp, h]

theorem tilePacket_asleep (hf : frozenChip c = false) (ht : tileTakes c t = true) (hp : (c.tile t).power = .gated ∨ (c.tile t).power = .parked) :
    tilePacket t k now c = c.modTile t (fun y => { y with inbox := y.inbox ++ [k], waking := true }) := by
  have sleeps : (c.tile t).power ≠ .active ∧ (c.tile t).power ≠ .off := by rcases hp with h | h <;> simp [h]
  unfold tilePacket
  dsimp only
  rw [if_neg (by simp [hf]), if_neg (by simp [ht])]
  split
  · next h => exact absurd h sleeps.1
  · next h => exact absurd h sleeps.2
  · rfl

end

/-! ### ACK, WAKE and VALUE (R250, R251, R253–R255) -/

section
variable {t : Nat} {c : Core}

theorem ackNow_clean (b : Nat) :
    ackNow t b 0 false c = c.modTile t (fun y => { y with seq := { y.seq with unacked := y.seq.unacked.erase b } }) := rfl

/-- A fault code makes SYNC_FAULT pending; with `signal` the answer frees no slot. -/
theorem ackNow_fault (b : Nat) {code : BitVec 4} (hc : code ≠ 0) (hn : (c.tile t).seq.pendSync = none) (signal : Bool) :
    ackNow t b code signal c = c.setTile t { c.tile t with seq := { (c.tile t).seq with
      unacked := if signal then (c.tile t).seq.unacked else (c.tile t).seq.unacked.erase b
      pendSync := some (BitVec.ofNat 64 (b % 4096 + code.toNat * 65536)) } } := by
  unfold ackNow
  dsimp only
  rw [if_neg hc]
  cases signal <;> simp [hn]

theorem wakeNow_other {b : Nat} (h : (c.tile t).seq.st ≠ .waiting ∨ (c.tile t).seq.wait.map (fun w => w.1) ≠ some b) : wakeNow t b c = c :=
  if_neg (fun e => h.elim (· e.1) (· e.2))

theorem wakeNow_awaited {b : Nat} (hs : (c.tile t).seq.st = .waiting) (hw : (c.tile t).seq.wait.map (fun w => w.1) = some b) :
    wakeNow t b c = c.modTile t (fun y => { y with seq := { y.seq with st := .running, wait := none, pc := y.seq.pc + 8 } }) :=
  if_pos ⟨hs, hw⟩

theorem valueNow_read (v : BitVec 64) {d : Nat} (h : (c.tile t).seq.sread = some d) :
    valueNow t v c = c.modTile t (fun y => { y with seq := { wrX y.seq (BitVec.ofNat 5 d) v with sread := none } }) := by
  unfold valueNow
  simp only [h]
  rfl

/-- What VALUE leaves in the scalar registers. -/
theorem rdX_value (q : Seq) (v : BitVec 64) {d : Nat} (hd : d < 32) (k : BitVec 5) :
    rdX { wrX q (BitVec.ofNat 5 d) v with sread := none } k = if k.toNat = d ∧ d ≠ 0 then v else rdX q k := by
  have named : k = BitVec.ofNat 5 d ↔ k.toNat = d := by
    rw [← BitVec.toNat_inj, BitVec.toNat_ofNat, Nat.mod_eq_of_lt hd]
  have nonzero : BitVec.ofNat 5 d ≠ 0 ↔ d ≠ 0 := by
    rw [ne_eq, ← BitVec.toNat_inj, BitVec.toNat_ofNat, Nat.mod_eq_of_lt hd]; rfl
  have read := rdX_wrX q (BitVec.ofNat 5 d) k v
  simp only [named, nonzero] at read
  exact read

/-! ### The deadlock detector (R262, R263) -/

/-- The waits of a partition's clusters. -/
def ptnWaits (c : Core) (p : Nat) : List (Nat × Nat × Nat) :=
  (ptnTiles c p).filterMap (fun t => if (c.tile t).seq.st = .waiting then (c.tile t).seq.wait else none)

/-- The lowest object of some waits, of objects below 4096. -/
def lowestObject (ws : List (Nat × Nat × Nat)) : Nat := ws.foldl (fun a w => min a w.1) 4095

theorem foldl_min_le (ws : List (Nat × Nat × Nat)) (a : Nat) :
    ws.foldl (fun a w => min a w.1) a ≤ a ∧ ∀ w ∈ ws, ws.foldl (fun a w => min a w.1) a ≤ w.1 := by
  induction ws generalizing a with
  | nil => simp
  | cons v ws ih =>
    obtain ⟨start, rest⟩ := ih (min a v.1)
    rw [List.foldl_cons]
    refine ⟨start.trans (min_le_left ..), fun w hw => ?_⟩
    rcases List.mem_cons.1 hw with rfl | hw
    · exact start.trans (min_le_right ..)
    · exact rest w hw

theorem lowestObject_le {ws : List (Nat × Nat × Nat)} {w : Nat × Nat × Nat} (h : w ∈ ws) : lowestObject ws ≤ w.1 := (foldl_min_le ws 4095).2 w h

theorem mem_ptnWaits {p : Nat} {w : Nat × Nat × Nat} (ht : t ∈ ptnTiles c p) (hs : (c.tile t).seq.st = .waiting)
    (hw : (c.tile t).seq.wait = some w) : w ∈ ptnWaits c p := List.mem_filterMap.2 ⟨t, ht, by rw [if_pos hs, hw]⟩

/-- The partition as a first window of a blocked episode leaves it; else that window touches the log and the fault events alone. -/
theorem fxDeadlockWindow_reports {p : Nat} (he : (c.ptn p).dlkCfg.getLsbD 16 = true) (hb : ptnBlocked c p = true)
    (hn : (c.ptn p).blocked = false) :
    (fxDeadlockWindow p c).ptn p = { c.ptn p with
      blocked := true, dlkObject := lowestObject (ptnWaits c p), dlkWaiters := (ptnWaits c p).length, dlkCount := (c.ptn p).dlkCount + 1 } := by
  unfold fxDeadlockWindow
  simp only [he, hb, hn, Bool.not_false, Bool.and_self, if_true]
  refine (congrArg (tget {} p) (rest_ptns ((faultEvent_rest ..).trans (logE_rest ..)))).trans ?_
  exact Core.setPtn_same ..

end

/-! ### The statements -/

/-- Settles O40: each command by its equation above. -/
theorem gatingAndWaking : Obligations.GatingAndWaking := by
  unfold Obligations.GatingAndWaking
  intro s t hok hf c x
  have next (f : Core → Core) : actCore s f = .next (s.withCore (f c)) := actCore_of_ok hok f
  refine ⟨fun hp ha hh hw hq hi => ?gate, fun hw hp hi => ?asleep, fun hw hp hi => ?off⟩
  case gate => exact (next _).trans (by rw [fxAutoGate_idle hf hp ha hh hw hq hi])
  case asleep =>
    have awake : x.power ≠ .off := by rcases hp with h | h <;> rw [h] <;> decide
    exact (next _).trans (by rw [fxClusterWakeDone_asleep hf hw awake hi])
  case off =>
    refine ⟨_, next _, s.keeps_withCore _, ?_⟩
    rw [State.withCore_core, fxClusterWakeDone_fromOff hf hw hp hi]
    have tile := Core.setTile_same c t { tileFromOff t (c.tile t) with power := .active, waking := false, inbox := [] }
    exact ⟨congrArg Tile.power tile, congrArg Tile.waking tile, Core.modUst_same .., congrArg (fun y => y.seq.st) tile, congrArg Tile.chans tile⟩

/-- Settles O38: each answer by its equation at an Active cluster, the window by what it makes of its partition. -/
theorem syncAnswersAtTheTile : Obligations.SyncAnswersAtTheTile := by
  unfold Obligations.SyncAnswersAtTheTile
  intro s t hok c x
  have next (f : Core → Core) : actCore s f = .next (s.withCore (f c)) := actCore_of_ok hok f
  refine ⟨fun hf ht hp => ?active, fun hf ht hp b => ?asleep, fun hf hp hs hg hq => ?gate, fun p he hb hn => ?window⟩
  case active =>
    have taken (k : InPkt) (now : Core → Core) : actCore s (tilePacket t k now) = .next (s.withCore (now c)) :=
      (next _).trans (by rw [tilePacket_active hf (.inr ht) hp])
    refine ⟨fun b => taken _ _, fun b code hc hn => ?fault, fun b code hc hn => ?signal, fun b h => ?other, fun b hs hw => ?wake, fun v d h hd => ?value⟩
    case fault =>
      refine ⟨_, taken _ _, s.keeps_withCore _, ?_⟩
      rw [State.withCore_core, ackNow_fault b hc hn]
      exact Core.setTile_same ..
    case signal => exact (taken _ _).trans (by rw [ackNow_fault b hc hn]; rfl)
    case other => exact (taken _ _).trans (by rw [wakeNow_other h]; rfl)
    case wake => exact (taken _ _).trans (by rw [wakeNow_awaited hs hw])
    case value =>
      refine ⟨_, taken _ _, s.keeps_withCore _, ?_⟩
      rw [State.withCore_core, valueNow_read v h, Core.modTile_eq, Core.setTile_same]
      exact ⟨rfl, rdX_value _ v hd⟩
  case asleep => exact (next _).trans (by rw [fxWake, tilePacket_asleep hf ht hp])
  case gate => exact (next _).trans (by rw [fxLongWaitGate_quiet hf hp hs hg hq])
  case window =>
    have report := fxDeadlockWindow_reports he hb hn
    refine ⟨_, next _, s.keeps_withCore _, congrArg Ptn.blocked report, congrArg Ptn.dlkCount report, fun k hk w hs hw => ?_⟩
    rw [State.withCore_core, report]
    exact lowestObject_le (mem_ptnWaits hk hs hw)

end Sys2Proof.Machine
end

section
/-! SUPPORT. Kernel instructions that meet no obstacle, by what their own rules make of them; the class 8 instructions: O16 (R156, R181, R187). -/

namespace Sys2Proof.Machine
open Sys2Proof

/-! ### An instruction that meets no obstacle -/

section
variable {s : State} {r : YkRow} {t : Nat} {f : YkF} {body : Core → YkRes} (hok : s.ok = true) (h : ykReady s.dev.core r t f = true)
include hok h

/-- Its effect on its tile, and the next instruction, when it is none of the vector unit. -/
theorem ykStep_done {g : Tile → Tile} (hv : ofVecUnit r = false) (hb : body s.dev.core = .go (s.dev.core.modTile t g)) :
    actCore s (ykStep r t f body) = .next (ykDone s t g) := by
  rw [actCore_ykStep hok, ykStep_go h hb, vecIssue_other hv, Core.modTile_modTile]
  rfl

theorem ykStep_stays {d : Core} (hb : body s.dev.core = .stay d) : actCore s (ykStep r t f body) = .next (s.withCore d) := by
  rw [actCore_ykStep hok, ykStep_stay h hb]

theorem ykStep_traps {cause : Nat} {info : BitVec 64} (hb : body s.dev.core = .trap cause info false) :
    actCore s (ykStep r t f body) = .next (trapState s t cause info (s.dev.core.tile t).seq.pc) := by
  rw [actCore_ykStep hok, ykStep_trap h hb]
  rfl

/-- An effect of another form on the core, and the next instruction. -/
theorem ykStep_goes {d : Core} (hv : ofVecUnit r = false) (hb : body s.dev.core = .go d) : actCore s (ykStep r t f body) =
    .next (s.withCore (d.modTile t (fun y => { y with seq := { y.seq with pc := (s.dev.core.tile t).seq.pc + 8 } }))) := by
  rw [actCore_ykStep hok, ykStep_go h hb, vecIssue_other hv]
end

/-! ### Poison of a range (R304) -/

theorem mem_wordsOf {a n w : Nat} : w ∈ wordsOf a n ↔ n ≠ 0 ∧ a / 64 ≤ w ∧ w ≤ (a + n - 1) / 64 := by
  unfold wordsOf
  split
  · next h => simp [h]
  · next h =>
    have order : a / 64 ≤ (a + n - 1) / 64 := Nat.div_le_div_right (by omega)
    simp only [List.mem_map, List.mem_range]
    constructor
    · rintro ⟨i, hi, rfl⟩
      omega
    · rintro ⟨-, low, high⟩
      exact ⟨w - a / 64, by omega, by omega⟩

theorem poisonIn_clean {x : Tile} {a n : Nat} (h : ∀ w, a / 64 ≤ w → w ≤ (a + n - 1) / 64 → w ∉ x.lsPoison) : poisonIn x a n = [] := by
  refine List.filter_eq_nil_iff.2 fun w hw => ?_
  obtain ⟨-, low, high⟩ := mem_wordsOf.1 hw
  simpa using h w low high

/-! ### Channels (R156, R181) -/

/-- What a DMAWAIT waits for, in numbers (R181). -/
theorem dmaWaitMet_iff (x : Tile) (k : Nat) (v : BitVec 64) : dmaWaitMet x k (v.setWidth 32) = true ↔
    (chanOf x k).halted = true ∨ ((chanOf x k).done.toNat + 2 ^ 32 - v.toNat % 2 ^ 32) % 2 ^ 32 < 2 ^ 31 := by
  have count (d : BitVec 32) : (d - v.setWidth 32).toNat = (d.toNat + 2 ^ 32 - v.toNat % 2 ^ 32) % 2 ^ 32 := by
    rw [BitVec.toNat_sub, BitVec.toNat_setWidth]
    congr 1
    omega
  unfold dmaWaitMet chanOf
  simp only [Bool.or_eq_true, decide_eq_true_eq, count]

/-- DMAc_STATUS in numbers: state in [1:0], ORDER wait in [2], lines in [14:8], queue length in [18:16]. -/
theorem chanStatus_toNat (x : Tile) (k : Nat) : ∃ ow ≤ 1, (chanStatus x k).toNat =
    (if (chanOf x k).halted then 2 else if (chanOf x k).quiet then 0 else 1) + 4 * ow +
      256 * ((chanOf x k).lines.length % 128) + 65536 * ((chanOf x k).queue.length % 8) := by
  have small (st ow l q : Nat) (hs : st ≤ 2) (ho : ow ≤ 1) : (BitVec.ofNat 32 (st + 4 * ow + l % 128 * 256 + q % 8 * 65536)).toNat =
      st + 4 * ow + 256 * (l % 128) + 65536 * (q % 8) := by
    rw [BitVec.toNat_ofNat]
    omega
  have state : (if (chanOf x k).halted then 2 else if (chanOf x k).quiet then 0 else 1) ≤ 2 := by split_ifs <;> decide
  unfold chanStatus
  dsimp only
  by_cases h : (nextOrdered x (chanOf x k) && (chanOf x k).run.all (fun d => d.issued) && !(chanOf x k).run.isEmpty && !(chanOf x k).halted) = true
  · exact ⟨1, le_rfl, by rw [if_pos h]; exact small _ 1 _ _ state le_rfl⟩
  · exact ⟨0, by decide, by rw [if_neg h]; exact small _ 0 _ _ state (by decide)⟩

theorem quiet_iff (ch : DmaChan) : ch.quiet = true ↔ ch.queue = [] ∧ ch.run = [] ∧ ∀ l ∈ ch.lines, l.dropped = true := by
  simp [DmaChan.quiet, and_assoc]

/-- The word that DMASTAT writes, field by field. -/
theorem statusWord (x : Tile) (k : Nat) :
    let v := (chanOf x k).done ++ chanStatus x k
    v.toNat / 2 ^ 32 = (chanOf x k).done.toNat ∧ v.toNat / 256 % 128 = (chanOf x k).lines.length % 128 ∧
      v.toNat / 65536 % 8 = (chanOf x k).queue.length % 8 ∧ v.toNat % 4 = (if (chanOf x k).halted then 2 else
        if (chanOf x k).queue = [] ∧ (chanOf x k).run = [] ∧ (∀ l ∈ (chanOf x k).lines, l.dropped = true) then 0 else 1) := by
  intro v
  obtain ⟨ow, how, low⟩ := chanStatus_toNat x k
  have whole : v.toNat = (chanOf x k).done.toNat * 2 ^ 32 + (chanStatus x k).toNat := by
    rw [BitVec.toNat_append, Nat.shiftLeft_eq, Nat.mul_comm, Nat.two_pow_add_eq_or_of_lt (chanStatus x k).isLt]
  simp only [← quiet_iff]
  have state : (if (chanOf x k).halted then 2 else if (chanOf x k).quiet then 0 else 1) ≤ 2 := by split_ifs <;> decide
  rw [whole, low]
  generalize (if (chanOf x k).halted then 2 else if (chanOf x k).quiet then 0 else 1) = st at state ⊢
  refine ⟨?_, ?_, ?_, ?_⟩ <;> omega

/-! ### The statement -/

/-- Settles O16: each instruction by what its own rules make of a channel. -/
theorem dmaInstructions : Obligations.DmaInstructions := by
  unfold Obligations.DmaInstructions
  intro s t f hok x k ch a past
  have met : dmaWaitMet x k ((rdX x.seq f.a).setWidth 32) = true ↔ past := dmaWaitMet_iff x k _
  refine ⟨fun h => ⟨fun hin hq hp => ?queue, fun hin hq => ?full, fun hout => ?range⟩, fun h => ⟨fun hm => ?goes, fun hm => ?waits⟩,
    fun h => ⟨fun hh => ?halted, fun hh => ?other⟩, fun h => ?status⟩
  case queue =>
    have clean : poisonIn x a 32 = [] := poisonIn_clean hp
    refine ykStep_done hok h rfl ((if_neg (Nat.not_lt.2 hin)).trans ((if_neg (Nat.not_le.2 hq)).trans ?_))
    change poisonIn (s.dev.core.tile t) (addrA (s.dev.core.tile t).seq f) 32 = [] at clean
    simp only [clean]
    rfl
  case full =>
    exact ykStep_stays hok h ((if_neg (Nat.not_lt.2 hin)).trans (if_pos hq))
  case range => exact ykStep_traps hok h (if_pos hout)
  case goes => exact ykStep_done hok h rfl (if_pos (met.2 hm))
  case waits => exact ykStep_stays hok h (if_neg (mt met.1 hm))
  case halted => exact ykStep_done hok h rfl (congrArg YkRes.go (if_pos hh))
  case other =>
    exact ykStep_goes hok h rfl (congrArg YkRes.go (if_neg (Bool.eq_false_iff.1 hh)))
  case status => exact ⟨_, ykStep_done hok h rfl rfl, statusWord x k⟩

end Sys2Proof.Machine
end

section
/-! SUPPORT. The array: stationary tiles, tile products and accumulator rows: O15 (R124, R130, R132, R177–R180). -/

namespace Sys2Proof.Machine
open Sys2Proof

/-! ### Descriptors that pass their checks (R178) -/

/-- Rows that rise by a stride and whose last one ends in the local store lie in it. -/
theorem firstOut_none {base stride n rows : Nat} (h : base + (rows - 1) * stride + n ≤ lsSize) : firstOut base stride n rows = none := by
  refine List.findSome?_eq_none_iff.2 fun r hr => if_neg (Nat.not_lt.2 ?_)
  have row : r ≤ rows - 1 := Nat.le_sub_one_of_lt (List.mem_range.1 hr)
  have offset := Nat.mul_le_mul_right stride row
  omega

theorem tdCheck_good {d : BitVec 128} (h : tdGood d) (idx : Nat) (ok : YkRes) : tdCheck d idx ok = ok := by
  obtain ⟨fmt, rows, -, base, rowStride, scale, scaleStride, inside, scaleInside⟩ := h
  have scales : (if fmtMx (tdFmt d) then firstOut (tdScale d) (tdScaleStride d) 2 (tdRows d) else none) = none := by
    split
    · next hm => exact firstOut_none (scaleInside (of_decide_eq_true hm))
    · rfl
  unfold tdCheck
  rw [if_neg (by omega), firstOut_none inside, scales]

/-! ### What the array reads (R304, R305): nothing changes but that LS_UE may become pending -/

/-- The tile but for a pending LS_UE. -/
def OnlyLsUe (x y : Tile) : Prop := ∃ p, y = { x with seq := { x.seq with pendLs := p } }

theorem OnlyLsUe.refl (x : Tile) : OnlyLsUe x x := ⟨x.seq.pendLs, rfl⟩

theorem OnlyLsUe.trans {x y z : Tile} (h : OnlyLsUe x y) (h' : OnlyLsUe y z) : OnlyLsUe x z := by
  obtain ⟨p, rfl⟩ := h
  obtain ⟨q, rfl⟩ := h'
  exact ⟨q, rfl⟩

theorem OnlyLsUe.unitRead (c : Core) (x : Tile) (a n : Nat) : OnlyLsUe x (unitRead c x a n).2.1 := by
  unfold Machine.unitRead
  split
  · exact .refl x
  · dsimp only
    split
    · exact ⟨_, rfl⟩
    · exact .refl x

theorem OnlyLsUe.tdRowRead (c : Core) (x : Tile) (d : BitVec 128) (k : Nat) : OnlyLsUe x (tdRowRead c x d k).2.1 := by
  unfold Machine.tdRowRead
  dsimp only
  split
  · exact .trans (.unitRead ..) (.unitRead ..)
  · exact .unitRead ..

theorem OnlyLsUe.tdReadAll (c : Core) (d : BitVec 128) (n k : Nat) (x : Tile) : OnlyLsUe x (tdReadAll c d n k x).2.1 := by
  induction n generalizing k x with
  | zero => exact .refl x
  | succ n ih => exact .trans (.tdRowRead ..) (ih ..)

theorem OnlyLsUe.kept {x y : Tile} (h : OnlyLsUe x y) : y.vec = x.vec ∧ y.ls = x.ls ∧ y.seq.pc = x.seq.pc := by
  obtain ⟨p, rfl⟩ := h
  exact ⟨rfl, rfl, rfl⟩

/-- A row of an operand depends on the bytes of the local store alone. -/
theorem tdRow_congr {x y : Tile} (h : y.ls = x.ls) (d : BitVec 128) (r : Nat) : tdRow y d r = tdRow x d r := by
  unfold tdRow
  rw [h]

/-- A row of a good descriptor holds the bytes of the local store (R124, R160). -/
theorem tdRow_bytes (x : Tile) (d : BitVec 128) (r : Nat) :
    (tdRow x d r).1.toNat = rdLE x.ls (tdBase d + r * tdRowStride d) (rowBytes (tdFmt d)) ∧
    (tdFmt d < 5 → (tdRow x d r).2.toNat = rdLE x.ls (tdScale d + r * tdScaleStride d) 2) := by
  have width : rowBytes (tdFmt d) ≤ 128 := by
    unfold rowBytes fmtBits
    split_ifs <;> decide
  have elements := (rdLE_lt x.ls (tdBase d + r * tdRowStride d) (rowBytes (tdFmt d))).trans_le (Nat.pow_le_pow_right (by decide : 0 < 256) width)
  have scale := rdLE_lt x.ls (tdScale d + r * tdScaleStride d) 2
  refine ⟨?_, fun h => ?_⟩
  · rw [tdRow, BitVec.toNat_ofNat, Nat.mod_eq_of_lt (elements.trans_eq (pow_mul 2 8 128).symm)]
  · rw [tdRow, fmtMx, decide_eq_true h, if_pos rfl, BitVec.toNat_ofNat, Nat.mod_eq_of_lt (scale.trans_eq (pow_mul 2 8 2).symm)]

/-! ### TLOAD (R179) -/

/-- TLOAD at the array: the shadow tile holds the columns of the descriptor; beside it LS_UE may be pending. -/
theorem fxTload_shadow (t : Nat) (d : BitVec 128) (shape : Nat) (c : Core) : ∃ st, ((fxTload t d shape c).tile t).vec = { (c.tile t).vec with shadow := some st } ∧
    st.fmt = tdFmt d ∧ st.shape = shape ∧ st.cols = (List.range (tdRows d)).map (tdRow (c.tile t) d) := by
  obtain ⟨vec, ls, -⟩ := (OnlyLsUe.tdReadAll c d (tdRows d) 0 (c.tile t)).kept
  unfold fxTload
  dsimp only
  rw [tile_of_rest (countEvent_rest ..), Core.setTile_same, vec]
  refine ⟨_, rfl, rfl, rfl, List.map_congr_left fun r _ => tdRow_congr ls d r⟩

/-! ### TMUL (R130, R132, R179, R180) -/

/-- Accumulator row `old` after the product with row `r` of A. -/
def rowProduct (st : StatTile) (d : BitVec 128) (accCol : Nat) (zero : Bool) (x : Tile) (r : Nat) (old : VReg) : VReg :=
  mkVec (fun j =>
    if accCol ≤ j ∧ j < accCol + st.cols.length then
      let term := tileTerm (tdFmt d) st.fmt (tdRow x d r) (st.cols.getD (j - accCol) (0, 0))
      if zero then term else (fpAdd (lane old j) term).1
    else lane old j)

theorem rdAcc_wrAccP (u : Vec) {b r bank row : Nat} (v : VReg) (p : Bool) (hr : r < 256) (hrow : row < 256) :
    rdAcc (wrAccP u bank row v p) b r = if b = bank ∧ r = row then v else rdAcc u b r := by
  have key : b * 256 + r = bank * 256 + row ↔ b = bank ∧ r = row := by omega
  have read := tget_tput 0 (b * 256 + r) (bank * 256 + row) v u.acc
  simp only [key] at read
  exact read

theorem mem_accPoison_wrAccP (u : Vec) {b r bank row : Nat} (v : VReg) (p : Bool) (hr : r < 256) (hrow : row < 256) :
    b * 256 + r ∈ (wrAccP u bank row v p).accPoison ↔
      ¬(b = bank ∧ r = row) ∧ b * 256 + r ∈ u.accPoison ∨ (b = bank ∧ r = row) ∧ p = true := by
  have key : b * 256 + r = bank * 256 + row ↔ b = bank ∧ r = row := by omega
  exact (mem_setIn ..).trans (by rw [ne_eq, key])

/-- A vector unit but for its accumulator rows and their poison. -/
def AccOf (u w : Vec) : Prop := w = { u with acc := w.acc, accPoison := w.accPoison }

theorem AccOf.refl (u : Vec) : AccOf u u := rfl

theorem AccOf.trans {u w z : Vec} (h : AccOf u w) (h' : AccOf w z) : AccOf u z := by
  unfold AccOf at h h' ⊢
  exact h'.trans (by rw [h])

theorem AccOf.wrAccP (u : Vec) (b row : Nat) (v : VReg) (p : Bool) : AccOf u (wrAccP u b row v p) := rfl

theorem AccOf.kept {u w : Vec} (h : AccOf u w) : w.v = u.v ∧ w.shadow = u.shadow ∧ w.active = u.active := by
  rw [h]
  exact ⟨rfl, rfl, rfl⟩

/-- A tile but for accumulator rows, their poison and a pending LS_UE. -/
structure AccOnly (x y : Tile) : Prop where
  vec : AccOf x.vec y.vec
  ls : y.ls = x.ls
  pc : y.seq.pc = x.seq.pc

theorem AccOnly.refl (x : Tile) : AccOnly x x := ⟨.refl _, rfl, rfl⟩

theorem AccOnly.trans {x y z : Tile} (h : AccOnly x y) (h' : AccOnly y z) : AccOnly x z :=
  ⟨h.vec.trans h'.vec, h'.ls.trans h.ls, h'.pc.trans h.pc⟩

section
variable (c : Core) (st : StatTile) (bank : Nat) (d : BitVec 128) (accRow accCol : Nat) (zero : Bool)

/-- One row of a product, by the tile that its reads leave. -/
theorem tmulRow_tile (r : Nat) (x : Tile) :
    let y := (tdRowRead c x d r).2.1
    ∃ p, (tmulRow c st bank d accRow accCol zero r x).1 =
      { y with vec := wrAccP y.vec bank (accRow + r) (rowProduct st d accCol zero y r (rdAcc y.vec bank (accRow + r))) p } := ⟨_, rfl⟩

/-- One row of a product. -/
theorem tmulRow_acc (r : Nat) (x : Tile) :
    AccOnly x (tmulRow c st bank d accRow accCol zero r x).1 ∧ ∃ p, (tmulRow c st bank d accRow accCol zero r x).1.vec =
      wrAccP x.vec bank (accRow + r) (rowProduct st d accCol zero x r (rdAcc x.vec bank (accRow + r))) p := by
  obtain ⟨vec, ls, pc⟩ := (OnlyLsUe.tdRowRead c x d r).kept
  obtain ⟨p, tile⟩ := tmulRow_tile c st bank d accRow accCol zero r x
  have product (old : VReg) : rowProduct st d accCol zero (tdRowRead c x d r).2.1 r old = rowProduct st d accCol zero x r old := by
    simp only [rowProduct, tdRow_congr ls]
  rw [vec, product] at tile
  rw [tile]
  exact ⟨⟨.wrAccP .., ls, pc⟩, p, rfl⟩

/-- The rows of a product: each one's accumulator row, and no other. -/
theorem tmulRows_acc (k r : Nat) (x : Tile) (h : accRow + r + k ≤ 256) :
    AccOnly x (tmulRows c st bank d accRow accCol zero k r x).1 ∧
    ∀ b j, j < 256 → rdAcc (tmulRows c st bank d accRow accCol zero k r x).1.vec b j = if b = bank ∧ accRow + r ≤ j ∧ j < accRow + r + k then
      rowProduct st d accCol zero x (j - accRow) (rdAcc x.vec b j) else rdAcc x.vec b j := by
  induction k generalizing r x with
  | zero => exact ⟨.refl x, fun b j _ => (if_neg (by omega)).symm⟩
  | succ k ih =>
    obtain ⟨only, p, written⟩ := tmulRow_acc c st bank d accRow accCol zero r x
    obtain ⟨rest, rows⟩ := ih (r + 1) (tmulRow c st bank d accRow accCol zero r x).1 (by omega)
    refine ⟨only.trans rest, fun b j hj => (rows b j hj).trans ?_⟩
    have product (old : VReg) : rowProduct st d accCol zero (tmulRow c st bank d accRow accCol zero r x).1 (j - accRow) old =
        rowProduct st d accCol zero x (j - accRow) old := by
      simp only [rowProduct, tdRow_congr only.ls]
    rw [product, written, rdAcc_wrAccP x.vec _ p hj (by omega)]
    by_cases here : b = bank ∧ j = accRow + r
    · obtain ⟨rfl, rfl⟩ := here
      rw [if_neg (by omega), if_pos ⟨rfl, rfl⟩, if_pos (by omega), Nat.add_sub_cancel_left]
    · rw [if_neg here]
      exact if_congr (by omega) rfl rfl
end

theorem lane_rowProduct (st : StatTile) (d : BitVec 128) (accCol : Nat) (zero : Bool) (x : Tile) (r : Nat) (old : VReg) {j : Nat} (h : j < 64) :
    lane (rowProduct st d accCol zero x r old) j =
      let term := tileTerm (tdFmt d) st.fmt (tdRow x d r) (st.cols.getD (j - accCol) (0, 0))
      if accCol ≤ j ∧ j < accCol + st.cols.length then (if zero then term else (fpAdd (lane old j) term).1) else lane old j :=
  lane_mkVec _ j h

/-- The tile that a TMUL takes becomes, or is, the active one (R179). -/
def takeTile (imm : BitVec 32) (x : Tile) : Tile :=
  if imm.getLsbD 16 then { x with vec := { x.vec with active := x.vec.shadow, shadow := none } } else x

theorem takeTile_tiles (imm : BitVec 32) (x : Tile) :
    (takeTile imm x).vec.active = (if imm.getLsbD 16 then x.vec.shadow else x.vec.active) ∧
    (takeTile imm x).vec.shadow = (if imm.getLsbD 16 then none else x.vec.shadow) := by
  unfold takeTile
  split <;> exact ⟨rfl, rfl⟩

theorem takeTile_kept (imm : BitVec 32) (x : Tile) :
    (takeTile imm x).vec.v = x.vec.v ∧ (takeTile imm x).vec.acc = x.vec.acc ∧ (takeTile imm x).ls = x.ls := by
  unfold takeTile
  split <;> exact ⟨rfl, rfl, rfl⟩

/-- A TMUL at the array whose tile is `st`: its rows, and else only log and counters. -/
theorem fxTmul_rows {t bank : Nat} {d : BitVec 128} {imm : BitVec 32} {c : Core} {st : StatTile}
    (h : (takeTile imm (c.tile t)).vec.active = some st) :
    (fxTmul t bank d imm c).tile t =
      (tmulRows c st bank d (field imm 7 0) (field imm 13 8) (imm.getLsbD 17) (tdRows d) 0 (takeTile imm (c.tile t))).1 := by
  unfold takeTile at h ⊢
  unfold fxTmul
  dsimp only
  rw [h]
  exact (tile_of_rest ((countEvent_rest ..).trans (countEvent_rest ..)) t).trans (Core.setTile_same ..)

/-- With an empty queue a TMUL uses the tiles that the array holds. -/
theorem tmulTile_idle {u : Vec} (h : u.arrayQ = []) (new : Bool) :
    tmulTile u new = (if new then u.shadow else u.active).map (fun k => (k.fmt, k.shape)) := by
  cases new <;> simp [tmulTile, tilesAhead, h]

theorem tmulCheck_noTile {u : Vec} {d : BitVec 128} {imm : BitVec 32} (hd : tdGood d) (hq : u.arrayQ = [])
    (ht : (if imm.getLsbD 16 then u.shadow else u.active) = none) (idx : Nat) (ok : YkRes) :
    tmulCheck u d idx imm ok = .trap 8 0 false := by
  unfold tmulCheck
  rw [tdCheck_good hd, tmulTile_idle hq, ht]
  rfl

/-- A TMUL that passes its checks (R178–R180). -/
theorem tmulCheck_passes {u : Vec} {d : BitVec 128} {imm : BitVec 32} {st : StatTile} (hd : tdGood d) (hq : u.arrayQ = [])
    (ht : (if imm.getLsbD 16 then u.shadow else u.active) = some st) (hs : st.shape = max (fmtClass (tdFmt d)) (fmtClass st.fmt))
    (hr : field imm 7 0 + tdRows d ≤ 256) (hc : field imm 13 8 % tileN st.shape = 0) (hl : field imm 13 8 + tileN st.shape ≤ 64)
    (idx : Nat) (ok : YkRes) : tmulCheck u d idx imm ok = ok := by
  unfold tmulCheck
  rw [tdCheck_good hd, tmulTile_idle hq, ht]
  dsimp only [Option.map_some]
  rw [if_neg (not_not.2 hs), if_neg (by omega)]

/-! ### AZERO (R177, R304) -/

/-- Rows zeroed one after another. -/
theorem zeroed_rows (u : Vec) (bank : Nat) (l : List Nat) (h : ∀ r ∈ l, r < 256) :
    let w := l.foldl (fun u r => wrAccP u bank r 0 false) u
    AccOf u w ∧ (∀ b r, r < 256 → rdAcc w b r = if b = bank ∧ r ∈ l then 0 else rdAcc u b r) ∧
    (∀ b r, r < 256 → (b * 256 + r ∈ w.accPoison ↔ b * 256 + r ∈ u.accPoison ∧ ¬(b = bank ∧ r ∈ l))) := by
  induction l generalizing u with
  | nil => exact ⟨.refl u, fun _ _ _ => (if_neg (by simp)).symm, fun _ _ _ => by simp⟩
  | cons i l ih =>
    obtain ⟨only, acc, poison⟩ := ih (wrAccP u bank i 0 false) fun r hr => h r (List.mem_cons_of_mem _ hr)
    have hi := h i List.mem_cons_self
    rw [List.foldl_cons]
    refine ⟨.trans (.wrAccP ..) only, fun b r hr => ?_, fun b r hr => ?_⟩
    · rw [acc b r hr, rdAcc_wrAccP u 0 false hr hi]
      simp only [List.mem_cons]
      generalize (0 : VReg) = zero
      by_cases hb : b = bank <;> by_cases later : r ∈ l <;> simp [hb, later]
    · rw [poison b r hr, mem_accPoison_wrAccP u 0 false hr hi, List.mem_cons]
      tauto

/-- AZERO's rows, those of its range that exist. -/
theorem zeroRows_rows (u : Vec) (bank first rows : Nat) :
    let w := zeroRows u bank first rows
    AccOf u w ∧ (∀ b r, r < 256 → rdAcc w b r = if b = bank ∧ first ≤ r ∧ r < first + rows then 0 else rdAcc u b r) ∧
    (∀ b r, r < 256 → (b * 256 + r ∈ w.accPoison ↔ b * 256 + r ∈ u.accPoison ∧ ¬(b = bank ∧ first ≤ r ∧ r < first + rows))) := by
  have exist (r : Nat) (hr : r < 256) :
      r ∈ ((List.range rows).filter (fun r => decide (first + r < 256))).map (first + ·) ↔ first ≤ r ∧ r < first + rows := by
    simp only [List.mem_map, List.mem_filter, List.mem_range, decide_eq_true_eq]
    constructor
    · rintro ⟨i, ⟨hi, -⟩, rfl⟩
      omega
    · rintro ⟨low, high⟩
      exact ⟨r - first, by omega, by omega⟩
  obtain ⟨only, acc, poison⟩ := zeroed_rows u bank (((List.range rows).filter (fun r => decide (first + r < 256))).map (first + ·))
    fun r hr => by
      obtain ⟨i, hi, rfl⟩ := List.mem_map.1 hr
      exact of_decide_eq_true (List.mem_filter.1 hi).2
  rw [List.foldl_map] at only acc poison
  refine ⟨only, fun b r hr => (acc b r hr).trans ?_, fun b r hr => (poison b r hr).trans ?_⟩
  · simp only [exist r hr]
  · simp only [exist r hr]

/-! ### The statement -/

/-- Settles O15: the checks of a good descriptor pass; then TLOAD by the tile it fills, TMUL row by row, AZERO by the rows of its range. -/
theorem arrayOperations : Obligations.ArrayOperations := by
  unfold Obligations.ArrayOperations
  intro s t f hok x u n hq
  have room : ¬arrayFull u = true := by simp [arrayFull, hq]
  have idle : u.arrayQ.isEmpty = true := by simp [hq]
  refine ⟨?tload, ?tmul, ?azero⟩
  case tload =>
    intro h d shape fits
    have sel : field f.imm 1 0 = shape := by simp [field, shape, n]
    have check : (2 < field f.imm 1 0 ∨ field f.imm 1 0 < fmtClass (tdFmt d) ∨ tdRows d ≠ tileN (field f.imm 1 0)) ↔ ¬fits := by
      rw [sel]
      simp only [fits]
      omega
    refine ⟨fun hd hf hs => ?fills, fun hd hf hs => ?waits, fun hd hf => ?bad⟩
    case fills =>
      have free : (u.arrayQ.isEmpty && u.shadow.isNone) = true := by simp [hq, hs]
      have run : exec (.tload t f) s = _ := ykStep_goes hok h rfl
        ((tdCheck_good hd f.d.toNat _).trans ((if_neg (not_not.2 hf ∘ check.1)).trans ((if_neg room).trans (if_pos free))))
      obtain ⟨st, vec, fmt, shp, cols⟩ := fxTload_shadow t d (field f.imm 1 0) s.dev.core
      refine ⟨_, st, run, s.keeps_withCore _, ?_⟩
      rw [State.withCore_core, Core.modTile_eq, Core.setTile_same]
      refine ⟨vec, rfl, fmt, shp.trans sel, by rw [cols, List.length_map, List.length_range], fun j hj => ⟨tdRow x d j, ?_, tdRow_bytes x d j⟩⟩
      rw [cols, List.getElem?_map, List.getElem?_range hj]
      rfl
    case waits =>
      have taken : ¬(u.arrayQ.isEmpty && u.shadow.isNone) = true := by simpa [hq] using hs
      have run : exec (.tload t f) s = _ := ykStep_done hok h rfl
        ((tdCheck_good hd f.d.toNat _).trans ((if_neg (not_not.2 hf ∘ check.1)).trans ((if_neg room).trans (if_neg taken))))
      rw [run, sel]
      simp only [ykDone, Core.modTile_eq]
      rw [show (s.dev.core.tile t).vec.arrayQ = [] from hq]
      rfl
    case bad => exact ykStep_traps hok h ((tdCheck_good hd f.d.toNat _).trans (if_pos (check.2 hf)))
  case tmul =>
    intro h d bank row col tile
    have hrow : field f.imm 7 0 = row := by simp [field, row, n]
    have hcol : field f.imm 13 8 = col := by simp [field, col, n, Nat.shiftRight_eq_div_pow]
    refine ⟨fun hd ht => ?none, fun st hd ht hs hn hr hc hl => ?product⟩
    case none =>
      exact ykStep_traps hok h (tmulCheck_noTile hd hq ht f.a.toNat _)
    case product =>
      rw [← hrow] at hr
      rw [← hcol] at hc hl
      have run : exec (.tmul t f) s = _ := ykStep_goes hok h rfl
        ((tmulCheck_passes hd hq ht hs hr hc hl f.a.toNat _).trans ((if_neg room).trans (if_pos idle)))
      obtain ⟨active, shadow⟩ := takeTile_tiles f.imm x
      obtain ⟨v, acc, ls⟩ := takeTile_kept f.imm x
      obtain ⟨only, rows⟩ := tmulRows_acc s.dev.core st bank d (field f.imm 7 0) (field f.imm 13 8) (f.imm.getLsbD 17) (tdRows d) 0
        (takeTile f.imm x) hr
      obtain ⟨keptV, keptShadow, keptActive⟩ := only.vec.kept
      have result := fxTmul_rows (bank := bank) (d := d) (active.trans ht)
      refine ⟨_, run, s.keeps_withCore _, ?_⟩
      rw [State.withCore_core, Core.modTile_eq, Core.setTile_same]
      change (fxTmul t f.d.toNat (tget 0 f.a.toNat (s.dev.core.tile t).vec.td) f.imm s.dev.core).tile t = _ at result
      rw [result]
      have old (b r : Nat) : rdAcc (takeTile f.imm x).vec b r = rdAcc u b r := congrArg (tget 0 (b * 256 + r)) acc
      refine ⟨rfl, keptActive.trans (active.trans ht), keptV.trans v, only.ls.trans ls, keptShadow.trans shadow, fun r j hr' hj => ?_,
        fun b r hr' hout => ?_⟩
      · rw [← hrow, ← hcol, ← hn]
        refine (congrArg (lane · j) ((rows bank (field f.imm 7 0 + r) (by omega)).trans (if_pos (by omega)))).trans ?_
        rw [Nat.add_sub_cancel_left, lane_rowProduct _ _ _ _ _ _ _ hj, old]
        simp only [tdRow_congr ls]
      · exact (rows b r hr').trans ((if_neg (by rwa [hrow])).trans (old b r))
  case azero =>
    intro h first rows
    have hfirst : field f.imm 7 0 = first := by simp [field, first, n]
    have hrows : field f.imm 16 8 = rows := by simp [field, rows, n, Nat.shiftRight_eq_div_pow]
    obtain ⟨only, acc, poison⟩ := zeroRows_rows u f.d.toNat first rows
    refine ⟨zeroRows u f.d.toNat first rows, ?_, only, acc, poison⟩
    rw [← hfirst, ← hrows]
    exact ykStep_done hok h rfl ((if_neg room).trans (if_pos idle))

end Sys2Proof.Machine
end

section
/-! SUPPORT. DMA descriptors, line requests, their answers, and pushed data: O39 (R141–R152, R181, R305, R306). -/

namespace Sys2Proof.Machine
open Sys2Proof

/-! ### Channels and the local store -/

@[simp] theorem setChan_ls (x : Tile) (k : Nat) (d : DmaChan) : (setChan x k d).ls = x.ls := rfl

@[simp] theorem chanOf_setChan (x : Tile) (k : Nat) (d : DmaChan) : chanOf (setChan x k d) k = d := tget_tput_same ..

theorem foldl_marks {g : Tile → Nat → Tile} (h : ∀ x w, ∃ z, g x w = { x with lsPoison := z }) (ws : List Nat) (x : Tile) :
    ∃ z, ws.foldl g x = { x with lsPoison := z } := by
  induction ws generalizing x with
  | nil => exact ⟨x.lsPoison, rfl⟩
  | cons w ws ih =>
    obtain ⟨z, first⟩ := h x w
    obtain ⟨z', rest⟩ := ih (g x w)
    exact ⟨z', by rw [List.foldl_cons, rest, first]⟩

/-- A write of a range changes poison marks alone. -/
theorem poisonWrite_marks (x : Tile) (a n : Nat) (p : Bool) : ∃ z, poisonWrite x a n p = { x with lsPoison := z } := by
  refine foldl_marks (fun x w => ?_) (wordsOf a n) x
  split_ifs
  · exact ⟨_, rfl⟩
  · exact ⟨_, rfl⟩
  · exact ⟨x.lsPoison, rfl⟩

theorem rdByte_wrLE (m : Mem) (a n v b : Nat) :
    rdByte (wrLE m a n v) b = if a ≤ b ∧ b < a + n then BitVec.ofNat 8 (v / 256 ^ (b - a)) else rdByte m b := by
  split
  · next h =>
    have e := rdByte_wrLE_eq m a n v (b - a) (by omega)
    rwa [Nat.add_sub_cancel' h.1] at e
  · next h => exact rdByte_wrLE_ne m a n v b (by omega)

/-- Byte `off + i` of a line. -/
theorem lineByte_shift (l : Line) (off i : Nat) : lineByte l (off + i) = BitVec.ofNat 8 (l.toNat / 2 ^ (8 * off) / 256 ^ i) := by
  rw [lineByte, Nat.shiftRight_eq_div_pow, Nat.div_div_eq_div_mul, Nat.mul_add, pow_add, pow_mul 2 8 i]
  rfl

/-- Bytes written one after another. -/
theorem rdByte_bytes (bytes : List (BitVec 8)) (m : Mem) (at0 n a : Nat) :
    rdByte ((bytes.zipIdx n).foldl (fun m (b : BitVec 8 × Nat) => wrByte m (at0 + b.2) b.1) m) a =
      if at0 + n ≤ a ∧ a < at0 + n + bytes.length then bytes.getD (a - (at0 + n)) 0 else rdByte m a := by
  induction bytes generalizing m n with
  | nil => simp
  | cons b bs ih =>
    rw [List.zipIdx_cons, List.foldl_cons, ih, rdByte_wrByte, List.length_cons]
    by_cases here : a = at0 + n
    · subst here
      rw [if_neg (by omega), if_pos rfl, if_pos (by omega), Nat.sub_self]
      rfl
    · rw [if_neg here]
      refine if_ctx_congr (by omega) (fun inside => ?_) fun _ => rfl
      rw [show a - (at0 + n) = a - (at0 + (n + 1)) + 1 by omega, List.getD_cons_succ]

/-! ### Descriptors start (R141, R181) -/

/-- A descriptor at the head of its queue; one that is reached through CHAIN is read from the local store. -/
def headDesc (x : Tile) (q : DmaDesc) : DmaDesc :=
  if q.unread then
    { q with unread := false
             w := if poisonIn x q.addr 32 = [] then BitVec.ofNat 256 (rdLE x.ls q.addr 32) else 0 }
  else q

/-- The channel that has started descriptor `d`, whose queue goes on with `rest`. -/
def startedChan (ch : DmaChan) (d : DmaDesc) (rest : List DmaDesc) : DmaChan :=
  { ch with
    queue := (if dChain d.w then [{ w := 0, addr := d.addr + 32, no := ch.started + 1, row := 0, col := 0, issued := false, unread := true }] else []) ++ rest
    run := ch.run ++ [{ d with no := ch.started, row := 0, col := 0, issued := false }]
    started := ch.started + 1 }

section
variable {t k : Nat} {c : Core} {q : DmaDesc} {rest : List DmaDesc}

/-- The head of the queue, once the descriptor before it is issued whole and ORDER allows. -/
theorem fxDescriptorStart_head (hr : dmaRuns c t k = true) (hq : (chanOf (c.tile t) k).queue = q :: rest)
    (hi : (chanOf (c.tile t) k).run.all (fun e => e.issued) = true)
    (ho : dOrder (headDesc (c.tile t) q).w = true → (chanOf (c.tile t) k).run = []) :
    let d := headDesc (c.tile t) q
    fxDescriptorStart t k c = if lsSize < d.addr + 32 then dmaFault t k 0x0503 (chanOf (c.tile t) k).started d.addr c
      else (descFault c (c.tile t) d).elim (c.setTile t (setChan (c.tile t) k (startedChan (chanOf (c.tile t) k) d rest)))
        (fun code => dmaFault t k code (chanOf (c.tile t) k).started d.addr c) := by
  intro d
  have head : (if q.unread = true then
      { q with unread := false, w := if (poisonIn (c.tile t) q.addr 32).isEmpty then BitVec.ofNat 256 (rdLE (c.tile t).ls q.addr 32) else 0 }
      else q) = d := by simp only [d, headDesc, List.isEmpty_iff]
  have order : ¬((!(chanOf (c.tile t) k).run.all (fun e => e.issued)) = true ∨ dOrder d.w = true ∧ (!(chanOf (c.tile t) k).run.isEmpty) = true) := by
    rintro (h | ⟨h, h'⟩)
    · simp [hi] at h
    · simp [ho h] at h'
  unfold fxDescriptorStart
  simp only [hr, hq, head, order, Bool.not_true, Bool.false_eq_true, if_false]
  cases descFault c (c.tile t) d <;> rfl
end

/-! ### Line requests (R143, R144, R146, R150) -/

theorem advance_no (d : DmaDesc) : (advance d).no = d.no := by
  unfold advance
  dsimp only
  split_ifs <;> rfl

/-- A request goes to a home whose stack has not failed. -/
theorem sendLine_home {t k : Nat} {l : DmaLine} {c : Core} (h : (c.tile t).stackFailed.getLsbD l.home = false) (sig : Option Nat) :
    sendLine t k l sig c = c.send (.toHome l.home ⟨0, (c.tile t).logical, l.q.tag, 0, k, sig, l.q.cls⟩ l.q) := by
  unfold sendLine
  exact if_neg (by rw [h]; exact Bool.false_ne_true)

section
variable {t k : Nat} {c : Core} {d : DmaDesc}

/-- A channel with room and a descriptor of the pool to go on with: the next line, unless a write of the line is outstanding. -/
theorem fxDmaLineIssue_pool (hr : dmaRuns c t k = true) (hl : (chanOf (c.tile t) k).lines.length < 64) (ho : linesOut (c.tile t) < 512)
    (hw : ownLines (c.tile t) = false) (hd : (chanOf (c.tile t) k).run.find? (fun d => !d.issued) = some d) (hp : dPool d.w = true)
    (hs : dSig d.w = true → (advance d).issued = true → (chanOf (c.tile t) k).lines.all (fun l => l.desc != d.no) = true) :
    fxDmaLineIssue t k c = if dOp d.w = 2 ∧ (chanOf (c.tile t) k).lines.any (fun l => l.write && decide (l.pla.toNat = (nextChunk d).addr - (nextChunk d).off)) = true
      then c else poolChunk t k d (nextChunk d) c := by
  have starts : ¬((!dmaRuns c t k) = true ∨ 64 ≤ (chanOf (c.tile t) k).lines.length ∨ 512 ≤ linesOut (c.tile t)) := by
    simp [hr, hl, ho]
  have free : ¬(dSig d.w = true ∧ (advance d).issued = true ∧ (chanOf (c.tile t) k).lines.any (fun l => l.desc == d.no) = true) := by
    rintro ⟨sig, last, held⟩
    have none := hs sig last
    simp only [List.any_eq_true, List.all_eq_true, bne_iff_ne, beq_iff_eq] at held none
    obtain ⟨l, hl, e⟩ := held
    exact none l hl e
  have op : dOp d.w = 1 ∨ dOp d.w = 2 := by simpa [dPool] using hp
  unfold fxDmaLineIssue
  dsimp only
  rw [if_neg starts, if_neg (by rw [hw]; exact Bool.false_ne_true), hd]
  dsimp only
  rw [if_neg free, if_neg (c := dOp d.w = 3) (by omega), if_neg (c := dOp d.w = 4) (by omega)]

/-- The outstanding line of a chunk, whose home is `h`. -/
def poolLine (c : Core) (t k : Nat) (d : DmaDesc) (ck : Chunk) (h : Nat) : DmaLine :=
  { pla := BitVec.ofNat 40 (ck.addr - ck.off), write := decide (dOp d.w = 2), retry := false, lsAddr := ck.ls, off := ck.off, len := ck.len,
    desc := d.no, home := h, q := chunkReq (c.tile t) d.w ck false (freeTag k (chanOf (c.tile t) k).lines) }

variable {ck : Chunk}

theorem poolChunk_beyond (h : 896 ≤ ck.addr / 2 ^ 30) : poolChunk t k d ck c = dmaFault t k 0x0504 d.no d.addr c :=
  if_pos (Nat.lt_of_succ_le h)

theorem poolChunk_unmapped (h : ck.addr / 2 ^ 30 < 896) (hw : tget none (ck.addr / 2 ^ 30) (c.tile t).win = none) :
    poolChunk t k d ck c = dmaFault t k 0x0505 d.no d.addr c := by
  unfold poolChunk
  dsimp only
  rw [if_neg (by omega), hw]

/-- Clean data, or a read, with a mapped entry and a working stack: the request goes to the line's home and the descriptor advances. -/
theorem poolChunk_sends {e h : Nat} (hx : ck.addr / 2 ^ 30 < 896) (hw : (tget none (ck.addr / 2 ^ 30) (c.tile t).win).map (fun y => y.1) = some e)
    (hc : dOp d.w = 2 → poisonIn (c.tile t) ck.ls ck.len = []) (hh : (c.place (e * 2 ^ 30 + (ck.addr - ck.off) % 2 ^ 30)).1 = h)
    (hf : (c.tile t).stackFailed.getLsbD h = false) :
    poolChunk t k d ck c = (c.setTile t (setChan (c.tile t) k { replaceDesc (chanOf (c.tile t) k) (advance d) with
        lines := (chanOf (c.tile t) k).lines ++ [poolLine c t k d ck h] })).send
      (.toHome h ⟨0, (c.tile t).logical, freeTag k (chanOf (c.tile t) k).lines, 0, k, lineSig (advance d), (poolLine c t k d ck h).q.cls⟩
        (poolLine c t k d ck h).q) := by
  obtain ⟨y, entry, rfl⟩ := Option.map_eq_some_iff.1 hw
  have clean : (decide (dOp d.w = 2) && !(poisonIn (c.tile t) ck.ls ck.len).isEmpty) = false := by
    by_cases w : dOp d.w = 2
    · simp [hc w]
    · simp [w]
  unfold poolChunk
  dsimp only
  rw [if_neg (by omega), entry]
  dsimp only
  rw [clean, if_neg (by exact Bool.false_ne_true), if_neg Bool.false_ne_true, hh]
  refine (sendLine_home ?_ _).trans ?_
  · rw [Core.setTile_same]
    exact hf
  · rw [Core.setTile_same]
    rfl
end

section
variable {t k : Nat} {c : Core} {d : DmaDesc} {ck : Chunk}

/-- What a sent line leaves: the request at the home, the line among those outstanding, and the descriptor advanced. -/
theorem poolChunk_sent {e h : Nat} (hx : ck.addr / 2 ^ 30 < 896) (hw : (tget none (ck.addr / 2 ^ 30) (c.tile t).win).map (fun y => y.1) = some e)
    (hc : dOp d.w = 2 → poisonIn (c.tile t) ck.ls ck.len = []) (hh : (c.place (e * 2 ^ 30 + (ck.addr - ck.off) % 2 ^ 30)).1 = h)
    (hf : (c.tile t).stackFailed.getLsbD h = false) :
    let q := chunkReq (c.tile t) d.w ck false (freeTag k (chanOf (c.tile t) k).lines)
    let u := poolChunk t k d ck c
    u.out = c.out ++ [.toHome h ⟨0, (c.tile t).logical, freeTag k (chanOf (c.tile t) k).lines, 0, k, lineSig (advance d), q.cls⟩ q] ∧
    (u.tile t).ls = (c.tile t).ls ∧ (chanOf (u.tile t) k).queue = (chanOf (c.tile t) k).queue ∧
    (chanOf (u.tile t) k).lines.map (fun l => (l.q, l.lsAddr, l.off, l.len, l.desc, l.home, l.retry)) =
      (chanOf (c.tile t) k).lines.map (fun l => (l.q, l.lsAddr, l.off, l.len, l.desc, l.home, l.retry)) ++ [(q, ck.ls, ck.off, ck.len, d.no, h, false)] ∧
    (chanOf (u.tile t) k).run = (chanOf (c.tile t) k).run.map (fun y => if y.no = d.no then advance d else y) := by
  intro q u
  have tile : u.tile t = setChan (c.tile t) k { replaceDesc (chanOf (c.tile t) k) (advance d) with
        lines := (chanOf (c.tile t) k).lines ++ [poolLine c t k d ck h] } := by
    rw [show u = _ from poolChunk_sends hx hw hc hh hf, Core.send_get_tile, Core.setTile_same]
  rw [tile, setChan_ls, chanOf_setChan]
  refine ⟨?_, rfl, rfl, ?_, ?_⟩
  · rw [show u = _ from poolChunk_sends hx hw hc hh hf, Core.send_out]
    rfl
  · rw [List.map_append, List.map_singleton]
    rfl
  · rw [← advance_no d]
    rfl
end

/-! ### Answers to line requests (R143, R145, R151, R152, R305) -/

section
variable {t k : Nat} {c : Core}

/-- A descriptor that completes leaves lines and local store. -/
theorem descDone_keeps (d : DmaDesc) (c : Core) :
    (chanOf ((descDone t k d c).tile t) k).lines = (chanOf (c.tile t) k).lines ∧ ((descDone t k d c).tile t).ls = (c.tile t).ls := by
  unfold descDone
  dsimp only
  split_ifs <;> simp

theorem foldl_descDone_keeps (ds : List DmaDesc) (c : Core) :
    (chanOf ((ds.foldl (fun c d => descDone t k d c) c).tile t) k).lines = (chanOf (c.tile t) k).lines ∧
    ((ds.foldl (fun c d => descDone t k d c) c).tile t).ls = (c.tile t).ls := by
  induction ds generalizing c with
  | nil => exact ⟨rfl, rfl⟩
  | cons d ds ih =>
    obtain ⟨lines, ls⟩ := descDone_keeps (t := t) (k := k) d c
    obtain ⟨lines', ls'⟩ := ih (descDone t k d c)
    exact ⟨lines'.trans lines, ls'.trans ls⟩

theorem finishDescs_keeps (c : Core) :
    (chanOf ((finishDescs t k c).tile t) k).lines = (chanOf (c.tile t) k).lines ∧ ((finishDescs t k c).tile t).ls = (c.tile t).ls :=
  foldl_descDone_keeps _ c

variable {r : DmaResp} {l : DmaLine}

/-- The core once a line is no longer outstanding. -/
def lineClosed (t k : Nat) (l : DmaLine) (c : Core) : Core :=
  c.setTile t (setChan (c.tile t) k { chanOf (c.tile t) k with lines := (chanOf (c.tile t) k).lines.erase l })

/-- A marked response is counted, for the limiter too (R410). -/
def markTaken (t : Nat) (r : DmaResp) (c : Core) : Core :=
  if r.ce then countEvent 4 t 11 1 (some (c.tile t).ptn) (c.setTile t { c.tile t with marks := (c.tile t).marks + 1 }) else c

theorem markTaken_unmarked (h : r.ce = false) : markTaken t r c = c := if_neg (by rw [h]; exact Bool.false_ne_true)

theorem markTaken_tile (t : Nat) (r : DmaResp) (c : Core) : ∃ n, (markTaken t r c).tile t = { c.tile t with marks := n } := by
  unfold markTaken
  split
  · exact ⟨_, (tile_of_rest (countEvent_rest ..) t).trans (Core.setTile_same ..)⟩
  · exact ⟨(c.tile t).marks, rfl⟩

section
variable (hl : (chanOf (c.tile t) k).lines.find? (fun l => decide (l.q.tag = r.tag) && decide (l.pla = r.pla) && !l.retry) = some l)
include hl

/-- The answer to an outstanding line: a nack keeps it for its back-off; any other closes it, for its descriptor or for the work item. -/
theorem dmaNow_line : dmaNow t k r c =
    if r.op = opNackRetry ∨ r.op = opNackBusy then
      (markTaken t r c).setTile t (setChan ((markTaken t r c).tile t) k { chanOf (c.tile t) k with
        lines := (chanOf (c.tile t) k).lines.map (fun e => if e = l then { e with retry := true } else e) })
    else if ownLines ((markTaken t r c).tile t) && decide (k = 0) then shareData t l r (lineClosed t k l (markTaken t r c))
    else descData t k l r (lineClosed t k l (markTaken t r c)) := by
  obtain ⟨n, tile⟩ := markTaken_tile t r c
  have chan : chanOf ((markTaken t r c).tile t) k = chanOf (c.tile t) k := by rw [tile]; rfl
  unfold lineClosed
  rw [chan]
  unfold dmaNow
  dsimp only
  rw [hl]
  rfl

theorem dmaNow_nacked (hce : r.ce = false) (hn : r.op = opNackRetry ∨ r.op = opNackBusy) : dmaNow t k r c =
    c.setTile t (setChan (c.tile t) k { chanOf (c.tile t) k with
      lines := (chanOf (c.tile t) k).lines.map (fun e => if e = l then { e with retry := true } else e) }) := by
  rw [dmaNow_line hl, if_pos hn, markTaken_unmarked hce]

/-- The answer to a descriptor's line. -/
theorem dmaNow_desc (hce : r.ce = false) (hn : ¬(r.op = opNackRetry ∨ r.op = opNackBusy)) (ho : ownLines (c.tile t) = false ∨ k ≠ 0) :
    dmaNow t k r c = descData t k l r (lineClosed t k l c) := by
  rw [dmaNow_line hl, if_neg hn, markTaken_unmarked hce]
  exact if_neg (by rcases ho with h | h <;> simp [h])
end

theorem descData_refused (hf : r.fault ≠ 0) : descData t k l r c = lineFault t k r.fault.toNat l.desc c := if_pos hf

theorem descData_poisoned (hf : r.fault = 0) (hw : l.write = false) (hp : r.poison = true) (hu : trapPolicy c (c.tile t) = true) :
    descData t k l r c = lineFault t k 0x050B l.desc c := by
  unfold descData
  dsimp only
  rw [if_neg (not_not.2 hf), hw, hp, hu]
  rfl

theorem takeData_written (x : Tile) (l : DmaLine) (r : DmaResp) (k : Nat) : chanOf (takeData x l r) k = chanOf x k ∧
    ∀ a, rdByte (takeData x l r).ls a = if l.lsAddr ≤ a ∧ a < l.lsAddr + l.len then lineByte r.data (l.off + (a - l.lsAddr)) else rdByte x.ls a := by
  obtain ⟨z, marks⟩ := poisonWrite_marks { x with ls := wrLE x.ls l.lsAddr l.len (r.data.toNat / 2 ^ (8 * l.off)) } l.lsAddr l.len r.poison
  have taken : takeData x l r = _ := marks
  rw [taken]
  exact ⟨rfl, fun a => (rdByte_wrLE ..).trans (by rw [lineByte_shift])⟩

/-- Clean read data: the bytes of the line go to the local store, and its descriptor may complete. -/
theorem descData_read (hf : r.fault = 0) (hw : l.write = false) (hp : r.poison = false) :
    (chanOf ((descData t k l r c).tile t) k).lines = (chanOf (c.tile t) k).lines ∧
    ∀ a, rdByte ((descData t k l r c).tile t).ls a =
      if l.lsAddr ≤ a ∧ a < l.lsAddr + l.len then lineByte r.data (l.off + (a - l.lsAddr)) else rdByte (c.tile t).ls a := by
  have read : descData t k l r c =
      finishDescs t k (countEvent 4 t 8 1 (some (takeData (c.tile t) l r).ptn) (c.setTile t (takeData (c.tile t) l r))) := by
    unfold descData
    dsimp only
    rw [if_neg (not_not.2 hf), hw, hp]
    rfl
  obtain ⟨chan, written⟩ := takeData_written (c.tile t) l r k
  obtain ⟨lines, ls⟩ := finishDescs_keeps (t := t) (k := k)
    (countEvent 4 t 8 1 (some (takeData (c.tile t) l r).ptn) (c.setTile t (takeData (c.tile t) l r)))
  rw [read, lines, ls, tile_of_rest (countEvent_rest ..), Core.setTile_same, chan]
  exact ⟨rfl, written⟩
end

/-! ### Reissue and timeout (R145, R152, R306) -/

/-- The tile once a nacked request is issued again: its line waits no more, and the reissue is counted. -/
def reissuedTile (k : Nat) (l : DmaLine) (x : Tile) : Tile :=
  { setChan x k { chanOf x k with lines := (chanOf x k).lines.map (fun e => if e = l then { e with retry := false } else e) } with
    dmaRetry := x.dmaRetry + 1 }

theorem reissuedTile_lines (k : Nat) (l : DmaLine) (x : Tile) :
    (chanOf (reissuedTile k l x) k).lines = (chanOf x k).lines.map (fun e => if e = l then { e with retry := false } else e) :=
  congrArg DmaChan.lines (chanOf_setChan x k _)

section
variable {t k : Nat} {tag : BitVec 14} {l : DmaLine} {c : Core} (hp : (c.tile t).power = .active) (hf : frozenChip c = false)
  (hl : (chanOf (c.tile t) k).lines.find? (fun l => decide (l.q.tag = tag) && l.retry) = some l)
include hp hf hl

theorem fxDmaReissue_again : ∃ sig, fxDmaReissue t k tag c =
    sendLine t k l sig (countEvent 4 t 10 1 (some (c.tile t).ptn) (c.setTile t (reissuedTile k l (c.tile t)))) := by
  unfold fxDmaReissue
  dsimp only
  rw [if_neg (by simp [hp, hf]), hl]
  exact ⟨_, rfl⟩

theorem fxDmaReissue_sends (hs : (c.tile t).stackFailed.getLsbD l.home = false) : ∃ sig, fxDmaReissue t k tag c =
    (countEvent 4 t 10 1 (some (c.tile t).ptn) (c.setTile t (reissuedTile k l (c.tile t)))).send
      (.toHome l.home ⟨0, (c.tile t).logical, l.q.tag, 0, k, sig, l.q.cls⟩ l.q) := by
  obtain ⟨sig, again⟩ := fxDmaReissue_again hp hf hl
  have tile := (tile_of_rest (countEvent_rest 4 t 10 1 (some (c.tile t).ptn) _) t).trans (c.setTile_same t (reissuedTile k l (c.tile t)))
  refine ⟨sig, again.trans ((sendLine_home ?_ sig).trans ?_)⟩ <;> rw [tile]
  · exact hs
  · rfl
end

theorem fxDmaTimeout_abandons {t k : Nat} {l : DmaLine} {c : Core} (hl : (chanOf (c.tile t) k).lines.find? (fun l => !l.retry) = some l)
    (ho : ownLines (c.tile t) = false ∨ k ≠ 0) : fxDmaTimeout t k c = lineFault t k 0x050A l.desc (lineClosed t k l c) := by
  have own : (ownLines (c.tile t) && decide (k = 0)) = false := by
    rcases ho with h | h <;> simp [h]
  unfold fxDmaTimeout
  dsimp only
  rw [hl]
  dsimp only
  rw [own, if_neg Bool.false_ne_true]
  rfl

/-! ### PUSH (R147, R504) -/

theorem fxPushData_refused {t : Nat} {k : PushPkt} {c : Core} (hf : frozenChip c = false) (hu : c.ust 4 t ≠ .serving) :
    fxPushData t k c = c.send (.toCluster (c.tile k.src).logical k.chan ⟨opNackFenced, k.tag, 0, 0, false, k.ce, 0x0509, 0⟩) := by
  unfold fxPushData pushNow
  rw [if_pos hu, if_neg (by rw [hf]; exact Bool.false_ne_true)]
  exact if_pos hu

/-- A Serving, Active cluster takes the packet. -/
theorem fxPushData_taken {t : Nat} {k : PushPkt} {c : Core} (hf : frozenChip c = false) (hu : c.ust 4 t = .serving)
    (hp : (c.tile t).power = .active) : fxPushData t k c = pushNow t k c := by
  unfold fxPushData
  rw [if_neg (not_not.2 hu)]
  exact tilePacket_active hf (.inl rfl) hp

theorem pushNow_writes {t : Nat} {k : PushPkt} {c : Core} (hu : c.ust 4 t = .serving) (hn : k.part = none) (hp : k.poison = false)
    (hs : k.sig = none) : ∃ z, pushNow t k c =
      (c.setTile t { c.tile t with
        ls := k.bytes.zipIdx.foldl (fun m (b : BitVec 8 × Nat) => wrByte m (k.addr + b.2) b.1) (c.tile t).ls
        lsPoison := z }).send (.toCluster (c.tile k.src).logical k.chan ⟨opCmp, k.tag, 0, 0, false, k.ce, 0, 0⟩) := by
  obtain ⟨z, marks⟩ := poisonWrite_marks { c.tile t with
    ls := k.bytes.zipIdx.foldl (fun m (b : BitVec 8 × Nat) => wrByte m (k.addr + b.2) b.1) (c.tile t).ls } k.addr k.bytes.length k.poison
  refine ⟨z, ?_⟩
  unfold pushNow
  dsimp only
  rw [if_neg (not_not.2 hu), hn, hs]
  dsimp only
  rw [marks, if_neg (by rw [hp]; exact Bool.false_ne_true)]

/-! ### The statement -/

/-- Settles O39: each command by its equation above. -/
theorem dmaChannels : Obligations.DmaChannels := by
  unfold Obligations.DmaChannels
  intro s t k hok c x ch
  have next (f : Core → Core) : actCore s f = .next (s.withCore (f c)) := actCore_of_ok hok f
  refine ⟨?start, ?issue, ?response, ?reissue, ?timeout, ?push⟩
  case start =>
    intro q rest hr hq hi d ho
    have start := fxDescriptorStart_head hr hq hi ho
    change fxDescriptorStart t k c = if lsSize < d.addr + 32 then dmaFault t k 0x0503 ch.started d.addr c
      else (descFault c x d).elim (c.setTile t (setChan x k (startedChan ch d rest))) (fun code => dmaFault t k code ch.started d.addr c) at start
    refine ⟨fun hout => ?out, fun code hin hd => ?bad, fun hin hd => ?good⟩
    case out => exact (next _).trans (by rw [start, if_pos hout])
    case bad => exact (next _).trans (by rw [start, if_neg (Nat.not_lt.2 hin), hd]; rfl)
    case good =>
      rw [if_neg (Nat.not_lt.2 hin), hd] at start
      refine ⟨_, next _, s.keeps_withCore _, ?_⟩
      rw [State.withCore_core, start, Option.elim_none, Core.setTile_same, chanOf_setChan]
      exact ⟨rfl, rfl, rfl, rfl⟩
  case issue =>
    intro d e hr hl ho hw hd hp hs ck line wr home
    have issue := fxDmaLineIssue_pool hr hl ho hw hd hp hs
    refine ⟨fun hwr same => ?waits, fun clear => ?free⟩
    case waits =>
      refine (next _).trans ?_
      rw [issue, if_pos ⟨of_decide_eq_true hwr, same⟩]
      rfl
    case free =>
      have op (h : dOp d.w = 2) : wr = true := decide_eq_true h
      have sends : fxDmaLineIssue t k c = poolChunk t k d ck c := issue.trans (if_neg fun h => by
        rw [(clear (op h.1)).1] at h
        exact Bool.false_ne_true h.2)
      refine ⟨fun hx => ?beyond, fun hx hm => ?unmapped, fun hx hm hf => ?mapped⟩
      case beyond => exact (next _).trans (by rw [sends, poolChunk_beyond hx])
      case unmapped => exact (next _).trans (by rw [sends, poolChunk_unmapped hx hm])
      case mapped =>
        intro q
        refine ⟨_, next _, s.keeps_withCore _, ?_⟩
        rw [State.withCore_core, sends]
        exact poolChunk_sent hx hm (fun h => (clear (op h)).2) rfl hf
  case response =>
    intro r l hf hp ho hl hce closed
    have answered : exec (.dmaResponse t k r) s = .next (s.withCore (dmaNow t k r c)) :=
      (next _).trans (by rw [fxDmaResponse, tilePacket_active hf (.inl rfl) hp])
    have desc (hn : ¬(r.op = opNackRetry ∨ r.op = opNackBusy)) : dmaNow t k r c = descData t k l r closed := dmaNow_desc hl hce hn ho
    have data (h : r.op = opCmpData) : ¬(r.op = opNackRetry ∨ r.op = opNackBusy) := by rw [h]; decide
    have tile : closed.tile t = setChan x k { ch with lines := ch.lines.erase l } := Core.setTile_same ..
    refine ⟨fun hn => ?nack, fun hop h0 hw hc => ?read, fun hop h0 hw hc hu => ?poison, fun h1 h2 h0 => ?refused⟩
    case nack => exact answered.trans (by rw [dmaNow_nacked hl hce hn])
    case read =>
      refine ⟨_, answered, s.keeps_withCore _, ?_⟩
      obtain ⟨lines, written⟩ := descData_read (t := t) (k := k) (c := closed) h0 hw hc
      rw [tile] at lines written
      rw [State.withCore_core, desc (data hop), lines, chanOf_setChan]
      exact ⟨rfl, written⟩
    case poison =>
      refine answered.trans ?_
      rw [desc (data hop), descData_poisoned h0 hw hc]
      rw [tile]
      exact hu
    case refused => exact answered.trans (by rw [desc (not_or.2 ⟨h1, h2⟩), descData_refused h0])
  case reissue =>
    intro tag l hp hf hl hs
    obtain ⟨sig, sent⟩ := fxDmaReissue_sends hp hf hl hs
    refine ⟨_, sig, next _, s.keeps_withCore _, ?_⟩
    rw [State.withCore_core, sent, Core.send_out, List.getLast?_concat, Core.send_get_tile, tile_of_rest (countEvent_rest ..), Core.setTile_same]
    exact ⟨rfl, rfl, reissuedTile_lines k l x⟩
  case timeout =>
    intro l hl ho
    exact (next _).trans (by rw [fxDmaTimeout_abandons hl ho]; rfl)
  case push =>
    intro w hf src
    refine ⟨fun hu => (next _).trans (by rw [fxPushData_refused hf hu]), fun hu hp hn hc hs => ?_⟩
    obtain ⟨z, written⟩ := pushNow_writes hu hn hc hs
    refine ⟨_, next _, s.keeps_withCore _, ?_⟩
    rw [State.withCore_core, fxPushData_taken hf hu hp, written, Core.send_out, Core.send_get_tile, Core.setTile_same]
    exact ⟨rfl, rdByte_bytes w.bytes x.ls w.addr 0⟩

end Sys2Proof.Machine
end

section
/-! SUPPORT. The lines of a built-in operation's share, and the pieces of a FILL: O53 (R143, R147, R150, R218, R225, R233, R235, R236). -/

namespace Sys2Proof.Machine
open Sys2Proof

/-! ### Shares (R225) -/

theorem shareOf_tiles (units : Nat) {n : Nat} (i : Nat) (h : 0 < n) :
    (shareOf units 0 n).1 = 0 ∧ (shareOf units i n).2 = (shareOf units (i + 1) n).1 ∧ (shareOf units (n - 1) n).2 = units := by
  refine ⟨by simp [shareOf], rfl, ?_⟩
  rw [shareOf, Nat.sub_add_cancel h]
  exact Nat.mul_div_cancel_left units h

/-! ### A work item's own lines (R143, R150) -/

section
variable {t : Nat} {c : Core}

@[simp] theorem modWork_get_tile (g : Work → Work) (c : Core) : (modWork t g c).tile t = { c.tile t with work := (c.tile t).work.map g } :=
  Core.setTile_same ..

@[simp] theorem modWork_out (g : Work → Work) (c : Core) : (modWork t g c).out = c.out := rfl

theorem modWork_work {w : Work} (g : Work → Work) (hk : (c.tile t).work = some w) : ((modWork t g c).tile t).work = some (g w) := by
  rw [modWork_get_tile, hk]; rfl

/-- With a mapped entry and a working stack the request goes to the home of its line. -/
theorem ownAccess_sends {q : Req} {write : Bool} {ls off len pla h : Nat} {e : Nat × BitVec 2} (hq : q.pla.toNat = pla)
    (hc : (chanOf (c.tile t) 0).lines = []) (hx : pla / 2 ^ 30 < 896) (hw : tget none (pla / 2 ^ 30) (c.tile t).win = some e)
    (hh : (c.place (e.1 * 2 ^ 30 + pla % 2 ^ 30)).1 = h) (hf : (c.tile t).stackFailed.getLsbD h = false) :
    (ownAccess t q write ls off len c).out =
      c.out ++ [.toHome h ⟨0, (c.tile t).logical, freeTag 0 [], 0, 0, none, q.cls⟩ { q with tag := freeTag 0 [] }] ∧
    ((ownAccess t q write ls off len c).tile t).work = (c.tile t).work ∧
    (chanOf ((ownAccess t q write ls off len c).tile t) 0).lines.length = 1 := by
  have issued : ∃ l, ownAccess t q write ls off len c = sendLine t 0 l none (c.setTile t
      (setChan (c.tile t) 0 { chanOf (c.tile t) 0 with lines := (chanOf (c.tile t) 0).lines ++ [l] })) ∧
      l.home = h ∧ l.q = { q with tag := freeTag 0 (chanOf (c.tile t) 0).lines } := by
    unfold ownAccess
    dsimp only
    rw [hq, if_neg (by omega)]
    split
    · next unmapped => exact absurd (hw.symm.trans unmapped) (Option.some_ne_none e)
    · next e' mapped =>
      obtain rfl := Option.some.inj (hw.symm.trans mapped)
      rw [hh]
      exact ⟨_, rfl, rfl, rfl⟩
  obtain ⟨l, issued, home, request⟩ := issued
  rw [issued, sendLine_home (by rw [Core.setTile_same, home]; exact hf), Core.send_out, Core.send_get_tile, Core.setTile_same, chanOf_setChan,
    home, request, hc]
  exact ⟨rfl, rfl, rfl⟩

/-! ### The next step of a share (R225, R228, R233, R235, R236) -/

variable {w : Work}

/-- The next step of a share that is computed as a whole. -/
def shareWhole (t : Nat) (w : Work) (c : Core) : Core :=
  match w.wr with
  | none => shareKnown t w c
  | some [] => shareDone t c
  | some (k :: r) => shareWrite t w k (modWork t (fun w => { w with wr := some r }) c)

section
variable (hw : (c.tile t).work = some w) (hk : w.kernel = false) (hl : w.loading = false) (hs : w.started = true) (hn : w.status = none)
  (hr : dmaRuns c t 0 = true) (ho : linesOut (c.tile t) < 512) (hc : (chanOf (c.tile t) 0).lines = [])

include hw hk hr ho hc in
/-- A cluster with a share and no line outstanding takes the share's next step. -/
theorem fxDmaLineIssue_share : fxDmaLineIssue t 0 c = shareIssue t c := by
  have starts : ¬((!dmaRuns c t 0) = true ∨ 64 ≤ (chanOf (c.tile t) 0).lines.length ∨ 512 ≤ linesOut (c.tile t)) := by
    simp [hr, ho, hc]
  have own : ownLines (c.tile t) = true := by simp [ownLines, hw, hk]
  unfold fxDmaLineIssue
  dsimp only
  rw [if_neg starts, if_pos own, if_pos rfl]

include hw hl hs hn hc

theorem shareIssue_push {dest : Nat} {y : AttPart} {r : List (Nat × AttPart)} (hp : w.push = (dest, y) :: r) :
    shareIssue t c = pushPart t w dest y c := by
  unfold shareIssue
  simp [hw, hs, hn, hl, hc, hp]

theorem shareIssue_step (hp : w.push = []) : shareIssue t c =
    if cType w.desc = 3 ∧ !w.posted then shareParts t w c else if byLine w.desc then shareLine t w c else shareWhole t w c := by
  have starts : ¬((!w.started) = true ∨ w.status.isSome = true) := by simp [hs, hn]
  unfold shareIssue
  dsimp only
  rw [hw]
  dsimp only
  rw [if_neg starts, hl, if_neg Bool.false_ne_true, hc, if_neg (by simp), hp]
  rfl
end
end

/-! ### Reads, writes and quiet steps of a share -/

section
variable {t : Nat} {c : Core} {w : Work}

/-- A share reads a line. -/
theorem shareRead_asks {key h : Nat} {e : Nat × BitVec 2} (hk : (c.tile t).work = some w) (hc : (chanOf (c.tile t) 0).lines = [])
    (hx : key % 2 ^ 33 * 128 / 2 ^ 30 < 896) (hw : tget none (key % 2 ^ 33 * 128 / 2 ^ 30) (c.tile t).win = some e)
    (hh : (c.place (e.1 * 2 ^ 30 + key % 2 ^ 33 * 128 % 2 ^ 30)).1 = h) (hf : (c.tile t).stackFailed.getLsbD h = false) :
    ∃ q : Req,
      (shareRead t w key c).out = c.out ++ [.toHome h ⟨0, (c.tile t).logical, freeTag 0 [], 0, 0, none, q.cls⟩ q] ∧
      q.op = 3 ∧ q.pla = BitVec.ofNat 40 (key % 2 ^ 33 * 128) ∧ q.pleat = BitVec.ofNat 3 (key / 2 ^ 33) ∧ q.cls = BitVec.ofNat 2 (cClass w.desc) ∧
      ((shareRead t w key c).tile t).work = some w ∧ (chanOf ((shareRead t w key c).tile t) 0).lines.length = 1 := by
  have pla : (BitVec.ofNat 40 (key % 2 ^ 33 * 128)).toNat = key % 2 ^ 33 * 128 := by
    rw [BitVec.toNat_ofNat]
    omega
  obtain ⟨out, work, lines⟩ := ownAccess_sends (q := workReq (c.tile t) w (BitVec.ofNat 3 (key / 2 ^ 33)) (key % 2 ^ 33 * 128))
    (write := false) (ls := 0) (off := 0) (len := 128) pla hc hx hw hh hf
  exact ⟨_, out, rfl, rfl, rfl, rfl, work.trans hk, lines⟩

/-- A share writes a line, and its work item goes on. -/
theorem shareWrite_sends (g : Work → Work) {k : PoolWr} {h : Nat} {e : Nat × BitVec 2} (hk : (c.tile t).work = some w)
    (hc : (chanOf (c.tile t) 0).lines = []) (hx : k.pla.toNat / 2 ^ 30 < 896) (hw : tget none (k.pla.toNat / 2 ^ 30) (c.tile t).win = some e)
    (hh : (c.place (e.1 * 2 ^ 30 + k.pla.toNat % 2 ^ 30)).1 = h) (hf : (c.tile t).stackFailed.getLsbD h = false) :
    ∃ q : Req,
      (shareWrite t w k (modWork t g c)).out = c.out ++ [.toHome h ⟨0, (c.tile t).logical, freeTag 0 [], 0, 0, none, q.cls⟩ q] ∧
      q.op = (if k.mask = fullMask then 8 else 9) ∧ q.pla = k.pla ∧ q.pleat = k.pleat ∧ q.mask = k.mask ∧ q.data = k.data ∧ q.poison = k.poison ∧
      ((shareWrite t w k (modWork t g c)).tile t).work = some (g w) ∧ (chanOf ((shareWrite t w k (modWork t g c)).tile t) 0).lines.length = 1 := by
  have pla : BitVec.ofNat 40 k.pla.toNat = k.pla := BitVec.ofNat_toNat ..
  have tile : (modWork t g c).tile t = { c.tile t with work := some (g w) } := by
    rw [modWork_get_tile, hk]
    rfl
  have sends := ownAccess_sends (t := t) (c := modWork t g c) (write := true) (ls := 0) (off := 0) (len := 128) (h := h) (e := e)
    (q := { workReq ((modWork t g c).tile t) w k.pleat k.pla.toNat with
      op := if k.mask = fullMask then 0x08 else 0x09, mask := k.mask, data := k.data, poison := k.poison })
    (congrArg BitVec.toNat pla)
  rw [tile] at sends
  obtain ⟨out, work, lines⟩ := sends hc hx hw hh hf
  rw [shareWrite, tile]
  exact ⟨_, out, rfl, pla, rfl, rfl, rfl, rfl, work, lines⟩

theorem pushPart_sends {dest : Nat} {y : AttPart} {r : List (Nat × AttPart)} (hk : (c.tile t).work = some w)
    (hc : (chanOf (c.tile t) 0).lines = []) (hp : w.push = (dest, y) :: r) :
    (pushPart t w dest y c).out = c.out ++ [.push (w.peers.getD dest 0) ⟨t, 0, freeTag 0 [], 0, partBytes y, y.poison, false, none, some y.k⟩] ∧
    ((pushPart t w dest y c).tile t).work = some { w with push := r } ∧ (chanOf ((pushPart t w dest y c).tile t) 0).lines.length = 1 := by
  have tag : freeTag 0 (chanOf (c.tile t) 0).lines = freeTag 0 [] := by rw [hc]
  have pushed : w.push.drop 1 = r := by rw [hp]; rfl
  unfold pushPart
  dsimp only
  rw [Core.send_out, Core.send_get_tile, modWork_get_tile, modWork_out, Core.setTile_same, Core.setTile_out, tag]
  refine ⟨rfl, ?_, ?_⟩
  · change (c.tile t).work.map _ = _
    rw [hk, ← pushed]
    rfl
  · change (chanOf (setChan (c.tile t) 0 _) 0).lines.length = 1
    rw [chanOf_setChan, hc]
    rfl

/-! ### Answers -/

/-- The work item once the data of a line is kept, with its poison. -/
def keepLine (l : DmaLine) (r : DmaResp) (w : Work) : Work :=
  { w with rd := tput none (lineNo l.q.pleat.toNat (l.pla.toNat / 128)) (some (r.data, r.poison)) w.rd }

theorem shareData_read {l : DmaLine} {r : DmaResp} (hk : (c.tile t).work.any (fun w => w.kernel) = false) (h0 : r.fault = 0) (hw : l.write = false)
    (hp : r.poison = false) : shareData t l r c = modWork t (keepLine l r) (countEvent 4 t 8 1 (some (c.tile t).ptn) c) := by
  have known : ¬(r.poison && trapPolicy c (c.tile t)) = true := by rw [hp]; exact Bool.false_ne_true
  unfold shareData
  dsimp only
  rw [if_neg (not_not.2 h0), hw, if_neg Bool.false_ne_true, if_neg known, hk, if_neg Bool.false_ne_true]
  rfl

/-- The answer to a share's line closes the line and keeps its data; no byte goes to the local store. -/
theorem dmaNow_share {l : DmaLine} {r : DmaResp} (hk : (c.tile t).work = some w) (hn : w.kernel = false)
    (hl : (chanOf (c.tile t) 0).lines.find? (fun l => decide (l.q.tag = r.tag) && decide (l.pla = r.pla) && !l.retry) = some l)
    (ho : r.op = opCmpData) (h0 : r.fault = 0) (hw : l.write = false) (hp : r.poison = false) :
    ∃ n, (dmaNow t 0 r c).tile t = { setChan (c.tile t) 0 { chanOf (c.tile t) 0 with lines := (chanOf (c.tile t) 0).lines.erase l } with
      marks := n, work := some (keepLine l r w) } := by
  obtain ⟨n, tile⟩ := markTaken_tile t r c
  have data : ¬(r.op = opNackRetry ∨ r.op = opNackBusy) := by rw [ho]; decide
  have own : (ownLines ((markTaken t r c).tile t) && decide (0 = 0)) = true := by rw [tile]; simp [ownLines, hk, hn]
  have closed : (lineClosed t 0 l (markTaken t r c)).tile t =
      { setChan (c.tile t) 0 { chanOf (c.tile t) 0 with lines := (chanOf (c.tile t) 0).lines.erase l } with marks := n } := by
    unfold lineClosed
    rw [Core.setTile_same, tile]
    rfl
  have share : ((lineClosed t 0 l (markTaken t r c)).tile t).work = some w := by rw [closed]; exact hk
  have plain : ((lineClosed t 0 l (markTaken t r c)).tile t).work.any (fun w => w.kernel) = false := by rw [share]; exact hn
  refine ⟨n, ?_⟩
  rw [dmaNow_line hl, if_neg data, if_pos own, shareData_read plain h0 hw hp, modWork_get_tile, tile_of_rest (countEvent_rest ..), share, closed]
  rfl

/-- The work item of an ATTEND once another cluster's partial result has joined its own. -/
def joinPart (k : PushPkt) (j : Nat) (w : Work) : Work :=
  if cType w.desc = 3 then { w with parts := w.parts ++ [partOf (attShape w.desc) j k.bytes k.poison] } else w

theorem pushNow_part {k : PushPkt} {j : Nat} (hj : k.part = some j) (hu : c.ust 4 t = .serving) :
    (pushNow t k c).tile t = (modWork t (joinPart k j) c).tile t := by
  unfold pushNow
  dsimp only
  rw [if_neg (not_not.2 hu), hj]
  split
  · rw [Core.send_get_tile, Core.send_get_tile]
    rfl
  · rw [Core.send_get_tile]
    rfl
end

end Sys2Proof.Machine
end

section
/-! SUPPORT. The pieces of a FILL, and the statement on shares: O53 (R236). -/

namespace Sys2Proof.Machine
open Sys2Proof

/-! ### Pieces of a FILL (R236) -/

theorem chunkMask_getLsbD {b : Nat} (hb : b < 128) (off len : Nat) : (chunkMask off len).getLsbD b = true ↔ off ≤ b ∧ b < off + len := by
  rw [chunkMask, BitVec.getLsbD_ofNat, Nat.testBit_mul_two_pow, Nat.testBit_two_pow_sub_one]
  simp only [hb, decide_true, Bool.true_and, Bool.and_eq_true, decide_eq_true_eq]
  omega

/-- Bits of a word repeated every 128 bits. -/
theorem testBit_repeated {pat : Nat} (hp : pat < 2 ^ 128) (n : Nat) :
    ((List.range n).map (fun i => pat * 2 ^ (128 * i))).sum < 2 ^ (128 * n) ∧
    ∀ q r, q < n → r < 128 → ((List.range n).map (fun i => pat * 2 ^ (128 * i))).sum.testBit (128 * q + r) = pat.testBit r := by
  induction n with
  | zero => exact ⟨by simp, fun q r hq => absurd hq (Nat.not_lt_zero q)⟩
  | succ n ih =>
    obtain ⟨small, bits⟩ := ih
    rw [List.range_succ, List.map_append, List.sum_append, List.map_singleton, List.sum_singleton, Nat.add_comm, Nat.mul_comm pat]
    refine ⟨?_, fun q r hq hr => ?_⟩
    · calc 2 ^ (128 * n) * pat + _ < 2 ^ (128 * n) * (pat + 1) := by rw [Nat.mul_add_one]; omega
        _ ≤ 2 ^ (128 * n) * 2 ^ 128 := Nat.mul_le_mul_left _ hp
        _ = 2 ^ (128 * (n + 1)) := by rw [← Nat.pow_add]; rfl
    · rw [Nat.testBit_two_pow_mul_add _ small]
      split
      · exact bits q r (by omega) hr
      · congr 1
        omega

/-- Bits of a byte of a line. -/
theorem lineByte_ofNat_getLsbD {b i : Nat} (hb : b < 128) (hi : i < 8) (v : Nat) :
    (lineByte (BitVec.ofNat 1024 v) b).getLsbD i = v.testBit (8 * b + i) := by
  rw [lineByte, BitVec.getLsbD_ofNat, Nat.testBit_shiftRight, ← BitVec.getLsbD, BitVec.getLsbD_ofNat]
  simp only [hi, decide_true, Bool.true_and, show 8 * b + i < 1024 by omega]

/-- The pattern of a FILL. -/
def fillPattern (d : Line) : Nat :=
  (dword d 10).toNat + (dword d 11).toNat * 2 ^ 32 + (dword d 12).toNat * 2 ^ 64 + (dword d 13).toNat * 2 ^ 96

theorem fillPattern_lt (d : Line) : fillPattern d < 2 ^ 128 := by
  have h0 := (dword d 10).isLt
  have h1 := (dword d 11).isLt
  have h2 := (dword d 12).isLt
  have h3 := (dword d 13).isLt
  unfold fillPattern
  omega

/-- The pattern repeated from a granule boundary of a line on: each byte is the pattern's byte of its place in the granule. -/
theorem lineByte_repeated {pat off n b : Nat} (hp : pat < 2 ^ 128) (ho : off % 16 = 0) (hb : b < 128) (hlo : off ≤ b) (hhi : b < off + 16 * n) :
    lineByte (BitVec.ofNat 1024 (((List.range n).map (fun i => pat * 2 ^ (128 * i))).sum * 2 ^ (8 * off))) b =
      BitVec.ofNat 8 (pat / 2 ^ (8 * (b % 16))) := by
  apply BitVec.eq_of_getLsbD_eq
  intro i hi
  have place : 8 * b + i - 8 * off = 128 * ((b - off) / 16) + (8 * (b % 16) + i) := by omega
  rw [lineByte_ofNat_getLsbD hb hi, Nat.testBit_mul_two_pow, place, (testBit_repeated hp n).2 _ _ (by omega) (by omega), BitVec.getLsbD_ofNat,
    Nat.testBit_div_two_pow, Nat.add_comm i]
  simp only [hi, decide_true, Bool.true_and, show 8 * off ≤ 8 * b + i by omega]

theorem add_divMod {x y m : Nat} (h : x % m + y < m) : (x + y) / m = x / m ∧ (x + y) % m = x % m + y := by
  refine (Nat.div_mod_unique (by omega)).2 ⟨?_, h⟩
  have := Nat.div_add_mod x m
  omega

/-- The granules up to the end of a row stand side by side. -/
theorem granuleAt_add {d : Line} {a stride g i : Nat} (h : g * 16 % (dword d 4).toNat + 16 * i < (dword d 4).toNat) :
    granuleAt d a stride (g + i) = granuleAt d a stride g + 16 * i := by
  obtain ⟨row, column⟩ := add_divMod h
  simp only [granuleAt, Nat.add_mul g, Nat.mul_comm i, row, column]
  omega

/-- The granules of the piece from granule `g` on: up to the end of the row, of the line and of the share. -/
def pieceLen (d : Line) (stop g : Nat) : Nat :=
  min (min ((128 - granuleAt d (refAt d 6).pla (dword d 8).toNat g % 128) / 16) (((dword d 4).toNat - g * 16 % (dword d 4).toNat) / 16)) (stop - g)

/-- The piece from granule `g` on. -/
def fillChunk (d : Line) (a n : Nat) : PoolWr :=
  ⟨BitVec.ofNat 3 (refAt d 6).pleat, BitVec.ofNat 40 (a / 128 * 128),
    BitVec.ofNat 1024 (((List.range n).map (fun i => fillPattern d * 2 ^ (128 * i))).sum * 2 ^ (8 * (a % 128))), chunkMask (a % 128) (16 * n), false⟩

section
variable (d : Line) (ci count cur : Nat)

/-- The first granule of a share. -/
def fillStart : Nat := (shareOf (ceilDiv ((dword d 4).toNat * field (dword d 5) 23 0) 0x100000) ci count).1 * 65536

/-- The granule after the last one of a share. -/
def fillStop : Nat :=
  min ((dword d 4).toNat * field (dword d 5) 23 0 / 16) ((shareOf (ceilDiv ((dword d 4).toNat * field (dword d 5) 23 0) 0x100000) ci count).2 * 65536)

end

theorem foldl_four (f : Nat → Nat) : (List.range 4).foldl (fun a i => a + f i) 0 = f 0 + f 1 + f 2 + f 3 := by
  simp [List.range_succ]

theorem foldl_fillPattern (d : Line) : (List.range 4).foldl (fun a i => a + (dword d (10 + i)).toNat * 2 ^ (32 * i)) 0 = fillPattern d := by
  rw [foldl_four fun i => (dword d (10 + i)).toNat * 2 ^ (32 * i), Nat.mul_zero, Nat.pow_zero, Nat.mul_one]
  rfl

section
variable {d : Line} {ci count cur : Nat}

theorem fillPiece_end (h : fillStop d ci count ≤ fillStart d ci count + cur) : fillPiece d ci count cur = .ok none := by
  unfold fillPiece rowPiece
  exact if_pos h

theorem fillPiece_next {g : Nat} (hg : fillStart d ci count + cur = g) (h : g < fillStop d ci count) :
    fillPiece d ci count cur = .ok (some (fillChunk d (granuleAt d (refAt d 6).pla (dword d 8).toNat g) (pieceLen d (fillStop d ci count) g), 0,
      cur + max 1 (pieceLen d (fillStop d ci count) g))) := by
  subst hg
  unfold fillPiece rowPiece fillChunk
  rw [foldl_fillPattern]
  exact if_neg (Nat.not_le.2 h)

theorem granule_column (hr : (dword d 4).toNat % 16 = 0) (g : Nat) : g * 16 % (dword d 4).toNat % 16 = 0 := by
  rw [Nat.mod_mod_of_dvd _ (Nat.dvd_of_mod_eq_zero hr)]
  exact Nat.mul_mod_left g 16

/-- A granule of the share lies in its rows. -/
theorem granuleAt_row {a stride g : Nat} (hr : (dword d 4).toNat % 16 = 0) (h0 : 0 < (dword d 4).toNat) (hg : g < fillStop d ci count) :
    granuleAt d a stride g + ((dword d 4).toNat - g * 16 % (dword d 4).toNat) ≤ a + (field (dword d 5) 23 0 - 1) * stride + (dword d 4).toNat := by
  have inside : g * 16 < (dword d 4).toNat * field (dword d 5) 23 0 := by
    have := Nat.div_mul_le_self ((dword d 4).toNat * field (dword d 5) 23 0) 16
    have : g < (dword d 4).toNat * field (dword d 5) 23 0 / 16 := lt_of_lt_of_le hg (Nat.min_le_left ..)
    omega
  have row : g * 16 / (dword d 4).toNat * stride ≤ (field (dword d 5) 23 0 - 1) * stride :=
    Nat.mul_le_mul_right _ (Nat.le_sub_one_of_lt (Nat.div_lt_of_lt_mul inside))
  have column := Nat.mod_lt (g * 16) h0
  unfold granuleAt
  dsimp only
  omega

theorem granuleAt_aligned {a stride : Nat} (ha : a % 16 = 0) (hr : (dword d 4).toNat % 16 = 0) (hs : stride % 16 = 0) (g : Nat) :
    granuleAt d a stride g % 16 = 0 := by
  have row : g * 16 / (dword d 4).toNat * stride % 16 = 0 := Nat.mod_eq_zero_of_dvd (Dvd.dvd.mul_left (Nat.dvd_of_mod_eq_zero hs) _)
  have column := granule_column hr g
  unfold granuleAt
  dsimp only
  omega

/-- A piece stays in its line, its row and its share, and is not empty. -/
theorem pieceLen_fits {stop g : Nat} (hA : granuleAt d (refAt d 6).pla (dword d 8).toNat g % 16 = 0) (hr : (dword d 4).toNat % 16 = 0)
    (h0 : 0 < (dword d 4).toNat) (h : g < stop) : 1 ≤ pieceLen d stop g ∧ g + pieceLen d stop g ≤ stop ∧
      granuleAt d (refAt d 6).pla (dword d 8).toNat g % 128 + 16 * pieceLen d stop g ≤ 128 ∧
      g * 16 % (dword d 4).toNat + 16 * pieceLen d stop g ≤ (dword d 4).toNat := by
  have column := granule_column hr g
  have inRow := Nat.mod_lt (g * 16) h0
  unfold pieceLen
  generalize granuleAt d (refAt d 6).pla (dword d 8).toNat g = A at *
  generalize g * 16 % (dword d 4).toNat = r at *
  generalize (dword d 4).toNat = rb at *
  omega
end

/-- What a piece of `n` granules from address `A` on writes: its bytes, all in one line, each the pattern's byte of its place. -/
theorem fillChunk_bytes {d : Line} {A n : Nat} (ha : A % 16 = 0) (hn : A % 128 + 16 * n ≤ 128) (hA : A < 2 ^ 40) :
    (fillChunk d A n).pla.toNat = A / 128 * 128 ∧
    ∀ b, b < 128 → ((fillChunk d A n).mask.getLsbD b = true ↔ A ≤ A / 128 * 128 + b ∧ A / 128 * 128 + b < A + 16 * n) ∧
      ((fillChunk d A n).mask.getLsbD b = true → lineByte (fillChunk d A n).data b = BitVec.ofNat 8 (fillPattern d / 2 ^ (8 * (b % 16)))) := by
  refine ⟨?_, fun b hb => ?_⟩
  · rw [fillChunk, BitVec.toNat_ofNat]
    omega
  · have mask : (fillChunk d A n).mask.getLsbD b = true ↔ A % 128 ≤ b ∧ b < A % 128 + 16 * n := chunkMask_getLsbD hb ..
    refine ⟨mask.trans ?_, fun h => lineByte_repeated (fillPattern_lt d) (by omega) hb (mask.1 h).1 (mask.1 h).2⟩
    omega

/-- The next piece of a FILL's share. -/
theorem fillPiece_writes {d : Line} {ci count cur : Nat} (ha : (refAt d 6).pla % 16 = 0) (hr : (dword d 4).toNat % 16 = 0)
    (hs : (dword d 8).toNat % 16 = 0) (h0 : 0 < (dword d 4).toNat)
    (hA : (refAt d 6).pla + (field (dword d 5) 23 0 - 1) * (dword d 8).toNat + (dword d 4).toNat ≤ 2 ^ 40)
    (h : fillStart d ci count + cur < fillStop d ci count) : ∃ k cur', fillPiece d ci count cur = .ok (some (k, 0, cur')) ∧
      cur < cur' ∧ fillStart d ci count + cur' ≤ fillStop d ci count ∧
      k.poison = false ∧ k.pla.toNat % 128 = 0 ∧
      (∀ b, b < 128 → (k.mask.getLsbD b = true ↔ ∃ g j, fillStart d ci count + cur ≤ g ∧ g < fillStart d ci count + cur' ∧ j < 16 ∧
        k.pla.toNat + b = (refAt d 6).pla + g * 16 / (dword d 4).toNat * (dword d 8).toNat + g * 16 % (dword d 4).toNat + j)) ∧
      ∀ b, b < 128 → k.mask.getLsbD b = true → lineByte k.data b = BitVec.ofNat 8 (fillPattern d / 2 ^ (8 * (b % 16))) := by
  obtain ⟨g, hg⟩ : ∃ g, fillStart d ci count + cur = g := ⟨_, rfl⟩
  rw [hg] at h
  obtain ⟨A, hgA⟩ : ∃ A, granuleAt d (refAt d 6).pla (dword d 8).toNat g = A := ⟨_, rfl⟩
  obtain ⟨n, hn⟩ : ∃ n, pieceLen d (fillStop d ci count) g = n := ⟨_, rfl⟩
  have next := fillPiece_next hg h
  have aligned := granuleAt_aligned ha hr hs g
  have row := granuleAt_row (a := (refAt d 6).pla) (stride := (dword d 8).toNat) hr h0 h
  obtain ⟨positive, inShare, fits, inRow⟩ := pieceLen_fits aligned hr h0 h
  rw [hn] at positive inShare fits inRow
  have steps (i : Nat) (hi : i < n) := granuleAt_add (d := d) (a := (refAt d 6).pla) (stride := (dword d 8).toNat) (g := g) (i := i) (by omega)
  rw [hn, hgA] at next
  rw [hgA] at aligned row steps fits
  obtain ⟨pla, bytes⟩ := fillChunk_bytes (d := d) aligned fits (by omega)
  refine ⟨_, _, next, by omega, by omega, rfl, by rw [pla]; exact Nat.mul_mod_left .., fun b hb => (bytes b hb).1.trans ?_,
    fun b hb => (bytes b hb).2⟩
  rw [pla, Nat.max_eq_right positive]
  constructor
  · rintro ⟨lo, hi⟩
    obtain ⟨o, ho⟩ : ∃ o, A / 128 * 128 + b = A + o := ⟨_, (Nat.add_sub_cancel' lo).symm⟩
    refine ⟨g + o / 16, o % 16, by omega, by omega, by omega, ?_⟩
    have place := steps (o / 16) (by omega)
    rw [granuleAt] at place
    omega
  · rintro ⟨g', j, lo, hi, hj, place⟩
    obtain ⟨i, rfl⟩ : ∃ i, g' = g + i := ⟨_, (Nat.add_sub_cancel' (by omega : g ≤ g')).symm⟩
    have granule := steps i (by omega)
    rw [granuleAt] at granule
    omega

/-! ### The statement -/

/-- Settles O53: each step, answer and push by its equation above, and the pieces of a FILL by their addresses. -/
theorem builtinShares : Obligations.BuiltinShares := by
  unfold Obligations.BuiltinShares
  refine ⟨fun units _ i => shareOf_tiles units i, ?step, ?answer, ?part, ?fill⟩
  case step =>
    intro s t w hok c x hk hn hl hs hst hr ho hc reads writes quiet
    have next (f : Core → Core) : actCore s f = .next (s.withCore (f c)) := actCore_of_ok hok f
    have issue : fxDmaLineIssue t 0 c = shareIssue t c := fxDmaLineIssue_share hk hn hr ho hc
    have asks (key : Nat) (h : shareIssue t c = shareRead t w key c) : reads key := by
      intro e pla home hx hw hf
      obtain ⟨q, asked⟩ := shareRead_asks hk hc hx hw rfl hf
      refine ⟨_, q, next _, s.keeps_withCore _, ?_⟩
      rw [State.withCore_core, issue, h]
      exact asked
    have sends (k : PoolWr) (g : Work → Work) (h : shareIssue t c = shareWrite t w k (modWork t g c)) : writes k (g w) := by
      intro e pla home hx hw hf
      obtain ⟨q, sent⟩ := shareWrite_sends g hk hc hx hw rfl hf
      refine ⟨_, q, next _, s.keeps_withCore _, ?_⟩
      rw [State.withCore_core, issue, h]
      exact sent
    have stays (g : Work → Work) (h : shareIssue t c = modWork t g c) : quiet (g w) := by
      refine ⟨_, next _, s.keeps_withCore _, ?_⟩
      rw [State.withCore_core, issue, h]
      exact ⟨rfl, rfl, modWork_work g hk⟩
    refine ⟨fun hp hb h3 => ?whole, fun hp hb => ?line, fun hp h3 hposted => ?parts, fun dest y r hp => ?push⟩
    case whole =>
      have step : shareIssue t c = shareWhole t w c := by
        rw [shareIssue_step hk hl hs hst hc hp, if_neg (fun h => by simp [h3 h.1] at h), hb, if_neg Bool.false_ne_true]
      have known (hw : w.wr = none) : shareIssue t c = shareKnown t w c := by rw [step, shareWhole, hw]
      refine ⟨fun key hw h => asks key ?_, fun hw h => (next _).trans ?_, fun o hw h => ?_, fun k r hw => ?_, fun hw => ?_⟩
      · rw [known hw, shareKnown, h]
        rfl
      · rw [issue, known hw, shareKnown, h]
        rfl
      · have kept := stays _ ((known hw).trans (by rw [shareKnown, h]))
        rwa [hst] at kept
      · exact sends k (fun w => { w with wr := some r }) (by rw [step, shareWhole, hw])
      · exact stays _ (by rw [step, shareWhole, hw]; rfl)
    case line =>
      have step : shareIssue t c = shareLine t w c := by
        rw [shareIssue_step hk hl hs hst hc hp, if_neg (fun h => by simp [byLine, h.1] at hb), if_pos hb]
      refine ⟨fun key h => asks key ?_, fun k n cur h => ?_, fun h => stays (fun w => { w with status := some (0, 0, 0) }) ?_⟩
      · rw [step, shareLine, h]
        rfl
      · exact sends k (fun w => { w with cursor := cur, sat := w.sat + n, poisonedOut := w.poisonedOut + k.poison.toNat })
          (by rw [step, shareLine, h])
      · rw [step, shareLine, h]
        rfl
    case parts =>
      have step : shareIssue t c = shareParts t w c := by
        rw [shareIssue_step hk hl hs hst hc hp, if_pos ⟨h3, by rw [hposted]; rfl⟩]
      refine ⟨fun key h => asks key (by rw [step, shareParts, h]; rfl), fun ps h => stays _ (by rw [step, shareParts, h])⟩
    case push =>
      refine ⟨_, next _, s.keeps_withCore _, ?_⟩
      rw [State.withCore_core, issue, shareIssue_push hk hl hs hst hc hp]
      exact pushPart_sends hk hc hp
  case answer =>
    intro s t w r l hok c x hk hn hf hp hl hop h0 hw hc
    obtain ⟨n, tile⟩ := dmaNow_share hk hn hl hop h0 hw hc
    refine ⟨_, keepLine l r w, actCore_of_ok hok _, s.keeps_withCore _, ?_⟩
    rw [State.withCore_core, fxDmaResponse, tilePacket_active hf (.inl rfl) hp, tile]
    refine ⟨congrArg DmaChan.lines (chanOf_setChan x 0 _), rfl, ?_, rfl⟩
    rw [keepLine, tget_tput_same, hc]
  case part =>
    intro s t j w k hok c x hk h3 hj hu hf hp
    refine ⟨_, actCore_of_ok hok _, s.keeps_withCore _, ?_⟩
    rw [State.withCore_core, fxPushData_taken hf hu hp, pushNow_part hj hu, modWork_get_tile, hk]
    exact ⟨rfl, congrArg some (if_pos h3)⟩
  case fill =>
    intro d ci count cur a rb stride rows pattern units g0 stop ha hr hs h0 hA
    exact ⟨fillPiece_end, fillPiece_writes ha hr hs h0 hA⟩

end Sys2Proof.Machine
end

section
/-! SUPPORT. The words of the kernel instructions and the rows and fields that they spell: O56 (R162, R163). -/

namespace Sys2Proof.Machine
open Sys2Proof

/-- OP of a row's instruction as its word carries it: OP[7] marks the second form of a row that has one (R162). -/
def wordOp (r : YkRow) (rep : Bool) : Nat := if rep ∧ r.op < 128 then r.op + 128 else r.op

/-- CLASS and OP fit their bits, and the table's search finds each row again by them, in either form. -/
theorem ykFind_wordOp : ∀ r ∈ ykRows, ∀ rep : Bool, (rep = true → r.rep = true) →
    r.cls < 16 ∧ wordOp r rep < 256 ∧ ykFind r.cls (wordOp r rep) = some (r, rep) := by decide +kernel

/-- Each field of a row's word is what was put there: the fields do not overlap (R162). -/
theorem field_word (r : YkRow) (f : YkF) (hcls : r.cls < 16) (hop : wordOp r f.rep < 256) :
    field (r.word f) 3 0 = r.cls ∧ field (r.word f) 11 4 = wordOp r f.rep ∧ field (r.word f) 16 12 = f.d.toNat ∧
    field (r.word f) 21 17 = f.a.toNat ∧ field (r.word f) 26 22 = f.b.toNat ∧ field (r.word f) 31 27 = f.c.toNat ∧
    field (r.word f) 63 32 = f.imm.toNat := by
  have hd := f.d.isLt
  have ha := f.a.isLt
  have hb := f.b.isLt
  have hc := f.c.isLt
  have hi := f.imm.isLt
  have word : (r.word f).toNat = r.cls + wordOp r f.rep * 2 ^ 4 + f.d.toNat * 2 ^ 12 + f.a.toNat * 2 ^ 17 + f.b.toNat * 2 ^ 22 +
      f.c.toNat * 2 ^ 27 + f.imm.toNat * 2 ^ 32 := by
    change (BitVec.ofNat 64 (r.cls + wordOp r f.rep * 2 ^ 4 + _ + _ + _ + _ + _)).toNat = _
    rw [BitVec.toNat_ofNat, Nat.mod_eq_of_lt (by omega)]
  simp only [field, word, Nat.shiftRight_eq_div_pow]
  refine ⟨?_, ?_, ?_, ?_, ?_, ?_, ?_⟩ <;> omega

/-- The fields of a word beside CLASS and OP (R162). -/
def wordFields (w : BitVec 64) (rep : Bool) : YkF :=
  ⟨rep, BitVec.ofNat 5 (field w 16 12), BitVec.ofNat 5 (field w 21 17), BitVec.ofNat 5 (field w 26 22), BitVec.ofNat 5 (field w 31 27),
    BitVec.ofNat 32 (field w 63 32)⟩

theorem ykDecode_of_find {w : BitVec 64} {r : YkRow} {rep : Bool} (h : ykFind (field w 3 0) (field w 11 4) = some (r, rep)) :
    ykDecode w = if r.legal (wordFields w rep) then some (r, wordFields w rep) else none := by
  unfold ykDecode
  rw [h]
  rfl

/-- A legal instruction's word decodes to its row and fields. -/
theorem ykDecode_word {r : YkRow} {f : YkF} (hr : r ∈ ykRows) (hl : r.legal f = true) (hrep : f.rep = true → r.rep = true) :
    ykDecode (r.word f) = some (r, f) := by
  obtain ⟨hcls, hop, hfind⟩ := ykFind_wordOp r hr f.rep hrep
  obtain ⟨ecls, eop, ed, ea, eb, ec, ei⟩ := field_word r f hcls hop
  have fields : wordFields (r.word f) f.rep = f := by
    simp only [wordFields, ed, ea, eb, ec, ei, BitVec.ofNat_toNat, BitVec.setWidth_eq]
  rw [ykDecode_of_find (by rw [ecls, eop]; exact hfind), fields, if_pos hl]

/-- The words that the manual's tables spell, and words that no row lists (R163, R180). -/
theorem ykDecode_examples :
    ykDecode 0x0001000000041037 = some (rowTmul, ⟨false, 1, 2, 0, 0, 0x10000⟩) ∧
    ykDecode 0xFFFFFFF800065800 = some (rowAdd, ⟨true, 5, 3, 0, 0, 0xFFFFFFF8⟩) ∧
    ykDecode 0x00000010000470B1 = some (rowSd, ⟨false, 7, 2, 0, 0, 0x10⟩) ∧
    ykDecode 0x0000000000000102 = some (rowHalt, ⟨false, 0, 0, 0, 0, 0⟩) ∧
    ykDecode 0x0000000100147069 = some (rowSread, ⟨false, 7, 10, 0, 0, 1⟩) ∧
    ykDecode 0x000000000000000A = none ∧ ykDecode 0x0000000000000180 = none ∧ ykDecode 0x0000000000001102 = none := by
  decide +kernel

/-- Settles O56: the fields of a word do not overlap, and CLASS and OP tell the rows apart. -/
theorem kernelWordsRoundTrip : Obligations.KernelWordsRoundTrip := by
  unfold Obligations.KernelWordsRoundTrip
  exact ⟨fun r f hr hl hrep => ykDecode_word hr hl hrep, ykDecode_examples⟩

end Sys2Proof.Machine
end

section
/-! Scalar arithmetic: O1, O2 (R158, R164). -/

namespace Sys2Proof.Machine
open Sys2Proof

/-! ### Operations in numbers (R164) -/

section
variable (a b : BitVec 64)

theorem shl_shAmt_toNat : (a <<< shAmt b).toNat = a.toNat * 2 ^ (b.toNat % 64) % 2 ^ 64 := by
  rw [shAmt, BitVec.toNat_shiftLeft, Nat.shiftLeft_eq]

theorem shr_shAmt_toNat : (a >>> shAmt b).toNat = a.toNat / 2 ^ (b.toNat % 64) := by
  rw [shAmt, BitVec.toNat_ushiftRight, Nat.shiftRight_eq_div_pow]

theorem sar_shAmt_toInt : (a.sshiftRight (shAmt b)).toInt = a.toInt / 2 ^ (b.toNat % 64) := by
  rw [shAmt, BitVec.toInt_sshiftRight, Int.shiftRight_eq_div_pow]
  norm_cast

theorem bool64_toNat (p : Bool) : (bool64 p).toNat = if p then 1 else 0 := by
  cases p <;> rfl

theorem slt_toNat : (bool64 (a.slt b)).toNat = if a.toInt < b.toInt then 1 else 0 := by
  simp [bool64_toNat, BitVec.slt]

theorem ult_toNat : (bool64 (a.ult b)).toNat = if a.toNat < b.toNat then 1 else 0 := by
  simp [bool64_toNat, BitVec.ult]

theorem minS_toInt : (if a.slt b then a else b).toInt = min a.toInt b.toInt := by
  simp only [BitVec.slt, decide_eq_true_eq]
  split <;> omega

theorem maxS_toInt : (if a.slt b then b else a).toInt = max a.toInt b.toInt := by
  simp only [BitVec.slt, decide_eq_true_eq]
  split <;> omega

theorem minU_toNat : (if a.ult b then a else b).toNat = min a.toNat b.toNat := by
  simp only [BitVec.ult, decide_eq_true_eq]
  split <;> omega

theorem maxU_toNat : (if a.ult b then b else a).toNat = max a.toNat b.toNat := by
  simp only [BitVec.ult, decide_eq_true_eq]
  split <;> omega

end

/-- Settles O1: each row is one function of x[A] and the second operand. -/
theorem scalarAddLogicCompare : Obligations.ScalarAddLogicCompare := by
  unfold Obligations.ScalarAddLogicCompare
  intro s t f hok q a b gives
  have row {r : YkRow} {i : Instr} {ok : BitVec 64 → Prop} (g : BitVec 64 → BitVec 64 → BitVec 64)
      (hi : exec i s = aluInstr r g t f s) (hv : ofVecUnit r = false) (hg : ok (g a b)) : gives i r ok :=
    fun h => ⟨g a b, hi.trans (aluInstr_next hok h hv), hg⟩
  exact ⟨row (· + ·) rfl rfl (BitVec.toNat_add a b),
    row (· - ·) rfl rfl (by rw [BitVec.toNat_sub, Nat.add_comm]),
    row (· &&& ·) rfl rfl fun _ => BitVec.getLsbD_and,
    row (· ||| ·) rfl rfl fun _ => BitVec.getLsbD_or,
    row (· ^^^ ·) rfl rfl fun _ => BitVec.getLsbD_xor,
    row (fun a b => a <<< shAmt b) rfl rfl (shl_shAmt_toNat a b),
    row (fun a b => a >>> shAmt b) rfl rfl (shr_shAmt_toNat a b),
    row (fun a b => a.sshiftRight (shAmt b)) rfl rfl (sar_shAmt_toInt a b),
    row (fun a b => bool64 (a.slt b)) rfl rfl (slt_toNat a b),
    row (fun a b => bool64 (a.ult b)) rfl rfl (ult_toNat a b),
    row (fun a b => if a.slt b then a else b) rfl rfl (minS_toInt a b),
    row (fun a b => if a.slt b then b else a) rfl rfl (maxS_toInt a b),
    row (fun a b => if a.ult b then a else b) rfl rfl (minU_toNat a b),
    row (fun a b => if a.ult b then b else a) rfl rfl (maxU_toNat a b)⟩

/-! ### Products, quotients and remainders (R164) -/

section
variable (a b : BitVec 64)

/-- A number in the range of a signed word is that word's. -/
theorem toInt_ofInt_64 {z : Int} (hlo : -2 ^ 63 ≤ z) (hhi : z < 2 ^ 63) : (BitVec.ofInt 64 z).toInt = z := by
  rw [BitVec.toInt_ofInt]
  exact Int.bmod_eq_of_le (by omega) (by omega)

theorem toInt_range : -2 ^ 63 ≤ a.toInt ∧ a.toInt < 2 ^ 63 :=
  ⟨BitVec.le_toInt a, BitVec.toInt_lt⟩

theorem mulhS_toInt : (mulhS a b).toInt = a.toInt * b.toInt / 2 ^ 64 := by
  obtain ⟨al, ah⟩ := toInt_range a
  obtain ⟨bl, bh⟩ := toInt_range b
  have h1 : -(2 ^ 126) ≤ a.toInt * b.toInt := by nlinarith
  have h2 : a.toInt * b.toInt ≤ 2 ^ 126 := by nlinarith
  exact toInt_ofInt_64 (by omega) (by omega)

theorem mulhU_toNat : (mulhU a b).toNat = a.toNat * b.toNat / 2 ^ 64 := by
  have h : a.toNat * b.toNat < 2 ^ 64 * 2 ^ 64 := Nat.mul_lt_mul'' a.isLt b.isLt
  rw [mulhU, BitVec.toNat_ofNat, Nat.mod_eq_of_lt (by omega)]

theorem ne_zero_of_toNat {b : BitVec 64} (h : b.toNat ≠ 0) : b ≠ 0 := by
  rintro rfl
  exact h rfl

theorem eq_zero_of_toNat {b : BitVec 64} (h : b.toNat = 0) : b = 0 := BitVec.eq_of_toNat_eq h

/-- A quotient is no word only in the overflow case. -/
theorem tdiv_range {x y : Int} (hx : -2 ^ 63 ≤ x ∧ x < 2 ^ 63) (hxy : ¬(x = -2 ^ 63 ∧ y = -1)) :
    -2 ^ 63 ≤ x.tdiv y ∧ x.tdiv y < 2 ^ 63 := by
  have size : (x.tdiv y).natAbs = x.natAbs / y.natAbs := Int.natAbs_tdiv x y
  have le : x.natAbs / y.natAbs ≤ x.natAbs := Nat.div_le_self ..
  by_cases hy : y = -1
  · subst hy
    rw [Int.tdiv_neg, Int.tdiv_one]
    omega
  by_cases hy1 : y = 1
  · subst hy1
    rw [Int.tdiv_one]
    exact hx
  by_cases hy0 : y = 0
  · subst hy0
    rw [Int.tdiv_zero]
    decide
  have half : x.natAbs / y.natAbs ≤ x.natAbs / 2 := Nat.div_le_div_left (by omega) (by decide)
  omega

theorem tmod_range {x : Int} (y : Int) (hx : -2 ^ 63 ≤ x ∧ x < 2 ^ 63) : -2 ^ 63 ≤ x.tmod y ∧ x.tmod y < 2 ^ 63 := by
  have size : (x.tmod y).natAbs = x.natAbs % y.natAbs := Int.natAbs_tmod x y
  have le : x.natAbs % y.natAbs ≤ x.natAbs := Nat.mod_le ..
  by_cases hx0 : 0 ≤ x
  · have := Int.tmod_nonneg y hx0
    omega
  · have := Int.tmod_nonneg y (show 0 ≤ -x by omega)
    rw [Int.neg_tmod] at this
    omega

/-- Division by zero gives all ones, and the most negative value divided by −1 itself; else it rounds toward zero. -/
theorem divS_spec : (b.toNat = 0 → (divS a b).toNat = 2 ^ 64 - 1) ∧ (a.toInt = -2 ^ 63 ∧ b.toInt = -1 → divS a b = a) ∧
    (b.toNat ≠ 0 → ¬(a.toInt = -2 ^ 63 ∧ b.toInt = -1) → (divS a b).toInt = a.toInt.tdiv b.toInt) := by
  obtain ⟨al, ah⟩ := toInt_range a
  refine ⟨fun hb => ?zero, fun ⟨ha, hb⟩ => ?overflow, fun hb hab => ?rest⟩
  case zero => rw [divS, if_pos (eq_zero_of_toNat hb)]; rfl
  case overflow =>
    have hn : b ≠ 0 := by rintro rfl; exact absurd hb (by decide)
    rw [divS, if_neg hn, ha, hb]
    apply BitVec.eq_of_toInt_eq
    rw [ha]
    decide
  case rest =>
    rw [divS, if_neg (ne_zero_of_toNat hb)]
    obtain ⟨lo, hi⟩ := tdiv_range (toInt_range a) hab
    exact toInt_ofInt_64 lo hi

theorem remS_spec : (b.toNat = 0 → remS a b = a) ∧ (a.toInt = -2 ^ 63 ∧ b.toInt = -1 → (remS a b).toNat = 0) ∧
    (b.toNat ≠ 0 → ¬(a.toInt = -2 ^ 63 ∧ b.toInt = -1) → (remS a b).toInt = a.toInt.tmod b.toInt) := by
  obtain ⟨al, ah⟩ := toInt_range a
  refine ⟨fun hb => ?zero, fun ⟨ha, hb⟩ => ?overflow, fun hb hab => ?rest⟩
  case zero => rw [remS, if_pos (eq_zero_of_toNat hb)]
  case overflow =>
    have hn : b ≠ 0 := by rintro rfl; exact absurd hb (by decide)
    rw [remS, if_neg hn, ha, hb]
    rfl
  case rest =>
    rw [remS, if_neg (ne_zero_of_toNat hb)]
    obtain ⟨lo, hi⟩ := tmod_range b.toInt (toInt_range a)
    exact toInt_ofInt_64 lo hi

theorem divU_spec : (b.toNat = 0 → (divU a b).toNat = 2 ^ 64 - 1) ∧ (b.toNat ≠ 0 → (divU a b).toNat = a.toNat / b.toNat) := by
  refine ⟨fun hb => ?zero, fun hb => ?rest⟩
  case zero => rw [divU, if_pos (eq_zero_of_toNat hb)]; rfl
  case rest =>
    rw [divU, if_neg (ne_zero_of_toNat hb), BitVec.toNat_ofNat, Nat.mod_eq_of_lt (lt_of_le_of_lt (Nat.div_le_self ..) a.isLt)]

theorem remU_spec : (b.toNat = 0 → remU a b = a) ∧ (b.toNat ≠ 0 → (remU a b).toNat = a.toNat % b.toNat) := by
  refine ⟨fun hb => ?zero, fun hb => ?rest⟩
  case zero => rw [remU, if_pos (eq_zero_of_toNat hb)]
  case rest =>
    rw [remU, if_neg (ne_zero_of_toNat hb), BitVec.toNat_ofNat, Nat.mod_eq_of_lt (lt_of_le_of_lt (Nat.mod_le ..) a.isLt)]

end

/-- LIH: the immediate above the low half of x[D]. -/
theorem append_low_toNat (i : BitVec 32) (x : BitVec 64) : (i ++ x.setWidth 32).toNat = i.toNat * 2 ^ 32 + x.toNat % 2 ^ 32 := by
  rw [BitVec.toNat_append, BitVec.toNat_setWidth, Nat.shiftLeft_eq, Nat.mul_comm,
    Nat.two_pow_add_eq_or_of_lt (Nat.mod_lt _ (by decide))]

/-- Settles O2: each row but LI and LIH is one function of x[A] and the second operand. -/
theorem scalarMultiplyDivide : Obligations.ScalarMultiplyDivide := by
  unfold Obligations.ScalarMultiplyDivide
  intro s t f hok q a b gives
  have row {r : YkRow} {i : Instr} {ok : BitVec 64 → Prop} (g : BitVec 64 → BitVec 64 → BitVec 64)
      (hi : exec i s = aluInstr r g t f s) (hv : ofVecUnit r = false) (hg : ok (g a b)) : gives i r ok :=
    fun h => ⟨g a b, hi.trans (aluInstr_next hok h hv), hg⟩
  exact ⟨row (· * ·) rfl rfl (BitVec.toNat_mul a b), row mulhS rfl rfl (mulhS_toInt a b), row mulhU rfl rfl (mulhU_toNat a b),
    row divS rfl rfl (divS_spec a b), row divU rfl rfl (divU_spec a b), row remS rfl rfl (remS_spec a b), row remU rfl rfl (remU_spec a b),
    fun h => ⟨_, ykStep_done hok h rfl rfl, BitVec.toInt_signExtend_of_le (by decide)⟩,
    fun h => ⟨_, ykStep_done hok h rfl rfl, append_low_toNat ..⟩⟩

end Sys2Proof.Machine
end

section
/-! Scalar loads and stores: O3, O4 (R165, R187, R304, R305). -/

namespace Sys2Proof.Machine
open Sys2Proof

/-! ### The checks of an access (R165, R187) -/

section
variable {a n : Nat} {ok : YkRes}

theorem scalarCheck_ok (ha : a % n = 0) (hs : a < lsSize) : scalarCheck a n ok = ok := by
  rw [scalarCheck, if_neg (not_not.2 ha), if_neg (Nat.not_le.2 hs)]

theorem scalarCheck_misaligned (ha : a % n ≠ 0) : scalarCheck a n ok = .trap 4 (BitVec.ofNat 64 a) false := by
  rw [scalarCheck, if_pos ha]

theorem scalarCheck_outside (ha : a % n = 0) (hs : lsSize ≤ a) : scalarCheck a n ok = .trap 5 (BitVec.ofNat 64 a) false := by
  rw [scalarCheck, if_neg (not_not.2 ha), if_pos hs]

end

/-! ### Loads (R165, R305) -/

/-- A load of `n` bytes extended by `g`. -/
theorem loadInstr_rule {s : State} {r : YkRow} {t : Nat} {f : YkF} {i : Instr} {n : Nat} {g : Nat → BitVec 64} {ok : Nat → BitVec 64 → Prop}
    (hok : s.ok = true) (hi : exec i s = loadInstr r n g t f s) (hv : ofVecUnit r = false) (hn : n ∈ [1, 2, 4, 8])
    (hg : ∀ k, k < 256 ^ n → ok k (g k)) : loadRule s t f r i n ok := by
  unfold loadRule
  intro c x a h
  have hn' : n ∈ [1, 2, 4, 8, 16, 32, 64] := by simp only [List.mem_cons] at hn ⊢; tauto
  rw [hi]
  refine ⟨fun ha hs hp => ⟨g (rdLE x.ls a n), ?clean, hg _ (rdLE_lt ..)⟩, fun ha hs hp => ?poisoned, fun ha => ?misaligned, fun ha hs => ?outside⟩
  case clean =>
    have clean : (poisonIn x a n).isEmpty = true := by rw [poisonIn_aligned x hn' ha, if_neg hp]; rfl
    exact ykStep_done hok h hv ((scalarCheck_ok ha hs).trans (congrArg YkRes.go (if_pos clean)))
  case poisoned =>
    have met : ¬(poisonIn x a n).isEmpty = true := by rw [poisonIn_aligned x hn' ha, if_pos hp]; exact Bool.false_ne_true
    exact ykStep_goes hok h hv ((scalarCheck_ok ha hs).trans (congrArg YkRes.go (if_neg met)))
  case misaligned => exact ykStep_traps hok h (scalarCheck_misaligned ha)
  case outside => exact ykStep_traps hok h (scalarCheck_outside ha hs)

theorem sext_toInt {w : Nat} (hw : w ≤ 64) (k : Nat) : (sext w k).toInt = (k : Int).bmod (2 ^ w) := by
  rw [sext, BitVec.toInt_signExtend_of_le hw, BitVec.toInt_ofNat']

/-- Settles O3: what each row reads, it extends to the number it stands for. -/
theorem scalarLoads : Obligations.ScalarLoads := by
  unfold Obligations.ScalarLoads
  intro s t f hok
  have unsigned {n : Nat} (hn : n ∈ [1, 2, 4, 8]) (k : Nat) (hk : k < 256 ^ n) : (BitVec.ofNat 64 k).toNat = k := by
    have : 256 ^ n ≤ 256 ^ 8 := Nat.pow_le_pow_right (by decide) (by simp only [List.mem_cons, List.not_mem_nil, or_false] at hn; omega)
    rw [BitVec.toNat_ofNat, Nat.mod_eq_of_lt (by omega)]
  exact ⟨loadInstr_rule (g := sext 8) hok rfl rfl (by decide) fun k _ => sext_toInt (by decide) k,
    loadInstr_rule (g := sext 16) hok rfl rfl (by decide) fun k _ => sext_toInt (by decide) k,
    loadInstr_rule (g := sext 32) hok rfl rfl (by decide) fun k _ => sext_toInt (by decide) k,
    loadInstr_rule (g := BitVec.ofNat 64) hok rfl rfl (by decide) (unsigned (by decide)),
    loadInstr_rule (g := BitVec.ofNat 64) hok rfl rfl (by decide) (unsigned (by decide)),
    loadInstr_rule (g := BitVec.ofNat 64) hok rfl rfl (by decide) (unsigned (by decide)),
    loadInstr_rule (g := BitVec.ofNat 64) hok rfl rfl (by decide) (unsigned (by decide))⟩

/-! ### Stores (R165, R304) -/

/-- A store of at most eight bytes. -/
theorem storeInstr_rule {s : State} {r : YkRow} {t : Nat} {f : YkF} {i : Instr} {n : Nat}
    (hok : s.ok = true) (hi : exec i s = storeInstr r n t f s) (hv : ofVecUnit r = false) (hn : n ∈ [1, 2, 4, 8]) :
    storeRule s t f r i n := by
  unfold storeRule
  intro x a h
  have hn' : n ∈ [1, 2, 4, 8, 16, 32] := by simp only [List.mem_cons] at hn ⊢; tauto
  rw [hi]
  refine ⟨fun ha hs => ⟨wrLE x.ls a n (rdX x.seq f.d).toNat, ?stored, fun k => rdByte_wrLE ..⟩, fun ha => ?misaligned,
    fun ha hs => ?outside⟩
  case stored =>
    exact ykStep_done hok h hv ((scalarCheck_ok ha hs).trans (congrArg (fun y => YkRes.go (s.dev.core.setTile t y)) (poisonWrite_part _ hn' ha)))
  case misaligned => exact ykStep_traps hok h (scalarCheck_misaligned ha)
  case outside => exact ykStep_traps hok h (scalarCheck_outside ha hs)

/-- Settles O4: the four rows differ in their sizes alone. -/
theorem scalarStores : Obligations.ScalarStores := by
  unfold Obligations.ScalarStores
  intro s t f hok
  exact ⟨storeInstr_rule hok rfl rfl (by decide), storeInstr_rule hok rfl rfl (by decide), storeInstr_rule hok rfl rfl (by decide),
    storeInstr_rule hok rfl rfl (by decide)⟩

end Sys2Proof.Machine
end

section
/-! Control flow, waits and system registers: O5, O7, O8 (R161, R166, R167, R168, R182, R188, R193). -/

namespace Sys2Proof.Machine
open Sys2Proof

/-! ### Jumps (R166, R167) -/

section
variable {s : State} {r : YkRow} {t : Nat} {f : YkF} {body : Core → YkRes} {i : Instr} (hok : s.ok = true)
  (hi : exec i s = actCore s (ykStep r t f body)) (h : ykReady s.dev.core r t f = true)
include hok hi h

/-- A jump whose own effect is the core `d`. -/
theorem ykStep_jumps {d : Core} {g : Tile → Tile} {target : BitVec 64} (hb : body s.dev.core = .jump d target)
    (hd : s.withCore (d.modTile t (fun x => { x with seq := { x.seq with pc := target } })) = jumpDone s t g target) :
    jumpRule s t i g target := by
  unfold jumpRule
  rw [hi, actCore_ykStep hok, ykStep_ready _ h, hb, ← hd]
  refine ⟨fun aligned inside => ?goes, fun aligned => ?misaligned, fun aligned outside => ?outside⟩
  case goes =>
    dsimp only
    rw [if_neg (not_not.2 aligned), if_neg (Nat.not_le.2 inside)]
  case misaligned =>
    dsimp only
    rw [if_pos aligned]
    rfl
  case outside =>
    dsimp only
    rw [if_neg (not_not.2 aligned), if_pos outside]
    rfl

/-- A jump that also changes its tile by `g`. -/
theorem ykStep_jumps_tile {g : Tile → Tile} {target : BitVec 64} (hb : body s.dev.core = .jump (s.dev.core.modTile t g) target) :
    jumpRule s t i g target := by
  refine ykStep_jumps hok hi h hb ?_
  rw [Core.modTile_modTile]
  rfl

/-- An instruction without an effect of its own. -/
theorem ykStep_passes (hv : ofVecUnit r = false) (hb : body s.dev.core = .go s.dev.core) : exec i s = .next (ykDone s t id) :=
  hi.trans (ykStep_goes hok h hv hb)

end

theorem not_slt_iff {a b : BitVec 64} : (!a.slt b) = true ↔ b.toInt ≤ a.toInt := by
  simp [BitVec.slt]

theorem not_ult_iff {a b : BitVec 64} : (!a.ult b) = true ↔ b.toNat ≤ a.toNat := by
  simp [BitVec.ult]

/-- A branch whose comparison `g` says whether it is taken. -/
theorem branchInstr_rule {s : State} {r : YkRow} {t : Nat} {f : YkF} {i : Instr} {taken : Prop} (g : BitVec 64 → BitVec 64 → Bool)
    (hok : s.ok = true) (hi : exec i s = branchInstr r g t f s) (hv : ofVecUnit r = false)
    (hg : g (rdX (s.dev.core.tile t).seq f.a) (rdX (s.dev.core.tile t).seq f.b) = true ↔ taken) : branchRule s t f r i taken :=
  fun h => ⟨fun ht => ykStep_jumps hok hi h (if_pos (hg.2 ht)) rfl, fun ht => ykStep_passes hok hi h hv (if_neg (mt hg.1 ht))⟩

/-- Every kernel instruction is met by its tile's sequencer in the one way. -/
theorem exec_ykStep {i : Instr} {t : Nat} {f : YkF} {r : YkRow} (h : ykRow i = some (t, f, r)) :
    ∃ body, ∀ s, exec i s = actCore s (ykStep r t f body) := by
  cases i with
  | add t f | sub t f | and t f | or t f | xor t f | sll t f | srl t f | sra t f | slt t f | sltu t f | min t f | max t f | minu t f
  | maxu t f | mul t f | mulh t f | mulhu t f | div t f | divu t f | rem t f | remu t f | li t f | lih t f
  | lb t f | lh t f | lw t f | ld t f | lbu t f | lhu t f | lwu t f | sb t f | sh t f | sw t f | sd t f
  | beq t f | bne t f | blt t f | bge t f | bltu t f | bgeu t f | jal t f | jalr t f | halt t f | nop t f | trapi t f | tret t f | fence t f
  | srr t f | srw t f | vadd t f | vsub t f | vmul t f | vfma t f | vmax t f | vmin t f | vabs t f | vneg t f | vexp2 t f | vrcp t f
  | vrsqrt t f | vclt t f | vcle t f | vceq t f | viadd t f | visub t f | vimul t f | vand t f | vor t f | vxor t f | vshl t f | vshr t f
  | vsra t f | viclt t f | vsel t f | vbcast t f | viota t f | vext t f | vins t f | vrsum t f | vrmax t f | vrmin t f | vld t f | vlds t f
  | vldg t f | vst t f | vsts t f | vstg t f | vrda t f | vwra t f | vq t f | vdq t f | vcvti t f | vcvtf t f | tldd t f | tadd t f
  | tload t f | tmul t f | azero t f | dmaq t f | dmawait t f | dmares t f | dmastat t f | sprod t f | scons t f | swaita t f | swaits t f
  | sarr t f | swaitb t f | sread t f => cases h; exact ⟨_, fun _ => rfl⟩
  | _ => cases h

/-- An aligned PC at or above 2 MB traps before the instruction's own rules (R167). -/
theorem ykStep_fetchRange {c : Core} {r : YkRow} {t : Nat} {f : YkF} (body : Core → YkRes) (h1 : tileIssues c t = true)
    (h2 : (asyncPending (c.tile t).seq && !(c.tile t).seq.inTrap) = false) (h3 : (c.tile t).seq.pc.toNat % 8 = 0)
    (h4 : lsSize ≤ (c.tile t).seq.pc.toNat) :
    ykStep r t f body c = takeTrap t 3 false (c.tile t).seq.pc (c.tile t).seq.pc c := by
  unfold ykStep
  simp only [h1, h2, h3, h4, Bool.not_true, Bool.false_eq_true, if_false, ne_eq, not_true_eq_false, if_true]

/-- Settles O5: jumps by the target that their rows name, and the fetch check that goes before every instruction. -/
theorem branchesAndJumps : Obligations.BranchesAndJumps := by
  unfold Obligations.BranchesAndJumps
  intro s t f hok q a b
  refine ⟨branchInstr_rule (· == ·) hok rfl rfl beq_iff_eq, branchInstr_rule (· != ·) hok rfl rfl bne_iff_ne,
    branchInstr_rule (·.slt ·) hok rfl rfl BitVec.slt_iff_toInt_lt, branchInstr_rule (!·.slt ·) hok rfl rfl not_slt_iff,
    branchInstr_rule (·.ult ·) hok rfl rfl BitVec.ult_iff_toNat_lt, branchInstr_rule (!·.ult ·) hok rfl rfl not_ult_iff,
    fun h => ykStep_jumps_tile hok rfl h rfl, fun h => ykStep_jumps_tile hok rfl h rfl, fun h => ykStep_jumps_tile hok rfl h rfl,
    fun h => ykStep_passes hok rfl h rfl rfl, fun i r hr h1 h2 h3 h4 => ?_⟩
  obtain ⟨body, hi⟩ := exec_ykStep hr
  rw [hi, actCore_ykStep hok, ykStep_fetchRange body h1 h2 h3 h4]
  rfl

end Sys2Proof.Machine
end

section
/-! HALT, FENCE and the system registers: O7, O8 (R161, R168, R182, R193, R237). -/

namespace Sys2Proof.Machine
open Sys2Proof

theorem field_eq {w : Nat} (x : BitVec w) (hi lo : Nat) : field x hi lo = x.toNat / 2 ^ lo % 2 ^ (hi + 1 - lo) := by
  rw [field, Nat.shiftRight_eq_div_pow]

/-! ### HALT and FENCE (R182, R193) -/

theorem dmaQuiet_iff (x : Tile) : dmaQuiet x = true ↔
    ∀ e ∈ x.chans, e.2.halted = true ∨ (e.2.queue = [] ∧ e.2.run = [] ∧ ∀ l ∈ e.2.lines, l.dropped = true) := by
  simp only [dmaQuiet, List.all_eq_true, Bool.or_eq_true, quiet_iff]

theorem fenceVec_iff (x : Tile) (f : YkF) : fenceVec x f = true ↔
    f.imm.getLsbD 0 = true ∧ f.imm.toNat / 256 % 32 < x.vec.vecQ.length := by
  simp only [fenceVec, field_eq, Bool.and_eq_true, decide_eq_true_eq]
  rfl

theorem fenceMet_iff (x : Tile) (f : YkF) : fenceMet x f = true ↔
    (f.imm.getLsbD 1 = true → x.vec.arrayQ.length ≤ f.imm.toNat / 256 % 32) ∧
      (f.imm.getLsbD 2 = true → ∀ e ∈ x.chans, e.2.queue.length + e.2.run.length ≤ f.imm.toNat / 256 % 32) ∧
      (f.imm.getLsbD 3 = true → x.seq.unacked.length ≤ f.imm.toNat / 256 % 32) := by
  have named (b p : Bool) : (!b || p) = true ↔ (b = true → p = true) := by cases b <;> simp
  simp only [fenceMet, field_eq, Bool.and_eq_true, named, List.all_eq_true, decide_eq_true_eq, and_assoc]
  rfl

/-- Settles O7: HALT and FENCE by what they wait for. -/
theorem waitsHaltAndFence : Obligations.WaitsHaltAndFence := by
  unfold Obligations.WaitsHaltAndFence
  intro s t f hok x quiet left vecLate met
  have ready : (x.vec.arrayQ.isEmpty && dmaQuiet x && x.seq.unacked.isEmpty && x.seq.sread.isNone) = true ↔ quiet := by
    simp only [quiet, Bool.and_eq_true, List.isEmpty_iff, Option.isNone_iff_eq_none, dmaQuiet_iff, and_assoc]
  have queued : (!x.vec.vecQ.isEmpty) = true ↔ x.vec.vecQ ≠ [] := by simp
  have late : fenceVec x f = true ↔ vecLate := fenceVec_iff x f
  have done : fenceMet x f = true ↔ met := fenceMet_iff x f
  refine ⟨fun h => ⟨fun hq => ?haltQueued, fun hq hquiet => ?haltQuiet, fun hq hquiet => ?haltBusy⟩,
    fun h => ⟨fun hl => ?fenceLate, fun hl hm => ?fenceMet, fun hl hm => ?fenceWaits⟩⟩
  case haltQueued => exact ykStep_stays hok h (if_pos (queued.2 hq))
  case haltQuiet => exact ykStep_done hok h rfl ((if_neg (mt queued.1 (not_not.2 hq))).trans (if_pos (ready.2 hquiet)))
  case haltBusy => exact ykStep_stays hok h ((if_neg (mt queued.1 (not_not.2 hq))).trans (if_neg (mt ready.1 hquiet)))
  case fenceLate => exact ykStep_stays hok h (if_pos (late.2 hl))
  case fenceMet => exact ykStep_passes hok rfl h rfl ((if_neg (mt late.1 hl)).trans (if_pos (done.2 hm)))
  case fenceWaits => exact ykStep_stays hok h ((if_neg (mt late.1 hl)).trans (if_neg (mt done.1 hm)))

/-! ### System registers (R161, R168) -/

/-- TSTATUS bit by bit (R161). -/
theorem tstatus_bits (q : Seq) : (tstatus q).getLsbD 0 = q.inTrap ∧ (tstatus q).getLsbD 1 = q.dbl ∧
    (tstatus q).getLsbD 2 = q.pendLs.isSome ∧ (tstatus q).getLsbD 3 = !q.pendDma.isEmpty ∧ (tstatus q).getLsbD 4 = q.pendSync.isSome ∧
    (tstatus q).toNat < 32 := by
  have bits : ∀ a b c d e : Bool,
      let v := BitVec.ofNat 64 ((if a then 1 else 0) + (if b then 2 else 0) + (if c then 4 else 0) + (if d then 0 else 8) + (if e then 16 else 0))
      v.getLsbD 0 = a ∧ v.getLsbD 1 = b ∧ v.getLsbD 2 = c ∧ v.getLsbD 3 = !d ∧ v.getLsbD 4 = e ∧ v.toNat < 32 := by decide
  exact bits q.inTrap q.dbl q.pendLs.isSome q.pendDma.isEmpty q.pendSync.isSome

section
variable {s : State} {t : Nat} {f : YkF} (hok : s.ok = true)
include hok

/-- SRR of a listed number but CYCLE's. -/
theorem srr_listed (h : ykReady s.dev.core rowSrr t f = true) {v : BitVec 64} {n : Nat} (hf : field f.imm 11 0 = n) (hn : n ≠ 0)
    (hv : ∀ k, sysRead (s.dev.core.tile t) k n = some v) : exec (.srr t f) s = .next (xDone s t f.d v) := by
  refine ykStep_done hok h rfl ?_
  dsimp only
  rw [hf, if_neg hn]
  dsimp only
  rw [hv]
  have still (k : BitVec 64) : k + BitVec.setWidth 64 (0 : BitVec 1024) = k := by simp
  simp only [still]
  rfl

/-- SRR of CYCLE: the count goes on by a free amount (log 7), and x[D] is the new count. -/
theorem srr_cycle (h : ykReady s.dev.core rowSrr t f = true) (hf : field f.imm 11 0 = 0) : ∃ v,
    let u := ykDone s t (fun x => { x with seq := wrX { x.seq with cycle := v } f.d v })
    exec (.srr t f) s = .next (u.withCore { u.dev.core with fresh := s.dev.core.fresh + 1 }) := by
  let v := (s.dev.core.tile t).seq.cycle + s.dev.core.free.1.setWidth 64
  refine ⟨v, (ykStep_goes (d := { s.dev.core with fresh := s.dev.core.fresh + 1 }.modSeq t fun q => wrX { q with cycle := v } f.d v)
    hok h rfl ?rules).trans ?effect⟩
  case rules =>
    dsimp only
    rw [hf, if_pos rfl]
    rfl
  case effect =>
    rw [Core.modSeq, Core.modTile_modTile]
    rfl

theorem srr_unlisted (h : ykReady s.dev.core rowSrr t f = true) (hv : ∀ k, sysRead (s.dev.core.tile t) k (field f.imm 11 0) = none) :
    exec (.srr t f) s = .next (trapState s t 1 (rowSrr.word f) (s.dev.core.tile t).seq.pc) := by
  refine ykStep_traps hok h ?_
  dsimp only
  rw [hv]

theorem srw_listed (h : ykReady s.dev.core rowSrw t f = true) {g : Seq → Seq}
    (hv : sysWrite (s.dev.core.tile t).seq (field f.imm 11 0) (rdX (s.dev.core.tile t).seq f.a) = some (g (s.dev.core.tile t).seq)) :
    exec (.srw t f) s = .next (ykDone s t (fun x => { x with seq := g x.seq })) := by
  refine ykStep_done hok h rfl ?_
  dsimp only
  rw [hv]
  rfl

theorem srw_unlisted (h : ykReady s.dev.core rowSrw t f = true)
    (hv : sysWrite (s.dev.core.tile t).seq (field f.imm 11 0) (rdX (s.dev.core.tile t).seq f.a) = none) :
    exec (.srw t f) s = .next (trapState s t 1 (rowSrw.word f) (s.dev.core.tile t).seq.pc) := by
  refine ykStep_traps hok h ?_
  dsimp only
  rw [hv]

end

/-- Settles O8: the registers that SRR and SRW list, and no others. -/
theorem systemRegisters : Obligations.SystemRegisters := by
  unfold Obligations.SystemRegisters
  intro s t f hok x q n rd wr
  have number : field f.imm 11 0 = n := (field_eq ..).trans (congrArg (· % 2 ^ 12) (Nat.div_one _))
  refine ⟨fun h => ?reads, fun h => ?writes⟩
  case reads =>
    have lists {k : Nat} {v : BitVec 64} (hk : k ≠ 0) (hv : ∀ c, sysRead x c k = some v) (hn : n = k) : rd v :=
      srr_listed hok h (number.trans hn) hk hv
    refine ⟨fun hn => srr_cycle hok h (number.trans hn), lists (by decide) fun _ => rfl, lists (by decide) fun _ => rfl,
      lists (by decide) fun _ => rfl, lists (by decide) fun _ => rfl, lists (by decide) fun _ => rfl, lists (by decide) fun _ => rfl,
      lists (by decide) fun _ => rfl, lists (by decide) fun _ => rfl,
      fun hn => ⟨tstatus q, lists (k := 0x024) (by decide) (fun _ => rfl) hn, tstatus_bits q⟩, lists (by decide) fun _ => rfl,
      fun hn => srr_unlisted hok h fun k => ?_⟩
    simp only [List.mem_cons, List.not_mem_nil, or_false, not_or] at hn
    simp only [number, sysRead, hn, if_false]
  case writes =>
    have lists {k : Nat} (g : Seq → Seq) (hv : sysWrite q k (rdX q f.a) = some (g q)) (hn : n = k) : wr g :=
      srw_listed hok h ((congrArg (sysWrite q · _) (number.trans hn)).trans hv)
    refine ⟨lists (fun q => { q with fflags := (rdX q f.a).setWidth 5 }) rfl, lists (fun q => { q with satcnt := rdX q f.a }) rfl,
      lists (fun q => { q with tvec := rdX q f.a }) rfl, lists (fun q => { q with tpc := rdX q f.a }) rfl, fun hn => srw_unlisted hok h ?_⟩
    simp only [List.mem_cons, List.not_mem_nil, or_false, not_or] at hn
    simp only [number, sysWrite, hn, if_false]

end Sys2Proof.Machine
end

section
/-! Traps, precise and asynchronous: O6, O18 (R163, R181, R187, R188, R189, R190). -/

namespace Sys2Proof.Machine
open Sys2Proof

/-! ### The trapped tile (R188, R190) -/

/-- A tile as a trap leaves it: in its handler, or, with no handler or inside one, in the trapped state with its work item failed. -/
def trapTile (x : Tile) (cause : Nat) (async : Bool) (info tpc : BitVec 64) : Tile :=
  let q := { x.seq with tcause := BitVec.ofNat 9 (cause + if async then 256 else 0), tpc := tpc, tinfo := info }
  if x.seq.tvec ≠ 0 ∧ x.seq.inTrap = false then { x with fTrap := true, seq := { q with inTrap := true, pc := x.seq.tvec } }
  else
    let dbl := x.seq.inTrap || x.seq.dbl
    { x with
      fTrap := true
      seq := { q with dbl := dbl, st := .trapped }
      work := failWork x.work 0x28 (BitVec.ofNat 64 (tpc.toNat % 2 ^ 21 + cause * 2 ^ 32 + if dbl then 2 ^ 40 else 0)) }

/-- Beside its tile a trap changes but the counters, and what a log entry changes. -/
theorem takeTrap_trapTile (t cause : Nat) (async : Bool) (info tpc : BitVec 64) (c : Core) :
    (takeTrap t cause async info tpc c).rest = (c.setTile t (trapTile (c.tile t) cause async info tpc)).rest := by
  have counted (y : Tile) : ((countEvent 4 t 13 1 (some (c.tile t).ptn) c).setTile t y).rest = (c.setTile t y).rest :=
    setTile_rest (countEvent_rest ..) t y
  unfold takeTrap trapTile
  dsimp only
  split
  · exact counted _
  · exact (logE_rest ..).trans (counted _)

theorem takeTrap_tile (t cause : Nat) (async : Bool) (info tpc : BitVec 64) (c : Core) :
    (takeTrap t cause async info tpc c).tile t = trapTile (c.tile t) cause async info tpc :=
  (tile_of_rest (takeTrap_trapTile ..) t).trans (Core.setTile_same ..)

section
variable (x : Tile) (cause : Nat) (async : Bool) (info tpc : BitVec 64)

theorem trapTile_frame : let y := trapTile x cause async info tpc
    y.seq.tcause = BitVec.ofNat 9 (cause + if async then 256 else 0) ∧ y.seq.tpc = tpc ∧ y.seq.tinfo = info ∧ y.fTrap = true := by
  unfold trapTile
  dsimp only
  split <;> exact ⟨rfl, rfl, rfl, rfl⟩

/-- What a trap leaves of its tile. -/
theorem trapTile_kept : let y := trapTile x cause async info tpc
    y.seq.x = x.seq.x ∧ y.vec = x.vec ∧ y.ls = x.ls ∧ y.lsPoison = x.lsPoison ∧ y.chans = x.chans ∧ y.seq.wait = x.seq.wait ∧
      y.seq.dmaWait = x.seq.dmaWait ∧ y.seq.pendLs = x.seq.pendLs ∧ y.seq.pendDma = x.seq.pendDma ∧ y.seq.pendSync = x.seq.pendSync := by
  unfold trapTile
  dsimp only
  split <;> exact ⟨rfl, rfl, rfl, rfl, rfl, rfl, rfl, rfl, rfl, rfl⟩

variable {x}

theorem trapTile_handler (h : x.seq.tvec ≠ 0 ∧ x.seq.inTrap = false) : let y := trapTile x cause async info tpc
    y.seq.inTrap = true ∧ y.seq.pc = x.seq.tvec ∧ y.seq.st = x.seq.st ∧ y.work = x.work := by
  unfold trapTile
  dsimp only
  rw [if_pos h]
  exact ⟨rfl, rfl, rfl, rfl⟩

theorem trapTile_trapped (h : ¬(x.seq.tvec ≠ 0 ∧ x.seq.inTrap = false)) : let y := trapTile x cause async info tpc
    y.seq.st = .trapped ∧ y.seq.dbl = (x.seq.inTrap || x.seq.dbl) ∧ y.work = failWork x.work 0x28
      (BitVec.ofNat 64 (tpc.toNat % 2 ^ 21 + cause * 2 ^ 32 + if x.seq.inTrap || x.seq.dbl then 2 ^ 40 else 0)) := by
  unfold trapTile
  dsimp only
  rw [if_neg h]
  exact ⟨rfl, rfl, rfl⟩

end

/-! ### Precise traps (R163, R187) -/

theorem actCore_withCore {s : State} {g : Core → Core} {d : Core} (hok : s.ok = true) (h : g s.dev.core = d) :
    actCore s g = .next (s.withCore d) := by
  rw [actCore_next (by simpa [State.ok] using hok), h]
  rfl

theorem ykReady_running {c : Core} {r : YkRow} {t : Nat} {f : YkF} (h : ykReady c r t f = true) : (c.tile t).seq.st = .running := by
  obtain ⟨issues, -⟩ := (ykReady_iff c r t f).1 h
  simp only [tileIssues, Bool.and_eq_true, decide_eq_true_eq] at issues
  tauto

/-- A trap with TPC = the next instruction. -/
theorem ykStep_traps_next {s : State} {r : YkRow} {t : Nat} {f : YkF} {body : Core → YkRes} {cause : Nat} {info : BitVec 64} (hok : s.ok = true)
    (h : ykReady s.dev.core r t f = true) (hb : body s.dev.core = .trap cause info true) :
    actCore s (ykStep r t f body) = .next (trapState s t cause info ((s.dev.core.tile t).seq.pc + 8)) := by
  rw [actCore_ykStep hok, ykStep_trap h hb, if_pos rfl]
  rfl

/-- An unlisted word where no other cause goes before. -/
theorem fxIllegal_traps {c : Core} {t : Nat} {w : BitVec 64} {r : YkRow} {f : YkF} (hw : ykDecode w = none) (h : ykReady c r t f = true) :
    fxIllegal t w c = takeTrap t 1 false w (c.tile t).seq.pc c := by
  obtain ⟨h1, h2, h3, h4, h5, -⟩ := (ykReady_iff c r t f).1 h
  unfold fxIllegal
  simp only [h1, h2, h3, h5, hw, not_le.2 h4, Bool.not_true, Bool.false_eq_true, if_false, ne_eq, not_true_eq_false, Option.isNone_none,
    if_true]

/-- Settles O6: both traps leave the trapped tile, and beside it the counters and the log alone. -/
theorem trapEntry : Obligations.TrapEntry := by
  unfold Obligations.TrapEntry
  intro s t i cause info tpc hok x hi
  obtain ⟨runs, small, taken⟩ : x.seq.st = .running ∧ cause < 256 ∧
      exec i s = .next (s.withCore (takeTrap t cause false info tpc s.dev.core)) := by
    rcases hi with ⟨f, rfl, h, rfl, rfl, rfl⟩ | ⟨w, rfl, hw, h, rfl, rfl, rfl⟩
    · exact ⟨ykReady_running h, by decide, ykStep_traps_next hok h rfl⟩
    · exact ⟨ykReady_running h, by decide, actCore_withCore hok (fxIllegal_traps hw h)⟩
  refine ⟨_, taken, ⟨rfl, rfl⟩, ?_⟩
  have tile : (s.withCore (takeTrap t cause false info tpc s.dev.core)).dev.core.tile t = trapTile x cause false info tpc := takeTrap_tile ..
  obtain ⟨q, w, rest, -⟩ := takeTrap_rest t cause false info tpc s.dev.core
  obtain ⟨tcause, etpc, tinfo, fTrap⟩ := trapTile_frame x cause false info tpc
  obtain ⟨ex, vec, ls, lsPoison, chans, -⟩ := trapTile_kept x cause false info tpc
  rw [tile]
  refine ⟨?cause, etpc, tinfo, fTrap, fun h => ?handler, fun h => ?trapped, ex, vec, ls, lsPoison, chans, q, w, rest⟩
  case cause =>
    rw [tcause, BitVec.toNat_ofNat]
    exact Nat.mod_eq_of_lt (by simpa using small.trans (by decide))
  case handler =>
    obtain ⟨inTrap, pc, st, work⟩ := trapTile_handler cause false info tpc h
    exact ⟨inTrap, pc, st.trans runs, work⟩
  case trapped => exact trapTile_trapped cause false info tpc h

/-! ### Asynchronous traps (R189) -/

/-- The tile at the boundary of an asynchronous trap: its wait is abandoned, but for a DMAWAIT whose condition has come, which is complete
(R181). -/
def asyncTile (x : Tile) : Tile :=
  { x with seq := { x.seq with
    dmaWait := none
    pc := if x.seq.dmaWait.any (fun k => dmaWaitMet x k.1 k.2) then x.seq.pc + 8 else x.seq.pc
    wait := none
    st := .running } }

section
variable {t : Nat} {c : Core}

/-- The tile after the trap of an asynchronous cause, in the order LS_UE, DMA_FAULT, SYNC_FAULT. -/
theorem takeAsync_ls {info : BitVec 64} (h : (c.tile t).seq.pendLs = some info) : (takeAsync t c).tile t =
    let y := asyncTile (c.tile t)
    trapTile { y with seq := { y.seq with pendLs := none } } 13 true info y.seq.pc := by
  unfold takeAsync
  dsimp only
  rw [h]
  exact (takeTrap_tile ..).trans (by rw [Core.setTile_same]; rfl)

theorem takeAsync_dma {k : Nat} {info : Option (BitVec 64)} {r : Table (Option (BitVec 64))} (h : (c.tile t).seq.pendLs = none)
    (hd : (c.tile t).seq.pendDma = (k, info) :: r) : (takeAsync t c).tile t =
    let y := asyncTile (c.tile t)
    trapTile { y with seq := { y.seq with pendLs := none, pendDma := r } } 14 true (info.getD 0) y.seq.pc := by
  unfold takeAsync
  dsimp only
  rw [h, hd]
  exact (takeTrap_tile ..).trans (by rw [Core.setTile_same]; rfl)

theorem takeAsync_sync {info : BitVec 64} (h : (c.tile t).seq.pendLs = none) (hd : (c.tile t).seq.pendDma = [])
    (hs : (c.tile t).seq.pendSync = some info) : (takeAsync t c).tile t =
    let y := asyncTile (c.tile t)
    trapTile { y with seq := { y.seq with pendLs := none, pendDma := [], pendSync := none } } 15 true info y.seq.pc := by
  unfold takeAsync
  dsimp only
  rw [h, hd, hs]
  exact (takeTrap_tile ..).trans (by rw [Core.setTile_same]; rfl)

end

/-- The boundary of a running or waiting sequencer outside a handler. -/
theorem fxAsyncTrap_takes {c : Core} {t : Nat} (hst : (c.tile t).seq.st = .running ∨ (c.tile t).seq.st = .waiting)
    (hpower : (c.tile t).power = .active) (hreset : (c.tile t).resetting = false) (hstop : c.stopped t = false) (hfrozen : frozenChip c = false)
    (hunit : c.ust 4 t = .serving ∨ c.ust 4 t = .draining) (hin : (c.tile t).seq.inTrap = false)
    (hpend : asyncPending (c.tile t).seq = true) : fxAsyncTrap t c = takeAsync t c := by
  unfold fxAsyncTrap tileIssues
  rcases hst with hst | hst <;> rcases hunit with hu | hu <;> simp [hst, hpower, hreset, hstop, hfrozen, hu, hin, hpend]

/-- Settles O18: the first pending cause in the order of R189 traps the tile at its boundary. -/
theorem asynchronousTraps : Obligations.AsynchronousTraps := by
  unfold Obligations.AsynchronousTraps
  intro s t hok c x q hst hpower hreset hstop hfrozen hunit hin at' takes
  have trap {y : Tile} {cause : Nat} {info : BitVec 64} (hy : (takeAsync t c).tile t = trapTile y cause true info at')
      (hpend : asyncPending q = true) (hc : cause < 256)
      (frame : y.seq.x = q.x ∧ y.vec = x.vec ∧ y.ls = x.ls ∧ y.seq.wait = none ∧ y.seq.dmaWait = none ∧ y.seq.tvec = q.tvec ∧
        y.seq.inTrap = q.inTrap ∧ y.seq.st = .running) : takes cause info y.seq.pendLs y.seq.pendDma y.seq.pendSync := by
    obtain ⟨hx, hvec, hls, hwait, hdma, htvec, hinTrap, hrun⟩ := frame
    have taken : exec (.asyncTrap t) s = .next (s.withCore (takeAsync t c)) :=
      actCore_withCore hok (fxAsyncTrap_takes hst hpower hreset hstop hfrozen hunit hin hpend)
    refine ⟨_, taken, ⟨rfl, rfl⟩, ?_⟩
    obtain ⟨tcause, etpc, tinfo, fTrap⟩ := trapTile_frame y cause true info at'
    obtain ⟨ex, vec, ls, -, -, wait, dmaWait, pendLs, pendDma, pendSync⟩ := trapTile_kept y cause true info at'
    have tile : (s.withCore (takeAsync t c)).dev.core.tile t = trapTile y cause true info at' := hy
    rw [tile]
    refine ⟨?cause, tinfo, etpc, fTrap, wait.trans hwait, dmaWait.trans hdma, pendLs, pendDma, pendSync, ex.trans hx, vec.trans hvec,
      ls.trans hls, fun hv => ?handler, fun hv => ?trapped⟩
    case cause =>
      rw [tcause, BitVec.toNat_ofNat, if_pos rfl, Nat.mod_eq_of_lt (by omega), Nat.add_comm]
    case handler =>
      obtain ⟨inTrap, pc, st, -⟩ := trapTile_handler cause true info at' ⟨htvec.symm ▸ hv, hinTrap.trans hin⟩
      exact ⟨st.trans hrun, inTrap, pc.trans htvec⟩
    case trapped => exact (trapTile_trapped cause true info at' fun h => h.1 (htvec.trans hv)).1
  refine ⟨fun info hl => ?ls, fun k info r hl hd => ?dma, fun info hl hd hs => ?sync⟩
  case ls => exact trap (takeAsync_ls hl) (by simp [asyncPending, hl]) (by decide) ⟨rfl, rfl, rfl, rfl, rfl, rfl, rfl, rfl⟩
  case dma => exact trap (takeAsync_dma hl hd) (by simp [asyncPending, hd]) (by decide) ⟨rfl, rfl, rfl, rfl, rfl, rfl, rfl, rfl⟩
  case sync => exact trap (takeAsync_sync hl hd hs) (by simp [asyncPending, hs]) (by decide) ⟨rfl, rfl, rfl, rfl, rfl, rfl, rfl, rfl⟩

end Sys2Proof.Machine
end

section
/-! Vector arithmetic: O9 (R158, R161, R169, R170, R304). -/

namespace Sys2Proof.Machine
open Sys2Proof

/-! ### An instruction of the vector unit that meets no obstacle (R138, R139, R536) -/

/-- It leaves its tile as `y`, and is counted. -/
theorem ykStep_vunit {s : State} {r : YkRow} {t : Nat} {f : YkF} {body : Core → YkRes} {y : Tile} (hok : s.ok = true)
    (h : ykReady s.dev.core r t f = true)
    (hb : body s.dev.core = .go (countEvent 4 t 4 1 (some (s.dev.core.tile t).ptn) (s.dev.core.setTile t y))) :
    actCore s (ykStep r t f body) = .next (vunitDone s r t y) := by
  rw [actCore_ykStep hok, ykStep_go h hb]
  rfl

section
variable {s : State} {r : YkRow} {t : Nat} {f : YkF} {i : Instr} (hok : s.ok = true)
include hok

/-- v[D] lane by lane. -/
theorem vecDone_next {body : Core → YkRes} {g : Nat → LaneRes} {p : Bool} (h : ykReady s.dev.core r t f = true)
    (hb : body s.dev.core = .go (vecDone t f g p s.dev.core)) :
    actCore s (ykStep r t f body) = .next (vDone s r t f.d (mkVec (fun k => (g k).1)) p (orFlags g)) :=
  ykStep_vunit hok h hb

theorem vecDone_rule {body : Core → YkRes} {g : Nat → LaneRes} {p : Bool} (hi : exec i s = actCore s (ykStep r t f body))
    (hb : body s.dev.core = .go (vecDone t f g p s.dev.core)) : vecRule s t f r i p g :=
  fun h => ⟨_, hi.trans (vecDone_next hok h hb), fun k hk => lane_mkVec _ k hk⟩

end

theorem vPoisoned_eq (u : Vec) (d : BitVec 5) : vPoisoned u d = decide (d.toNat ∈ u.vPoison) := by
  rw [vPoisoned, List.contains_eq_mem]

/-! ### Integer lanes in numbers (R169) -/

section
variable (a b : BitVec 32)

theorem andMax_eq : a &&& 0x7FFFFFFF = BitVec.ofNat 32 (a.toNat % 2 ^ 31) := by
  apply BitVec.eq_of_toNat_eq
  rw [BitVec.toNat_and, BitVec.toNat_ofNat, Nat.mod_eq_of_lt (b := 2 ^ 32) (by omega)]
  exact Nat.and_two_pow_sub_one_eq_mod a.toNat 31

theorem xorMin_eq : a ^^^ 0x80000000 = BitVec.ofNat 32 (a.toNat + 2 ^ 31) := by
  apply BitVec.eq_of_getLsbD_eq
  intro k hk
  have top : (0x80000000 : BitVec 32).getLsbD k = decide (k = 31) := by revert k; decide
  rw [BitVec.getLsbD_xor, top, BitVec.getLsbD_ofNat, decide_eq_true hk, Bool.true_and, Nat.add_comm]
  by_cases h : k = 31
  · subst h
    rw [Nat.testBit_two_pow_add_eq, decide_eq_true rfl, Bool.xor_true]
    rfl
  · rw [Nat.testBit_two_pow_add_gt (by omega), decide_eq_false h, Bool.xor_false]
    rfl

theorem sub_eq_ofInt : a - b = BitVec.ofInt 32 (a.toNat - b.toNat) := by
  apply BitVec.eq_of_toNat_eq
  rw [BitVec.toNat_sub, BitVec.toNat_ofInt]
  omega

theorem shl_eq (n : Nat) : a <<< n = BitVec.ofNat 32 (a.toNat * 2 ^ n) := by
  apply BitVec.eq_of_toNat_eq
  rw [BitVec.toNat_shiftLeft, Nat.shiftLeft_eq, BitVec.toNat_ofNat]

theorem shr_eq (n : Nat) : a >>> n = BitVec.ofNat 32 (a.toNat / 2 ^ n) := by
  apply BitVec.eq_of_toNat_eq
  rw [BitVec.toNat_ushiftRight, Nat.shiftRight_eq_div_pow, BitVec.toNat_ofNat,
    Nat.mod_eq_of_lt (lt_of_le_of_lt (Nat.div_le_self ..) a.isLt)]

theorem sar_eq (n : Nat) : a.sshiftRight n = BitVec.ofInt 32 (a.toInt / 2 ^ n) := by
  rw [BitVec.sshiftRight, Int.shiftRight_eq_div_pow]
  norm_cast

theorem ite_slt {α : Type} (u v : α) : (if a.slt b then u else v) = if a.toInt < b.toInt then u else v := by
  simp only [BitVec.slt, decide_eq_true_eq]

end

/-- Settles O9: each row is one function of the operands' lanes. -/
theorem vectorArithmetic : Obligations.VectorArithmetic := by
  unfold Obligations.VectorArithmetic
  intro s t f hok x a b c pa pab pabc int
  have ea : vPoisoned x.vec f.a = pa := vPoisoned_eq ..
  have eab : (vPoisoned x.vec f.a || poisonB x f) = pab := by rw [poisonB, vPoisoned_eq, vPoisoned_eq]
  have eabc : (vPoisoned x.vec f.a || poisonB x f || vPoisoned x.vec f.c) = pabc := by rw [eab, vPoisoned_eq]
  have one {r : YkRow} {i : Instr} {G : Nat → LaneRes} (g : BitVec 32 → LaneRes) (hi : exec i s = vec1Instr r g t f s)
      (hg : ∀ k, g (a k) = G k) : vecRule s t f r i pa G := by
    rw [← ea, ← funext hg]
    exact vecDone_rule hok hi rfl
  have two {r : YkRow} {i : Instr} {G : Nat → LaneRes} (g : BitVec 32 → BitVec 32 → LaneRes) (hi : exec i s = vec2Instr r g t f s)
      (hg : ∀ k, g (a k) (b k) = G k) : vecRule s t f r i pab G := by
    rw [← eab, ← funext hg]
    exact vecDone_rule hok hi rfl
  have three {r : YkRow} {i : Instr} {G : Nat → LaneRes} (g : BitVec 32 → BitVec 32 → BitVec 32 → LaneRes)
      (hi : exec i s = vec3Instr r g t f s) (hg : ∀ k, g (a k) (b k) (c k) = G k) : vecRule s t f r i pabc G := by
    rw [← eabc, ← funext hg]
    exact vecDone_rule hok hi rfl
  have flagless {u v : BitVec 32} (h : u = v) : noFlags u = (v, 0) := congrArg noFlags h
  refine ⟨two fpAdd rfl fun _ => rfl, two fpSub rfl fun _ => rfl, two fpMul rfl fun _ => rfl, three fpFma rfl fun _ => rfl,
    two fpMax rfl fun _ => rfl, two fpMin rfl fun _ => rfl,
    one (fun a => noFlags (a &&& 0x7FFFFFFF)) rfl fun k => flagless (andMax_eq (a k)),
    one (fun a => noFlags (a ^^^ 0x80000000)) rfl fun k => flagless (xorMin_eq (a k)),
    one fpExp2 rfl fun _ => rfl, one fpRcp rfl fun _ => rfl, one fpRsqrt rfl fun _ => rfl,
    two fpLt rfl fun _ => rfl, two fpLe rfl fun _ => rfl, two fpEq rfl fun _ => rfl,
    two (fun a b => noFlags (a + b)) rfl fun k => flagless (BitVec.add_def (a k) (b k)),
    two (fun a b => noFlags (a - b)) rfl fun k => flagless (sub_eq_ofInt (a k) (b k)),
    two (fun a b => noFlags (a * b)) rfl fun k => flagless (BitVec.mul_def (x := a k) (y := b k)),
    two (fun a b => noFlags (a &&& b)) rfl fun _ => rfl,
    two (fun a b => noFlags (a ||| b)) rfl fun _ => rfl,
    two (fun a b => noFlags (a ^^^ b)) rfl fun _ => rfl,
    two (fun a b => noFlags (a <<< (b.toNat % 32))) rfl fun k => flagless (shl_eq (a k) _),
    two (fun a b => noFlags (a >>> (b.toNat % 32))) rfl fun k => flagless (shr_eq (a k) _),
    two (fun a b => noFlags (a.sshiftRight (b.toNat % 32))) rfl fun k => flagless (sar_eq (a k) _),
    two (fun a b => noFlags (if a.slt b then 0xFFFFFFFF else 0)) rfl fun k => flagless (ite_slt (a k) (b k) _ _),
    three (fun a b c => noFlags ((a &&& c) ||| (b &&& ~~~c))) rfl fun _ => rfl⟩

end Sys2Proof.Machine
end

section
/-! Vector moves and reductions: O10 (R169, R171, R305). -/

namespace Sys2Proof.Machine
open Sys2Proof

/-! ### The reduction tree (R171) -/

section
variable (g : BitVec 32 → BitVec 32 → LaneRes)

/-- One level combines entry 2i with entry 2i + 1. -/
theorem reducePairs_range (l : Nat → BitVec 32) (m : Nat) : (reducePairs g ((List.range (2 * m)).map l)).1 =
    (List.range m).map (fun i => (g (l (2 * i)) (l (2 * i + 1))).1) := by
  induction m generalizing l with
  | zero => rfl
  | succ m ih =>
    have shift : (List.range (2 * (m + 1))).map l = l 0 :: l 1 :: (List.range (2 * m)).map (fun i => l (i + 2)) := by
      rw [show 2 * (m + 1) = 2 * m + 1 + 1 by ring, List.range_succ_eq_map, List.range_succ_eq_map]
      simp
    rw [shift, List.range_succ_eq_map]
    simp only [reducePairs, ih, List.map_cons, List.map_map, List.cons.injEq]
    refine ⟨trivial, List.map_congr_left fun i _ => ?_⟩
    simp only [Function.comp, Nat.mul_succ]

theorem treeVal_pairs (l : Nat → BitVec 32) (k i : Nat) :
    treeVal g (fun i => (g (l (2 * i)) (l (2 * i + 1))).1) k i = treeVal g l (k + 1) i := by
  induction k generalizing i with
  | zero => rfl
  | succ k ih =>
    rw [treeVal, ih, ih]
    rfl

theorem reduceTree_range (l : Nat → BitVec 32) (k : Nat) (fl : FFlags) :
    (reduceTree g k ((List.range (2 ^ k)).map l) fl).1 = treeVal g l k 0 := by
  induction k generalizing l fl with
  | zero => rfl
  | succ k ih =>
    rw [← treeVal_pairs, ← ih]
    swap
    · exact fl ||| (reducePairs g ((List.range (2 ^ (k + 1))).map l)).2
    rw [← reducePairs_range, ← pow_succ']
    rfl

variable {g}

/-- An operation that gives the canonical NaN of any NaN gives NaN at each entry above one. -/
theorem treeVal_nan (hg : ∀ a b, (decode32 a).isNaN = true ∨ (decode32 b).isNaN = true → (g a b).1 = canonNaN) {l : Nat → BitVec 32} {k i j : Nat}
    (hj : j < 2 ^ k) (hn : (decode32 (l (2 ^ k * i + j))).isNaN = true) : (decode32 (treeVal g l k i)).isNaN = true := by
  have canon : (decode32 canonNaN).isNaN = true := by decide
  induction k generalizing i j with
  | zero =>
    obtain rfl : j = 0 := by simpa using hj
    simpa [treeVal] using hn
  | succ k ih =>
    rw [treeVal, hg, canon]
    rw [pow_succ] at hj hn
    by_cases left : j < 2 ^ k
    · exact .inl (ih left (by rwa [← Nat.mul_assoc]))
    · refine .inr (ih (j := j - 2 ^ k) (by omega) ?_)
      rwa [show 2 ^ k * (2 * i + 1) + (j - 2 ^ k) = 2 ^ k * 2 * i + j by rw [Nat.mul_add, ← Nat.mul_assoc]; omega]

theorem treeVal_canonNaN (hg : ∀ a b, (decode32 a).isNaN = true ∨ (decode32 b).isNaN = true → (g a b).1 = canonNaN) {l : Nat → BitVec 32} {k : Nat}
    (hn : ∃ j, j < 2 ^ (k + 1) ∧ (decode32 (l j)).isNaN = true) : treeVal g l (k + 1) 0 = canonNaN := by
  obtain ⟨j, hj, hn⟩ := hn
  rw [pow_succ] at hj
  refine hg _ _ ?_
  by_cases left : j < 2 ^ k
  · exact .inl (treeVal_nan hg left (by simpa using hn))
  · exact .inr (treeVal_nan hg (j := j - 2 ^ k) (by omega) (by rwa [show 2 ^ k * (2 * 0 + 1) + (j - 2 ^ k) = j by omega]))

end

theorem fpMax_nan (a b : BitVec 32) (h : (decode32 a).isNaN = true ∨ (decode32 b).isNaN = true) : (fpMax a b).1 = canonNaN := by
  rw [fpMax, if_pos (by simpa using h)]

theorem fpMin_nan (a b : BitVec 32) (h : (decode32 a).isNaN = true ∨ (decode32 b).isNaN = true) : (fpMin a b).1 = canonNaN := by
  rw [fpMin, if_pos (by simpa using h)]

/-! ### VEXT (R169, R305) -/

/-- An instruction of the vector unit whose own effect is the core `d`. -/
theorem ykStep_vgoes {s : State} {r : YkRow} {t : Nat} {f : YkF} {body : Core → YkRes} {d : Core} (hok : s.ok = true)
    (h : ykReady s.dev.core r t f = true) (hv : ofVecUnit r = true) (hb : body s.dev.core = .go d) :
    actCore s (ykStep r t f body) = .next (s.withCore (d.modTile t (fun y => { y with
      seq := { y.seq with pc := (s.dev.core.tile t).seq.pc + 8 }
      vec := { y.vec with vecQ := vecCycle y.vec.vecQ ++ [vecCost r] } }))) := by
  rw [actCore_ykStep hok, ykStep_go h hb, vecIssue, if_pos hv, Core.modTile_modTile]

section
variable {s : State} {t : Nat} {f : YkF} (hok : s.ok = true) (h : ykReady s.dev.core rowVext t f = true)
include hok h

/-- The tile once VEXT has issued, with its sequencer as `q`. -/
def vextTile (x : Tile) (q : Seq) : Tile :=
  { x with seq := { q with pc := x.seq.pc + 8 }, vec := { x.vec with vecQ := vecCycle x.vec.vecQ ++ [1] } }

theorem vext_clean (hp : vPoisoned (s.dev.core.tile t).vec f.a = false) :
    let x := s.dev.core.tile t
    exec (.vext t f) s = .next (s.withCore ((countEvent 4 t 4 1 (some x.ptn) s.dev.core).setTile t
      (vextTile x (wrX x.seq f.d ((lane (rdV x.vec f.a) (field f.imm 5 0)).setWidth 64))))) := by
  refine Eq.trans (ykStep_vgoes hok h rfl (congrArg YkRes.go (if_neg (Bool.eq_false_iff.1 hp)))) ?_
  rw [Core.modSeq, Core.modTile_modTile, Core.modTile_eq, tile_of_rest (countEvent_rest ..)]
  rfl

theorem vext_poisoned (hp : vPoisoned (s.dev.core.tile t).vec f.a = true) :
    let x := s.dev.core.tile t
    exec (.vext t f) s = .next (s.withCore ((countEvent 4 t 4 1 (some x.ptn) s.dev.core).setTile t
      (vextTile x (pendLsUe { x with seq := wrX x.seq f.d 0 } 2 0).seq))) := by
  refine Eq.trans (ykStep_vgoes hok h rfl (congrArg YkRes.go (if_pos hp))) ?_
  rw [Core.modTile_eq, Core.setTile_same, Core.setTile_setTile]
  rfl

end

theorem rdX_wrX_same (q : Seq) (d : BitVec 5) : rdX (wrX q d 0) d = 0 := by
  rw [rdX_wrX]
  by_cases hd : d = 0
  · subst hd
    rw [if_neg (fun h => h.2 rfl), rdX_zero]
  · rw [if_pos ⟨rfl, hd⟩]

/-- Settles O10: the moves lane by lane, VEXT by the poison of its register, the reductions by the tree. -/
theorem vectorMovesReductions : Obligations.VectorMovesReductions := by
  unfold Obligations.VectorMovesReductions
  intro s t f hok x a pa n queued reduces
  have number : field f.imm 5 0 = n := (field_eq ..).trans (congrArg (· % 2 ^ 6) (Nat.div_one _))
  have ea : vPoisoned x.vec f.a = pa := vPoisoned_eq ..
  have tree {r : YkRow} {i : Instr} (g : BitVec 32 → BitVec 32 → LaneRes) (hi : exec i s = vecReduce r g t f s)
      (h : ykReady s.dev.core r t f = true) : ∃ v fl, exec i s = .next (vDone s r t f.d v pa fl) ∧ ∀ k, k < 64 → lane v k = treeVal g a 6 0 :=
    ⟨_, _, hi.trans (vecDone_next hok h (by rw [← ea]; rfl)), fun k hk => (lane_mkVec _ k hk).trans (reduceTree_range g a 6 0)⟩
  refine ⟨vecDone_rule hok rfl rfl, vecDone_rule hok rfl rfl, ?vins, fun h => ⟨fun hp => ?clean, fun hp => ?poisoned⟩, ?reductions⟩
  case vins =>
    rw [← vPoisoned_eq, ← number]
    exact vecDone_rule hok rfl rfl
  case clean =>
    refine ⟨_, ?_, number ▸ vext_clean hok h (ea.trans hp)⟩
    rw [BitVec.toNat_setWidth, Nat.mod_eq_of_lt (by have := (a n).isLt; omega)]
  case poisoned =>
    refine ⟨_, vext_poisoned hok h (ea.trans hp), ⟨rfl, rfl⟩, ?_⟩
    have tile : (s.withCore ((countEvent 4 t 4 1 (some x.ptn) s.dev.core).setTile t
        (vextTile x (pendLsUe { x with seq := wrX x.seq f.d 0 } 2 0).seq))).dev.core.tile t = vextTile x (pendLsUe { x with seq := wrX x.seq f.d 0 } 2 0).seq :=
      Core.setTile_same ..
    rw [tile]
    have pend : (wrX x.seq f.d 0).pendLs = x.seq.pendLs := by unfold wrX; split <;> rfl
    refine ⟨rdX_wrX_same x.seq f.d, rfl, rfl, fun hl => ?_, fun hl => ?_⟩
    · change some ((wrX x.seq f.d 0).pendLs.getD _) = _
      rw [pend, hl]
      rfl
    · change some ((wrX x.seq f.d 0).pendLs.getD _) = _
      obtain ⟨info, hl⟩ := Option.isSome_iff_exists.1 hl
      rw [pend, hl]
      rfl
  case reductions =>
    have nan {r : YkRow} {i : Instr} {g : BitVec 32 → BitVec 32 → LaneRes} (hi : exec i s = vecReduce r g t f s)
        (hg : ∀ a b, (decode32 a).isNaN = true ∨ (decode32 b).isNaN = true → (g a b).1 = canonNaN) (h : ykReady s.dev.core r t f = true)
        (hn : ∃ j, j < 64 ∧ (decode32 (a j)).isNaN = true) :
        ∃ v fl, exec i s = .next (vDone s r t f.d v pa fl) ∧ ∀ k, k < 64 → lane v k = canonNaN := by
      obtain ⟨v, fl, hv, lanes⟩ := tree g hi h
      exact ⟨v, fl, hv, fun k hk => (lanes k hk).trans (treeVal_canonNaN (k := 5) hg hn)⟩
    exact ⟨tree fpAdd rfl, tree fpMax rfl, tree fpMin rfl, nan (g := fpMax) rfl fpMax_nan, nan (g := fpMin) rfl fpMin_nan,
      by decide, by decide, by decide, by decide⟩

end Sys2Proof.Machine
end

section
/-! Vector loads and stores: O11, O12 (R172, R173, R187, R304, R305). -/

namespace Sys2Proof.Machine
open Sys2Proof

/-! ### The checks of the lanes' addresses (R172, R187) -/

section
variable {n : Nat} {addr : Nat → Nat} {ok : YkRes}

/-- The first lane that fails a test. -/
theorem find_lane {p : Nat → Bool} {k : Nat} (hk : k < n) (hp : p (addr k) = true) (hbefore : ∀ j, j < k → p (addr j) = false) :
    ((List.range n).map addr).find? p = some (addr k) := by
  have first : (List.range n).find? (p ∘ addr) = some k :=
    List.find?_range_eq_some.2 ⟨hp, List.mem_range.2 hk, fun j hj => by simp [hbefore j hj]⟩
  rw [List.find?_map, first]
  rfl

theorem find_no_lane {p : Nat → Bool} (h : ∀ k, k < n → p (addr k) = false) : ((List.range n).map addr).find? p = none := by
  rw [List.find?_eq_none]
  simp only [List.mem_map, List.mem_range]
  rintro _ ⟨k, hk, rfl⟩
  simp [h k hk]

theorem lanesCheck_ok (ha : ∀ k, k < n → addr k % 4 = 0) (hs : ∀ k, k < n → addr k < lsSize) :
    lanesCheck ((List.range n).map addr) ok = ok := by
  unfold lanesCheck
  rw [find_no_lane fun k hk => by simp [ha k hk]]
  dsimp only
  rw [find_no_lane fun k hk => by simpa using hs k hk]

theorem lanesCheck_misaligned {k : Nat} (hk : k < n) (ha : addr k % 4 ≠ 0) (hbefore : ∀ j, j < k → addr j % 4 = 0) :
    lanesCheck ((List.range n).map addr) ok = .trap 4 (BitVec.ofNat 64 (addr k)) false := by
  unfold lanesCheck
  rw [find_lane hk (by simpa using ha) fun j hj => by simp [hbefore j hj]]

theorem lanesCheck_outside {k : Nat} (hk : k < n) (ha : ∀ j, j < n → addr j % 4 = 0) (hs : lsSize ≤ addr k)
    (hbefore : ∀ j, j < k → addr j < lsSize) :
    lanesCheck ((List.range n).map addr) ok = .trap 5 (BitVec.ofNat 64 (addr k)) false := by
  unfold lanesCheck
  rw [find_no_lane fun k hk => by simp [ha k hk]]
  dsimp only
  rw [find_lane hk (by simpa using hs) fun j hj => by simpa using hbefore j hj]

theorem mem_laneWords {as : List Nat} {w : Nat} : w ∈ laneWords as ↔ ∃ a ∈ as, a / 64 = w := by
  simp [laneWords]

end

theorem lanesOf_eq (f : YkF) : lanesOf f = f.imm.toNat / 2 ^ 21 % 64 + 1 := by
  exact congrArg (· + 1) (field_eq f.imm 26 21)

/-! ### Loads (R172, R305) -/

theorem countEvent_none (cls i ev : Nat) (p : Option Nat) (c : Core) : countEvent cls i ev 0 p c = c :=
  if_pos (.inr (.inr rfl))

/-- The lanes that a load reads: words of the local store below `n`, zero above. -/
def loadedLanes (x : Tile) (n : Nat) (addr : Nat → Nat) : VReg :=
  mkVec (fun k => if k < n then BitVec.ofNat 32 (rdLE x.ls (addr k) 4) else 0)

theorem lane_loadedLanes (x : Tile) (n : Nat) (addr : Nat → Nat) {k : Nat} (hk : k < 64) :
    (lane (loadedLanes x n addr) k).toNat = if k < n then rdLE x.ls (addr k) 4 else 0 := by
  rw [loadedLanes, lane_mkVec _ k hk]
  split
  · exact (BitVec.toNat_ofNat ..).trans (Nat.mod_eq_of_lt (rdLE_lt ..))
  · rfl

/-- The poisoned words that the lanes of a load touch (R304). -/
def touchedPoison (x : Tile) (n : Nat) (addr : Nat → Nat) : List Nat :=
  (laneWords ((List.range n).map addr)).filter (fun w => x.lsPoison.contains w)

theorem mem_touchedPoison {x : Tile} {n : Nat} {addr : Nat → Nat} {w : Nat} :
    w ∈ touchedPoison x n addr ↔ (∃ k, k < n ∧ addr k / 64 = w) ∧ w ∈ x.lsPoison := by
  simp [touchedPoison, mem_laneWords]

theorem vPoisoned_vecQ (u : Vec) (l : List Nat) (d : BitVec 5) : vPoisoned { u with vecQ := l } d = vPoisoned u d := rfl

/-- A vector load's effect when its lanes touch the poisoned words `bad`, with `q` whether its index register is poisoned. -/
def loadEffect (t : Nat) (f : YkF) (v : Tile → VReg) (q : Bool) (bad : List Nat) (c : Core) : Core :=
  let x := c.tile t
  let y := match bad with
    | [] => x
    | w :: _ => if trapPolicy c x then pendLsUe x 1 (64 * w) else x
  countEvent 4 t 14 bad.length (some y.ptn) (countEvent 4 t 4 1 (some y.ptn)
    (c.setTile t { y with vec := wrVP y.vec f.d (v y) (!bad.isEmpty || q) }))

theorem vecLoad_eq (r : YkRow) (at' : Tile → YkF → Nat → Nat) (idx : Bool) (t : Nat) (f : YkF) (s : State) : vecLoad r at' idx t f s =
    actCore s (ykStep r t f (fun c => lanesCheck ((List.range (lanesOf f)).map (at' (c.tile t) f))
      (.go (loadEffect t f (fun y => loadedLanes y (lanesOf f) (at' y f)) (idx && vPoisoned (c.tile t).vec f.b)
        (touchedPoison (c.tile t) (lanesOf f) (at' (c.tile t) f)) c)))) := by
  unfold vecLoad loadEffect touchedPoison loadedLanes
  refine congrArg (fun b => actCore s (ykStep r t f b)) (funext fun c => congrArg (lanesCheck _) (congrArg YkRes.go ?_))
  rfl

theorem loadEffect_clean (t : Nat) (f : YkF) (v : Tile → VReg) (q : Bool) (c : Core) : loadEffect t f v q [] c =
    countEvent 4 t 4 1 (some (c.tile t).ptn) (c.setTile t { c.tile t with vec := wrVP (c.tile t).vec f.d (v (c.tile t)) q }) :=
  countEvent_none ..

theorem loadEffect_poisoned (t : Nat) (f : YkF) (v : Tile → VReg) (q : Bool) (w : Nat) (l : List Nat) (c : Core) :
    let x := c.tile t
    let y := if trapPolicy c x then pendLsUe x 1 (64 * w) else x
    (loadEffect t f v q (w :: l) c).tile t = { y with vec := wrVP y.vec f.d (v y) true } :=
  (tile_of_rest ((countEvent_rest ..).trans (countEvent_rest ..)) t).trans (Core.setTile_same ..)

/-- A vector load whose lane `k` lies at `addr k`. -/
theorem vecLoad_rule {s : State} {r : YkRow} {t : Nat} {f : YkF} {i : Instr} {at' : Tile → YkF → Nat → Nat} {idx pb : Bool}
    (hok : s.ok = true) (hi : exec i s = vecLoad r at' idx t f s) (hv : ofVecUnit r = true)
    (hpb : (idx && vPoisoned (s.dev.core.tile t).vec f.b) = pb) : vloadRule s t f r i (at' (s.dev.core.tile t) f) pb := by
  unfold vloadRule
  rw [← lanesOf_eq]
  intro x n h
  rw [hi, vecLoad_eq]
  let effect := loadEffect t f (fun y => loadedLanes y n (at' y f)) (idx && vPoisoned x.vec f.b)
  refine ⟨fun aligned inside clean => ?clean, fun aligned inside poison => ?poisoned, fun k hk ha hbefore => ?misaligned,
    fun k hk ha hs hbefore => ?outside⟩
  case misaligned => exact ykStep_traps hok h (lanesCheck_misaligned hk ha hbefore)
  case outside => exact ykStep_traps hok h (lanesCheck_outside hk ha hs hbefore)
  case clean =>
    have none : touchedPoison x n (at' x f) = [] := by
      refine List.eq_nil_iff_forall_not_mem.2 fun w hw => ?_
      obtain ⟨⟨k, hk, rfl⟩, hp⟩ := mem_touchedPoison.1 hw
      exact clean k hk hp
    have done : effect (touchedPoison x n (at' x f)) s.dev.core = countEvent 4 t 4 1 (some x.ptn) (s.dev.core.setTile t { x with
        vec := wrVP x.vec f.d (loadedLanes x n (at' x f)) pb
        seq := { x.seq with fflags := x.seq.fflags ||| 0 } }) := by
      rw [none, ← hpb, show x.seq.fflags ||| 0 = x.seq.fflags from BitVec.or_zero]
      exact loadEffect_clean ..
    exact ⟨loadedLanes x n (at' x f), ykStep_vunit hok h ((lanesCheck_ok aligned inside).trans (congrArg YkRes.go done)),
      fun k hk => lane_loadedLanes x n _ hk⟩
  case poisoned =>
    obtain ⟨w, l, some⟩ : ∃ w l, touchedPoison x n (at' x f) = w :: l := by
      obtain ⟨k, hk, hp⟩ := poison
      exact List.exists_cons_of_ne_nil (List.ne_nil_of_mem (mem_touchedPoison.2 ⟨⟨k, hk, rfl⟩, hp⟩))
    have done : effect (touchedPoison x n (at' x f)) s.dev.core = effect (w :: l) s.dev.core := by rw [some]
    refine ⟨_, ykStep_vgoes hok h hv ((lanesCheck_ok aligned inside).trans (congrArg YkRes.go done)), ⟨rfl, rfl⟩, ?_⟩
    let y := if trapPolicy s.dev.core x then pendLsUe x 1 (64 * w) else x
    have tile : (effect (w :: l) s.dev.core).tile t = { y with vec := wrVP y.vec f.d (loadedLanes y n (at' y f)) true } :=
      loadEffect_poisoned ..
    simp only [State.withCore, Core.modTile_eq, Core.setTile_same, tile]
    refine ⟨?marked, fun trap => ?trap, fun keep => ?keep⟩
    case marked => exact (vPoisoned_vecQ ..).trans ((vPoisoned_wrVP ..).trans (if_pos rfl))
    case trap =>
      have pend : y = pendLsUe x 1 (64 * w) := if_pos trap
      exact congrArg (fun y : Tile => y.seq.pendLs.isSome) pend
    case keep =>
      have kept : y = x := if_neg (Bool.eq_false_iff.1 keep)
      exact congrArg (fun y : Tile => y.seq.pendLs) kept

/-- Settles O11: the three loads differ in their lanes' addresses, and in whether v[B] is a source. -/
theorem vectorLoads : Obligations.VectorLoads := by
  unfold Obligations.VectorLoads
  intro s t f hok x base
  exact ⟨vecLoad_rule (at' := addrUnit) (idx := false) hok rfl rfl rfl, vecLoad_rule (at' := addrStride) (idx := false) hok rfl rfl rfl,
    vecLoad_rule (at' := addrIndex) (idx := true) hok rfl rfl (vPoisoned_eq ..)⟩

/-! ### Stores (R172, R173) -/

/-- Lanes of 4 bytes stored in ascending order. -/
def storedLanes (m : Mem) (addr : Nat → Nat) (v : Nat → BitVec 32) (n : Nat) : Mem :=
  (List.range n).foldl (fun m k => wrLE m (addr k) 4 (v k).toNat) m

section
variable (m : Mem) (addr : Nat → Nat) (v : Nat → BitVec 32)

theorem storedLanes_succ (n : Nat) : storedLanes m addr v (n + 1) = wrLE (storedLanes m addr v n) (addr n) 4 (v n).toNat := by
  rw [storedLanes, List.range_succ, List.foldl_append]
  rfl

/-- Of lanes that share an address the highest stays (R173). -/
theorem rdByte_storedLanes {n k b : Nat} (aligned : ∀ j, j < n → addr j % 4 = 0) (hk : k < n) (hb : b < 4)
    (last : ∀ j, k < j → j < n → addr j ≠ addr k) :
    rdByte (storedLanes m addr v n) (addr k + b) = BitVec.ofNat 8 ((v k).toNat / 256 ^ b) := by
  induction n with
  | zero => omega
  | succ n ih =>
    rw [storedLanes_succ]
    by_cases here : k = n
    · subst here
      exact rdByte_wrLE_eq _ _ _ _ _ hb
    · have apart := last n (by omega) (by omega)
      have ak := aligned k (by omega)
      have an := aligned n (by omega)
      rw [rdByte_wrLE_ne _ _ _ _ _ (by omega)]
      exact ih (fun j hj => aligned j (by omega)) (by omega) fun j hkj hj => last j hkj (by omega)

theorem rdByte_storedLanes_other {n a : Nat} (apart : ∀ k, k < n → a < addr k ∨ addr k + 4 ≤ a) :
    rdByte (storedLanes m addr v n) a = rdByte m a := by
  induction n with
  | zero => rfl
  | succ n ih => rw [storedLanes_succ, rdByte_wrLE_ne _ _ _ _ _ (apart n (by omega)), ih fun k hk => apart k (by omega)]

end

/-- A vector store whose lane `k` lies at `at' x f k`. -/
theorem vecStore_rule {s : State} {r : YkRow} {t : Nat} {f : YkF} {i : Instr} {at' : Tile → YkF → Nat → Nat} {idx : Bool}
    (hok : s.ok = true) (hi : exec i s = vecStore r at' idx t f s) : vstoreRule s t f r i (at' (s.dev.core.tile t) f) := by
  unfold vstoreRule
  rw [← lanesOf_eq]
  intro x n h
  rw [hi]
  refine ⟨fun aligned inside => ?stored, fun k hk ha hbefore => ?misaligned, fun k hk ha hs hbefore => ?outside⟩
  case stored =>
    refine ⟨storedLanes x.ls (at' x f) (lane (rdV x.vec f.d)) n, _, ykStep_vunit hok h ((lanesCheck_ok aligned inside).trans rfl),
      fun k b hk hb last => ?_, fun a apart => ?_⟩
    · exact rdByte_storedLanes _ _ _ aligned hk hb last
    · exact rdByte_storedLanes_other _ _ _ apart
  case misaligned => exact ykStep_traps hok h (lanesCheck_misaligned hk ha hbefore)
  case outside => exact ykStep_traps hok h (lanesCheck_outside hk ha hs hbefore)

/-- Settles O12: the three stores differ in their lanes' addresses. -/
theorem vectorStores : Obligations.VectorStores := by
  unfold Obligations.VectorStores
  intro s t f hok x base
  exact ⟨vecStore_rule (at' := addrUnit) (idx := false) hok rfl, vecStore_rule (at' := addrStride) (idx := false) hok rfl,
    vecStore_rule (at' := addrIndex) (idx := true) hok rfl⟩

end Sys2Proof.Machine
end

section
/-! Accumulator access, conversions, tile descriptors and the sync port's instructions: O13, O14, O17 (R159, R160, R172, R174–R177, R183, R250–R255). -/

namespace Sys2Proof.Machine
open Sys2Proof

/-! ### Accumulator rows (R159, R172) -/

theorem accCheck_ok {row : Nat} {ok : YkRes} (h : row ≤ 255) : accCheck row ok = ok := if_neg (Nat.not_lt.2 h)

theorem accCheck_outside {row : Nat} {ok : YkRes} (h : 255 < row) : accCheck row ok = .trap 9 (BitVec.ofNat 64 (row % 512)) false := if_pos h

theorem fmtCheck_ok {r : YkRow} {f : YkF} {ok : YkRes} (h : field f.imm 3 0 ≤ 6) : fmtCheck r f ok = ok := if_neg (Nat.not_lt.2 h)

theorem fmtCheck_bad {r : YkRow} {f : YkF} {ok : YkRes} (h : 6 < field f.imm 3 0) : fmtCheck r f ok = .trap 1 (r.word f) false := if_pos h

theorem accRow_eq (x : Tile) (f : YkF) : accRow x f = (rdX x.seq f.a + BitVec.ofNat 64 (f.imm.toNat / 256 % 256)).toNat := by
  rw [accRow, field_eq]
  rfl

/-- A low field of the immediate. -/
theorem field_low {w : Nat} (x : BitVec w) (hi : Nat) : field x hi 0 = x.toNat % 2 ^ (hi + 1) := by
  rw [field_eq, pow_zero, Nat.div_one, Nat.sub_zero]

theorem bool_ite {α : Type} {b : Bool} (u v : α) (h : b = false) : (if b then u else v) = v := if_neg (Bool.eq_false_iff.1 h)

/-- A scale of all ones gives the canonical NaN (R176). -/
theorem dequant1_nan {fmt v k : Nat} (hf : fmt < 5) (hs : v / 2 ^ (64 * fmtBits fmt + 8 * (k / 32)) % 256 = 255) :
    (dequant1 fmt v k).1 = 0x7FC00000 := by
  have mx : fmtMx fmt = true := decide_eq_true hf
  unfold dequant1
  dsimp only
  rw [if_pos mx, if_pos hs]
  rfl

/-- Settles O13: the checks of row, bank and format, then the moves and the lanes. -/
theorem accumulatorAndConversion : Obligations.AccumulatorAndConversion := by
  unfold Obligations.AccumulatorAndConversion
  intro s t f hok c x row bank fmt a pa accRange illegal
  have hrow : accRow x f = row := accRow_eq x f
  have hbank : field f.imm 1 0 = bank := field_low ..
  have hfmt : field f.imm 3 0 = fmt := field_low ..
  have ea : vPoisoned x.vec f.a = pa := vPoisoned_eq ..
  have one {r : YkRow} {i : Instr} (g : BitVec 32 → LaneRes) (hi : exec i s = vec1Instr r g t f s) :
      vecRule s t f r i pa (fun k => g (a k)) := by
    rw [← ea]
    exact vecDone_rule hok hi rfl
  have lanes (hf : fmt ≤ 6) : vecRule s t f rowVdq (.vdq t f) pa (dequant1 fmt (rdV x.vec f.a).toNat) := by
    rw [← ea, ← hfmt]
    exact vecDone_rule hok rfl (fmtCheck_ok (hfmt ▸ hf))
  refine ⟨fun h => ⟨fun hr => ?readOutside, fun hr hb => ?readWaits, fun hr hb => ?read⟩,
    fun h => ⟨fun hr => ?writeOutside, fun hr hb => ?writeWaits, fun hr hb => ?write⟩,
    fun h => ⟨fun hf => ?quantBad, fun hf => ?quant⟩, fun h => ⟨fun hf => ?dequantBad, fun hf => ⟨lanes hf, fun hmx k _ hs => dequant1_nan hmx hs⟩⟩,
    one fpToInt rfl, one intToFp rfl⟩
  case readOutside => exact ykStep_traps hok h ((accCheck_outside (hrow ▸ hr)).trans (by rw [hrow]))
  case writeOutside => exact ykStep_traps hok h ((accCheck_outside (hrow ▸ hr)).trans (by rw [hrow]))
  case readWaits => exact ykStep_stays hok h ((accCheck_ok (hrow ▸ hr)).trans (if_pos (hbank ▸ hb)))
  case writeWaits => exact ykStep_stays hok h ((accCheck_ok (hrow ▸ hr)).trans (if_pos (hbank ▸ hb)))
  case read =>
    rw [← hrow, ← hbank]
    exact ykStep_vunit hok h ((accCheck_ok (hrow ▸ hr)).trans (bool_ite _ _ (hbank ▸ hb)))
  case write =>
    refine ⟨{ x with vec := wrAccP x.vec bank row (rdV x.vec f.d) (vPoisoned x.vec f.d) }, ?_, fun b r hb' => ?_, fun k => ?_, rfl⟩
    · rw [← hrow, ← hbank]
      exact ykStep_vunit hok h ((accCheck_ok (hrow ▸ hr)).trans (bool_ite _ _ (hbank ▸ hb)))
    · exact rdAcc_wrAccP x.vec (rdV x.vec f.d) _ hb' (by omega)
    · refine (mem_setIn ..).trans ?_
      rw [vPoisoned_eq, decide_eq_true_iff]
      by_cases hk : k = bank * 256 + row <;> simp [hk]
  case quantBad => exact ykStep_traps hok h (fmtCheck_bad (hfmt ▸ hf))
  case dequantBad => exact ykStep_traps hok h (fmtCheck_bad (hfmt ▸ hf))
  case quant =>
    rw [← hfmt, ← ea]
    exact ykStep_vunit hok h (fmtCheck_ok (hfmt ▸ hf))

/-! ### Tile descriptors (R160, R177) -/

/-- BASE and SCALE move modulo 2^21, and no other bit does (R177). -/
theorem tdAdd_spec (d : BitVec 128) (a b : BitVec 64) : tdBase (tdAdd d a b) = (tdBase d + a.toNat) % 2 ^ 21 ∧
    tdScale (tdAdd d a b) = (tdScale d + b.toNat) % 2 ^ 21 ∧ ∀ k, (21 ≤ k ∧ k < 32) ∨ 53 ≤ k → (tdAdd d a b).getLsbD k = d.getLsbD k := by
  have small := d.isLt
  have base : tdBase d = d.toNat % 2 ^ 21 := field_low ..
  have scale : tdScale d = d.toNat / 2 ^ 32 % 2 ^ 21 := field_eq ..
  have whole : (tdAdd d a b).toNat = d.toNat % 2 ^ 32 / 2 ^ 21 * 2 ^ 21 + d.toNat / 2 ^ 53 * 2 ^ 53 + (tdBase d + a.toNat) % 2 ^ 21 +
      (tdScale d + b.toNat) % 2 ^ 21 * 2 ^ 32 := by
    rw [tdAdd, BitVec.toNat_ofNat, Nat.mod_eq_of_lt] <;> omega
  refine ⟨?base, ?scale, fun k hk => ?others⟩
  case base =>
    rw [show tdBase (tdAdd d a b) = (tdAdd d a b).toNat % 2 ^ 21 from field_low .., whole]
    omega
  case scale =>
    rw [show tdScale (tdAdd d a b) = (tdAdd d a b).toNat / 2 ^ 32 % 2 ^ 21 from field_eq .., whole]
    omega
  case others =>
    have middle : (tdAdd d a b).toNat % 2 ^ 32 / 2 ^ 21 = d.toNat % 2 ^ 32 / 2 ^ 21 := by rw [whole]; omega
    have high : (tdAdd d a b).toNat / 2 ^ 53 = d.toNat / 2 ^ 53 := by rw [whole]; omega
    rw [← BitVec.testBit_toNat, ← BitVec.testBit_toNat]
    rcases hk with ⟨low, top⟩ | low
    · have bit (v : Nat) : v.testBit k = (v % 2 ^ 32 / 2 ^ 21).testBit (k - 21) := by
        rw [Nat.testBit_div_two_pow, Nat.testBit_mod_two_pow, Nat.sub_add_cancel low, decide_eq_true top, Bool.true_and]
      rw [bit, middle, ← bit]
    · have bit (v : Nat) : v.testBit k = (v / 2 ^ 53).testBit (k - 53) := by
        rw [Nat.testBit_div_two_pow, Nat.sub_add_cancel low]
      rw [bit, high, ← bit]

/-- Settles O14: TLDD as a load of 16 bytes, TADD by its sums. -/
theorem tileDescriptors : Obligations.TileDescriptors := by
  unfold Obligations.TileDescriptors
  intro s t f hok x a d puts
  refine ⟨fun h => ⟨fun ha hs hp => ?loads, fun ha hs hp => ?poisoned, fun ha => ?misaligned, fun ha hs => ?outside⟩,
    fun h => ⟨tdAdd d (rdX x.seq f.a) (rdX x.seq f.b), ?adds, tdAdd_spec d _ _⟩⟩
  case loads =>
    have clean : (poisonIn x a 16).isEmpty = true := by rw [poisonIn_aligned x (by decide) ha, if_neg hp]; rfl
    exact ykStep_done hok h rfl ((scalarCheck_ok ha hs).trans (if_pos clean))
  case poisoned =>
    have met : ¬(poisonIn x a 16).isEmpty = true := by rw [poisonIn_aligned x (by decide) ha, if_pos hp]; exact Bool.false_ne_true
    have run : exec (.tldd t f) s = _ := ykStep_goes hok h rfl ((scalarCheck_ok ha hs).trans (if_neg met))
    have zero : tget 0 f.d.toNat (tput 0 f.d.toNat 0 x.vec.td) = 0 := (tget_tput ..).trans (if_pos rfl)
    refine ⟨_, run, s.keeps_withCore _, ?_⟩
    rw [State.withCore_core, Core.modTile_eq, Core.setTile_same, tile_of_rest (countEvent_rest ..), Core.setTile_same]
    exact ⟨zero, rfl, rfl⟩
  case misaligned => exact ykStep_traps hok h (scalarCheck_misaligned ha)
  case outside => exact ykStep_traps hok h (scalarCheck_outside ha hs)
  case adds =>
    refine ykStep_done hok h rfl ?_
    simp only [Core.modVec, Core.modTile_eq, x, d]

/-! ### The sync port (R183, R250–R254) -/

section
variable {c : Core} {x : Tile} {obj : Nat} {ok : YkRes}

theorem syncRange_inside (hb : (c.ptn x.ptn).syncBase ≤ obj) (he : obj < (c.ptn x.ptn).syncBase + (c.ptn x.ptn).syncCount) :
    syncRange c x obj ok = ok := if_pos ⟨hb, he⟩

theorem syncRange_outside (h : ¬((c.ptn x.ptn).syncBase ≤ obj ∧ obj < (c.ptn x.ptn).syncBase + (c.ptn x.ptn).syncCount)) :
    syncRange c x obj ok = .trap 10 (BitVec.ofNat 64 obj) false := if_neg h

end

section
variable {s : State} {r : YkRow} {t : Nat} {f : YkF} {i : Instr} (hok : s.ok = true)
include hok

/-- An operation that is acknowledged, whose message is `m` and which changes its sequencer by `g`. -/
theorem syncSend_rule {msg : Tile → YkF → Nat → SyncMsg} {seq : Seq → YkF → Nat → Seq} {m : SyncMsg} {g : Seq → Seq}
    (hi : exec i s = syncSend r msg seq t f s) (hv : ofVecUnit r = false)
    (hm : msg (s.dev.core.tile t) f (field (rdX (s.dev.core.tile t).seq f.a) 11 0) = m)
    (hg : seq (s.dev.core.tile t).seq f (field (rdX (s.dev.core.tile t).seq f.a) 11 0) = g (s.dev.core.tile t).seq) :
    syncRule s t f r i m g := by
  unfold syncRule
  intro c x p obj h
  have number : obj = field (rdX x.seq f.a) 11 0 := (field_low _ 11).symm
  clear_value obj
  subst number
  rw [hi]
  refine ⟨fun hb he room => ?sends, fun hb he full => ?stalls, fun out => ykStep_traps hok h (syncRange_outside out)⟩
  case stalls => exact ykStep_stays hok h ((syncRange_inside hb he).trans (if_pos full))
  case sends =>
    refine ykStep_goes hok h hv ((syncRange_inside hb he).trans ((if_neg (Nat.not_le.2 room)).trans ?_))
    simp only [Core.modSeq, Core.modTile_eq, hg, ← hm]
    rfl

/-- A wait whose message is `m`. -/
theorem sendWait_rule {body : Core → YkRes} {m : Nat → SyncMsg} {kind n : Nat} (hi : exec i s = actCore s (ykStep r t f body))
    (hobj : ∀ o, (m o).obj = o) (hb : body s.dev.core = syncRange s.dev.core (s.dev.core.tile t) (field (rdX (s.dev.core.tile t).seq f.a) 11 0)
      (sendWait t kind (m (field (rdX (s.dev.core.tile t).seq f.a) 11 0)) n s.dev.core)) :
    waitRule s t f r i (m ((rdX (s.dev.core.tile t).seq f.a).toNat % 4096)) kind n := by
  unfold waitRule
  intro c x p obj h
  have number : obj = field (rdX x.seq f.a) 11 0 := (field_low _ 11).symm
  rw [show (rdX (s.dev.core.tile t).seq f.a).toNat % 4096 = obj from rfl]
  clear_value obj
  subst number
  rw [hi]
  refine ⟨fun hbase hend => ?sends, fun out => ykStep_traps hok h (hb.trans (syncRange_outside out))⟩
  case sends =>
    refine ykStep_stays hok h (hb.trans ((syncRange_inside hbase hend).trans ?_))
    rw [sendWait, hobj]

end

/-- Settles O17: the operations, the waits and SREAD send one message each for an object of the range. -/
theorem syncInstructions : Obligations.SyncInstructions := by
  unfold Obligations.SyncInstructions
  intro s t f hok c x p obj b ph
  have number : field (rdX x.seq f.a) 11 0 = obj := field_low _ 11
  have phase : BitVec.ofNat 2 (field b 17 16) = ph := by
    rw [field_eq]
    exact BitVec.eq_of_toNat_eq (by rw [BitVec.toNat_ofNat, BitVec.toNat_ofNat]; exact Nat.mod_mod ..)
  have participant : field b 15 0 = b.toNat % 2 ^ 16 := field_low _ 15
  have count : (b.setWidth 32).toNat = b.toNat % 2 ^ 32 := BitVec.toNat_setWidth ..
  refine ⟨syncSend_rule (msg := fun x f obj => ⟨1, obj, x.logical, 0, false, false, (rdX x.seq f.b).setWidth 32, 0⟩) (seq := fun q _ _ => q) hok rfl rfl ?produce rfl,
    syncSend_rule (msg := fun x f obj => ⟨2, obj, x.logical, 0, false, false, (rdX x.seq f.b).setWidth 32, 0⟩) (seq := fun q _ _ => q) hok rfl rfl ?consume rfl,
    syncSend_rule (msg := fun x f obj => ⟨3, obj, x.logical, BitVec.ofNat 2 (field (rdX x.seq f.b) 17 16), false, false, BitVec.ofNat 32 (field (rdX x.seq f.b) 15 0), 0⟩)
      (seq := fun q f obj => { q with lastArr := some (obj, BitVec.ofNat 2 (field (rdX q f.b) 17 16)) }) hok rfl rfl ?arrive ?arrived, ?swaita, ?swaits, fun h o q hl => ?swaitb, fun h => ⟨fun hb he => ?sread, fun out => ?outside⟩⟩
  case produce =>
    change (⟨1, field (rdX x.seq f.a) 11 0, x.logical, 0, false, false, b.setWidth 32, 0⟩ : SyncMsg) = _
    rw [number]
  case consume =>
    change (⟨2, field (rdX x.seq f.a) 11 0, x.logical, 0, false, false, b.setWidth 32, 0⟩ : SyncMsg) = _
    rw [number]
  case arrive =>
    change (⟨3, field (rdX x.seq f.a) 11 0, x.logical, BitVec.ofNat 2 (field b 17 16), false, false, BitVec.ofNat 32 (field b 15 0), 0⟩ : SyncMsg) = _
    rw [number, phase, participant]
  case arrived =>
    change { x.seq with lastArr := some (field (rdX x.seq f.a) 11 0, BitVec.ofNat 2 (field b 17 16)) } = _
    rw [number, phase]
  case swaita =>
    rw [← count]
    exact sendWait_rule (m := fun o => ⟨4, o, x.logical, 0, false, false, b.setWidth 32, 0⟩) hok rfl (fun _ => rfl) rfl
  case swaits =>
    rw [← count]
    exact sendWait_rule (m := fun o => ⟨5, o, x.logical, 0, false, false, b.setWidth 32, 0⟩) hok rfl (fun _ => rfl) rfl
  case swaitb =>
    refine ykStep_stays hok h ?_
    dsimp only
    rw [show (s.dev.core.tile t).seq.lastArr = some (o, q) from hl]
    rfl
  case sread =>
    rw [← number] at hb he ⊢
    refine Eq.trans (ykStep_goes hok h rfl (syncRange_inside hb he)) ?_
    change Host.Outcome.next (s.withCore (((c.modSeq t fun q => { q with sread := some f.d.toNat }).modTile t fun y =>
      { y with seq := { y.seq with pc := x.seq.pc + 8 } }).send _)) = _
    rw [Core.modSeq, Core.modTile_modTile]
    rfl
  case outside =>
    rw [← number] at out ⊢
    exact ykStep_traps hok h (syncRange_outside out)

end Sys2Proof.Machine
end

section
/-! A KERNEL's last line answered while an event counter wraps: against O52 (R195, R316, R484, R536, R537). -/

namespace Sys2Proof.Machine
open Sys2Proof

/-- The header of a binary whose text is 16 bytes for address 0x40, where the kernel also starts: words 2, 4, 5 and 6. -/
def wrapHdr : Line := BitVec.ofNat 1024 (0x40 * 2 ^ 64 + 0x100 * 2 ^ 128 + 16 * 2 ^ 160 + 0x40 * 2 ^ 192)

/-- The work item of that KERNEL, its load waiting for the last line. -/
def wrapWork : Work :=
  { p := 0, r := 0, idx := 0, ci := 0, count := 1, kernel := true, desc := 8, hdr := wrapHdr, started := true, loading := true }

/-- The line that is outstanding: the text, at PLA 0x100. -/
def wrapLine : DmaLine :=
  { pla := 0x100, write := false, retry := false, lsAddr := 0x40, off := 0, len := 16, desc := 0, q := workReq {} wrapWork 0 0x100 }

/-- The answer to it: data, clean, unmarked and not refused. -/
def wrapAnswer : DmaResp := ⟨opCmpData, wrapLine.q.tag, wrapLine.pla, 0, false, false, 0, 0⟩

/-- Event counter 0 of cluster 0 counts DMA reads (event 8) with INT_EN set and stands one below its wrap. The log interrupt is as a reset
leaves it: on, from errors up. -/
def wrapState : State :=
  { pending := []
    dev := { core := {
      evc := { counters := [(ctrKey 4 0 0, { value := 0xFFFFFFFFFFFF, sel := 0x4008 })] }
      tiles := [(0, { power := .active, assigned := true, en := true, work := some wrapWork, chans := [(0, { lines := [wrapLine] })] })] } } }

/-- The read is counted, the counter wraps, EVC_WRAP is logged, and the log's in-band interrupt is sent. -/
theorem wrapState_sends_ibi : ∃ u, exec (.dmaResponse 0 0 wrapAnswer) wrapState = .next u ∧ u.dev.core.out = [.ibi 1] :=
  ⟨_, rfl, by decide +kernel⟩

/-- Refutes O52: the clause on the last line of a KERNEL's load says that nothing is sent, but the line is also counted as a DMA read (R536), and a
counter with INT_EN that wraps on it logs EVC_WRAP (R537), whose in-band interrupt is sent (R316, R484). -/
theorem not_commandsOnClusters : ¬ Obligations.CommandsOnClusters := by
  unfold Obligations.CommandsOnClusters
  intro h
  obtain ⟨-, -, -, -, -, lastLine, -⟩ := h wrapState rfl
  have layout : binLayoutOk wrapWork.hdr = true := by decide +kernel
  obtain ⟨u, run, -, -, quiet, -⟩ := lastLine 0 wrapWork wrapAnswer wrapLine rfl rfl rfl rfl rfl rfl rfl rfl rfl rfl rfl rfl (by decide)
    rfl rfl rfl layout
  obtain ⟨v, ran, sent⟩ := wrapState_sends_ibi
  cases run.symm.trans ran
  exact absurd (quiet.symm.trans sent) (List.cons_ne_nil _ _).symm

end Sys2Proof.Machine
end

section
/-! SUPPORT. What the operations of a dispatcher do to the ring pages and commands of its partition (R203–R209, R221, R227). -/

namespace Sys2Proof.Machine
open Sys2Proof

/-! ### Ring pages and commands of a partition -/

section
variable (c : Core) (p r : Nat)

theorem modPtn_same (f : Ptn → Ptn) : (c.modPtn p f).ptn p = f (c.ptn p) := Core.setPtn_same ..

theorem ringOf_of_rings {c d : Core} {p : Nat} (h : (d.ptn p).rings = (c.ptn p).rings) (r : Nat) : d.ringOf p r = c.ringOf p r :=
  congrArg (tget ({} : Ring) r) h

/-- The rings of a partition after a change of its other fields. -/
theorem modPtn_ringOf {f : Ptn → Ptn} (h : (f (c.ptn p)).rings = (c.ptn p).rings) : (c.modPtn p f).ringOf p r = c.ringOf p r :=
  ringOf_of_rings ((congrArg Ptn.rings (modPtn_same c p f)).trans h) r

theorem modRing_ptn (f : Ring → Ring) :
    (modRing p r f c).ptn p = { c.ptn p with rings := tput {} r (f (c.ringOf p r)) (c.ptn p).rings } := modPtn_same ..

@[simp] theorem modRing_same (f : Ring → Ring) : (modRing p r f c).ringOf p r = f (c.ringOf p r) :=
  (congrArg (fun x => tget ({} : Ring) r (Ptn.rings x)) (modRing_ptn c p r f)).trans (tget_tput_same ..)

theorem modRing_ne (f : Ring → Ring) {j : Nat} (h : j ≠ r) : (modRing p r f c).ringOf p j = c.ringOf p j :=
  (congrArg (fun x => tget ({} : Ring) j (Ptn.rings x)) (modRing_ptn c p r f)).trans (tget_tput_ne _ h _ _)

/-- Two changes of one page are one. -/
theorem modRing_modRing (f g : Ring → Ring) : modRing p r g (modRing p r f c) = modRing p r (fun x => g (f x)) c := by
  simp [modRing, Core.modPtn, Core.setPtn, Core.ptn]

@[simp] theorem modRing_cmds (f : Ring → Ring) : ((modRing p r f c).ptn p).cmds = (c.ptn p).cmds := by rw [modRing_ptn]
@[simp] theorem modRing_ended (f : Ring → Ring) : ((modRing p r f c).ptn p).ended = (c.ptn p).ended := by rw [modRing_ptn]
@[simp] theorem modRing_turn (f : Ring → Ring) : ((modRing p r f c).ptn p).turn = (c.ptn p).turn := by rw [modRing_ptn]

@[simp] theorem dropCmds_ringOf (q : Cmd → Bool) (j : Nat) : (dropCmds p r q c).ringOf p j = c.ringOf p j := modPtn_ringOf _ _ _ rfl

@[simp] theorem dropCmds_cmds (q : Cmd → Bool) :
    ((dropCmds p r q c).ptn p).cmds = (c.ptn p).cmds.filter (fun k => !(decide (k.r = r) && q k)) := by
  rw [dropCmds, modPtn_same]

@[simp] theorem modCmd_ringOf (idx : BitVec 32) (g : Cmd → Cmd) (j : Nat) : (modCmd p r idx g c).ringOf p j = c.ringOf p j := modPtn_ringOf _ _ _ rfl

theorem modCmd_cmds (idx : BitVec 32) (g : Cmd → Cmd) :
    ((modCmd p r idx g c).ptn p).cmds = (c.ptn p).cmds.map (fun k => if k.r = r ∧ k.idx = idx then g k else k) := by
  rw [modCmd, modPtn_same]

theorem modCmd_ended (idx : BitVec 32) (g : Cmd → Cmd) : ((modCmd p r idx g c).ptn p).ended = (c.ptn p).ended := by
  rw [modCmd, modPtn_same]
theorem modCmd_turn (idx : BitVec 32) (g : Cmd → Cmd) : ((modCmd p r idx g c).ptn p).turn = (c.ptn p).turn := by
  rw [modCmd, modPtn_same]
end

theorem modPtn_mem (c : Core) (p : Nat) (f : Ptn → Ptn) : (c.modPtn p f).mem = c.mem := rfl
theorem modRing_mem (c : Core) (p r : Nat) (f : Ring → Ring) : (modRing p r f c).mem = c.mem := rfl
theorem progress_mem (c : Core) (p : Nat) : (progress p c).mem = c.mem := rfl

theorem ringOf_of_rest {c d : Core} (h : d.rest = c.rest) (p r : Nat) : d.ringOf p r = c.ringOf p r := ringOf_of_rings (congrArg Ptn.rings (ptn_of_rest h p)) r

/-- An access through the line store of a home leaves the partitions alone. -/
theorem touchLine_ptn (c : Core) (e l q p : Nat) (dirty : Bool) : (touchLine e l q dirty c).ptn p = c.ptn p :=
  (touchLine_only c e l q dirty).keeps (fun d => d.ptn p) (fun _ => rfl) (fun _ => rfl)

theorem Ring.settled_of_st {x : Ring} (h : x.st = .disabled ∨ x.st = .running) : x.settled = x :=
  if_neg fun k => by rcases h with h | h <;> simp [h] at k

/-! ### Commands that end (R205, R208, R209, R227) -/

section
variable {c : Core} {p : Nat} {k : Cmd}

/-- A command of a stopped ring leaves no record. -/
theorem endCmd_stopped (h : (c.ringOf p k.r).st = .stopped) :
    endCmd p k c = dropCmds p k.r (fun x => decide (x.idx = k.idx)) (modRing p k.r (fun x => { x with inFlight := x.inFlight - 1 }.settled) c) :=
  if_pos (decide_eq_true h)

/-- A command of a ring that is not stopped waits for its record. -/
theorem endCmd_recorded (h : (c.ringOf p k.r).st ≠ .stopped) :
    endCmd p k c = (modCmd p k.r k.idx (fun _ => { k with phase := 3 }) (modRing p k.r (fun x => { x with inFlight := x.inFlight - 1 }.settled) c)).modPtn p
      (fun x => { x with ended := x.ended ++ [(k.r, k.idx)] }) :=
  if_neg fun k => h (of_decide_eq_true k)

/-- What is left of the commands that a ring has dropped. -/
theorem not_mem_dropped {r : Nat} {q : Cmd → Bool} {j : Cmd} (h : j ∈ ((dropCmds p r q c).ptn p).cmds) : ¬(j.r = r ∧ q j = true) := by
  rw [dropCmds_cmds, List.mem_filter] at h
  rintro ⟨hr, hq⟩
  simp [hr, hq] at h

/-- From `c` to `d` command `k` of partition `p` ended, its record still to be written. -/
structure CmdEnded (p : Nat) (k : Cmd) (c d : Core) : Prop where
  mem : d.mem = c.mem
  turn : (d.ptn p).turn = (c.ptn p).turn
  page : d.ringOf p k.r = Ring.settled { c.ringOf p k.r with inFlight := (c.ringOf p k.r).inFlight - 1 }
  ended : (d.ptn p).ended = (c.ptn p).ended ++ [(k.r, k.idx)]
  cmd : { k with phase := 3 } ∈ (d.ptn p).cmds

theorem endCmd_ended (h : (c.ringOf p k.r).st ≠ .stopped) {j : Cmd} (hj : j ∈ (c.ptn p).cmds) (hr : j.r = k.r) (hi : j.idx = k.idx) :
    CmdEnded p k c (endCmd p k c) := by
  rw [endCmd_recorded h]
  refine ⟨?_, ?_, ?_, ?_, ?_⟩
  · rw [modPtn_mem, modCmd, modPtn_mem, modRing_mem]
  · rw [modPtn_same, modCmd_turn, modRing_turn]
  · rw [modPtn_ringOf _ _ _ rfl, modCmd_ringOf, modRing_same]
  · rw [modPtn_same, modCmd_ended, modRing_ended]
  · rw [modPtn_same, modCmd_cmds, modRing_cmds]
    exact List.mem_map.2 ⟨j, hj, if_pos ⟨hr, hi⟩⟩
end

/-! ### Rings that stop (R209) -/

section
variable (p r : Nat) (stop : BitVec 4) (idx : BitVec 32) (c : Core)

/-- The core of a stopped ring before the log entry. -/
theorem stopRing_rest :
    (stopRing p r stop idx c).rest =
      (modRing p r (fun x => { x with stop := stop, errIndex := idx, st := .stopped }.settled) (dropCmds p r (fun k => decide (k.phase = 3)) c)).rest :=
  logE_rest ..

theorem stopRing_mem : (stopRing p r stop idx c).mem = c.mem :=
  (rest_mem (stopRing_rest p r stop idx c)).trans rfl

theorem stopRing_page :
    (stopRing p r stop idx c).ringOf p r = Ring.settled { c.ringOf p r with stop := stop, errIndex := idx, st := .stopped } := by
  rw [ringOf_of_rest (stopRing_rest p r stop idx c), modRing_same, dropCmds_ringOf]

theorem stopRing_cmds :
    ((stopRing p r stop idx c).ptn p).cmds = (c.ptn p).cmds.filter (fun k => !(decide (k.r = r) && decide (k.phase = 3))) := by
  rw [ptn_of_rest (stopRing_rest p r stop idx c), modRing_cmds, dropCmds_cmds]

variable {p r stop idx c} in
theorem not_mem_stopped {j : Cmd} (h : j ∈ ((stopRing p r stop idx c).ptn p).cmds) : ¬(j.r = r ∧ j.phase = 3) := by
  rw [stopRing_cmds, ← dropCmds_cmds] at h
  exact fun k => not_mem_dropped h ⟨k.1, decide_eq_true k.2⟩
end

end Sys2Proof.Machine
end

section
/-! SUPPORT. The answer to a host's write of a ring page (R44, R66, R203). -/

namespace Sys2Proof.Machine
open Sys2Proof

/-! ### The answer -/

theorem refusalCounted_rings (o : Origin) (p q : Nat) (a : Ans) (c : Core) : ((refusalCounted o p a c).ptn q).rings = (c.ptn q).rings := by
  unfold refusalCounted
  split
  · rw [ptn_of_rest (countEvent_rest ..), Core.modPtn, Core.setPtn_get]
    split
    · next h => rw [h]
    · rfl
  · split
    · rw [ptn_of_rest (countEvent_rest ..)]
    · rfl

/-- The answer to a host that has no replicated request pending: one completion, after the counts. -/
theorem answer_host {c : Core} {o : Origin} {p : Nat} (hk : o.kind = 1) (hp : (c.mirr p).pendOf o = none) (pla : BitVec 40) (a : Ans) :
    c.answer o p pla a = (refusalCounted o p a c).send (.completion (cmpFor o (c.host o.idx).ep (c.ptn p).endpoint p a)) := by
  unfold Core.answer
  rw [if_pos hk, hp]
  exact toEndpoint_eq ..

/-- From `c` to `d` the ring page of `a` became `y`, its host was answered, and other pages, pool memory and clusters stayed. -/
structure PageAnswered (a : RingAddr) (op : BitVec 6) (reason : BitVec 4) (y : Ring) (c d : Core) : Prop where
  mem : d.mem = c.mem
  tiles : d.tiles = c.tiles
  others : ∀ r, r ≠ a.r → d.ringOf a.p r = c.ringOf a.p r
  out : d.out.getLast? = some (.completion (cmpFor a.o (c.host a.o.idx).ep (c.ptn a.p).endpoint a.p { op := op, reason := reason }))
  page : d.ringOf a.p a.r = y

section
variable {a : RingAddr} {c : Core} (hk : a.o.kind = 1) (hp : (c.mirr a.p).pendOf a.o = none)
include hk hp

theorem modRing_answered (f : Ring → Ring) (op : BitVec 6) (reason : BitVec 4) :
    PageAnswered a op reason (f (c.ringOf a.p a.r)) c ((modRing a.p a.r f c).answer a.o a.p 0 { op := op, reason := reason }) := by
  have answered := answer_host (c := modRing a.p a.r f c) hk hp 0 { op := op, reason := reason }
  have kept {α : Type} (g : Core → α) := refusalCounted_keeps a.o a.p { op := op, reason := reason } (modRing a.p a.r f c) g
  have page (r : Nat) : (refusalCounted a.o a.p { op := op, reason := reason } (modRing a.p a.r f c)).ringOf a.p r = (modRing a.p a.r f c).ringOf a.p r :=
    ringOf_of_rings (refusalCounted_rings ..) r
  rw [answered]
  refine ⟨kept Core.mem (fun _ => rfl) (fun _ _ _ => rfl), kept Core.tiles (fun _ => rfl) (fun _ _ _ => rfl), fun r hr => ?_, ?_, ?_⟩
  · exact (page r).trans (modRing_ne c a.p a.r f hr)
  · rw [modRing_ptn]
    exact List.getLast?_concat
  · exact (page a.r).trans (modRing_same ..)

theorem ringRefuse_answered (f : Ring → Ring) :
    PageAnswered a opNackRevoked 4 { f (c.ringOf a.p a.r) with refused := (f (c.ringOf a.p a.r)).refused + 1 } c
      (ringRefuse a.p a.r a.o (modRing a.p a.r f c)) := by
  rw [ringRefuse, modRing_modRing]
  exact modRing_answered hk hp (fun x => { f x with refused := (f x).refused + 1 }) opNackRevoked 4
end

/-! ### The write (R203, R204) -/

section
variable {c : Core} {p r s : Nat} {o : Origin} {w : BitVec 32}

/-- A write of part of a register, or by a group that may not write. -/
theorem ringRegs_refusedWhole {whole : Bool} (hs : isRingReg s = true) (h : whole = false ∨ ringMayWrite c (c.ringOf p r) o = false) :
    ringRegs p r o [(s, w, whole)] c = ringRefuse p r o c := by
  rcases h with h | h <;> simp [ringRegs, hs, h]

/-- A register that refuses the word; CTRL also says why. -/
theorem ringRegs_refused (hs : isRingReg s = true) (hm : ringMayWrite c (c.ringOf p r) o = true) (hy : ringReg c p s w (c.ringOf p r) = none) :
    ringRegs p r o [(s, w, true)] c = ringRefuse p r o (if s = 0 then modRing p r (fun y => { y with stop := 1 }) c else c) := by
  simp [ringRegs, hs, hm, ringTake, hy]
end

end Sys2Proof.Machine
end

section
/-! SUPPORT. What each register of a ring page takes, and what the host of a write is answered (R202–R206, R208). -/

namespace Sys2Proof.Machine
open Sys2Proof

/-! ### The registers (R204–R206, R208) -/

/-- What enabling a ring requires of SIZE_LOG2 and of the two regions (R204). -/
def enables (c : Core) (p : Nat) (w : BitVec 32) (x : Ring) : Prop :=
  4 ≤ field w 8 4 ∧ field w 8 4 ≤ 16 ∧ inUncached c p x.cmdBase.toNat (2 ^ field w 8 4 * 128) = true ∧
    inUncached c p x.cplBase.toNat (2 ^ field w 8 4 * 32) = true

section
variable {c : Core} {p : Nat} {w : BitVec 32} {x : Ring}

theorem ringCtrl_configures (hd : x.st = .disabled) (hw : w.getLsbD 0 = false) : ringCtrl c p w x = some { x with ctrl := w &&& 0x01FF01F0 } := by
  rw [ringCtrl, if_pos hd]
  exact if_pos (by rw [hw]; rfl)

theorem ringCtrl_enables (hd : x.st = .disabled) (hw : w.getLsbD 0 = true) (hg : enables c p w x) :
    ringCtrl c p w x = some { x with ctrl := w &&& 0x01FF01F1, tail := 0, head := 0, done := 0, cplAck := 0, stop := 0, st := .running } := by
  rw [ringCtrl, if_pos hd]
  exact (if_neg (by rw [hw]; decide)).trans (if_pos hg)

theorem ringCtrl_refuses (hd : x.st = .disabled) (hw : w.getLsbD 0 = true) (hg : ¬enables c p w x) : ringCtrl c p w x = none := by
  rw [ringCtrl, if_pos hd]
  exact (if_neg (by rw [hw]; decide)).trans (if_neg hg)

theorem ringCtrl_stays (hd : x.st ≠ .disabled) (hw : w.getLsbD 0 = true) : ringCtrl c p w x = some x := by
  rw [ringCtrl, if_neg hd]
  exact if_neg (by rw [hw]; decide)

theorem ringCtrl_disables (hd : x.st ≠ .disabled) (hw : w.getLsbD 0 = false) :
    ringCtrl c p w x = some { x with ctrl := x.ctrl &&& ~~~1#32, st := if x.st = .running then .draining else x.st } := by
  rw [ringCtrl, if_neg hd]
  exact if_pos (by rw [hw]; rfl)

/-- A ring that EN = 0 leaves with nothing in flight is disabled at once, else it drains (R205, log 125). -/
theorem drained_settled :
    Ring.settled { x with ctrl := x.ctrl &&& ~~~1#32, st := .draining } =
      { x with ctrl := x.ctrl &&& ~~~1#32, st := if x.inFlight = 0 then .disabled else .draining } := by
  unfold Ring.settled
  by_cases h : x.inFlight = 0
  · rw [if_pos ⟨.inl rfl, h⟩, if_pos h, BitVec.and_assoc, BitVec.and_self]
  · rw [if_neg (fun k => h k.2), if_neg h]

theorem ringTail_takes (hd : x.st ≠ .disabled) (hw : w = x.tail ∨ ((w - x.head).toNat ≤ x.size ∧ (w - x.tail).toNat < 0x80000000)) :
    ringTail w x = some { x with tail := w } :=
  if_pos ⟨hd, hw.imp_right fun h => by rw [acceptTail, decide_eq_true h.1, decide_eq_true h.2]; rfl⟩

theorem ringTail_refuses (h : x.st = .disabled ∨ (w ≠ x.tail ∧ (x.size < (w - x.head).toNat ∨ 0x80000000 ≤ (w - x.tail).toNat))) :
    ringTail w x = none := by
  refine if_neg ?_
  rintro ⟨hd, hw⟩
  rcases h with h | ⟨ht, far⟩
  · exact hd h
  · rcases hw with hw | hw
    · exact ht hw
    · simp only [acceptTail, Bool.and_eq_true, decide_eq_true_eq] at hw
      omega

theorem ringAck_takes (hd : x.st ≠ .disabled) (hw : (w - x.cplAck).toNat ≤ (x.done - x.cplAck).toNat) : ringAck w x = some { x with cplAck := w } :=
  if_pos ⟨hd, hw⟩

theorem ringAck_refuses (h : x.st = .disabled ∨ (x.done - x.cplAck).toNat < (w - x.cplAck).toNat) : ringAck w x = none :=
  if_neg fun k => h.elim k.1 (Nat.not_lt.2 k.2)

theorem ringBase_refuses {off : Nat} (h : x.st ≠ .disabled) : ringBase off w x = none := if_pos h

theorem ringBase_of_disabled (h : x.st = .disabled) :
    ringBase 0x08 w x = some { x with cmdBase := BitVec.ofNat 40 (x.cmdBase.toNat / 2 ^ 32 * 2 ^ 32 + w.toNat / 128 * 128) } ∧
    ringBase 0x0C w x = some { x with cmdBase := BitVec.ofNat 40 (x.cmdBase.toNat % 2 ^ 32 + w.toNat % 256 * 2 ^ 32) } ∧
    ringBase 0x10 w x = some { x with cplBase := BitVec.ofNat 40 (x.cplBase.toNat / 2 ^ 32 * 2 ^ 32 + w.toNat / 128 * 128) } ∧
    ringBase 0x14 w x = some { x with cplBase := BitVec.ofNat 40 (x.cplBase.toNat % 2 ^ 32 + w.toNat % 256 * 2 ^ 32) } := by
  have free : ¬x.st ≠ .disabled := not_not_intro h
  exact ⟨if_neg free, if_neg free, if_neg free, if_neg free⟩
end

/-- The offset that a write of a base register addresses. -/
def baseOffset (off : BitVec 8) : Nat := if off = 0x0C ∨ off = 0x10 ∨ off = 0x14 then off.toNat else 0x08

theorem baseOffset_mem (off : BitVec 8) : baseOffset off = 0x08 ∨ baseOffset off = 0x0C ∨ baseOffset off = 0x10 ∨ baseOffset off = 0x14 := by
  unfold baseOffset
  split
  · next h => rcases h with rfl | rfl | rfl <;> decide
  · exact .inl rfl

theorem baseOffset_low {off : BitVec 8} (h1 : off ≠ 0x0C) (h2 : off ≠ 0x10) (h3 : off ≠ 0x14) : baseOffset off = 0x08 :=
  if_neg (by rintro (h | h | h) <;> contradiction)

theorem isRingReg_base (off : BitVec 8) : isRingReg (baseOffset off) = true := by
  rcases baseOffset_mem off with h | h | h | h <;> rw [h] <;> rfl

theorem ringReg_base (c : Core) (p : Nat) (off : BitVec 8) (w : BitVec 32) (x : Ring) :
    ringReg c p (baseOffset off) w x = ringBase (baseOffset off) w x := by
  have base := baseOffset_mem off
  rw [ringReg, if_neg (by omega), if_neg (by omega), if_pos base]

/-! ### A host's write (R203) -/

/-- The dispatcher of the page works, and the host is an admitted one of its partition, with no replicated request pending. -/
structure HostWrites (a : RingAddr) (c : Core) : Prop where
  works : c.works 8 (a.p / 2) = true
  kind : a.o.kind = 1
  idx : a.o.idx < 4096
  valid : (c.host a.o.idx).valid = true
  ptn : (c.host a.o.idx).p = a.p
  ring : a.r < 16
  pend : (c.mirr a.p).pendOf a.o = none

section
variable {a : RingAddr} {c : Core} (h : HostWrites a c) {s : Nat} {w : BitVec 32}
include h

theorem HostWrites.user : windowUser c a.p a.o = true := by
  simp [windowUser, Core.originPtn, h.kind, h.idx, h.valid, h.ptn]

theorem ringWrite_admitted : ringWrite a s w c = ringRegs a.p a.r a.o [(s, w, a.whole)] c :=
  if_neg (by simp [h.works, h.user, h.ring])

theorem ringWrite_refusedWhole (hs : isRingReg s = true) (hm : a.whole = false ∨ ringMayWrite c (c.ringOf a.p a.r) a.o = false) :
    PageAnswered a 0x39 4 { c.ringOf a.p a.r with refused := (c.ringOf a.p a.r).refused + 1 } c (ringWrite a s w c) := by
  rw [ringWrite_admitted h, ringRegs_refusedWhole hs hm]
  exact modRing_answered h.kind h.pend (fun x => { x with refused := x.refused + 1 }) opNackRevoked 4

variable (hw : a.whole = true) (hm : ringMayWrite c (c.ringOf a.p a.r) a.o = true) (hs : isRingReg s = true)
include hw hm hs

theorem ringWrite_taken {y : Ring} (hy : ringReg c a.p s w (c.ringOf a.p a.r) = some y) :
    PageAnswered a 0x31 0 y.settled c (ringWrite a s w c) := by
  rw [ringWrite_admitted h, hw, ringRegs_taken hs hm hy]
  exact modRing_answered h.kind h.pend (fun _ => y.settled) opCmp 0

theorem ringWrite_refused (h0 : s ≠ 0) (hy : ringReg c a.p s w (c.ringOf a.p a.r) = none) :
    PageAnswered a 0x39 4 { c.ringOf a.p a.r with refused := (c.ringOf a.p a.r).refused + 1 } c (ringWrite a s w c) := by
  rw [ringWrite_admitted h, hw, ringRegs_refused hs hm hy, if_neg h0]
  exact modRing_answered h.kind h.pend (fun x => { x with refused := x.refused + 1 }) opNackRevoked 4

omit hs in
theorem ringWrite_badRegion (hy : ringCtrl c a.p w (c.ringOf a.p a.r) = none) :
    PageAnswered a 0x39 4 { c.ringOf a.p a.r with stop := 1, refused := (c.ringOf a.p a.r).refused + 1 } c (ringWrite a 0 w c) := by
  rw [ringWrite_admitted h, hw, ringRegs_refused (s := 0) rfl hm hy, if_pos rfl]
  exact ringRefuse_answered h.kind h.pend fun y => { y with stop := 1 }
end

end Sys2Proof.Machine
end

section
/-! SUPPORT. The fetch of a descriptor, and its record (R207, R208, R220, R221, R227). -/

namespace Sys2Proof.Machine
open Sys2Proof

/-! ### The fetch (R207, R220, R221) -/

/-- The command of the descriptor at HEAD, as line `l` of home `e` gives it. -/
def fetchedCmd (p r e l : Nat) (c : Core) : Cmd := { r := r, idx := (c.ringOf p r).head, desc := (c.rdPool e l).1 }

/-- The core in which the descriptor at HEAD has been read. -/
def fetched (p r e l : Nat) (c : Core) : Core :=
  progress p ((modRing p r (fun x => { x with head := x.head + 1, inFlight := x.inFlight + 1 }) (touchLine e l p false c)).modPtn p
    (fun q => { q with cmds := q.cmds ++ [fetchedCmd p r e l c], turn := r }))

section
variable {c : Core} {p r : Nat}

theorem nextRing_running (h : nextRing c p = some r) : (c.ringOf p r).st = .running := by
  unfold nextRing at h
  split at h
  · cases h
  · have fetches := List.find?_some h
    simp only [Ring.fetches, Bool.and_eq_true, decide_eq_true_eq] at fetches
    exact fetches.1.1

theorem fxFetch_none (h : nextRing c p = none) : fxFetch p c = c := by
  unfold fxFetch
  rw [h]

theorem fxFetchRefused_none (h : nextRing c p = none) : fxFetchRefused p c = c := by
  unfold fxFetchRefused
  rw [h]

section
variable {e l : Nat} (hn : nextRing c p = some r) (ha : dispAccess c p (readReq (c.ringOf p r).slotPla 0 0 0) = some (.ok (e, l)))
include hn ha

theorem fxFetch_read :
    fxFetch p c =
      if (c.rdPool e l).2 then failCmd p (fetchedCmd p r e l c) 0x15 0 (c.ringOf p r).slotPla (fetched p r e l c)
      else if cType (c.rdPool e l).1 = 0 ∨ 8 < cType (c.rdPool e l).1 then failCmd p (fetchedCmd p r e l c) 0x10 0 0 (fetched p r e l c)
      else fetched p r e l c := by
  unfold fxFetch
  rw [hn]
  dsimp only
  rw [ha]
  rfl

theorem fxFetchRefused_read : fxFetchRefused p c = c := by
  unfold fxFetchRefused
  rw [hn]
  dsimp only
  rw [ha]
end

section
variable {n : Ans} (hn : nextRing c p = some r) (ha : dispAccess c p (readReq (c.ringOf p r).slotPla 0 0 0) = some (.error n))
include hn ha

theorem fxFetch_refused : fxFetch p c = c := by
  unfold fxFetch
  rw [hn]
  dsimp only
  rw [ha]

theorem fxFetchRefused_refused :
    fxFetchRefused p c = stopRing p r 2 (c.ringOf p r).head (c.modPtn p (fun q => { q with turn := r })) := by
  unfold fxFetchRefused
  rw [hn]
  dsimp only
  rw [ha]
end

variable (c p r) (e l : Nat)

theorem fetched_mem : (fetched p r e l c).mem = c.mem := by
  rw [fetched, progress_mem, modPtn_mem, modRing_mem, (touchLine_only c e l p false).mem]

/-- What a fetch makes of its partition: the page, the commands, and the rings' turn. -/
theorem fetched_ptn :
    (fetched p r e l c).ptn p = { c.ptn p with
      rings := tput {} r { c.ringOf p r with head := (c.ringOf p r).head + 1, inFlight := (c.ringOf p r).inFlight + 1 } (c.ptn p).rings
      cmds := (c.ptn p).cmds ++ [fetchedCmd p r e l c], turn := r, blocked := false } := by
  rw [fetched, progress, modPtn_same, modPtn_same, modRing_ptn, touchLine_ptn, ringOf_of_rings (congrArg Ptn.rings (touchLine_ptn c e l p p false))]

theorem fetched_page :
    (fetched p r e l c).ringOf p r = { c.ringOf p r with head := (c.ringOf p r).head + 1, inFlight := (c.ringOf p r).inFlight + 1 } :=
  (congrArg (fun x => tget ({} : Ring) r (Ptn.rings x)) (fetched_ptn c p r e l)).trans (tget_tput_same ..)

theorem fetched_cmds : ((fetched p r e l c).ptn p).cmds = (c.ptn p).cmds ++ [fetchedCmd p r e l c] := by rw [fetched_ptn]
theorem fetched_ended : ((fetched p r e l c).ptn p).ended = (c.ptn p).ended := by rw [fetched_ptn]
theorem fetched_turn : ((fetched p r e l c).ptn p).turn = r := by rw [fetched_ptn]

variable {c p r}

/-- A fetched command that fails at once: it is in flight no more, and its record is to be written. -/
theorem fetched_fails (hn : nextRing c p = some r) (st : BitVec 8) (d d64 : Nat) :
    ∃ k : Cmd, k.r = r ∧ k.idx = (c.ringOf p r).head ∧ k.status = st ∧ k.failed = true ∧
      CmdEnded p k (fetched p r e l c) (failCmd p (fetchedCmd p r e l c) st d d64 (fetched p r e l c)) := by
  have running : ((fetched p r e l c).ringOf p r).st ≠ .stopped := by
    rw [fetched_page, nextRing_running hn]
    decide
  have listed : fetchedCmd p r e l c ∈ ((fetched p r e l c).ptn p).cmds := by
    rw [fetched_cmds]
    exact List.mem_append_right _ (List.mem_singleton_self _)
  exact ⟨_, rfl, rfl, rfl, rfl, endCmd_ended (c := fetched p r e l c) (p := p) running listed rfl rfl⟩

/-- From `c` to `d` the descriptor at HEAD of ring `r` was fetched and its command ended with status `st`. -/
structure FetchFailed (p r : Nat) (st : BitVec 8) (c d : Core) : Prop where
  mem : d.mem = c.mem
  turn : (d.ptn p).turn = r
  page : d.ringOf p r = { c.ringOf p r with head := (c.ringOf p r).head + 1 }
  ended : (d.ptn p).ended = (c.ptn p).ended ++ [(r, (c.ringOf p r).head)]
  cmd : ∃ k ∈ (d.ptn p).cmds, k.r = r ∧ k.idx = (c.ringOf p r).head ∧ k.status = st ∧ k.failed = true ∧ k.phase = 3

theorem fetch_failed (hn : nextRing c p = some r) (st : BitVec 8) (d d64 : Nat) :
    FetchFailed p r st c (failCmd p (fetchedCmd p r e l c) st d d64 (fetched p r e l c)) := by
  obtain ⟨k, hr, hi, hst, hf, h⟩ := fetched_fails e l hn st d d64
  refine ⟨h.mem.trans (fetched_mem ..), h.turn.trans (fetched_turn ..), ?_, ?_, _, h.cmd, hr, hi, hst, hf, rfl⟩
  · have page := h.page
    rw [hr, fetched_page] at page
    exact page.trans (Ring.settled_of_st (.inr (nextRing_running hn)))
  · rw [h.ended, fetched_ended, hr, hi]

section
variable {e l : Nat} (hn : nextRing c p = some r) (ha : dispAccess c p (readReq (c.ringOf p r).slotPla 0 0 0) = some (.ok (e, l)))
include hn ha

theorem fxFetch_listed (hb : (c.rdPool e l).2 = false) (h1 : 1 ≤ cType (c.rdPool e l).1) (h8 : cType (c.rdPool e l).1 ≤ 8) :
    fxFetch p c = fetched p r e l c := by
  rw [fxFetch_read hn ha, if_neg (by rw [hb]; decide), if_neg (by omega)]

theorem fxFetch_poisoned (hb : (c.rdPool e l).2 = true) : FetchFailed p r 0x15 c (fxFetch p c) := by
  rw [fxFetch_read hn ha, if_pos hb]
  exact fetch_failed e l hn ..

theorem fxFetch_unlisted (hb : (c.rdPool e l).2 = false) (ht : cType (c.rdPool e l).1 = 0 ∨ 8 < cType (c.rdPool e l).1) :
    FetchFailed p r 0x10 c (fxFetch p c) := by
  rw [fxFetch_read hn ha, if_neg (by rw [hb]; decide), if_pos ht]
  exact fetch_failed e l hn ..

/-- Whatever the descriptor, pool memory stays and the ring has had its turn. -/
theorem fxFetch_kept : (fxFetch p c).mem = c.mem ∧ ((fxFetch p c).ptn p).turn = r := by
  rw [fxFetch_read hn ha]
  split
  · exact ⟨(fetch_failed e l hn ..).mem, (fetch_failed e l hn ..).turn⟩
  · split
    · exact ⟨(fetch_failed e l hn ..).mem, (fetch_failed e l hn ..).turn⟩
    · exact ⟨fetched_mem .., fetched_turn ..⟩
end
end

/-! ### Words of a record (R208) -/

theorem packWords_word (l : List Nat) (i : Nat) : packWords l / 256 ^ (4 * i) % 256 ^ 4 = l.getD i 0 % 256 ^ 4 := by
  induction l generalizing i with
  | nil => simp [packWords]
  | cons w l ih =>
    cases i with
    | zero =>
      change (w % 2 ^ 32 + 2 ^ 32 * packWords l) / 1 % 2 ^ 32 = w % 2 ^ 32
      omega
    | succ i =>
      have rest : (w % 2 ^ 32 + 2 ^ 32 * packWords l) / 2 ^ 32 = packWords l := by omega
      rw [List.getD_cons_succ, ← ih i, Nat.mul_add, Nat.add_comm, Nat.pow_add, ← Nat.div_div_eq_div_mul]
      exact congrArg (fun v => v / 256 ^ (4 * i) % 256 ^ 4) rest

/-- Bytes of a number shifted into a line. -/
theorem lineByte_shifted {off i : Nat} (h : off + i < 128) (v : Nat) :
    lineByte (BitVec.ofNat 1024 (v * 2 ^ (8 * off))) (off + i) = BitVec.ofNat 8 (v / 256 ^ i) := by
  refine BitVec.eq_of_getLsbD_eq fun t ht => ?_
  have byte : 256 ^ i = 2 ^ (8 * i) := (Nat.pow_mul 2 8 i).symm
  have reached : 8 * off ≤ 8 * (off + i) + t := by omega
  have bit : 8 * (off + i) + t - 8 * off = t + 8 * i := by omega
  rw [lineByte_ofNat_getLsbD h ht, Nat.testBit_mul_two_pow, bit, BitVec.getLsbD_ofNat, byte, Nat.testBit_div_two_pow]
  simp only [reached, ht, decide_true, Bool.true_and]

theorem chunkMask_ne_fullMask {off len : Nat} (h : len < 128) : chunkMask off len ≠ fullMask := by
  intro full
  have first := (chunkMask_getLsbD (b := 0) (by decide) off len).1 (by rw [full]; decide)
  have last := (chunkMask_getLsbD (b := 127) (by decide) off len).1 (by rw [full]; decide)
  omega

/-- A number of 32 bytes written at its place in a line, read by words. -/
theorem rdLE_wrMasked_chunk {off v i : Nat} (ho : off + 32 ≤ 128) (hi : i < 8) (m : Mem) (a : Nat) :
    rdLE (wrMasked m a (BitVec.ofNat 1024 (v * 2 ^ (8 * off))) (chunkMask off 32) 0 128) (a + off + 4 * i) 4 = v / 256 ^ (4 * i) % 256 ^ 4 := by
  rw [← rdLE_wrLE m (a + off + 4 * i) 4 (v / 256 ^ (4 * i))]
  refine rdLE_congr fun j hj => ?_
  have place : a + off + 4 * i + j - a = off + (4 * i + j) := by omega
  have masked : (chunkMask off 32).getLsbD (a + off + 4 * i + j - a) = true := (chunkMask_getLsbD (by omega) off 32).2 (by omega)
  rw [rdByte_wrMasked, if_pos ⟨by omega, by omega, masked⟩, place, lineByte_shifted (by omega), rdByte_wrLE_eq _ _ _ _ _ hj, Nat.div_div_eq_div_mul,
    Nat.pow_add]

theorem recordPla_inLine {x : Ring} (h : x.cplBase.toNat % 128 = 0) : x.recordPla % 128 + 32 ≤ 128 := by
  unfold Ring.recordPla
  generalize x.done.toNat % x.size = n
  omega

/-! ### The write of a record (R208, R209, R227) -/

/-- The core in which the record of `k` is in line `l` of home `e`. -/
def recordStored (p : Nat) (k : Cmd) (e l : Nat) (c : Core) : Core :=
  stMasked e l p (recordReq (c.ringOf p k.r) k).data (recordReq (c.ringOf p k.r) k).mask false c

/-- DONE counts the record, and its command leaves the dispatcher. -/
def recordCounted (p : Nat) (k : Cmd) (c : Core) : Core :=
  dropCmds p k.r (fun j => decide (j.idx = k.idx)) (modRing p k.r (fun x => { x with done := x.done + 1 }) c)

/-- The signal of a command, to an object of its partition. -/
def recordSignalled (p : Nat) (d : Line) (c : Core) : Core :=
  if cSigEn d && decide ((c.ptn p).syncBase ≤ cObj d) && decide (cObj d < (c.ptn p).syncBase + (c.ptn p).syncCount) then
    c.send (.sync ⟨12, cObj d, p, 0, false, false, 0, 0⟩) else c

section
variable {c : Core} {p : Nat} {k : Cmd} (hd : dispatches c p = true) (hn : nextRecord c p = some k)
include hd hn

section
variable {e l : Nat} (ha : dispAccess c p (recordReq (c.ringOf p k.r) k) = some (.ok (e, l)))
include ha

theorem fxRecord_accepted : fxRecord p false c = progress p (recordSignalled p k.desc (recordCounted p k (recordStored p k e l c))) := by
  unfold fxRecord
  rw [hd, hn]
  dsimp only
  rw [ha]
  dsimp only
  rw [if_neg (by decide), if_neg (by decide), recordSignalled, recordCounted, recordStored]

theorem fxRecord_notRefused : fxRecord p true c = c := by
  unfold fxRecord
  rw [hd, hn]
  dsimp only
  rw [ha]
  rfl
end

section
variable {n : Ans} (ha : dispAccess c p (recordReq (c.ringOf p k.r) k) = some (.error n))
include ha

theorem fxRecord_refused : fxRecord p true c = stopRing p k.r 3 (c.ringOf p k.r).done c := by
  unfold fxRecord
  rw [hd, hn]
  dsimp only
  rw [ha]
  dsimp only
  rw [if_neg (by decide), if_pos rfl]

theorem fxRecord_notAccepted : fxRecord p false c = c := by
  unfold fxRecord
  rw [hd, hn]
  dsimp only
  rw [ha]
  rfl
end
end

section
variable (p : Nat) (k : Cmd) (e l : Nat) (c : Core)

theorem recordStored_eq :
    recordStored p k e l c = touchLine e l p true (lineWritten e l (wrMasked c.mem (caKey e (l * 128)) (recordReq (c.ringOf p k.r) k).data
      (recordReq (c.ringOf p k.r) k).mask 0 128) (maskedMeta e l p c) c) :=
  stMasked_eq c e l p _ (chunkMask_ne_fullMask (by decide))

theorem recordStored_ptn : (recordStored p k e l c).ptn p = c.ptn p := by
  rw [recordStored_eq, touchLine_ptn]
  rfl

theorem recordStored_ringOf (r : Nat) : (recordStored p k e l c).ringOf p r = c.ringOf p r :=
  ringOf_of_rings (congrArg Ptn.rings (recordStored_ptn p k e l c)) r

/-- The eight words of the record are in the pool. -/
theorem recordStored_words (h : (c.ringOf p k.r).cplBase.toNat % 128 = 0) {i : Nat} (hi : i < 8) :
    rdLE (recordStored p k e l c).mem (caKey e (l * 128) + (c.ringOf p k.r).recordPla % 128 + 4 * i) 4 =
      ((recordWords (c.ringOf p k.r) k).getD i 0).toNat := by
  have small : ((recordWords (c.ringOf p k.r) k).getD i 0).toNat < 256 ^ 4 := BitVec.isLt _
  rw [recordStored_eq, (touchLine_only _ e l p true).mem, lineWritten_mem]
  refine (rdLE_wrMasked_chunk (recordPla_inLine h) hi c.mem _).trans ?_
  rw [packWords_word, ← Nat.mod_eq_of_lt small]
  exact congrArg (· % 256 ^ 4) (List.getD_map _ (0#32) (fun w => w.toNat))

theorem recordSignalled_mem (d : Line) : (recordSignalled p d c).mem = c.mem := by
  unfold recordSignalled
  split <;> rfl

theorem recordCounted_mem : (recordCounted p k c).mem = c.mem := rfl

theorem recordSignalled_ptn (d : Line) (q : Nat) : (recordSignalled p d c).ptn q = c.ptn q := by
  unfold recordSignalled
  split <;> rfl

theorem recordCounted_ptn :
    ((recordCounted p k c).ptn p).syncBase = (c.ptn p).syncBase ∧ ((recordCounted p k c).ptn p).syncCount = (c.ptn p).syncCount := by
  rw [recordCounted, dropCmds, modPtn_same, modRing_ptn]
  exact ⟨rfl, rfl⟩

theorem recordCounted_ringOf : (recordCounted p k c).ringOf p k.r = { c.ringOf p k.r with done := (c.ringOf p k.r).done + 1 } := by
  rw [recordCounted, dropCmds_ringOf, modRing_same]
end

/-- What an accepted record leaves: its command is gone, DONE counts it, its words are in the pool, and the signal is the last message. -/
structure RecordWritten (p : Nat) (k : Cmd) (e l : Nat) (c d : Core) : Prop where
  gone : ∀ j ∈ (d.ptn p).cmds, ¬(j.r = k.r ∧ j.idx = k.idx)
  page : d.ringOf p k.r = { c.ringOf p k.r with done := (c.ringOf p k.r).done + 1 }
  words : ∀ i, i < 8 → rdLE d.mem (caKey e (l * 128) + (c.ringOf p k.r).recordPla % 128 + 4 * i) 4 = ((recordWords (c.ringOf p k.r) k).getD i 0).toNat
  signal : cSigEn k.desc = true → (c.ptn p).syncBase ≤ cObj k.desc → cObj k.desc < (c.ptn p).syncBase + (c.ptn p).syncCount →
    d.out.getLast? = some (.sync ⟨12, cObj k.desc, p, 0, false, false, 0, 0⟩)

theorem record_written (p : Nat) (k : Cmd) (e l : Nat) (c : Core) (h : (c.ringOf p k.r).cplBase.toNat % 128 = 0) :
    RecordWritten p k e l c (progress p (recordSignalled p k.desc (recordCounted p k (recordStored p k e l c)))) where
  gone j hj := by
    rw [progress, modPtn_same, recordSignalled_ptn] at hj
    rintro ⟨hr, hi⟩
    exact not_mem_dropped hj ⟨hr, decide_eq_true hi⟩
  page := by
    rw [progress, modPtn_ringOf _ _ _ rfl, ringOf_of_rings (congrArg Ptn.rings (recordSignalled_ptn p _ k.desc p)), recordCounted_ringOf,
      recordStored_ringOf]
  words i hi := by
    rw [progress_mem, recordSignalled_mem, recordCounted_mem]
    exact recordStored_words p k e l c h hi
  signal hs hb he := by
    obtain ⟨base, count⟩ := recordCounted_ptn p k (recordStored p k e l c)
    rw [recordStored_ptn] at base count
    have sent : recordSignalled p k.desc (recordCounted p k (recordStored p k e l c)) =
        (recordCounted p k (recordStored p k e l c)).send (.sync ⟨12, cObj k.desc, p, 0, false, false, 0, 0⟩) := by
      rw [recordSignalled, base, count, hs, decide_eq_true hb, decide_eq_true he]
      rfl
    rw [sent]
    exact List.getLast?_concat

end Sys2Proof.Machine
end

section
/-! Rings and completion records: O51 (R203–R209, R220, R221). -/

namespace Sys2Proof.Machine
open Sys2Proof

/-- The checks of a fetched command that fails them. -/
theorem checkRow_fails {typ p w : Nat} {spec : Line → DescSpec} {c : Core} {k : Cmd} {st : BitVec 8} (hd : dispatches c p = true)
    (ha : awaiting c p typ = some k) (hc : (spec k.desc).check (c.ptn p) k.desc = some (st, w)) : checkRow typ spec p c = failCmd p k st w 0 c := by
  unfold checkRow
  rw [hd, ha]
  dsimp only
  rw [hc]
  exact if_neg (by decide)

/-- Settles O51: a host's write by what its register takes, a fetch, a record and an ended command by their equations above. -/
theorem ringsAndRecords : Obligations.RingsAndRecords := by
  unfold Obligations.RingsAndRecords
  intro s hok c
  have next {i : Instr} {f : Core → Core} {d : Core} (hi : exec i s = actCore s f) (hd : f c = d) : exec i s = .next (s.withCore d) :=
    hi.trans (actCore_withCore hok hd)
  refine ⟨fun a works kind idx valid ptn ring pend => ?writes, fun p hn => ⟨next rfl (fxFetch_none hn), next rfl (fxFetchRefused_none hn)⟩,
    fun p r e l hn => ?fetch, fun p r n hn => ?readRefused, fun p k hd hn => ⟨fun e l => ?record, fun n => ?recordRefused⟩,
    fun p k st w hd ha hc hs => ?stopped⟩
  case writes =>
    intro x answer takes refuses
    have host : HostWrites a c := ⟨works, kind, idx, valid, ptn, ring, pend⟩
    have answered {i : Instr} {o : Nat} {v : BitVec 32} {op : BitVec 6} {reason : BitVec 4} {y : Ring}
        (hi : exec i s = actCore s (ringWrite a o v)) (h : PageAnswered a op reason y c (ringWrite a o v c)) :
        ∃ u, exec i s = .next u ∧ answer u op reason ∧ u.dev.core.ringOf a.p a.r = y :=
      ⟨_, next hi rfl, ⟨s.keeps_withCore _, h.mem, h.tiles, h.others, h.out⟩, h.page⟩
    refine ⟨fun hm w off => ?whole, fun whole hm => ⟨fun w => ?ctrl, fun off w => ?base, fun w => ?pointers⟩⟩
    case whole =>
      exact ⟨answered rfl (ringWrite_refusedWhole host rfl hm), answered rfl (ringWrite_refusedWhole host (isRingReg_base off) hm),
        answered rfl (ringWrite_refusedWhole host rfl hm), answered rfl (ringWrite_refusedWhole host rfl hm)⟩
    case ctrl =>
      intro lg good
      have taken {y z : Ring} (hy : ringCtrl c a.p w x = some y) (hz : y.settled = z) : takes (.ringCtrlWrite a w) z :=
        hz ▸ answered rfl (ringWrite_taken host whole hm (s := 0) rfl hy)
      refine ⟨fun hd hw => ?configured, fun hd hw hg => ?enabled, fun hd hw hg => ?badRegion, fun hr hw => ?stays,
        fun hr hw => ?drains, fun hr hw => ?settles⟩
      case configured => exact taken (ringCtrl_configures hd hw) (Ring.settled_of_st (.inl hd))
      case enabled => exact taken (ringCtrl_enables hd hw hg) (Ring.settled_of_st (.inr rfl))
      case badRegion => exact answered rfl (ringWrite_badRegion host whole hm (ringCtrl_refuses hd hw hg))
      case stays => exact taken (ringCtrl_stays (by rw [hr]; decide) hw) (Ring.settled_of_st (.inr hr))
      case drains =>
        refine taken (ringCtrl_disables (by rw [hr]; decide) hw) ?_
        rw [if_pos hr]
        exact drained_settled
      case settles =>
        refine taken (ringCtrl_disables (by rcases hr with h | h <;> rw [h] <;> decide) hw) ?_
        rw [if_neg (by rcases hr with h | h <;> rw [h] <;> decide)]
    case base =>
      have taken {y : Ring} (hd : x.st = .disabled) (hy : ringBase (baseOffset off) w x = some y) (hz : y.st = x.st) : takes (.ringBaseWrite a off w) y := by
        have run := answered (i := .ringBaseWrite a off w) rfl (ringWrite_taken host whole hm (isRingReg_base off) ((ringReg_base c a.p off w x).trans hy))
        rwa [Ring.settled_of_st (.inl (hz.trans hd))] at run
      refine ⟨fun hd => ?refused, fun hd => ?taken⟩
      case refused =>
        have offset : baseOffset off ≠ 0 := by have := baseOffset_mem off; omega
        exact answered rfl (ringWrite_refused host whole hm (isRingReg_base off) offset ((ringReg_base c a.p off w x).trans (ringBase_refuses hd)))
      case taken =>
        obtain ⟨cmdLow, cmdHigh, cplLow, cplHigh⟩ := ringBase_of_disabled (w := w) hd
        refine ⟨fun h1 h2 h3 => taken hd ?_ rfl, fun h => taken hd ?_ rfl, fun h => taken hd ?_ rfl, fun h => taken hd ?_ rfl⟩
        · rwa [baseOffset_low h1 h2 h3]
        · rwa [h]
        · rwa [h]
        · rwa [h]
    case pointers =>
      exact ⟨fun hd hw => answered rfl (ringWrite_taken host whole hm (s := 0x20) rfl (ringTail_takes hd hw)),
        fun h => answered rfl (ringWrite_refused host whole hm (s := 0x20) rfl (by decide) (ringTail_refuses h)),
        fun hd hw => answered rfl (ringWrite_taken host whole hm (s := 0x2C) rfl (ringAck_takes hd hw)),
        fun h => answered rfl (ringWrite_refused host whole hm (s := 0x2C) rfl (by decide) (ringAck_refuses h))⟩
  case fetch =>
    intro x gone ha
    obtain ⟨mem, turn⟩ := fxFetch_kept hn ha
    refine ⟨next rfl (fxFetchRefused_read hn ha), _, next rfl rfl, s.keeps_withCore _, mem, turn,
      fun hb h1 h8 => ?listed, fun hb => ?poisoned, fun hb ht => ?unlisted⟩
    case listed =>
      rw [State.withCore_core, fxFetch_listed hn ha hb h1 h8]
      exact ⟨fetched_page .., fetched_cmds .., fetched_ended ..⟩
    case poisoned =>
      obtain ⟨-, -, page, ended, cmd⟩ := fxFetch_poisoned hn ha hb
      exact ⟨page, ended, cmd⟩
    case unlisted =>
      obtain ⟨-, -, page, ended, cmd⟩ := fxFetch_unlisted hn ha hb ht
      exact ⟨page, ended, cmd⟩
  case readRefused =>
    intro x ha
    refine ⟨next rfl (fxFetch_refused hn ha), _, next rfl (fxFetchRefused_refused hn ha), s.keeps_withCore _, ?_, ?_⟩
    · exact (stopRing_cmds ..).trans (by rw [modPtn_same])
    · exact (stopRing_page ..).trans (by rw [modPtn_ringOf _ _ _ rfl])
  case record =>
    intro hb ha
    obtain ⟨gone, page, words, signal⟩ := record_written p k e l c hb
    exact ⟨next rfl (fxRecord_notRefused hd hn ha), _, next rfl (fxRecord_accepted hd hn ha), s.keeps_withCore _, gone, page, words, signal⟩
  case recordRefused =>
    intro ha
    refine ⟨next rfl (fxRecord_notAccepted hd hn ha), _, next rfl (fxRecord_refused hd hn ha), s.keeps_withCore _, stopRing_mem ..,
      fun j hj => not_mem_stopped hj, stopRing_page ..⟩
  case stopped =>
    have run := (checkRow_fails (spec := specReduce) hd ha hc).trans (endCmd_stopped hs)
    refine ⟨_, next rfl run, s.keeps_withCore _, rfl, fun j hj => ?_, ?_⟩
    · rintro ⟨hr, hi⟩
      exact not_mem_dropped hj ⟨hr, decide_eq_true hi⟩
    · exact (dropCmds_ringOf ..).trans (modRing_same ..)

end Sys2Proof.Machine
end
